-- ==== Sys2Proof/Word.lean ====
section
/-!
DEFINITION. Words: the bit-vector types of the part (00_scope.md, "Numbers, units and layouts"; R6).
-/
namespace Sys2Proof

/-- A byte. -/
abbrev Byte := BitVec 8
/-- A 32-bit word: one word of a layout table. -/
abbrev W32 := BitVec 32
/-- A 64-bit word. -/
abbrev W64 := BitVec 64

end Sys2Proof
end

