-- ==== Sys2Proof/Config.lean ====
section
/-!
DEFINITION. Configuration: what an implementation fixes and the values that the spec leaves open. Every constant here
is opaque: nothing in Lean can see its value, so a statement holds whatever it is (notes/assumptions/4.md).
-/
namespace Sys2Proof.Config

/-- A fresh free value for each count: the step applies it to `State.freeIx` and advances the counter.
DESIGN CHOICE: notes/assumptions/4.md. -/
opaque freeBits : Nat → BitVec 64

/-- A fresh choice between two outcomes that a rule lists (R5). DESIGN CHOICE: notes/assumptions/4.md. -/
opaque freeBool : Nat → Bool

/-- The set of the snoop filter that holds a line: R312 gives 262,144 sets and no mapping.
DESIGN CHOICE: notes/assumptions/18.md. -/
opaque filterSet : Nat → BitVec 18

/-- Bank (low 6 bits) and row (next 19) of a line of a stack within its pseudo-channel: 09_context_memory.md gives
the pseudo-channel and leaves the bank and row to HBM4. DESIGN CHOICE: notes/assumptions/18.md. -/
opaque bankRow : Nat → BitVec 25

/-- The approximations of FEXP2, FLOG2, FRCP and FRSQRT (R184): how many units in the last place the result lies from
the nearest one, held within the bound of 2 by the instruction, as a function of the operation and its operand.
DESIGN CHOICE: notes/assumptions/19.md. -/
opaque approx : Nat → Nat → Int

/-- Their results where R184 states none: the exact result is not normal, or the operand is an infinity it does not
list. A function of the operation and its operand (R131). DESIGN CHOICE: notes/assumptions/19.md. -/
opaque approxOpen : Nat → Nat → BitVec 32

/-- The digest and signature functions of R351 to R357, named and not computed (DESIGN CHOICE: notes/assumptions/17.md). -/
opaque sha512 : List Byte → BitVec 512
opaque signatureValid : (image key : List Byte) → Bool
opaque signReport : (deviceId : Nat) → List Byte → List Byte

/-- The digest of the boot ROM's code (R356) and of Praulholt's image-signing modulus (R354).
DESIGN CHOICE: notes/assumptions/17.md. -/
opaque romDigest : BitVec 512
opaque vendorDigest : BitVec 512

/-- Frequency in Hz of the ring oscillator of die instance `k` in REF cycle `t`, held within 200 MHz ± 30 % by the
clock (R395, R399). -/
opaque roscHz : Nat → Nat → Nat

end Sys2Proof.Config
end

