-- ==== Sys2Proof/Machine/Regs.lean ====
section
/-!
DEFINITION. The register window (00_scope.md R8 to R13): every register and field of the Registers tables of spec/,
with its offset in the window, its access code and its reset value. A field whose reset value the table gives as 'V'
(fuses, part number, repair state) is a view of that state and has 0 here.
-/
namespace Sys2Proof.Machine

/-- The access codes of R11. -/
inductive Acc where
  | ro | rw | w1c | wo | rwl
  deriving DecidableEq, Repr

/-- The registers of the window by the spec's names; an array is one name. -/
inductive Reg where
  | GLB_IDENTITY | GLB_CAPABILITY | GLB_FW_ABI | GLB_COUNTER_WRAP
  | GLB_POP_COMPUTE | GLB_POP_IO | GLB_POP_STACKS | GLB_POP_LINKS_LO
  | GLB_POP_LINKS_HI | GLB_POP_FIRMWARE | GLB_POP_TILES | GLB_POP_MEMORY
  | GLB_ACCESS_ERRORS | GLB_MEM_ABSENT | GLB_POWERED_TIME | CLK_STATUS
  | CLK_RESET_CAUSE | CLK_RESET_CTRL | CLK_LOCK | CLK_RESET_TIME
  | CLK_PART_RESETS | CLK_COUNTER_WRAP | CLK_COUNT | CTX_CTRL
  | CTX_STATUS | CTX_SETUP | CTX_FAULT | CTX_S1_ROOT
  | CTX_FAULT_HALT | CTX_FAULT_ENDPOINT | CTX_COUNTER_WRAP | CTX_OUTSTANDING
  | CTX_DESCRIPTORS | CTX_ITEMS_DONE | CTX_ITEMS_FAILED | QUE_SQ_CTRL
  | QUE_SQ_SETUP | QUE_SQ_BASE | QUE_SQ_DOORBELL | QUE_SQ_STATUS
  | QUE_SQ_CONSUMER | QUE_SQ_INFLIGHT | QUE_CQ_CTRL | QUE_CQ_SETUP
  | QUE_CQ_BASE | QUE_CQ_CONS_LINE | QUE_CQ_STATUS | QUE_CQ_PRODUCER
  | QUE_ERING_SETUP | QUE_ERING_STATUS | QUE_ERING_BASE | QUE_ERING_CONS_LINE
  | QUE_ERING_NEXT | QUE_ERING_CTRL | QUE_ERR_DROPPED | QUE_COUNTER_WRAP
  | OBJ_STATUS | OBJ_COUNTER_WRAP | OBJ_TABLE_BASE | OBJ_REGISTERED
  | OBJ_RELEASED | OBJ_STALE_ITEMS | FEN_SETUP | FEN_COUNTER_WRAP
  | FEN_REGRESS | FEN_SIGNALS | XLT_SETUP | XLT_STATUS
  | XLT_CTRL | XLT_COUNTER_WRAP | XLT_S2_ROOT | XLT_FRING_BASE
  | XLT_FRING_CONS_LINE | XLT_RRING_BASE | XLT_RRING_PROD_LINE | XLT_FRING_NEXT
  | XLT_RRING_NEXT | XLT_WALKS | XLT_FAULTS | XLT_RESP_IGNORED
  | XLT_INVALIDATIONS | XLT_TABLE_FULL_CYCLES | XLT_WALKER_STATUS | XLTC_STATUS
  | XLTC_COUNTER_WRAP | XLTC_LOOKUPS | XLTC_MISSES | XLTC_FAULTS
  | SYN_SEM | SYN_STATUS | SYN_BAR_SENSE | SYN_COUNTER_WRAP
  | SYN_SIGNALS | SYN_WAIT_CYCLES | SYN_BARRIERS | SYN_BAR_ERRORS
  | SYN_SEM_SATURATE | HBM_SETUP | HBM_STATUS | HBM_REPAIR
  | HBM_COUNTER_WRAP | HBM_EYESPOT_FIRST | HBM_READS | HBM_WRITES
  | HBM_CE | HBM_UE | HBM_EYESPOT_READS | HBM_THROTTLE_CYCLES
  | HBM_REFETCH | HBM_REFETCH_FAIL | HBM_ODECC | HBM_ABSENT
  | HBM_REMAP_SEL | HBM_REMAP_DATA | FAB_SETUP | FAB_STATUS
  | FAB_IRQ | FAB_COUNTER_WRAP | FAB_DIM | FAB_DIR
  | FAB_PUTS | FAB_GETS | FAB_ATOMICS | FAB_RX_REQUESTS
  | FAB_UNROUTABLE | FAB_LATE_RESPONSES | FAB_DEAD_DECLARED | FAB_RX_FAILED
  | FAB_LINK_CTRL | FAB_LINK_STATUS | FAB_LINK_PEER | FAB_LINK_COUNTER_WRAP
  | FAB_LINK_FEC_CORRECTED | FAB_LINK_FEC_UNCORRECTABLE | FAB_LINK_CRC_ERRORS | FAB_LINK_REPLAYS
  | FAB_LINK_RETRAINS | FAB_LINK_FRAMES | FAB_COLL_SETUP | FAB_COLL_STATUS
  | FAB_COLL_FENCE | FAB_COLL_RESULT | FAB_COLL_ROUND | FAB_COLL_CHILD
  | FAB_DEAD | CHL_SETUP | CHL_SF_STATUS | CHL_COUNTER_WRAP
  | CHL_SF_EVICTIONS | CHL_SNOOPS | CHL_HOMEMAP | CHL_PORT_CTRL
  | CHL_PORT_STATUS | CHL_PORT_FEC_CORRECTED | CHL_PORT_CRC_ERRORS | CHL_PORT_REPLAYS
  | CHL_PORT_RETRAINS | CHL_PORT_TIMEOUTS | CHL_PORT_NOHOME | CHL_MSI_ADDR
  | CHL_MSI_DATA | CHL_MSI_CTRL | MGT_SETUP | MGT_LIMITS
  | MGT_STATUS | MGT_IRQ | MGT_MOULT_CTRL | MGT_COUNTER_WRAP
  | MGT_DIE_STATUS | MGT_POWER_WARNINGS | MGT_FAST_LIMITS | MGT_THROTTLE_STEPS
  | MGT_HARD_TRIPS | MGT_MOULTS | MGT_LOG_RECORDS | MGT_LOG_DROPPED
  | MGT_MBX_CMD | MGT_MBX_STATUS | MGT_MBX_DATA | SEC_SETUP
  | SEC_STATUS | SEC_MBX_CMD | SEC_MBX_STATUS | SEC_DEVICE_ID
  | SEC_LOG_COUNT | SEC_COUNTER_WRAP | SEC_LOADS | SEC_REJECTS
  | SEC_WATCHDOGS | SEC_REPORTS | SEC_PROC_STATUS | SEC_PROC_ABI
  | SEC_MR | SEC_MBX_DATA | SEQ_CTRL | SEQ_SETUP
  | SEQ_STATUS | SEQ_GANG | SEQ_QUEUE_LEVEL | SEQ_IDENTITY
  | SEQ_PC | SEQ_HALT_REASON | SEQ_HALT_ORIGIN | SEQ_HALT_ADDR
  | SEQ_STALL_CYCLES | SEQ_ISSUE | SEQ_COUNTER_WRAP | SEQ_Q
  | THR_SETUP | THR_STATUS | THR_L1_WAYS | THR_COUNTER_WRAP
  | THR_ISSUE | THR_L1_HIT | THR_L1_MISS | THR_SB_FULL_CYCLES
  | THR_PRELOAD_SKIP | THR_L1_CE_WAY | GRP_DBG_SEL | GRP_DBG_CTRL
  | GRP_DBG_STATUS | GRP_DBG_MASK | GRP_DBG_PC | GRP_DBG_PROGRESS
  | GRP_DBG_REG_SEL | GRP_DBG_STACK_MASK | GRP_DBG_UNIFORM | GRP_DBG_STACK_ADDR
  | GRP_DBG_STACK_RPC | GRP_DBG_VDATA | MAT_SETUP | MAT_STATUS
  | MAT_HAZARD_FIRST | MAT_COUNTER_WRAP | MAT_HAZARD_ADDR | MAT_HAZARD_COUNT
  | MAT_SAT_COUNT | MAT_STREAM_CYCLES | MAT_GMMA_CYCLES | MAT_FREEZE_CYCLES
  | MAT_INSPECT_SEL | MAT_INSPECT_DATA | SPAD_STATUS | GAT_SETUP
  | GAT_STATUS | GAT_COUNTER_WRAP | SPAD_COUNTER_WRAP | SPAD_ACCESS
  | GAT_TRANSFERS | GAT_BYTES_READ | GAT_BYTES_WRITTEN | GAT_OOR_COUNT
  | GAT_PAGES | GAT_PAGE_FAIL | GAT_FAULT_STALL_CYCLES | SPAD_INSPECT_SEL
  | SPAD_CONFLICT_BANK | SPAD_INSPECT_DATA
  deriving DecidableEq, Repr

/-- The fields, each named by its register and its own name. -/
inductive Fld where
  | GLB_IDENTITY_PART_NUMBER | GLB_IDENTITY_STEPPING | GLB_CAPABILITY_VERSION
  | GLB_CAPABILITY_TILES_PER_DIE | GLB_CAPABILITY_RESERVE_PER_DIE | GLB_CAPABILITY_STACK_GIB
  | GLB_FW_ABI_ABI_ID | GLB_COUNTER_WRAP_ACCESS_WRAPPED | GLB_COUNTER_WRAP_MEM_ABSENT_WRAPPED
  | GLB_POP_COMPUTE_DIES | GLB_POP_COMPUTE_CODEC | GLB_POP_IO_DIES
  | GLB_POP_STACKS_PRESENT | GLB_POP_STACKS_FITTED | GLB_POP_LINKS_LO_LINKS
  | GLB_POP_LINKS_HI_LINKS | GLB_POP_LINKS_HI_CONNECTORS | GLB_POP_FIRMWARE_PROCESSORS
  | GLB_POP_TILES_ENABLED_TILES | GLB_POP_MEMORY_MEMORY_GIB | GLB_ACCESS_ERRORS_COUNT
  | GLB_MEM_ABSENT_COUNT | GLB_POWERED_TIME_TIME | CLK_STATUS_PLLS_LOCKED
  | CLK_STATUS_HW_READY | CLK_STATUS_STACKS_OPEN | CLK_RESET_CAUSE_CAUSE
  | CLK_RESET_CAUSE_DOMAIN | CLK_RESET_CAUSE_COUNTER_INDEX | CLK_RESET_CTRL_PART_RESET
  | CLK_RESET_CTRL_KEY | CLK_LOCK_SETUP_LOCK | CLK_RESET_TIME_TIME
  | CLK_PART_RESETS_COUNT | CLK_COUNTER_WRAP_WRAPPED | CLK_COUNT_COUNT
  | CTX_CTRL_OPEN | CTX_CTRL_START | CTX_CTRL_ABORT
  | CTX_CTRL_DESTROY | CTX_STATUS_STATE | CTX_STATUS_SQS
  | CTX_STATUS_CQS | CTX_SETUP_VA_BITS | CTX_SETUP_INTERLEAVE
  | CTX_SETUP_STOP_ON_FAULT | CTX_FAULT_HALT | CTX_FAULT_DEST_DEAD
  | CTX_FAULT_UNSERVICEABLE | CTX_S1_ROOT_ADDR | CTX_FAULT_HALT_TILE
  | CTX_FAULT_HALT_REASON | CTX_FAULT_ENDPOINT_ENDPOINT | CTX_COUNTER_WRAP_DESCRIPTORS_WRAPPED
  | CTX_COUNTER_WRAP_DONE_WRAPPED | CTX_COUNTER_WRAP_FAILED_WRAPPED | CTX_OUTSTANDING_COUNT
  | CTX_DESCRIPTORS_COUNT | CTX_ITEMS_DONE_COUNT | CTX_ITEMS_FAILED_COUNT
  | QUE_SQ_CTRL_ENABLE | QUE_SQ_CTRL_SETUP_ERROR | QUE_SQ_SETUP_CONTEXT
  | QUE_SQ_SETUP_SIZE_LOG2 | QUE_SQ_SETUP_SERVE_DIE | QUE_SQ_SETUP_PRIORITY
  | QUE_SQ_SETUP_CQ | QUE_SQ_BASE_ADDR | QUE_SQ_DOORBELL_ADDR
  | QUE_SQ_STATUS_STATE | QUE_SQ_STATUS_HELD | QUE_SQ_CONSUMER_INDEX
  | QUE_SQ_INFLIGHT_COUNT | QUE_CQ_CTRL_ENABLE | QUE_CQ_CTRL_SETUP_ERROR
  | QUE_CQ_SETUP_CONTEXT | QUE_CQ_SETUP_SIZE_LOG2 | QUE_CQ_SETUP_VECTOR
  | QUE_CQ_SETUP_IRQ_EN | QUE_CQ_SETUP_IRQ_ALL | QUE_CQ_SETUP_HOLDOFF_LOG2
  | QUE_CQ_BASE_ADDR | QUE_CQ_CONS_LINE_ADDR | QUE_CQ_STATUS_STATE
  | QUE_CQ_STATUS_FULL | QUE_CQ_STATUS_WAITING | QUE_CQ_PRODUCER_INDEX
  | QUE_ERING_SETUP_SIZE_LOG2 | QUE_ERING_SETUP_VECTOR | QUE_ERING_SETUP_IRQ_EN
  | QUE_ERING_SETUP_HOLDOFF_LOG2 | QUE_ERING_SETUP_ENABLE | QUE_ERING_STATUS_RING_FAULT
  | QUE_ERING_STATUS_FULL | QUE_ERING_STATUS_HELD | QUE_ERING_BASE_ADDR
  | QUE_ERING_CONS_LINE_ADDR | QUE_ERING_NEXT_SEQUENCE | QUE_ERING_CTRL_RING_RETRY
  | QUE_ERR_DROPPED_COUNT | QUE_COUNTER_WRAP_WRAPPED | OBJ_STATUS_READY
  | OBJ_STATUS_LIVE | OBJ_COUNTER_WRAP_REGISTERED_WRAPPED | OBJ_COUNTER_WRAP_RELEASED_WRAPPED
  | OBJ_COUNTER_WRAP_STALE_WRAPPED | OBJ_TABLE_BASE_ADDR | OBJ_REGISTERED_COUNT
  | OBJ_RELEASED_COUNT | OBJ_STALE_ITEMS_COUNT | FEN_SETUP_LOG_REGRESS
  | FEN_COUNTER_WRAP_REGRESS_WRAPPED | FEN_COUNTER_WRAP_SIGNALS_WRAPPED | FEN_REGRESS_COUNT
  | FEN_SIGNALS_COUNT | XLT_SETUP_IPA_BITS | XLT_SETUP_FRING_LOG2
  | XLT_SETUP_RRING_LOG2 | XLT_SETUP_FAULT_VECTOR | XLT_SETUP_FAULT_IRQ_EN
  | XLT_SETUP_HOLDOFF_LOG2 | XLT_STATUS_RING_FAULT | XLT_STATUS_FRING_FULL
  | XLT_CTRL_RING_RETRY | XLT_COUNTER_WRAP_WALKS_WRAPPED | XLT_COUNTER_WRAP_FAULTS_WRAPPED
  | XLT_COUNTER_WRAP_IGNORED_WRAPPED | XLT_COUNTER_WRAP_INV_WRAPPED | XLT_COUNTER_WRAP_FULL_WRAPPED
  | XLT_S2_ROOT_TARGET | XLT_S2_ROOT_ADDR | XLT_FRING_BASE_ADDR
  | XLT_FRING_CONS_LINE_ADDR | XLT_RRING_BASE_ADDR | XLT_RRING_PROD_LINE_ADDR
  | XLT_FRING_NEXT_SEQUENCE | XLT_RRING_NEXT_COUNT | XLT_WALKS_COUNT
  | XLT_FAULTS_COUNT | XLT_RESP_IGNORED_COUNT | XLT_INVALIDATIONS_COUNT
  | XLT_TABLE_FULL_CYCLES_COUNT | XLT_WALKER_STATUS_WALKS | XLT_WALKER_STATUS_PENDING
  | XLT_WALKER_STATUS_UNREPORTED | XLTC_STATUS_VALID_ENTRIES | XLTC_STATUS_WALK_WAIT
  | XLTC_STATUS_FAULT_WAIT | XLTC_COUNTER_WRAP_LOOKUPS_WRAPPED | XLTC_COUNTER_WRAP_MISSES_WRAPPED
  | XLTC_COUNTER_WRAP_FAULTS_WRAPPED | XLTC_LOOKUPS_COUNT | XLTC_MISSES_COUNT
  | XLTC_FAULTS_COUNT | SYN_SEM_VALUE | SYN_STATUS_BAR_SLOT
  | SYN_STATUS_BAR_WAITING | SYN_STATUS_FWAIT_WAITING | SYN_STATUS_POLL_WAITING
  | SYN_STATUS_MEMBAR_WAITING | SYN_STATUS_BAR_ERROR | SYN_STATUS_SEM_SATURATED
  | SYN_STATUS_BAR_SCOPE | SYN_BAR_SENSE_TILE_SENSE | SYN_BAR_SENSE_GANG_SENSE
  | SYN_BAR_SENSE_PART_SENSE | SYN_BAR_SENSE_SYSTEM_SENSE | SYN_COUNTER_WRAP_SIGNALS_WRAPPED
  | SYN_COUNTER_WRAP_WAIT_WRAPPED | SYN_COUNTER_WRAP_BARRIERS_WRAPPED | SYN_COUNTER_WRAP_BAR_ERRORS_WRAPPED
  | SYN_COUNTER_WRAP_SATURATE_WRAPPED | SYN_SIGNALS_COUNT | SYN_WAIT_CYCLES_COUNT
  | SYN_BARRIERS_COUNT | SYN_BAR_ERRORS_COUNT | SYN_SEM_SATURATE_COUNT
  | HBM_SETUP_THROTTLE_C | HBM_SETUP_TRIP_C | HBM_SETUP_SCRUB_HOURS
  | HBM_SETUP_ROW_CE_LIMIT | HBM_SETUP_REMAP_EN | HBM_STATUS_STATE
  | HBM_STATUS_TEMP_C | HBM_STATUS_LEVEL | HBM_STATUS_TRIPPED
  | HBM_STATUS_REPAIR_EXHAUSTED | HBM_STATUS_SENSOR_LOST | HBM_REPAIR_REMAP_USED
  | HBM_REPAIR_PPR_PENDING | HBM_COUNTER_WRAP_READS_WRAPPED | HBM_COUNTER_WRAP_WRITES_WRAPPED
  | HBM_COUNTER_WRAP_CE_WRAPPED | HBM_COUNTER_WRAP_UE_WRAPPED | HBM_COUNTER_WRAP_EYESPOT_WRAPPED
  | HBM_COUNTER_WRAP_THROTTLE_WRAPPED | HBM_COUNTER_WRAP_REFETCH_WRAPPED | HBM_COUNTER_WRAP_REFETCH_FAIL_WRAPPED
  | HBM_COUNTER_WRAP_ODECC_WRAPPED | HBM_EYESPOT_FIRST_ADDR | HBM_EYESPOT_FIRST_VALID
  | HBM_READS_COUNT | HBM_WRITES_COUNT | HBM_CE_COUNT
  | HBM_UE_COUNT | HBM_EYESPOT_READS_COUNT | HBM_THROTTLE_CYCLES_COUNT
  | HBM_REFETCH_COUNT | HBM_REFETCH_FAIL_COUNT | HBM_ODECC_COUNT
  | HBM_ABSENT_COUNT | HBM_REMAP_SEL_ENTRY | HBM_REMAP_DATA_VALID
  | HBM_REMAP_DATA_PSEUDO_CHANNEL | HBM_REMAP_DATA_BANK | HBM_REMAP_DATA_ROW
  | HBM_REMAP_DATA_CAUSE | HBM_REMAP_DATA_PERMANENT | FAB_SETUP_ENDPOINT
  | FAB_SETUP_ENABLE | FAB_SETUP_SPARE_LOG2 | FAB_SETUP_COLL_LIMIT_LOG2
  | FAB_STATUS_RUNNING | FAB_STATUS_SETUP_ERROR | FAB_STATUS_LINKS_UP
  | FAB_STATUS_ANY_DEAD | FAB_IRQ_VECTOR | FAB_IRQ_DEAD_IRQ_EN
  | FAB_IRQ_LINK_IRQ_EN | FAB_IRQ_COLL_IRQ_EN | FAB_IRQ_HOLDOFF_LOG2
  | FAB_COUNTER_WRAP_PUTS_WRAPPED | FAB_COUNTER_WRAP_GETS_WRAPPED | FAB_COUNTER_WRAP_ATOMICS_WRAPPED
  | FAB_COUNTER_WRAP_RX_REQUESTS_WRAPPED | FAB_COUNTER_WRAP_UNROUTABLE_WRAPPED | FAB_COUNTER_WRAP_LATE_RESPONSES_WRAPPED
  | FAB_COUNTER_WRAP_DEAD_DECLARED_WRAPPED | FAB_COUNTER_WRAP_RX_FAILED_WRAPPED | FAB_DIM_SIZE
  | FAB_DIM_WRAP | FAB_DIR_LINKS | FAB_PUTS_COUNT
  | FAB_GETS_COUNT | FAB_ATOMICS_COUNT | FAB_RX_REQUESTS_COUNT
  | FAB_UNROUTABLE_COUNT | FAB_LATE_RESPONSES_COUNT | FAB_DEAD_DECLARED_COUNT
  | FAB_RX_FAILED_COUNT | FAB_LINK_CTRL_ENABLE | FAB_LINK_CTRL_RETRAIN
  | FAB_LINK_STATUS_STATE | FAB_LINK_STATUS_LANE_OUT | FAB_LINK_STATUS_SPARED
  | FAB_LINK_STATUS_WENT_DOWN | FAB_LINK_STATUS_DOWN_CAUSE | FAB_LINK_STATUS_SPARE_OK
  | FAB_LINK_PEER_PEER_ENDPOINT | FAB_LINK_PEER_PEER_LINK | FAB_LINK_PEER_PEER_VALID
  | FAB_LINK_COUNTER_WRAP_FEC_CORRECTED_WRAPPED | FAB_LINK_COUNTER_WRAP_FEC_UNCORRECTABLE_WRAPPED | FAB_LINK_COUNTER_WRAP_CRC_ERRORS_WRAPPED
  | FAB_LINK_COUNTER_WRAP_REPLAYS_WRAPPED | FAB_LINK_COUNTER_WRAP_RETRAINS_WRAPPED | FAB_LINK_COUNTER_WRAP_FRAMES_WRAPPED
  | FAB_LINK_FEC_CORRECTED_COUNT | FAB_LINK_FEC_UNCORRECTABLE_COUNT | FAB_LINK_CRC_ERRORS_COUNT
  | FAB_LINK_REPLAYS_COUNT | FAB_LINK_RETRAINS_COUNT | FAB_LINK_FRAMES_COUNT
  | FAB_COLL_SETUP_ENABLE | FAB_COLL_SETUP_IO_DIE | FAB_COLL_SETUP_OP
  | FAB_COLL_SETUP_FORMAT | FAB_COLL_SETUP_LOCAL | FAB_COLL_SETUP_CHILDREN
  | FAB_COLL_SETUP_ROOT | FAB_COLL_SETUP_PARENT | FAB_COLL_SETUP_CHUNKS
  | FAB_COLL_STATUS_OPEN | FAB_COLL_STATUS_ERROR | FAB_COLL_STATUS_SETUP_ERROR
  | FAB_COLL_FENCE_SLOT | FAB_COLL_FENCE_SIGNAL_EN | FAB_COLL_RESULT_RESULT
  | FAB_COLL_ROUND_ROUND | FAB_COLL_CHILD_CHILD0 | FAB_COLL_CHILD_CHILD1
  | FAB_COLL_CHILD_CHILD2 | FAB_DEAD_DEAD | CHL_SETUP_TIMEOUT_LOG2
  | CHL_SETUP_LINK_VECTOR | CHL_SETUP_LINK_IRQ_EN | CHL_SF_STATUS_OCCUPIED
  | CHL_COUNTER_WRAP_EVICTIONS_WRAPPED | CHL_COUNTER_WRAP_SNOOPS_WRAPPED | CHL_COUNTER_WRAP_PORT0_WRAPPED
  | CHL_COUNTER_WRAP_PORT1_WRAPPED | CHL_SF_EVICTIONS_COUNT | CHL_SNOOPS_COUNT
  | CHL_HOMEMAP_VALID | CHL_HOMEMAP_PORT | CHL_HOMEMAP_BASE
  | CHL_HOMEMAP_LIMIT | CHL_PORT_CTRL_RETRAIN | CHL_PORT_STATUS_STATE
  | CHL_PORT_STATUS_WIDTH | CHL_PORT_STATUS_RATE | CHL_PORT_STATUS_FAIL_CAUSE
  | CHL_PORT_STATUS_LANES_REVERSED | CHL_PORT_FEC_CORRECTED_COUNT | CHL_PORT_CRC_ERRORS_COUNT
  | CHL_PORT_REPLAYS_COUNT | CHL_PORT_RETRAINS_COUNT | CHL_PORT_TIMEOUTS_COUNT
  | CHL_PORT_NOHOME_COUNT | CHL_MSI_ADDR_ADDR | CHL_MSI_DATA_DATA
  | CHL_MSI_CTRL_MASK | CHL_MSI_CTRL_PORT | CHL_MSI_CTRL_PENDING
  | MGT_SETUP_DIE_THROTTLE_C | MGT_SETUP_MOULT_AUTO | MGT_SETUP_MOULT_CE_LIMIT_LOG2
  | MGT_LIMITS_POWER_LIMIT | MGT_LIMITS_MCLK_CEILING | MGT_STATUS_POWER_WARN
  | MGT_STATUS_POWER_WARN_EVENT | MGT_STATUS_FAST_LIMIT | MGT_STATUS_POWER_UNMET
  | MGT_STATUS_THERMAL_EVENT | MGT_STATUS_LOG_READY | MGT_IRQ_VECTOR
  | MGT_IRQ_WARN_IRQ_EN | MGT_IRQ_THERMAL_IRQ_EN | MGT_IRQ_MOULT_IRQ_EN
  | MGT_MOULT_CTRL_QUIESCE | MGT_COUNTER_WRAP_POWER_WARNINGS_WRAPPED | MGT_COUNTER_WRAP_FAST_LIMITS_WRAPPED
  | MGT_COUNTER_WRAP_THROTTLE_STEPS_WRAPPED | MGT_COUNTER_WRAP_HARD_TRIPS_WRAPPED | MGT_COUNTER_WRAP_MOULTS_WRAPPED
  | MGT_COUNTER_WRAP_LOG_RECORDS_WRAPPED | MGT_COUNTER_WRAP_LOG_DROPPED_WRAPPED | MGT_DIE_STATUS_MCLK_MHZ
  | MGT_DIE_STATUS_CAUSES | MGT_DIE_STATUS_TEMP_C | MGT_DIE_STATUS_RESERVE_FREE
  | MGT_DIE_STATUS_MOULT_PENDING | MGT_DIE_STATUS_QUIESCING | MGT_POWER_WARNINGS_COUNT
  | MGT_FAST_LIMITS_COUNT | MGT_THROTTLE_STEPS_COUNT | MGT_HARD_TRIPS_COUNT
  | MGT_MOULTS_COUNT | MGT_LOG_RECORDS_COUNT | MGT_LOG_DROPPED_COUNT
  | MGT_MBX_CMD_OPCODE | MGT_MBX_STATUS_BUSY | MGT_MBX_STATUS_DONE
  | MGT_MBX_STATUS_OVERRUN | MGT_MBX_STATUS_STATUS | MGT_MBX_DATA_DATA
  | SEC_SETUP_VECTOR | SEC_SETUP_IRQ_EN | SEC_SETUP_WDOG_LOG2
  | SEC_STATUS_REQUIRE_SIGNED | SEC_STATUS_OWNER_KEY_SET | SEC_STATUS_CHAIN_VALID
  | SEC_STATUS_LOG_FULL | SEC_STATUS_ABI_MIXED | SEC_STATUS_COCOON_EVENT
  | SEC_MBX_CMD_OPCODE | SEC_MBX_STATUS_BUSY | SEC_MBX_STATUS_DONE
  | SEC_MBX_STATUS_OVERRUN | SEC_MBX_STATUS_STATUS | SEC_MBX_STATUS_VERDICT
  | SEC_DEVICE_ID_DEVICE_ID | SEC_LOG_COUNT_COUNT | SEC_COUNTER_WRAP_LOADS_WRAPPED
  | SEC_COUNTER_WRAP_REJECTS_WRAPPED | SEC_COUNTER_WRAP_WATCHDOGS_WRAPPED | SEC_COUNTER_WRAP_REPORTS_WRAPPED
  | SEC_LOADS_COUNT | SEC_REJECTS_COUNT | SEC_WATCHDOGS_COUNT
  | SEC_REPORTS_COUNT | SEC_PROC_STATUS_STATE | SEC_PROC_STATUS_VERDICT
  | SEC_PROC_STATUS_WATCHDOG | SEC_PROC_ABI_ABI_ID | SEC_MR_VALUE
  | SEC_MBX_DATA_DATA | SEQ_CTRL_HALT_REQ | SEQ_CTRL_RESUME
  | SEQ_CTRL_CLEAR_HALT | SEQ_SETUP_STALL_LIMIT_LOG2 | SEQ_SETUP_HALT_HOLD
  | SEQ_STATUS_STATE | SEQ_STATUS_STREAM_LIVE | SEQ_STATUS_STREAM_QFULL
  | SEQ_STATUS_STREAM_SEMWAIT | SEQ_STATUS_ENGINE_SEMWAIT | SEQ_GANG_LEAD_LOCAL_ID
  | SEQ_GANG_SIZE_LOG2 | SEQ_GANG_RANK | SEQ_GANG_CONTEXT
  | SEQ_QUEUE_LEVEL_THRQ | SEQ_QUEUE_LEVEL_MATQ | SEQ_QUEUE_LEVEL_GATQ
  | SEQ_QUEUE_LEVEL_SYNQ | SEQ_IDENTITY_LOGICAL_LOCAL_ID | SEQ_IDENTITY_ENABLED
  | SEQ_IDENTITY_RETIRED | SEQ_PC_PC | SEQ_HALT_REASON_REASON
  | SEQ_HALT_REASON_SOURCE_KIND | SEQ_HALT_REASON_STREAM | SEQ_HALT_REASON_GROUP
  | SEQ_HALT_ORIGIN_ORIGIN_TILE | SEQ_HALT_ORIGIN_CONTEXT | SEQ_HALT_ADDR_ADDR
  | SEQ_STALL_CYCLES_COUNT | SEQ_ISSUE_COUNT | SEQ_COUNTER_WRAP_STALL_WRAPPED
  | SEQ_COUNTER_WRAP_ISSUE_WRAPPED | SEQ_Q_VALUE | THR_SETUP_PROGRESS_LIMIT_LOG2
  | THR_STATUS_RESIDENT_GROUPS | THR_STATUS_ACTIVE_GROUPS | THR_STATUS_RESIDENT_BLOCKS
  | THR_STATUS_FREE_GRANULES | THR_STATUS_ANY_DEBUG_HALTED | THR_STATUS_ANY_PARKED
  | THR_L1_WAYS_ENABLED | THR_L1_WAYS_LOCKED | THR_L1_WAYS_DISABLED_EVENT
  | THR_COUNTER_WRAP_ISSUE_WRAPPED | THR_COUNTER_WRAP_HIT_WRAPPED | THR_COUNTER_WRAP_MISS_WRAPPED
  | THR_COUNTER_WRAP_SB_FULL_WRAPPED | THR_COUNTER_WRAP_SKIP_WRAPPED | THR_COUNTER_WRAP_CE_WRAPPED
  | THR_ISSUE_COUNT | THR_L1_HIT_COUNT | THR_L1_MISS_COUNT
  | THR_SB_FULL_CYCLES_COUNT | THR_PRELOAD_SKIP_COUNT | THR_L1_CE_WAY_COUNT
  | GRP_DBG_SEL_GROUP | GRP_DBG_CTRL_HALT | GRP_DBG_CTRL_RESUME
  | GRP_DBG_CTRL_STEP | GRP_DBG_STATUS_STATE | GRP_DBG_STATUS_DEBUG_HALTED
  | GRP_DBG_STATUS_HALT_PENDING | GRP_DBG_STATUS_STACK_DEPTH | GRP_DBG_STATUS_BLOCK_SLOT
  | GRP_DBG_STATUS_GROUP_IN_BLOCK | GRP_DBG_STATUS_GRANULES | GRP_DBG_MASK_ACTIVE
  | GRP_DBG_PC_PC | GRP_DBG_PROGRESS_COUNT | GRP_DBG_REG_SEL_INDEX
  | GRP_DBG_REG_SEL_KIND | GRP_DBG_STACK_MASK_MASK | GRP_DBG_UNIFORM_VALUE
  | GRP_DBG_STACK_ADDR_ADDR | GRP_DBG_STACK_RPC_RPC | GRP_DBG_VDATA_VALUE
  | MAT_SETUP_HAZARD_MODE | MAT_STATUS_LOADER_BUSY | MAT_STATUS_STREAMER_BUSY
  | MAT_STATUS_STREAMER_GMMA | MAT_STATUS_DRAINER_BUSY | MAT_STATUS_ACTIVE_PLANE
  | MAT_STATUS_PLANE_A_FORMAT | MAT_STATUS_PLANE_B_FORMAT | MAT_STATUS_PLANE_A_PAIRED
  | MAT_STATUS_PLANE_B_PAIRED | MAT_STATUS_GMMA_WAITING | MAT_STATUS_FROZEN
  | MAT_HAZARD_FIRST_VALID | MAT_HAZARD_FIRST_KIND | MAT_HAZARD_FIRST_ACC_ROW
  | MAT_HAZARD_FIRST_PLANE_ROW | MAT_HAZARD_FIRST_PLANE | MAT_HAZARD_FIRST_SOURCE
  | MAT_HAZARD_FIRST_GROUP | MAT_COUNTER_WRAP_HAZARD_WRAPPED | MAT_COUNTER_WRAP_SAT_WRAPPED
  | MAT_COUNTER_WRAP_STREAM_WRAPPED | MAT_COUNTER_WRAP_GMMA_WRAPPED | MAT_COUNTER_WRAP_FREEZE_WRAPPED
  | MAT_HAZARD_ADDR_ADDR | MAT_HAZARD_COUNT_COUNT | MAT_SAT_COUNT_COUNT
  | MAT_STREAM_CYCLES_COUNT | MAT_GMMA_CYCLES_COUNT | MAT_FREEZE_CYCLES_COUNT
  | MAT_INSPECT_SEL_INDEX | MAT_INSPECT_SEL_KIND | MAT_INSPECT_DATA_VALUE
  | SPAD_STATUS_CARVE_ROWS | GAT_SETUP_READ_LIMIT | GAT_STATUS_BUSY
  | GAT_STATUS_IN_FLIGHT | GAT_STATUS_FAULT_STALLED | GAT_STATUS_OUTSTANDING
  | GAT_COUNTER_WRAP_TRANSFERS_WRAPPED | GAT_COUNTER_WRAP_READ_WRAPPED | GAT_COUNTER_WRAP_WRITTEN_WRAPPED
  | GAT_COUNTER_WRAP_OOR_WRAPPED | GAT_COUNTER_WRAP_PAGES_WRAPPED | GAT_COUNTER_WRAP_PAGE_FAIL_WRAPPED
  | GAT_COUNTER_WRAP_STALL_WRAPPED | SPAD_COUNTER_WRAP_BANK_WRAPPED | SPAD_COUNTER_WRAP_ACCESS_WRAPPED
  | SPAD_ACCESS_COUNT | GAT_TRANSFERS_COUNT | GAT_BYTES_READ_COUNT
  | GAT_BYTES_WRITTEN_COUNT | GAT_OOR_COUNT_COUNT | GAT_PAGES_COUNT
  | GAT_PAGE_FAIL_COUNT | GAT_FAULT_STALL_CYCLES_COUNT | SPAD_INSPECT_SEL_ROW
  | SPAD_CONFLICT_BANK_COUNT | SPAD_INSPECT_DATA_VALUE
  deriving DecidableEq, Repr

/-- A field of a register: its bits, access code and reset value. -/
structure FldInfo where
  reg : Reg
  hi : Nat
  lo : Nat
  acc : Acc
  reset : Nat
  deriving DecidableEq, Repr

/-- A register: its offset in the window, its bytes and, for an array, the (count, stride) of each dimension. -/
structure RegInfo where
  off : Nat
  bytes : Nat
  dims : List (Nat × Nat)
  deriving DecidableEq, Repr

/-- The Registers tables: bits, access and reset value of each field. -/
def Fld.info : Fld → FldInfo
  | .GLB_IDENTITY_PART_NUMBER => ⟨.GLB_IDENTITY, 15, 0, .ro, 0⟩
  | .GLB_IDENTITY_STEPPING => ⟨.GLB_IDENTITY, 19, 16, .ro, 0⟩
  | .GLB_CAPABILITY_VERSION => ⟨.GLB_CAPABILITY, 7, 0, .ro, 1⟩
  | .GLB_CAPABILITY_TILES_PER_DIE => ⟨.GLB_CAPABILITY, 14, 8, .ro, 96⟩
  | .GLB_CAPABILITY_RESERVE_PER_DIE => ⟨.GLB_CAPABILITY, 18, 15, .ro, 8⟩
  | .GLB_CAPABILITY_STACK_GIB => ⟨.GLB_CAPABILITY, 26, 19, .ro, 64⟩
  | .GLB_FW_ABI_ABI_ID => ⟨.GLB_FW_ABI, 31, 0, .ro, 0⟩
  | .GLB_COUNTER_WRAP_ACCESS_WRAPPED => ⟨.GLB_COUNTER_WRAP, 0, 0, .w1c, 0⟩
  | .GLB_COUNTER_WRAP_MEM_ABSENT_WRAPPED => ⟨.GLB_COUNTER_WRAP, 1, 1, .w1c, 0⟩
  | .GLB_POP_COMPUTE_DIES => ⟨.GLB_POP_COMPUTE, 7, 0, .ro, 0⟩
  | .GLB_POP_COMPUTE_CODEC => ⟨.GLB_POP_COMPUTE, 15, 8, .ro, 0⟩
  | .GLB_POP_IO_DIES => ⟨.GLB_POP_IO, 3, 0, .ro, 0⟩
  | .GLB_POP_STACKS_PRESENT => ⟨.GLB_POP_STACKS, 15, 0, .ro, 0⟩
  | .GLB_POP_STACKS_FITTED => ⟨.GLB_POP_STACKS, 31, 16, .ro, 0⟩
  | .GLB_POP_LINKS_LO_LINKS => ⟨.GLB_POP_LINKS_LO, 31, 0, .ro, 0⟩
  | .GLB_POP_LINKS_HI_LINKS => ⟨.GLB_POP_LINKS_HI, 3, 0, .ro, 0⟩
  | .GLB_POP_LINKS_HI_CONNECTORS => ⟨.GLB_POP_LINKS_HI, 12, 4, .ro, 0⟩
  | .GLB_POP_FIRMWARE_PROCESSORS => ⟨.GLB_POP_FIRMWARE, 21, 0, .ro, 0⟩
  | .GLB_POP_TILES_ENABLED_TILES => ⟨.GLB_POP_TILES, 9, 0, .ro, 0⟩
  | .GLB_POP_MEMORY_MEMORY_GIB => ⟨.GLB_POP_MEMORY, 10, 0, .ro, 0⟩
  | .GLB_ACCESS_ERRORS_COUNT => ⟨.GLB_ACCESS_ERRORS, 63, 0, .ro, 0⟩
  | .GLB_MEM_ABSENT_COUNT => ⟨.GLB_MEM_ABSENT, 63, 0, .ro, 0⟩
  | .GLB_POWERED_TIME_TIME => ⟨.GLB_POWERED_TIME, 63, 0, .ro, 0⟩
  | .CLK_STATUS_PLLS_LOCKED => ⟨.CLK_STATUS, 0, 0, .ro, 0⟩
  | .CLK_STATUS_HW_READY => ⟨.CLK_STATUS, 1, 1, .ro, 0⟩
  | .CLK_STATUS_STACKS_OPEN => ⟨.CLK_STATUS, 9, 2, .ro, 0⟩
  | .CLK_RESET_CAUSE_CAUSE => ⟨.CLK_RESET_CAUSE, 2, 0, .ro, 1⟩
  | .CLK_RESET_CAUSE_DOMAIN => ⟨.CLK_RESET_CAUSE, 7, 3, .ro, 0⟩
  | .CLK_RESET_CAUSE_COUNTER_INDEX => ⟨.CLK_RESET_CAUSE, 16, 8, .ro, 0⟩
  | .CLK_RESET_CTRL_PART_RESET => ⟨.CLK_RESET_CTRL, 0, 0, .wo, 0⟩
  | .CLK_RESET_CTRL_KEY => ⟨.CLK_RESET_CTRL, 31, 16, .wo, 0⟩
  | .CLK_LOCK_SETUP_LOCK => ⟨.CLK_LOCK, 0, 0, .rwl, 0⟩
  | .CLK_RESET_TIME_TIME => ⟨.CLK_RESET_TIME, 63, 0, .ro, 0⟩
  | .CLK_PART_RESETS_COUNT => ⟨.CLK_PART_RESETS, 63, 0, .ro, 0⟩
  | .CLK_COUNTER_WRAP_WRAPPED => ⟨.CLK_COUNTER_WRAP, 31, 0, .w1c, 0⟩
  | .CLK_COUNT_COUNT => ⟨.CLK_COUNT, 63, 0, .ro, 0⟩
  | .CTX_CTRL_OPEN => ⟨.CTX_CTRL, 0, 0, .wo, 0⟩
  | .CTX_CTRL_START => ⟨.CTX_CTRL, 1, 1, .wo, 0⟩
  | .CTX_CTRL_ABORT => ⟨.CTX_CTRL, 2, 2, .wo, 0⟩
  | .CTX_CTRL_DESTROY => ⟨.CTX_CTRL, 3, 3, .wo, 0⟩
  | .CTX_STATUS_STATE => ⟨.CTX_STATUS, 2, 0, .ro, 0⟩
  | .CTX_STATUS_SQS => ⟨.CTX_STATUS, 7, 3, .ro, 0⟩
  | .CTX_STATUS_CQS => ⟨.CTX_STATUS, 12, 8, .ro, 0⟩
  | .CTX_SETUP_VA_BITS => ⟨.CTX_SETUP, 5, 0, .rw, 48⟩
  | .CTX_SETUP_INTERLEAVE => ⟨.CTX_SETUP, 6, 6, .rw, 0⟩
  | .CTX_SETUP_STOP_ON_FAULT => ⟨.CTX_SETUP, 7, 7, .rw, 0⟩
  | .CTX_FAULT_HALT => ⟨.CTX_FAULT, 0, 0, .w1c, 0⟩
  | .CTX_FAULT_DEST_DEAD => ⟨.CTX_FAULT, 1, 1, .w1c, 0⟩
  | .CTX_FAULT_UNSERVICEABLE => ⟨.CTX_FAULT, 2, 2, .w1c, 0⟩
  | .CTX_S1_ROOT_ADDR => ⟨.CTX_S1_ROOT, 51, 12, .rw, 0⟩
  | .CTX_FAULT_HALT_TILE => ⟨.CTX_FAULT_HALT, 9, 0, .ro, 0⟩
  | .CTX_FAULT_HALT_REASON => ⟨.CTX_FAULT_HALT, 31, 16, .ro, 0⟩
  | .CTX_FAULT_ENDPOINT_ENDPOINT => ⟨.CTX_FAULT_ENDPOINT, 17, 0, .ro, 0⟩
  | .CTX_COUNTER_WRAP_DESCRIPTORS_WRAPPED => ⟨.CTX_COUNTER_WRAP, 0, 0, .w1c, 0⟩
  | .CTX_COUNTER_WRAP_DONE_WRAPPED => ⟨.CTX_COUNTER_WRAP, 1, 1, .w1c, 0⟩
  | .CTX_COUNTER_WRAP_FAILED_WRAPPED => ⟨.CTX_COUNTER_WRAP, 2, 2, .w1c, 0⟩
  | .CTX_OUTSTANDING_COUNT => ⟨.CTX_OUTSTANDING, 31, 0, .ro, 0⟩
  | .CTX_DESCRIPTORS_COUNT => ⟨.CTX_DESCRIPTORS, 63, 0, .ro, 0⟩
  | .CTX_ITEMS_DONE_COUNT => ⟨.CTX_ITEMS_DONE, 63, 0, .ro, 0⟩
  | .CTX_ITEMS_FAILED_COUNT => ⟨.CTX_ITEMS_FAILED, 63, 0, .ro, 0⟩
  | .QUE_SQ_CTRL_ENABLE => ⟨.QUE_SQ_CTRL, 0, 0, .rw, 0⟩
  | .QUE_SQ_CTRL_SETUP_ERROR => ⟨.QUE_SQ_CTRL, 1, 1, .w1c, 0⟩
  | .QUE_SQ_SETUP_CONTEXT => ⟨.QUE_SQ_SETUP, 5, 0, .rw, 0⟩
  | .QUE_SQ_SETUP_SIZE_LOG2 => ⟨.QUE_SQ_SETUP, 10, 6, .rw, 6⟩
  | .QUE_SQ_SETUP_SERVE_DIE => ⟨.QUE_SQ_SETUP, 13, 11, .rw, 0⟩
  | .QUE_SQ_SETUP_PRIORITY => ⟨.QUE_SQ_SETUP, 15, 14, .rw, 0⟩
  | .QUE_SQ_SETUP_CQ => ⟨.QUE_SQ_SETUP, 25, 16, .rw, 0⟩
  | .QUE_SQ_BASE_ADDR => ⟨.QUE_SQ_BASE, 51, 12, .rw, 0⟩
  | .QUE_SQ_DOORBELL_ADDR => ⟨.QUE_SQ_DOORBELL, 51, 6, .rw, 0⟩
  | .QUE_SQ_STATUS_STATE => ⟨.QUE_SQ_STATUS, 2, 0, .ro, 0⟩
  | .QUE_SQ_STATUS_HELD => ⟨.QUE_SQ_STATUS, 3, 3, .ro, 0⟩
  | .QUE_SQ_CONSUMER_INDEX => ⟨.QUE_SQ_CONSUMER, 31, 0, .rw, 0⟩
  | .QUE_SQ_INFLIGHT_COUNT => ⟨.QUE_SQ_INFLIGHT, 8, 0, .ro, 0⟩
  | .QUE_CQ_CTRL_ENABLE => ⟨.QUE_CQ_CTRL, 0, 0, .rw, 0⟩
  | .QUE_CQ_CTRL_SETUP_ERROR => ⟨.QUE_CQ_CTRL, 1, 1, .w1c, 0⟩
  | .QUE_CQ_SETUP_CONTEXT => ⟨.QUE_CQ_SETUP, 5, 0, .rw, 0⟩
  | .QUE_CQ_SETUP_SIZE_LOG2 => ⟨.QUE_CQ_SETUP, 10, 6, .rw, 6⟩
  | .QUE_CQ_SETUP_VECTOR => ⟨.QUE_CQ_SETUP, 21, 11, .rw, 0⟩
  | .QUE_CQ_SETUP_IRQ_EN => ⟨.QUE_CQ_SETUP, 22, 22, .rw, 0⟩
  | .QUE_CQ_SETUP_IRQ_ALL => ⟨.QUE_CQ_SETUP, 23, 23, .rw, 0⟩
  | .QUE_CQ_SETUP_HOLDOFF_LOG2 => ⟨.QUE_CQ_SETUP, 27, 24, .rw, 0⟩
  | .QUE_CQ_BASE_ADDR => ⟨.QUE_CQ_BASE, 51, 11, .rw, 0⟩
  | .QUE_CQ_CONS_LINE_ADDR => ⟨.QUE_CQ_CONS_LINE, 51, 6, .rw, 0⟩
  | .QUE_CQ_STATUS_STATE => ⟨.QUE_CQ_STATUS, 1, 0, .ro, 0⟩
  | .QUE_CQ_STATUS_FULL => ⟨.QUE_CQ_STATUS, 2, 2, .ro, 0⟩
  | .QUE_CQ_STATUS_WAITING => ⟨.QUE_CQ_STATUS, 15, 3, .ro, 0⟩
  | .QUE_CQ_PRODUCER_INDEX => ⟨.QUE_CQ_PRODUCER, 31, 0, .rw, 0⟩
  | .QUE_ERING_SETUP_SIZE_LOG2 => ⟨.QUE_ERING_SETUP, 4, 0, .rwl, 8⟩
  | .QUE_ERING_SETUP_VECTOR => ⟨.QUE_ERING_SETUP, 15, 5, .rwl, 0⟩
  | .QUE_ERING_SETUP_IRQ_EN => ⟨.QUE_ERING_SETUP, 16, 16, .rwl, 0⟩
  | .QUE_ERING_SETUP_HOLDOFF_LOG2 => ⟨.QUE_ERING_SETUP, 20, 17, .rwl, 0⟩
  | .QUE_ERING_SETUP_ENABLE => ⟨.QUE_ERING_SETUP, 21, 21, .rwl, 0⟩
  | .QUE_ERING_STATUS_RING_FAULT => ⟨.QUE_ERING_STATUS, 0, 0, .ro, 0⟩
  | .QUE_ERING_STATUS_FULL => ⟨.QUE_ERING_STATUS, 1, 1, .ro, 0⟩
  | .QUE_ERING_STATUS_HELD => ⟨.QUE_ERING_STATUS, 10, 2, .ro, 0⟩
  | .QUE_ERING_BASE_ADDR => ⟨.QUE_ERING_BASE, 51, 12, .rwl, 0⟩
  | .QUE_ERING_CONS_LINE_ADDR => ⟨.QUE_ERING_CONS_LINE, 51, 6, .rwl, 0⟩
  | .QUE_ERING_NEXT_SEQUENCE => ⟨.QUE_ERING_NEXT, 31, 0, .ro, 0⟩
  | .QUE_ERING_CTRL_RING_RETRY => ⟨.QUE_ERING_CTRL, 0, 0, .wo, 0⟩
  | .QUE_ERR_DROPPED_COUNT => ⟨.QUE_ERR_DROPPED, 63, 0, .ro, 0⟩
  | .QUE_COUNTER_WRAP_WRAPPED => ⟨.QUE_COUNTER_WRAP, 0, 0, .w1c, 0⟩
  | .OBJ_STATUS_READY => ⟨.OBJ_STATUS, 0, 0, .ro, 0⟩
  | .OBJ_STATUS_LIVE => ⟨.OBJ_STATUS, 20, 1, .ro, 0⟩
  | .OBJ_COUNTER_WRAP_REGISTERED_WRAPPED => ⟨.OBJ_COUNTER_WRAP, 0, 0, .w1c, 0⟩
  | .OBJ_COUNTER_WRAP_RELEASED_WRAPPED => ⟨.OBJ_COUNTER_WRAP, 1, 1, .w1c, 0⟩
  | .OBJ_COUNTER_WRAP_STALE_WRAPPED => ⟨.OBJ_COUNTER_WRAP, 2, 2, .w1c, 0⟩
  | .OBJ_TABLE_BASE_ADDR => ⟨.OBJ_TABLE_BASE, 51, 25, .rwl, 0⟩
  | .OBJ_REGISTERED_COUNT => ⟨.OBJ_REGISTERED, 63, 0, .ro, 0⟩
  | .OBJ_RELEASED_COUNT => ⟨.OBJ_RELEASED, 63, 0, .ro, 0⟩
  | .OBJ_STALE_ITEMS_COUNT => ⟨.OBJ_STALE_ITEMS, 63, 0, .ro, 0⟩
  | .FEN_SETUP_LOG_REGRESS => ⟨.FEN_SETUP, 0, 0, .rwl, 0⟩
  | .FEN_COUNTER_WRAP_REGRESS_WRAPPED => ⟨.FEN_COUNTER_WRAP, 0, 0, .w1c, 0⟩
  | .FEN_COUNTER_WRAP_SIGNALS_WRAPPED => ⟨.FEN_COUNTER_WRAP, 1, 1, .w1c, 0⟩
  | .FEN_REGRESS_COUNT => ⟨.FEN_REGRESS, 63, 0, .ro, 0⟩
  | .FEN_SIGNALS_COUNT => ⟨.FEN_SIGNALS, 63, 0, .ro, 0⟩
  | .XLT_SETUP_IPA_BITS => ⟨.XLT_SETUP, 5, 0, .rwl, 52⟩
  | .XLT_SETUP_FRING_LOG2 => ⟨.XLT_SETUP, 10, 6, .rwl, 10⟩
  | .XLT_SETUP_RRING_LOG2 => ⟨.XLT_SETUP, 15, 11, .rwl, 10⟩
  | .XLT_SETUP_FAULT_VECTOR => ⟨.XLT_SETUP, 26, 16, .rwl, 0⟩
  | .XLT_SETUP_FAULT_IRQ_EN => ⟨.XLT_SETUP, 27, 27, .rwl, 0⟩
  | .XLT_SETUP_HOLDOFF_LOG2 => ⟨.XLT_SETUP, 31, 28, .rwl, 10⟩
  | .XLT_STATUS_RING_FAULT => ⟨.XLT_STATUS, 0, 0, .ro, 0⟩
  | .XLT_STATUS_FRING_FULL => ⟨.XLT_STATUS, 1, 1, .ro, 0⟩
  | .XLT_CTRL_RING_RETRY => ⟨.XLT_CTRL, 0, 0, .wo, 0⟩
  | .XLT_COUNTER_WRAP_WALKS_WRAPPED => ⟨.XLT_COUNTER_WRAP, 0, 0, .w1c, 0⟩
  | .XLT_COUNTER_WRAP_FAULTS_WRAPPED => ⟨.XLT_COUNTER_WRAP, 1, 1, .w1c, 0⟩
  | .XLT_COUNTER_WRAP_IGNORED_WRAPPED => ⟨.XLT_COUNTER_WRAP, 2, 2, .w1c, 0⟩
  | .XLT_COUNTER_WRAP_INV_WRAPPED => ⟨.XLT_COUNTER_WRAP, 3, 3, .w1c, 0⟩
  | .XLT_COUNTER_WRAP_FULL_WRAPPED => ⟨.XLT_COUNTER_WRAP, 4, 4, .w1c, 0⟩
  | .XLT_S2_ROOT_TARGET => ⟨.XLT_S2_ROOT, 0, 0, .rwl, 0⟩
  | .XLT_S2_ROOT_ADDR => ⟨.XLT_S2_ROOT, 51, 12, .rwl, 0⟩
  | .XLT_FRING_BASE_ADDR => ⟨.XLT_FRING_BASE, 51, 12, .rwl, 0⟩
  | .XLT_FRING_CONS_LINE_ADDR => ⟨.XLT_FRING_CONS_LINE, 51, 6, .rwl, 0⟩
  | .XLT_RRING_BASE_ADDR => ⟨.XLT_RRING_BASE, 51, 12, .rwl, 0⟩
  | .XLT_RRING_PROD_LINE_ADDR => ⟨.XLT_RRING_PROD_LINE, 51, 6, .rwl, 0⟩
  | .XLT_FRING_NEXT_SEQUENCE => ⟨.XLT_FRING_NEXT, 31, 0, .ro, 0⟩
  | .XLT_RRING_NEXT_COUNT => ⟨.XLT_RRING_NEXT, 31, 0, .ro, 0⟩
  | .XLT_WALKS_COUNT => ⟨.XLT_WALKS, 63, 0, .ro, 0⟩
  | .XLT_FAULTS_COUNT => ⟨.XLT_FAULTS, 63, 0, .ro, 0⟩
  | .XLT_RESP_IGNORED_COUNT => ⟨.XLT_RESP_IGNORED, 63, 0, .ro, 0⟩
  | .XLT_INVALIDATIONS_COUNT => ⟨.XLT_INVALIDATIONS, 63, 0, .ro, 0⟩
  | .XLT_TABLE_FULL_CYCLES_COUNT => ⟨.XLT_TABLE_FULL_CYCLES, 63, 0, .ro, 0⟩
  | .XLT_WALKER_STATUS_WALKS => ⟨.XLT_WALKER_STATUS, 6, 0, .ro, 0⟩
  | .XLT_WALKER_STATUS_PENDING => ⟨.XLT_WALKER_STATUS, 17, 8, .ro, 0⟩
  | .XLT_WALKER_STATUS_UNREPORTED => ⟨.XLT_WALKER_STATUS, 27, 18, .ro, 0⟩
  | .XLTC_STATUS_VALID_ENTRIES => ⟨.XLTC_STATUS, 11, 0, .ro, 0⟩
  | .XLTC_STATUS_WALK_WAIT => ⟨.XLTC_STATUS, 12, 12, .ro, 0⟩
  | .XLTC_STATUS_FAULT_WAIT => ⟨.XLTC_STATUS, 13, 13, .ro, 0⟩
  | .XLTC_COUNTER_WRAP_LOOKUPS_WRAPPED => ⟨.XLTC_COUNTER_WRAP, 0, 0, .w1c, 0⟩
  | .XLTC_COUNTER_WRAP_MISSES_WRAPPED => ⟨.XLTC_COUNTER_WRAP, 1, 1, .w1c, 0⟩
  | .XLTC_COUNTER_WRAP_FAULTS_WRAPPED => ⟨.XLTC_COUNTER_WRAP, 2, 2, .w1c, 0⟩
  | .XLTC_LOOKUPS_COUNT => ⟨.XLTC_LOOKUPS, 63, 0, .ro, 0⟩
  | .XLTC_MISSES_COUNT => ⟨.XLTC_MISSES, 63, 0, .ro, 0⟩
  | .XLTC_FAULTS_COUNT => ⟨.XLTC_FAULTS, 63, 0, .ro, 0⟩
  | .SYN_SEM_VALUE => ⟨.SYN_SEM, 15, 0, .ro, 0⟩
  | .SYN_STATUS_BAR_SLOT => ⟨.SYN_STATUS, 2, 0, .ro, 0⟩
  | .SYN_STATUS_BAR_WAITING => ⟨.SYN_STATUS, 3, 3, .ro, 0⟩
  | .SYN_STATUS_FWAIT_WAITING => ⟨.SYN_STATUS, 4, 4, .ro, 0⟩
  | .SYN_STATUS_POLL_WAITING => ⟨.SYN_STATUS, 5, 5, .ro, 0⟩
  | .SYN_STATUS_MEMBAR_WAITING => ⟨.SYN_STATUS, 6, 6, .ro, 0⟩
  | .SYN_STATUS_BAR_ERROR => ⟨.SYN_STATUS, 7, 7, .w1c, 0⟩
  | .SYN_STATUS_SEM_SATURATED => ⟨.SYN_STATUS, 8, 8, .w1c, 0⟩
  | .SYN_STATUS_BAR_SCOPE => ⟨.SYN_STATUS, 10, 9, .ro, 0⟩
  | .SYN_BAR_SENSE_TILE_SENSE => ⟨.SYN_BAR_SENSE, 7, 0, .ro, 0⟩
  | .SYN_BAR_SENSE_GANG_SENSE => ⟨.SYN_BAR_SENSE, 15, 8, .ro, 0⟩
  | .SYN_BAR_SENSE_PART_SENSE => ⟨.SYN_BAR_SENSE, 23, 16, .ro, 0⟩
  | .SYN_BAR_SENSE_SYSTEM_SENSE => ⟨.SYN_BAR_SENSE, 31, 24, .ro, 0⟩
  | .SYN_COUNTER_WRAP_SIGNALS_WRAPPED => ⟨.SYN_COUNTER_WRAP, 0, 0, .w1c, 0⟩
  | .SYN_COUNTER_WRAP_WAIT_WRAPPED => ⟨.SYN_COUNTER_WRAP, 1, 1, .w1c, 0⟩
  | .SYN_COUNTER_WRAP_BARRIERS_WRAPPED => ⟨.SYN_COUNTER_WRAP, 2, 2, .w1c, 0⟩
  | .SYN_COUNTER_WRAP_BAR_ERRORS_WRAPPED => ⟨.SYN_COUNTER_WRAP, 3, 3, .w1c, 0⟩
  | .SYN_COUNTER_WRAP_SATURATE_WRAPPED => ⟨.SYN_COUNTER_WRAP, 4, 4, .w1c, 0⟩
  | .SYN_SIGNALS_COUNT => ⟨.SYN_SIGNALS, 63, 0, .ro, 0⟩
  | .SYN_WAIT_CYCLES_COUNT => ⟨.SYN_WAIT_CYCLES, 63, 0, .ro, 0⟩
  | .SYN_BARRIERS_COUNT => ⟨.SYN_BARRIERS, 63, 0, .ro, 0⟩
  | .SYN_BAR_ERRORS_COUNT => ⟨.SYN_BAR_ERRORS, 63, 0, .ro, 0⟩
  | .SYN_SEM_SATURATE_COUNT => ⟨.SYN_SEM_SATURATE, 63, 0, .ro, 0⟩
  | .HBM_SETUP_THROTTLE_C => ⟨.HBM_SETUP, 6, 0, .rwl, 95⟩
  | .HBM_SETUP_TRIP_C => ⟨.HBM_SETUP, 13, 7, .rwl, 105⟩
  | .HBM_SETUP_SCRUB_HOURS => ⟨.HBM_SETUP, 21, 14, .rwl, 12⟩
  | .HBM_SETUP_ROW_CE_LIMIT => ⟨.HBM_SETUP, 25, 22, .rwl, 4⟩
  | .HBM_SETUP_REMAP_EN => ⟨.HBM_SETUP, 26, 26, .rwl, 1⟩
  | .HBM_STATUS_STATE => ⟨.HBM_STATUS, 1, 0, .ro, 0⟩
  | .HBM_STATUS_TEMP_C => ⟨.HBM_STATUS, 9, 2, .ro, 0⟩
  | .HBM_STATUS_LEVEL => ⟨.HBM_STATUS, 11, 10, .ro, 0⟩
  | .HBM_STATUS_TRIPPED => ⟨.HBM_STATUS, 12, 12, .ro, 0⟩
  | .HBM_STATUS_REPAIR_EXHAUSTED => ⟨.HBM_STATUS, 13, 13, .ro, 0⟩
  | .HBM_STATUS_SENSOR_LOST => ⟨.HBM_STATUS, 14, 14, .ro, 0⟩
  | .HBM_REPAIR_REMAP_USED => ⟨.HBM_REPAIR, 11, 0, .ro, 0⟩
  | .HBM_REPAIR_PPR_PENDING => ⟨.HBM_REPAIR, 27, 16, .ro, 0⟩
  | .HBM_COUNTER_WRAP_READS_WRAPPED => ⟨.HBM_COUNTER_WRAP, 0, 0, .w1c, 0⟩
  | .HBM_COUNTER_WRAP_WRITES_WRAPPED => ⟨.HBM_COUNTER_WRAP, 1, 1, .w1c, 0⟩
  | .HBM_COUNTER_WRAP_CE_WRAPPED => ⟨.HBM_COUNTER_WRAP, 2, 2, .w1c, 0⟩
  | .HBM_COUNTER_WRAP_UE_WRAPPED => ⟨.HBM_COUNTER_WRAP, 3, 3, .w1c, 0⟩
  | .HBM_COUNTER_WRAP_EYESPOT_WRAPPED => ⟨.HBM_COUNTER_WRAP, 4, 4, .w1c, 0⟩
  | .HBM_COUNTER_WRAP_THROTTLE_WRAPPED => ⟨.HBM_COUNTER_WRAP, 5, 5, .w1c, 0⟩
  | .HBM_COUNTER_WRAP_REFETCH_WRAPPED => ⟨.HBM_COUNTER_WRAP, 6, 6, .w1c, 0⟩
  | .HBM_COUNTER_WRAP_REFETCH_FAIL_WRAPPED => ⟨.HBM_COUNTER_WRAP, 7, 7, .w1c, 0⟩
  | .HBM_COUNTER_WRAP_ODECC_WRAPPED => ⟨.HBM_COUNTER_WRAP, 8, 8, .w1c, 0⟩
  | .HBM_EYESPOT_FIRST_ADDR => ⟨.HBM_EYESPOT_FIRST, 51, 0, .ro, 0⟩
  | .HBM_EYESPOT_FIRST_VALID => ⟨.HBM_EYESPOT_FIRST, 63, 63, .w1c, 0⟩
  | .HBM_READS_COUNT => ⟨.HBM_READS, 63, 0, .ro, 0⟩
  | .HBM_WRITES_COUNT => ⟨.HBM_WRITES, 63, 0, .ro, 0⟩
  | .HBM_CE_COUNT => ⟨.HBM_CE, 63, 0, .ro, 0⟩
  | .HBM_UE_COUNT => ⟨.HBM_UE, 63, 0, .ro, 0⟩
  | .HBM_EYESPOT_READS_COUNT => ⟨.HBM_EYESPOT_READS, 63, 0, .ro, 0⟩
  | .HBM_THROTTLE_CYCLES_COUNT => ⟨.HBM_THROTTLE_CYCLES, 63, 0, .ro, 0⟩
  | .HBM_REFETCH_COUNT => ⟨.HBM_REFETCH, 63, 0, .ro, 0⟩
  | .HBM_REFETCH_FAIL_COUNT => ⟨.HBM_REFETCH_FAIL, 63, 0, .ro, 0⟩
  | .HBM_ODECC_COUNT => ⟨.HBM_ODECC, 63, 0, .ro, 0⟩
  | .HBM_ABSENT_COUNT => ⟨.HBM_ABSENT, 31, 0, .ro, 0⟩
  | .HBM_REMAP_SEL_ENTRY => ⟨.HBM_REMAP_SEL, 10, 0, .rw, 0⟩
  | .HBM_REMAP_DATA_VALID => ⟨.HBM_REMAP_DATA, 0, 0, .ro, 0⟩
  | .HBM_REMAP_DATA_PSEUDO_CHANNEL => ⟨.HBM_REMAP_DATA, 6, 1, .ro, 0⟩
  | .HBM_REMAP_DATA_BANK => ⟨.HBM_REMAP_DATA, 12, 7, .ro, 0⟩
  | .HBM_REMAP_DATA_ROW => ⟨.HBM_REMAP_DATA, 31, 13, .ro, 0⟩
  | .HBM_REMAP_DATA_CAUSE => ⟨.HBM_REMAP_DATA, 33, 32, .ro, 0⟩
  | .HBM_REMAP_DATA_PERMANENT => ⟨.HBM_REMAP_DATA, 34, 34, .ro, 0⟩
  | .FAB_SETUP_ENDPOINT => ⟨.FAB_SETUP, 17, 0, .rwl, 0⟩
  | .FAB_SETUP_ENABLE => ⟨.FAB_SETUP, 18, 18, .rwl, 0⟩
  | .FAB_SETUP_SPARE_LOG2 => ⟨.FAB_SETUP, 23, 19, .rwl, 16⟩
  | .FAB_SETUP_COLL_LIMIT_LOG2 => ⟨.FAB_SETUP, 28, 24, .rwl, 26⟩
  | .FAB_STATUS_RUNNING => ⟨.FAB_STATUS, 0, 0, .ro, 0⟩
  | .FAB_STATUS_SETUP_ERROR => ⟨.FAB_STATUS, 1, 1, .w1c, 0⟩
  | .FAB_STATUS_LINKS_UP => ⟨.FAB_STATUS, 7, 2, .ro, 0⟩
  | .FAB_STATUS_ANY_DEAD => ⟨.FAB_STATUS, 8, 8, .ro, 0⟩
  | .FAB_IRQ_VECTOR => ⟨.FAB_IRQ, 10, 0, .rwl, 0⟩
  | .FAB_IRQ_DEAD_IRQ_EN => ⟨.FAB_IRQ, 11, 11, .rwl, 0⟩
  | .FAB_IRQ_LINK_IRQ_EN => ⟨.FAB_IRQ, 12, 12, .rwl, 0⟩
  | .FAB_IRQ_COLL_IRQ_EN => ⟨.FAB_IRQ, 13, 13, .rwl, 0⟩
  | .FAB_IRQ_HOLDOFF_LOG2 => ⟨.FAB_IRQ, 17, 14, .rwl, 0⟩
  | .FAB_COUNTER_WRAP_PUTS_WRAPPED => ⟨.FAB_COUNTER_WRAP, 0, 0, .w1c, 0⟩
  | .FAB_COUNTER_WRAP_GETS_WRAPPED => ⟨.FAB_COUNTER_WRAP, 1, 1, .w1c, 0⟩
  | .FAB_COUNTER_WRAP_ATOMICS_WRAPPED => ⟨.FAB_COUNTER_WRAP, 2, 2, .w1c, 0⟩
  | .FAB_COUNTER_WRAP_RX_REQUESTS_WRAPPED => ⟨.FAB_COUNTER_WRAP, 3, 3, .w1c, 0⟩
  | .FAB_COUNTER_WRAP_UNROUTABLE_WRAPPED => ⟨.FAB_COUNTER_WRAP, 4, 4, .w1c, 0⟩
  | .FAB_COUNTER_WRAP_LATE_RESPONSES_WRAPPED => ⟨.FAB_COUNTER_WRAP, 5, 5, .w1c, 0⟩
  | .FAB_COUNTER_WRAP_DEAD_DECLARED_WRAPPED => ⟨.FAB_COUNTER_WRAP, 6, 6, .w1c, 0⟩
  | .FAB_COUNTER_WRAP_RX_FAILED_WRAPPED => ⟨.FAB_COUNTER_WRAP, 7, 7, .w1c, 0⟩
  | .FAB_DIM_SIZE => ⟨.FAB_DIM, 8, 0, .rwl, 0⟩
  | .FAB_DIM_WRAP => ⟨.FAB_DIM, 9, 9, .rwl, 0⟩
  | .FAB_DIR_LINKS => ⟨.FAB_DIR, 35, 0, .rwl, 0⟩
  | .FAB_PUTS_COUNT => ⟨.FAB_PUTS, 63, 0, .ro, 0⟩
  | .FAB_GETS_COUNT => ⟨.FAB_GETS, 63, 0, .ro, 0⟩
  | .FAB_ATOMICS_COUNT => ⟨.FAB_ATOMICS, 63, 0, .ro, 0⟩
  | .FAB_RX_REQUESTS_COUNT => ⟨.FAB_RX_REQUESTS, 63, 0, .ro, 0⟩
  | .FAB_UNROUTABLE_COUNT => ⟨.FAB_UNROUTABLE, 63, 0, .ro, 0⟩
  | .FAB_LATE_RESPONSES_COUNT => ⟨.FAB_LATE_RESPONSES, 63, 0, .ro, 0⟩
  | .FAB_DEAD_DECLARED_COUNT => ⟨.FAB_DEAD_DECLARED, 63, 0, .ro, 0⟩
  | .FAB_RX_FAILED_COUNT => ⟨.FAB_RX_FAILED, 63, 0, .ro, 0⟩
  | .FAB_LINK_CTRL_ENABLE => ⟨.FAB_LINK_CTRL, 0, 0, .rw, 0⟩
  | .FAB_LINK_CTRL_RETRAIN => ⟨.FAB_LINK_CTRL, 1, 1, .wo, 0⟩
  | .FAB_LINK_STATUS_STATE => ⟨.FAB_LINK_STATUS, 2, 0, .ro, 0⟩
  | .FAB_LINK_STATUS_LANE_OUT => ⟨.FAB_LINK_STATUS, 5, 3, .ro, 0⟩
  | .FAB_LINK_STATUS_SPARED => ⟨.FAB_LINK_STATUS, 6, 6, .ro, 0⟩
  | .FAB_LINK_STATUS_WENT_DOWN => ⟨.FAB_LINK_STATUS, 7, 7, .w1c, 0⟩
  | .FAB_LINK_STATUS_DOWN_CAUSE => ⟨.FAB_LINK_STATUS, 10, 8, .ro, 0⟩
  | .FAB_LINK_STATUS_SPARE_OK => ⟨.FAB_LINK_STATUS, 11, 11, .ro, 0⟩
  | .FAB_LINK_PEER_PEER_ENDPOINT => ⟨.FAB_LINK_PEER, 17, 0, .ro, 0⟩
  | .FAB_LINK_PEER_PEER_LINK => ⟨.FAB_LINK_PEER, 23, 18, .ro, 0⟩
  | .FAB_LINK_PEER_PEER_VALID => ⟨.FAB_LINK_PEER, 24, 24, .ro, 0⟩
  | .FAB_LINK_COUNTER_WRAP_FEC_CORRECTED_WRAPPED => ⟨.FAB_LINK_COUNTER_WRAP, 0, 0, .w1c, 0⟩
  | .FAB_LINK_COUNTER_WRAP_FEC_UNCORRECTABLE_WRAPPED => ⟨.FAB_LINK_COUNTER_WRAP, 1, 1, .w1c, 0⟩
  | .FAB_LINK_COUNTER_WRAP_CRC_ERRORS_WRAPPED => ⟨.FAB_LINK_COUNTER_WRAP, 2, 2, .w1c, 0⟩
  | .FAB_LINK_COUNTER_WRAP_REPLAYS_WRAPPED => ⟨.FAB_LINK_COUNTER_WRAP, 3, 3, .w1c, 0⟩
  | .FAB_LINK_COUNTER_WRAP_RETRAINS_WRAPPED => ⟨.FAB_LINK_COUNTER_WRAP, 4, 4, .w1c, 0⟩
  | .FAB_LINK_COUNTER_WRAP_FRAMES_WRAPPED => ⟨.FAB_LINK_COUNTER_WRAP, 5, 5, .w1c, 0⟩
  | .FAB_LINK_FEC_CORRECTED_COUNT => ⟨.FAB_LINK_FEC_CORRECTED, 63, 0, .ro, 0⟩
  | .FAB_LINK_FEC_UNCORRECTABLE_COUNT => ⟨.FAB_LINK_FEC_UNCORRECTABLE, 63, 0, .ro, 0⟩
  | .FAB_LINK_CRC_ERRORS_COUNT => ⟨.FAB_LINK_CRC_ERRORS, 63, 0, .ro, 0⟩
  | .FAB_LINK_REPLAYS_COUNT => ⟨.FAB_LINK_REPLAYS, 63, 0, .ro, 0⟩
  | .FAB_LINK_RETRAINS_COUNT => ⟨.FAB_LINK_RETRAINS, 63, 0, .ro, 0⟩
  | .FAB_LINK_FRAMES_COUNT => ⟨.FAB_LINK_FRAMES, 63, 0, .ro, 0⟩
  | .FAB_COLL_SETUP_ENABLE => ⟨.FAB_COLL_SETUP, 0, 0, .rw, 0⟩
  | .FAB_COLL_SETUP_IO_DIE => ⟨.FAB_COLL_SETUP, 2, 1, .rw, 0⟩
  | .FAB_COLL_SETUP_OP => ⟨.FAB_COLL_SETUP, 4, 3, .rw, 0⟩
  | .FAB_COLL_SETUP_FORMAT => ⟨.FAB_COLL_SETUP, 5, 5, .rw, 0⟩
  | .FAB_COLL_SETUP_LOCAL => ⟨.FAB_COLL_SETUP, 12, 6, .rw, 0⟩
  | .FAB_COLL_SETUP_CHILDREN => ⟨.FAB_COLL_SETUP, 16, 13, .rw, 0⟩
  | .FAB_COLL_SETUP_ROOT => ⟨.FAB_COLL_SETUP, 17, 17, .rw, 0⟩
  | .FAB_COLL_SETUP_PARENT => ⟨.FAB_COLL_SETUP, 35, 18, .rw, 0⟩
  | .FAB_COLL_SETUP_CHUNKS => ⟨.FAB_COLL_SETUP, 50, 36, .rw, 0⟩
  | .FAB_COLL_STATUS_OPEN => ⟨.FAB_COLL_STATUS, 1, 0, .ro, 0⟩
  | .FAB_COLL_STATUS_ERROR => ⟨.FAB_COLL_STATUS, 2, 2, .w1c, 0⟩
  | .FAB_COLL_STATUS_SETUP_ERROR => ⟨.FAB_COLL_STATUS, 3, 3, .w1c, 0⟩
  | .FAB_COLL_FENCE_SLOT => ⟨.FAB_COLL_FENCE, 15, 0, .rw, 0⟩
  | .FAB_COLL_FENCE_SIGNAL_EN => ⟨.FAB_COLL_FENCE, 16, 16, .rw, 0⟩
  | .FAB_COLL_RESULT_RESULT => ⟨.FAB_COLL_RESULT, 51, 6, .rw, 0⟩
  | .FAB_COLL_ROUND_ROUND => ⟨.FAB_COLL_ROUND, 63, 0, .rw, 0⟩
  | .FAB_COLL_CHILD_CHILD0 => ⟨.FAB_COLL_CHILD, 17, 0, .rw, 0⟩
  | .FAB_COLL_CHILD_CHILD1 => ⟨.FAB_COLL_CHILD, 35, 18, .rw, 0⟩
  | .FAB_COLL_CHILD_CHILD2 => ⟨.FAB_COLL_CHILD, 53, 36, .rw, 0⟩
  | .FAB_DEAD_DEAD => ⟨.FAB_DEAD, 31, 0, .w1c, 0⟩
  | .CHL_SETUP_TIMEOUT_LOG2 => ⟨.CHL_SETUP, 4, 0, .rwl, 24⟩
  | .CHL_SETUP_LINK_VECTOR => ⟨.CHL_SETUP, 15, 5, .rwl, 0⟩
  | .CHL_SETUP_LINK_IRQ_EN => ⟨.CHL_SETUP, 16, 16, .rwl, 0⟩
  | .CHL_SF_STATUS_OCCUPIED => ⟨.CHL_SF_STATUS, 22, 0, .ro, 0⟩
  | .CHL_COUNTER_WRAP_EVICTIONS_WRAPPED => ⟨.CHL_COUNTER_WRAP, 0, 0, .w1c, 0⟩
  | .CHL_COUNTER_WRAP_SNOOPS_WRAPPED => ⟨.CHL_COUNTER_WRAP, 1, 1, .w1c, 0⟩
  | .CHL_COUNTER_WRAP_PORT0_WRAPPED => ⟨.CHL_COUNTER_WRAP, 7, 2, .w1c, 0⟩
  | .CHL_COUNTER_WRAP_PORT1_WRAPPED => ⟨.CHL_COUNTER_WRAP, 13, 8, .w1c, 0⟩
  | .CHL_SF_EVICTIONS_COUNT => ⟨.CHL_SF_EVICTIONS, 63, 0, .ro, 0⟩
  | .CHL_SNOOPS_COUNT => ⟨.CHL_SNOOPS, 63, 0, .ro, 0⟩
  | .CHL_HOMEMAP_VALID => ⟨.CHL_HOMEMAP, 0, 0, .rw, 0⟩
  | .CHL_HOMEMAP_PORT => ⟨.CHL_HOMEMAP, 1, 1, .rw, 0⟩
  | .CHL_HOMEMAP_BASE => ⟨.CHL_HOMEMAP, 23, 2, .rw, 0⟩
  | .CHL_HOMEMAP_LIMIT => ⟨.CHL_HOMEMAP, 45, 24, .rw, 0⟩
  | .CHL_PORT_CTRL_RETRAIN => ⟨.CHL_PORT_CTRL, 0, 0, .wo, 0⟩
  | .CHL_PORT_STATUS_STATE => ⟨.CHL_PORT_STATUS, 2, 0, .ro, 0⟩
  | .CHL_PORT_STATUS_WIDTH => ⟨.CHL_PORT_STATUS, 3, 3, .ro, 0⟩
  | .CHL_PORT_STATUS_RATE => ⟨.CHL_PORT_STATUS, 4, 4, .ro, 0⟩
  | .CHL_PORT_STATUS_FAIL_CAUSE => ⟨.CHL_PORT_STATUS, 7, 5, .ro, 0⟩
  | .CHL_PORT_STATUS_LANES_REVERSED => ⟨.CHL_PORT_STATUS, 8, 8, .ro, 0⟩
  | .CHL_PORT_FEC_CORRECTED_COUNT => ⟨.CHL_PORT_FEC_CORRECTED, 63, 0, .ro, 0⟩
  | .CHL_PORT_CRC_ERRORS_COUNT => ⟨.CHL_PORT_CRC_ERRORS, 63, 0, .ro, 0⟩
  | .CHL_PORT_REPLAYS_COUNT => ⟨.CHL_PORT_REPLAYS, 63, 0, .ro, 0⟩
  | .CHL_PORT_RETRAINS_COUNT => ⟨.CHL_PORT_RETRAINS, 63, 0, .ro, 0⟩
  | .CHL_PORT_TIMEOUTS_COUNT => ⟨.CHL_PORT_TIMEOUTS, 63, 0, .ro, 0⟩
  | .CHL_PORT_NOHOME_COUNT => ⟨.CHL_PORT_NOHOME, 63, 0, .ro, 0⟩
  | .CHL_MSI_ADDR_ADDR => ⟨.CHL_MSI_ADDR, 51, 2, .rw, 0⟩
  | .CHL_MSI_DATA_DATA => ⟨.CHL_MSI_DATA, 31, 0, .rw, 0⟩
  | .CHL_MSI_CTRL_MASK => ⟨.CHL_MSI_CTRL, 0, 0, .rw, 1⟩
  | .CHL_MSI_CTRL_PORT => ⟨.CHL_MSI_CTRL, 1, 1, .rw, 0⟩
  | .CHL_MSI_CTRL_PENDING => ⟨.CHL_MSI_CTRL, 2, 2, .ro, 0⟩
  | .MGT_SETUP_DIE_THROTTLE_C => ⟨.MGT_SETUP, 6, 0, .rwl, 100⟩
  | .MGT_SETUP_MOULT_AUTO => ⟨.MGT_SETUP, 7, 7, .rwl, 1⟩
  | .MGT_SETUP_MOULT_CE_LIMIT_LOG2 => ⟨.MGT_SETUP, 12, 8, .rwl, 8⟩
  | .MGT_LIMITS_POWER_LIMIT => ⟨.MGT_LIMITS, 11, 0, .rw, 0⟩
  | .MGT_LIMITS_MCLK_CEILING => ⟨.MGT_LIMITS, 21, 12, .rw, 700⟩
  | .MGT_STATUS_POWER_WARN => ⟨.MGT_STATUS, 0, 0, .ro, 0⟩
  | .MGT_STATUS_POWER_WARN_EVENT => ⟨.MGT_STATUS, 1, 1, .w1c, 0⟩
  | .MGT_STATUS_FAST_LIMIT => ⟨.MGT_STATUS, 2, 2, .ro, 0⟩
  | .MGT_STATUS_POWER_UNMET => ⟨.MGT_STATUS, 3, 3, .ro, 0⟩
  | .MGT_STATUS_THERMAL_EVENT => ⟨.MGT_STATUS, 4, 4, .w1c, 0⟩
  | .MGT_STATUS_LOG_READY => ⟨.MGT_STATUS, 5, 5, .ro, 0⟩
  | .MGT_IRQ_VECTOR => ⟨.MGT_IRQ, 10, 0, .rwl, 0⟩
  | .MGT_IRQ_WARN_IRQ_EN => ⟨.MGT_IRQ, 11, 11, .rwl, 0⟩
  | .MGT_IRQ_THERMAL_IRQ_EN => ⟨.MGT_IRQ, 12, 12, .rwl, 0⟩
  | .MGT_IRQ_MOULT_IRQ_EN => ⟨.MGT_IRQ, 13, 13, .rwl, 0⟩
  | .MGT_MOULT_CTRL_QUIESCE => ⟨.MGT_MOULT_CTRL, 7, 0, .rw, 0⟩
  | .MGT_COUNTER_WRAP_POWER_WARNINGS_WRAPPED => ⟨.MGT_COUNTER_WRAP, 0, 0, .w1c, 0⟩
  | .MGT_COUNTER_WRAP_FAST_LIMITS_WRAPPED => ⟨.MGT_COUNTER_WRAP, 1, 1, .w1c, 0⟩
  | .MGT_COUNTER_WRAP_THROTTLE_STEPS_WRAPPED => ⟨.MGT_COUNTER_WRAP, 2, 2, .w1c, 0⟩
  | .MGT_COUNTER_WRAP_HARD_TRIPS_WRAPPED => ⟨.MGT_COUNTER_WRAP, 3, 3, .w1c, 0⟩
  | .MGT_COUNTER_WRAP_MOULTS_WRAPPED => ⟨.MGT_COUNTER_WRAP, 4, 4, .w1c, 0⟩
  | .MGT_COUNTER_WRAP_LOG_RECORDS_WRAPPED => ⟨.MGT_COUNTER_WRAP, 5, 5, .w1c, 0⟩
  | .MGT_COUNTER_WRAP_LOG_DROPPED_WRAPPED => ⟨.MGT_COUNTER_WRAP, 6, 6, .w1c, 0⟩
  | .MGT_DIE_STATUS_MCLK_MHZ => ⟨.MGT_DIE_STATUS, 9, 0, .ro, 0⟩
  | .MGT_DIE_STATUS_CAUSES => ⟨.MGT_DIE_STATUS, 15, 10, .ro, 0⟩
  | .MGT_DIE_STATUS_TEMP_C => ⟨.MGT_DIE_STATUS, 23, 16, .ro, 0⟩
  | .MGT_DIE_STATUS_RESERVE_FREE => ⟨.MGT_DIE_STATUS, 27, 24, .ro, 0⟩
  | .MGT_DIE_STATUS_MOULT_PENDING => ⟨.MGT_DIE_STATUS, 28, 28, .ro, 0⟩
  | .MGT_DIE_STATUS_QUIESCING => ⟨.MGT_DIE_STATUS, 29, 29, .ro, 0⟩
  | .MGT_POWER_WARNINGS_COUNT => ⟨.MGT_POWER_WARNINGS, 63, 0, .ro, 0⟩
  | .MGT_FAST_LIMITS_COUNT => ⟨.MGT_FAST_LIMITS, 63, 0, .ro, 0⟩
  | .MGT_THROTTLE_STEPS_COUNT => ⟨.MGT_THROTTLE_STEPS, 63, 0, .ro, 0⟩
  | .MGT_HARD_TRIPS_COUNT => ⟨.MGT_HARD_TRIPS, 63, 0, .ro, 0⟩
  | .MGT_MOULTS_COUNT => ⟨.MGT_MOULTS, 63, 0, .ro, 0⟩
  | .MGT_LOG_RECORDS_COUNT => ⟨.MGT_LOG_RECORDS, 63, 0, .ro, 0⟩
  | .MGT_LOG_DROPPED_COUNT => ⟨.MGT_LOG_DROPPED, 63, 0, .ro, 0⟩
  | .MGT_MBX_CMD_OPCODE => ⟨.MGT_MBX_CMD, 3, 0, .wo, 0⟩
  | .MGT_MBX_STATUS_BUSY => ⟨.MGT_MBX_STATUS, 0, 0, .ro, 0⟩
  | .MGT_MBX_STATUS_DONE => ⟨.MGT_MBX_STATUS, 1, 1, .w1c, 0⟩
  | .MGT_MBX_STATUS_OVERRUN => ⟨.MGT_MBX_STATUS, 2, 2, .w1c, 0⟩
  | .MGT_MBX_STATUS_STATUS => ⟨.MGT_MBX_STATUS, 11, 8, .ro, 0⟩
  | .MGT_MBX_DATA_DATA => ⟨.MGT_MBX_DATA, 31, 0, .rw, 0⟩
  | .SEC_SETUP_VECTOR => ⟨.SEC_SETUP, 10, 0, .rwl, 0⟩
  | .SEC_SETUP_IRQ_EN => ⟨.SEC_SETUP, 11, 11, .rwl, 0⟩
  | .SEC_SETUP_WDOG_LOG2 => ⟨.SEC_SETUP, 16, 12, .rwl, 28⟩
  | .SEC_STATUS_REQUIRE_SIGNED => ⟨.SEC_STATUS, 0, 0, .ro, 0⟩
  | .SEC_STATUS_OWNER_KEY_SET => ⟨.SEC_STATUS, 1, 1, .ro, 0⟩
  | .SEC_STATUS_CHAIN_VALID => ⟨.SEC_STATUS, 2, 2, .ro, 0⟩
  | .SEC_STATUS_LOG_FULL => ⟨.SEC_STATUS, 3, 3, .ro, 0⟩
  | .SEC_STATUS_ABI_MIXED => ⟨.SEC_STATUS, 4, 4, .ro, 0⟩
  | .SEC_STATUS_COCOON_EVENT => ⟨.SEC_STATUS, 5, 5, .w1c, 0⟩
  | .SEC_MBX_CMD_OPCODE => ⟨.SEC_MBX_CMD, 3, 0, .wo, 0⟩
  | .SEC_MBX_STATUS_BUSY => ⟨.SEC_MBX_STATUS, 0, 0, .ro, 0⟩
  | .SEC_MBX_STATUS_DONE => ⟨.SEC_MBX_STATUS, 1, 1, .w1c, 0⟩
  | .SEC_MBX_STATUS_OVERRUN => ⟨.SEC_MBX_STATUS, 2, 2, .w1c, 0⟩
  | .SEC_MBX_STATUS_STATUS => ⟨.SEC_MBX_STATUS, 11, 8, .ro, 0⟩
  | .SEC_MBX_STATUS_VERDICT => ⟨.SEC_MBX_STATUS, 14, 12, .ro, 0⟩
  | .SEC_DEVICE_ID_DEVICE_ID => ⟨.SEC_DEVICE_ID, 63, 0, .ro, 0⟩
  | .SEC_LOG_COUNT_COUNT => ⟨.SEC_LOG_COUNT, 31, 0, .ro, 0⟩
  | .SEC_COUNTER_WRAP_LOADS_WRAPPED => ⟨.SEC_COUNTER_WRAP, 0, 0, .w1c, 0⟩
  | .SEC_COUNTER_WRAP_REJECTS_WRAPPED => ⟨.SEC_COUNTER_WRAP, 1, 1, .w1c, 0⟩
  | .SEC_COUNTER_WRAP_WATCHDOGS_WRAPPED => ⟨.SEC_COUNTER_WRAP, 2, 2, .w1c, 0⟩
  | .SEC_COUNTER_WRAP_REPORTS_WRAPPED => ⟨.SEC_COUNTER_WRAP, 3, 3, .w1c, 0⟩
  | .SEC_LOADS_COUNT => ⟨.SEC_LOADS, 63, 0, .ro, 0⟩
  | .SEC_REJECTS_COUNT => ⟨.SEC_REJECTS, 63, 0, .ro, 0⟩
  | .SEC_WATCHDOGS_COUNT => ⟨.SEC_WATCHDOGS, 63, 0, .ro, 0⟩
  | .SEC_REPORTS_COUNT => ⟨.SEC_REPORTS, 63, 0, .ro, 0⟩
  | .SEC_PROC_STATUS_STATE => ⟨.SEC_PROC_STATUS, 1, 0, .ro, 0⟩
  | .SEC_PROC_STATUS_VERDICT => ⟨.SEC_PROC_STATUS, 4, 2, .ro, 0⟩
  | .SEC_PROC_STATUS_WATCHDOG => ⟨.SEC_PROC_STATUS, 5, 5, .ro, 0⟩
  | .SEC_PROC_ABI_ABI_ID => ⟨.SEC_PROC_ABI, 31, 0, .ro, 0⟩
  | .SEC_MR_VALUE => ⟨.SEC_MR, 31, 0, .ro, 0⟩
  | .SEC_MBX_DATA_DATA => ⟨.SEC_MBX_DATA, 31, 0, .rw, 0⟩
  | .SEQ_CTRL_HALT_REQ => ⟨.SEQ_CTRL, 0, 0, .wo, 0⟩
  | .SEQ_CTRL_RESUME => ⟨.SEQ_CTRL, 1, 1, .wo, 0⟩
  | .SEQ_CTRL_CLEAR_HALT => ⟨.SEQ_CTRL, 2, 2, .wo, 0⟩
  | .SEQ_SETUP_STALL_LIMIT_LOG2 => ⟨.SEQ_SETUP, 5, 0, .rwl, 32⟩
  | .SEQ_SETUP_HALT_HOLD => ⟨.SEQ_SETUP, 8, 8, .rwl, 1⟩
  | .SEQ_STATUS_STATE => ⟨.SEQ_STATUS, 1, 0, .ro, 0⟩
  | .SEQ_STATUS_STREAM_LIVE => ⟨.SEQ_STATUS, 5, 2, .ro, 0⟩
  | .SEQ_STATUS_STREAM_QFULL => ⟨.SEQ_STATUS, 9, 6, .ro, 0⟩
  | .SEQ_STATUS_STREAM_SEMWAIT => ⟨.SEQ_STATUS, 13, 10, .ro, 0⟩
  | .SEQ_STATUS_ENGINE_SEMWAIT => ⟨.SEQ_STATUS, 17, 14, .ro, 0⟩
  | .SEQ_GANG_LEAD_LOCAL_ID => ⟨.SEQ_GANG, 6, 0, .ro, 0⟩
  | .SEQ_GANG_SIZE_LOG2 => ⟨.SEQ_GANG, 9, 7, .ro, 0⟩
  | .SEQ_GANG_RANK => ⟨.SEQ_GANG, 15, 10, .ro, 0⟩
  | .SEQ_GANG_CONTEXT => ⟨.SEQ_GANG, 21, 16, .ro, 0⟩
  | .SEQ_QUEUE_LEVEL_THRQ => ⟨.SEQ_QUEUE_LEVEL, 6, 0, .ro, 0⟩
  | .SEQ_QUEUE_LEVEL_MATQ => ⟨.SEQ_QUEUE_LEVEL, 14, 8, .ro, 0⟩
  | .SEQ_QUEUE_LEVEL_GATQ => ⟨.SEQ_QUEUE_LEVEL, 22, 16, .ro, 0⟩
  | .SEQ_QUEUE_LEVEL_SYNQ => ⟨.SEQ_QUEUE_LEVEL, 30, 24, .ro, 0⟩
  | .SEQ_IDENTITY_LOGICAL_LOCAL_ID => ⟨.SEQ_IDENTITY, 6, 0, .ro, 0⟩
  | .SEQ_IDENTITY_ENABLED => ⟨.SEQ_IDENTITY, 8, 8, .ro, 0⟩
  | .SEQ_IDENTITY_RETIRED => ⟨.SEQ_IDENTITY, 9, 9, .ro, 0⟩
  | .SEQ_PC_PC => ⟨.SEQ_PC, 55, 0, .ro, 0⟩
  | .SEQ_HALT_REASON_REASON => ⟨.SEQ_HALT_REASON, 15, 0, .ro, 0⟩
  | .SEQ_HALT_REASON_SOURCE_KIND => ⟨.SEQ_HALT_REASON, 17, 16, .ro, 0⟩
  | .SEQ_HALT_REASON_STREAM => ⟨.SEQ_HALT_REASON, 19, 18, .ro, 0⟩
  | .SEQ_HALT_REASON_GROUP => ⟨.SEQ_HALT_REASON, 25, 20, .ro, 0⟩
  | .SEQ_HALT_ORIGIN_ORIGIN_TILE => ⟨.SEQ_HALT_ORIGIN, 9, 0, .ro, 0⟩
  | .SEQ_HALT_ORIGIN_CONTEXT => ⟨.SEQ_HALT_ORIGIN, 21, 16, .ro, 0⟩
  | .SEQ_HALT_ADDR_ADDR => ⟨.SEQ_HALT_ADDR, 55, 0, .ro, 0⟩
  | .SEQ_STALL_CYCLES_COUNT => ⟨.SEQ_STALL_CYCLES, 63, 0, .ro, 0⟩
  | .SEQ_ISSUE_COUNT => ⟨.SEQ_ISSUE, 63, 0, .ro, 0⟩
  | .SEQ_COUNTER_WRAP_STALL_WRAPPED => ⟨.SEQ_COUNTER_WRAP, 3, 0, .w1c, 0⟩
  | .SEQ_COUNTER_WRAP_ISSUE_WRAPPED => ⟨.SEQ_COUNTER_WRAP, 7, 4, .w1c, 0⟩
  | .SEQ_Q_VALUE => ⟨.SEQ_Q, 63, 0, .ro, 0⟩
  | .THR_SETUP_PROGRESS_LIMIT_LOG2 => ⟨.THR_SETUP, 5, 0, .rwl, 26⟩
  | .THR_STATUS_RESIDENT_GROUPS => ⟨.THR_STATUS, 6, 0, .ro, 0⟩
  | .THR_STATUS_ACTIVE_GROUPS => ⟨.THR_STATUS, 10, 7, .ro, 0⟩
  | .THR_STATUS_RESIDENT_BLOCKS => ⟨.THR_STATUS, 15, 11, .ro, 0⟩
  | .THR_STATUS_FREE_GRANULES => ⟨.THR_STATUS, 25, 16, .ro, 512⟩
  | .THR_STATUS_ANY_DEBUG_HALTED => ⟨.THR_STATUS, 26, 26, .ro, 0⟩
  | .THR_STATUS_ANY_PARKED => ⟨.THR_STATUS, 27, 27, .ro, 0⟩
  | .THR_L1_WAYS_ENABLED => ⟨.THR_L1_WAYS, 7, 0, .ro, 0⟩
  | .THR_L1_WAYS_LOCKED => ⟨.THR_L1_WAYS, 15, 8, .ro, 0⟩
  | .THR_L1_WAYS_DISABLED_EVENT => ⟨.THR_L1_WAYS, 23, 16, .w1c, 0⟩
  | .THR_COUNTER_WRAP_ISSUE_WRAPPED => ⟨.THR_COUNTER_WRAP, 0, 0, .w1c, 0⟩
  | .THR_COUNTER_WRAP_HIT_WRAPPED => ⟨.THR_COUNTER_WRAP, 1, 1, .w1c, 0⟩
  | .THR_COUNTER_WRAP_MISS_WRAPPED => ⟨.THR_COUNTER_WRAP, 2, 2, .w1c, 0⟩
  | .THR_COUNTER_WRAP_SB_FULL_WRAPPED => ⟨.THR_COUNTER_WRAP, 3, 3, .w1c, 0⟩
  | .THR_COUNTER_WRAP_SKIP_WRAPPED => ⟨.THR_COUNTER_WRAP, 4, 4, .w1c, 0⟩
  | .THR_COUNTER_WRAP_CE_WRAPPED => ⟨.THR_COUNTER_WRAP, 12, 5, .w1c, 0⟩
  | .THR_ISSUE_COUNT => ⟨.THR_ISSUE, 63, 0, .ro, 0⟩
  | .THR_L1_HIT_COUNT => ⟨.THR_L1_HIT, 63, 0, .ro, 0⟩
  | .THR_L1_MISS_COUNT => ⟨.THR_L1_MISS, 63, 0, .ro, 0⟩
  | .THR_SB_FULL_CYCLES_COUNT => ⟨.THR_SB_FULL_CYCLES, 63, 0, .ro, 0⟩
  | .THR_PRELOAD_SKIP_COUNT => ⟨.THR_PRELOAD_SKIP, 63, 0, .ro, 0⟩
  | .THR_L1_CE_WAY_COUNT => ⟨.THR_L1_CE_WAY, 63, 0, .ro, 0⟩
  | .GRP_DBG_SEL_GROUP => ⟨.GRP_DBG_SEL, 5, 0, .rw, 0⟩
  | .GRP_DBG_CTRL_HALT => ⟨.GRP_DBG_CTRL, 0, 0, .wo, 0⟩
  | .GRP_DBG_CTRL_RESUME => ⟨.GRP_DBG_CTRL, 1, 1, .wo, 0⟩
  | .GRP_DBG_CTRL_STEP => ⟨.GRP_DBG_CTRL, 2, 2, .wo, 0⟩
  | .GRP_DBG_STATUS_STATE => ⟨.GRP_DBG_STATUS, 2, 0, .ro, 0⟩
  | .GRP_DBG_STATUS_DEBUG_HALTED => ⟨.GRP_DBG_STATUS, 3, 3, .ro, 0⟩
  | .GRP_DBG_STATUS_HALT_PENDING => ⟨.GRP_DBG_STATUS, 4, 4, .ro, 0⟩
  | .GRP_DBG_STATUS_STACK_DEPTH => ⟨.GRP_DBG_STATUS, 10, 5, .ro, 0⟩
  | .GRP_DBG_STATUS_BLOCK_SLOT => ⟨.GRP_DBG_STATUS, 14, 11, .ro, 0⟩
  | .GRP_DBG_STATUS_GROUP_IN_BLOCK => ⟨.GRP_DBG_STATUS, 18, 15, .ro, 0⟩
  | .GRP_DBG_STATUS_GRANULES => ⟨.GRP_DBG_STATUS, 24, 19, .ro, 0⟩
  | .GRP_DBG_MASK_ACTIVE => ⟨.GRP_DBG_MASK, 31, 0, .ro, 0⟩
  | .GRP_DBG_PC_PC => ⟨.GRP_DBG_PC, 55, 0, .rw, 0⟩
  | .GRP_DBG_PROGRESS_COUNT => ⟨.GRP_DBG_PROGRESS, 47, 0, .ro, 0⟩
  | .GRP_DBG_REG_SEL_INDEX => ⟨.GRP_DBG_REG_SEL, 7, 0, .rw, 0⟩
  | .GRP_DBG_REG_SEL_KIND => ⟨.GRP_DBG_REG_SEL, 9, 8, .rw, 0⟩
  | .GRP_DBG_STACK_MASK_MASK => ⟨.GRP_DBG_STACK_MASK, 31, 0, .ro, 0⟩
  | .GRP_DBG_UNIFORM_VALUE => ⟨.GRP_DBG_UNIFORM, 63, 0, .rw, 0⟩
  | .GRP_DBG_STACK_ADDR_ADDR => ⟨.GRP_DBG_STACK_ADDR, 55, 0, .ro, 0⟩
  | .GRP_DBG_STACK_RPC_RPC => ⟨.GRP_DBG_STACK_RPC, 55, 0, .ro, 0⟩
  | .GRP_DBG_VDATA_VALUE => ⟨.GRP_DBG_VDATA, 31, 0, .rw, 0⟩
  | .MAT_SETUP_HAZARD_MODE => ⟨.MAT_SETUP, 1, 0, .rw, 0⟩
  | .MAT_STATUS_LOADER_BUSY => ⟨.MAT_STATUS, 0, 0, .ro, 0⟩
  | .MAT_STATUS_STREAMER_BUSY => ⟨.MAT_STATUS, 1, 1, .ro, 0⟩
  | .MAT_STATUS_STREAMER_GMMA => ⟨.MAT_STATUS, 2, 2, .ro, 0⟩
  | .MAT_STATUS_DRAINER_BUSY => ⟨.MAT_STATUS, 3, 3, .ro, 0⟩
  | .MAT_STATUS_ACTIVE_PLANE => ⟨.MAT_STATUS, 4, 4, .ro, 0⟩
  | .MAT_STATUS_PLANE_A_FORMAT => ⟨.MAT_STATUS, 8, 5, .ro, 0⟩
  | .MAT_STATUS_PLANE_B_FORMAT => ⟨.MAT_STATUS, 12, 9, .ro, 0⟩
  | .MAT_STATUS_PLANE_A_PAIRED => ⟨.MAT_STATUS, 13, 13, .ro, 0⟩
  | .MAT_STATUS_PLANE_B_PAIRED => ⟨.MAT_STATUS, 14, 14, .ro, 0⟩
  | .MAT_STATUS_GMMA_WAITING => ⟨.MAT_STATUS, 21, 15, .ro, 0⟩
  | .MAT_STATUS_FROZEN => ⟨.MAT_STATUS, 22, 22, .ro, 0⟩
  | .MAT_HAZARD_FIRST_VALID => ⟨.MAT_HAZARD_FIRST, 0, 0, .w1c, 0⟩
  | .MAT_HAZARD_FIRST_KIND => ⟨.MAT_HAZARD_FIRST, 3, 1, .ro, 0⟩
  | .MAT_HAZARD_FIRST_ACC_ROW => ⟨.MAT_HAZARD_FIRST, 13, 4, .ro, 0⟩
  | .MAT_HAZARD_FIRST_PLANE_ROW => ⟨.MAT_HAZARD_FIRST, 19, 14, .ro, 0⟩
  | .MAT_HAZARD_FIRST_PLANE => ⟨.MAT_HAZARD_FIRST, 20, 20, .ro, 0⟩
  | .MAT_HAZARD_FIRST_SOURCE => ⟨.MAT_HAZARD_FIRST, 21, 21, .ro, 0⟩
  | .MAT_HAZARD_FIRST_GROUP => ⟨.MAT_HAZARD_FIRST, 27, 22, .ro, 0⟩
  | .MAT_COUNTER_WRAP_HAZARD_WRAPPED => ⟨.MAT_COUNTER_WRAP, 0, 0, .w1c, 0⟩
  | .MAT_COUNTER_WRAP_SAT_WRAPPED => ⟨.MAT_COUNTER_WRAP, 1, 1, .w1c, 0⟩
  | .MAT_COUNTER_WRAP_STREAM_WRAPPED => ⟨.MAT_COUNTER_WRAP, 2, 2, .w1c, 0⟩
  | .MAT_COUNTER_WRAP_GMMA_WRAPPED => ⟨.MAT_COUNTER_WRAP, 3, 3, .w1c, 0⟩
  | .MAT_COUNTER_WRAP_FREEZE_WRAPPED => ⟨.MAT_COUNTER_WRAP, 4, 4, .w1c, 0⟩
  | .MAT_HAZARD_ADDR_ADDR => ⟨.MAT_HAZARD_ADDR, 55, 0, .ro, 0⟩
  | .MAT_HAZARD_COUNT_COUNT => ⟨.MAT_HAZARD_COUNT, 63, 0, .ro, 0⟩
  | .MAT_SAT_COUNT_COUNT => ⟨.MAT_SAT_COUNT, 63, 0, .ro, 0⟩
  | .MAT_STREAM_CYCLES_COUNT => ⟨.MAT_STREAM_CYCLES, 63, 0, .ro, 0⟩
  | .MAT_GMMA_CYCLES_COUNT => ⟨.MAT_GMMA_CYCLES, 63, 0, .ro, 0⟩
  | .MAT_FREEZE_CYCLES_COUNT => ⟨.MAT_FREEZE_CYCLES, 63, 0, .ro, 0⟩
  | .MAT_INSPECT_SEL_INDEX => ⟨.MAT_INSPECT_SEL, 9, 0, .rw, 0⟩
  | .MAT_INSPECT_SEL_KIND => ⟨.MAT_INSPECT_SEL, 11, 10, .rw, 0⟩
  | .MAT_INSPECT_DATA_VALUE => ⟨.MAT_INSPECT_DATA, 31, 0, .ro, 0⟩
  | .SPAD_STATUS_CARVE_ROWS => ⟨.SPAD_STATUS, 10, 0, .ro, 0⟩
  | .GAT_SETUP_READ_LIMIT => ⟨.GAT_SETUP, 9, 0, .rwl, 512⟩
  | .GAT_STATUS_BUSY => ⟨.GAT_STATUS, 0, 0, .ro, 0⟩
  | .GAT_STATUS_IN_FLIGHT => ⟨.GAT_STATUS, 3, 1, .ro, 0⟩
  | .GAT_STATUS_FAULT_STALLED => ⟨.GAT_STATUS, 4, 4, .ro, 0⟩
  | .GAT_STATUS_OUTSTANDING => ⟨.GAT_STATUS, 14, 5, .ro, 0⟩
  | .GAT_COUNTER_WRAP_TRANSFERS_WRAPPED => ⟨.GAT_COUNTER_WRAP, 0, 0, .w1c, 0⟩
  | .GAT_COUNTER_WRAP_READ_WRAPPED => ⟨.GAT_COUNTER_WRAP, 1, 1, .w1c, 0⟩
  | .GAT_COUNTER_WRAP_WRITTEN_WRAPPED => ⟨.GAT_COUNTER_WRAP, 2, 2, .w1c, 0⟩
  | .GAT_COUNTER_WRAP_OOR_WRAPPED => ⟨.GAT_COUNTER_WRAP, 3, 3, .w1c, 0⟩
  | .GAT_COUNTER_WRAP_PAGES_WRAPPED => ⟨.GAT_COUNTER_WRAP, 4, 4, .w1c, 0⟩
  | .GAT_COUNTER_WRAP_PAGE_FAIL_WRAPPED => ⟨.GAT_COUNTER_WRAP, 5, 5, .w1c, 0⟩
  | .GAT_COUNTER_WRAP_STALL_WRAPPED => ⟨.GAT_COUNTER_WRAP, 6, 6, .w1c, 0⟩
  | .SPAD_COUNTER_WRAP_BANK_WRAPPED => ⟨.SPAD_COUNTER_WRAP, 31, 0, .w1c, 0⟩
  | .SPAD_COUNTER_WRAP_ACCESS_WRAPPED => ⟨.SPAD_COUNTER_WRAP, 32, 32, .w1c, 0⟩
  | .SPAD_ACCESS_COUNT => ⟨.SPAD_ACCESS, 63, 0, .ro, 0⟩
  | .GAT_TRANSFERS_COUNT => ⟨.GAT_TRANSFERS, 63, 0, .ro, 0⟩
  | .GAT_BYTES_READ_COUNT => ⟨.GAT_BYTES_READ, 63, 0, .ro, 0⟩
  | .GAT_BYTES_WRITTEN_COUNT => ⟨.GAT_BYTES_WRITTEN, 63, 0, .ro, 0⟩
  | .GAT_OOR_COUNT_COUNT => ⟨.GAT_OOR_COUNT, 63, 0, .ro, 0⟩
  | .GAT_PAGES_COUNT => ⟨.GAT_PAGES, 63, 0, .ro, 0⟩
  | .GAT_PAGE_FAIL_COUNT => ⟨.GAT_PAGE_FAIL, 63, 0, .ro, 0⟩
  | .GAT_FAULT_STALL_CYCLES_COUNT => ⟨.GAT_FAULT_STALL_CYCLES, 63, 0, .ro, 0⟩
  | .SPAD_INSPECT_SEL_ROW => ⟨.SPAD_INSPECT_SEL, 11, 0, .rw, 0⟩
  | .SPAD_CONFLICT_BANK_COUNT => ⟨.SPAD_CONFLICT_BANK, 63, 0, .ro, 0⟩
  | .SPAD_INSPECT_DATA_VALUE => ⟨.SPAD_INSPECT_DATA, 31, 0, .ro, 0⟩

/-- The Registers tables: where each register lies. -/
def Reg.info : Reg → RegInfo
  | .GLB_IDENTITY => ⟨0x000000, 4, []⟩
  | .GLB_CAPABILITY => ⟨0x000004, 4, []⟩
  | .GLB_FW_ABI => ⟨0x000008, 4, []⟩
  | .GLB_COUNTER_WRAP => ⟨0x00000c, 4, []⟩
  | .GLB_POP_COMPUTE => ⟨0x000010, 4, []⟩
  | .GLB_POP_IO => ⟨0x000014, 4, []⟩
  | .GLB_POP_STACKS => ⟨0x000018, 4, []⟩
  | .GLB_POP_LINKS_LO => ⟨0x00001c, 4, []⟩
  | .GLB_POP_LINKS_HI => ⟨0x000020, 4, []⟩
  | .GLB_POP_FIRMWARE => ⟨0x000024, 4, []⟩
  | .GLB_POP_TILES => ⟨0x000028, 4, []⟩
  | .GLB_POP_MEMORY => ⟨0x00002c, 4, []⟩
  | .GLB_ACCESS_ERRORS => ⟨0x000040, 8, []⟩
  | .GLB_MEM_ABSENT => ⟨0x000048, 8, []⟩
  | .GLB_POWERED_TIME => ⟨0x000100, 8, []⟩
  | .CLK_STATUS => ⟨0x010000, 4, []⟩
  | .CLK_RESET_CAUSE => ⟨0x010004, 4, []⟩
  | .CLK_RESET_CTRL => ⟨0x010008, 4, []⟩
  | .CLK_LOCK => ⟨0x01000c, 4, []⟩
  | .CLK_RESET_TIME => ⟨0x010010, 8, []⟩
  | .CLK_PART_RESETS => ⟨0x010018, 8, []⟩
  | .CLK_COUNTER_WRAP => ⟨0x010800, 4, [(12, 4)]⟩
  | .CLK_COUNT => ⟨0x011000, 8, [(362, 8)]⟩
  | .CTX_CTRL => ⟨0x020000, 4, [(64, 256)]⟩
  | .CTX_STATUS => ⟨0x020004, 4, [(64, 256)]⟩
  | .CTX_SETUP => ⟨0x020008, 4, [(64, 256)]⟩
  | .CTX_FAULT => ⟨0x02000c, 4, [(64, 256)]⟩
  | .CTX_S1_ROOT => ⟨0x020010, 8, [(64, 256)]⟩
  | .CTX_FAULT_HALT => ⟨0x020018, 4, [(64, 256)]⟩
  | .CTX_FAULT_ENDPOINT => ⟨0x02001c, 4, [(64, 256)]⟩
  | .CTX_COUNTER_WRAP => ⟨0x020020, 4, [(64, 256)]⟩
  | .CTX_OUTSTANDING => ⟨0x020024, 4, [(64, 256)]⟩
  | .CTX_DESCRIPTORS => ⟨0x020028, 8, [(64, 256)]⟩
  | .CTX_ITEMS_DONE => ⟨0x020030, 8, [(64, 256)]⟩
  | .CTX_ITEMS_FAILED => ⟨0x020038, 8, [(64, 256)]⟩
  | .QUE_SQ_CTRL => ⟨0x040000, 4, [(1024, 64)]⟩
  | .QUE_SQ_SETUP => ⟨0x040004, 4, [(1024, 64)]⟩
  | .QUE_SQ_BASE => ⟨0x040008, 8, [(1024, 64)]⟩
  | .QUE_SQ_DOORBELL => ⟨0x040010, 8, [(1024, 64)]⟩
  | .QUE_SQ_STATUS => ⟨0x040018, 4, [(1024, 64)]⟩
  | .QUE_SQ_CONSUMER => ⟨0x04001c, 4, [(1024, 64)]⟩
  | .QUE_SQ_INFLIGHT => ⟨0x040020, 4, [(1024, 64)]⟩
  | .QUE_CQ_CTRL => ⟨0x050000, 4, [(1024, 64)]⟩
  | .QUE_CQ_SETUP => ⟨0x050004, 4, [(1024, 64)]⟩
  | .QUE_CQ_BASE => ⟨0x050008, 8, [(1024, 64)]⟩
  | .QUE_CQ_CONS_LINE => ⟨0x050010, 8, [(1024, 64)]⟩
  | .QUE_CQ_STATUS => ⟨0x050018, 4, [(1024, 64)]⟩
  | .QUE_CQ_PRODUCER => ⟨0x05001c, 4, [(1024, 64)]⟩
  | .QUE_ERING_SETUP => ⟨0x060000, 4, []⟩
  | .QUE_ERING_STATUS => ⟨0x060004, 4, []⟩
  | .QUE_ERING_BASE => ⟨0x060008, 8, []⟩
  | .QUE_ERING_CONS_LINE => ⟨0x060010, 8, []⟩
  | .QUE_ERING_NEXT => ⟨0x060018, 4, []⟩
  | .QUE_ERING_CTRL => ⟨0x06001c, 4, []⟩
  | .QUE_ERR_DROPPED => ⟨0x060020, 8, []⟩
  | .QUE_COUNTER_WRAP => ⟨0x060028, 4, []⟩
  | .OBJ_STATUS => ⟨0x080000, 4, []⟩
  | .OBJ_COUNTER_WRAP => ⟨0x080004, 4, []⟩
  | .OBJ_TABLE_BASE => ⟨0x080008, 8, []⟩
  | .OBJ_REGISTERED => ⟨0x080010, 8, []⟩
  | .OBJ_RELEASED => ⟨0x080018, 8, []⟩
  | .OBJ_STALE_ITEMS => ⟨0x080020, 8, []⟩
  | .FEN_SETUP => ⟨0x090000, 4, []⟩
  | .FEN_COUNTER_WRAP => ⟨0x090004, 4, []⟩
  | .FEN_REGRESS => ⟨0x090008, 8, []⟩
  | .FEN_SIGNALS => ⟨0x090010, 8, []⟩
  | .XLT_SETUP => ⟨0x0a0000, 4, []⟩
  | .XLT_STATUS => ⟨0x0a0004, 4, []⟩
  | .XLT_CTRL => ⟨0x0a0008, 4, []⟩
  | .XLT_COUNTER_WRAP => ⟨0x0a000c, 4, []⟩
  | .XLT_S2_ROOT => ⟨0x0a0010, 8, []⟩
  | .XLT_FRING_BASE => ⟨0x0a0018, 8, []⟩
  | .XLT_FRING_CONS_LINE => ⟨0x0a0020, 8, []⟩
  | .XLT_RRING_BASE => ⟨0x0a0028, 8, []⟩
  | .XLT_RRING_PROD_LINE => ⟨0x0a0030, 8, []⟩
  | .XLT_FRING_NEXT => ⟨0x0a0038, 4, []⟩
  | .XLT_RRING_NEXT => ⟨0x0a003c, 4, []⟩
  | .XLT_WALKS => ⟨0x0a0040, 8, []⟩
  | .XLT_FAULTS => ⟨0x0a0048, 8, []⟩
  | .XLT_RESP_IGNORED => ⟨0x0a0050, 8, []⟩
  | .XLT_INVALIDATIONS => ⟨0x0a0058, 8, []⟩
  | .XLT_TABLE_FULL_CYCLES => ⟨0x0a0060, 8, []⟩
  | .XLT_WALKER_STATUS => ⟨0x0a0100, 8, [(8, 8)]⟩
  | .XLTC_STATUS => ⟨0x1d0000, 4, [(832, 64)]⟩
  | .XLTC_COUNTER_WRAP => ⟨0x1d0004, 4, [(832, 64)]⟩
  | .XLTC_LOOKUPS => ⟨0x1d0008, 8, [(832, 64)]⟩
  | .XLTC_MISSES => ⟨0x1d0010, 8, [(832, 64)]⟩
  | .XLTC_FAULTS => ⟨0x1d0018, 8, [(832, 64)]⟩
  | .SYN_SEM => ⟨0x190000, 4, [(832, 256), (32, 4)]⟩
  | .SYN_STATUS => ⟨0x190080, 4, [(832, 256)]⟩
  | .SYN_BAR_SENSE => ⟨0x190084, 4, [(832, 256)]⟩
  | .SYN_COUNTER_WRAP => ⟨0x190088, 4, [(832, 256)]⟩
  | .SYN_SIGNALS => ⟨0x190090, 8, [(832, 256)]⟩
  | .SYN_WAIT_CYCLES => ⟨0x190098, 8, [(832, 256)]⟩
  | .SYN_BARRIERS => ⟨0x1900a0, 8, [(832, 256)]⟩
  | .SYN_BAR_ERRORS => ⟨0x1900a8, 8, [(832, 256)]⟩
  | .SYN_SEM_SATURATE => ⟨0x1900b0, 8, [(832, 256)]⟩
  | .HBM_SETUP => ⟨0x0b0000, 4, [(16, 4096)]⟩
  | .HBM_STATUS => ⟨0x0b0004, 4, [(16, 4096)]⟩
  | .HBM_REPAIR => ⟨0x0b0008, 4, [(16, 4096)]⟩
  | .HBM_COUNTER_WRAP => ⟨0x0b000c, 4, [(16, 4096)]⟩
  | .HBM_EYESPOT_FIRST => ⟨0x0b0010, 8, [(16, 4096)]⟩
  | .HBM_READS => ⟨0x0b0018, 8, [(16, 4096)]⟩
  | .HBM_WRITES => ⟨0x0b0020, 8, [(16, 4096)]⟩
  | .HBM_CE => ⟨0x0b0028, 8, [(16, 4096)]⟩
  | .HBM_UE => ⟨0x0b0030, 8, [(16, 4096)]⟩
  | .HBM_EYESPOT_READS => ⟨0x0b0038, 8, [(16, 4096)]⟩
  | .HBM_THROTTLE_CYCLES => ⟨0x0b0040, 8, [(16, 4096)]⟩
  | .HBM_REFETCH => ⟨0x0b0048, 8, [(16, 4096)]⟩
  | .HBM_REFETCH_FAIL => ⟨0x0b0050, 8, [(16, 4096)]⟩
  | .HBM_ODECC => ⟨0x0b0058, 8, [(16, 4096)]⟩
  | .HBM_ABSENT => ⟨0x0b0060, 4, [(16, 4096)]⟩
  | .HBM_REMAP_SEL => ⟨0x0b0080, 4, [(16, 4096)]⟩
  | .HBM_REMAP_DATA => ⟨0x0b0088, 8, [(16, 4096)]⟩
  | .FAB_SETUP => ⟨0x0c0000, 4, []⟩
  | .FAB_STATUS => ⟨0x0c0004, 4, []⟩
  | .FAB_IRQ => ⟨0x0c0008, 4, []⟩
  | .FAB_COUNTER_WRAP => ⟨0x0c000c, 4, []⟩
  | .FAB_DIM => ⟨0x0c0010, 4, [(6, 4)]⟩
  | .FAB_DIR => ⟨0x0c0040, 8, [(12, 8)]⟩
  | .FAB_PUTS => ⟨0x0c0100, 8, []⟩
  | .FAB_GETS => ⟨0x0c0108, 8, []⟩
  | .FAB_ATOMICS => ⟨0x0c0110, 8, []⟩
  | .FAB_RX_REQUESTS => ⟨0x0c0118, 8, []⟩
  | .FAB_UNROUTABLE => ⟨0x0c0120, 8, []⟩
  | .FAB_LATE_RESPONSES => ⟨0x0c0128, 8, []⟩
  | .FAB_DEAD_DECLARED => ⟨0x0c0130, 8, []⟩
  | .FAB_RX_FAILED => ⟨0x0c0138, 8, []⟩
  | .FAB_LINK_CTRL => ⟨0x0c1000, 4, [(36, 64)]⟩
  | .FAB_LINK_STATUS => ⟨0x0c1004, 4, [(36, 64)]⟩
  | .FAB_LINK_PEER => ⟨0x0c1008, 4, [(36, 64)]⟩
  | .FAB_LINK_COUNTER_WRAP => ⟨0x0c100c, 4, [(36, 64)]⟩
  | .FAB_LINK_FEC_CORRECTED => ⟨0x0c1010, 8, [(36, 64)]⟩
  | .FAB_LINK_FEC_UNCORRECTABLE => ⟨0x0c1018, 8, [(36, 64)]⟩
  | .FAB_LINK_CRC_ERRORS => ⟨0x0c1020, 8, [(36, 64)]⟩
  | .FAB_LINK_REPLAYS => ⟨0x0c1028, 8, [(36, 64)]⟩
  | .FAB_LINK_RETRAINS => ⟨0x0c1030, 8, [(36, 64)]⟩
  | .FAB_LINK_FRAMES => ⟨0x0c1038, 8, [(36, 64)]⟩
  | .FAB_COLL_SETUP => ⟨0x0c2000, 8, [(64, 64)]⟩
  | .FAB_COLL_STATUS => ⟨0x0c2008, 4, [(64, 64)]⟩
  | .FAB_COLL_FENCE => ⟨0x0c200c, 4, [(64, 64)]⟩
  | .FAB_COLL_RESULT => ⟨0x0c2010, 8, [(64, 64)]⟩
  | .FAB_COLL_ROUND => ⟨0x0c2018, 8, [(64, 64)]⟩
  | .FAB_COLL_CHILD => ⟨0x0c2020, 8, [(64, 64), (4, 8)]⟩
  | .FAB_DEAD => ⟨0x0d0000, 4, [(8192, 4)]⟩
  | .CHL_SETUP => ⟨0x0e0000, 4, []⟩
  | .CHL_SF_STATUS => ⟨0x0e0004, 4, []⟩
  | .CHL_COUNTER_WRAP => ⟨0x0e0008, 4, []⟩
  | .CHL_SF_EVICTIONS => ⟨0x0e0010, 8, []⟩
  | .CHL_SNOOPS => ⟨0x0e0018, 8, []⟩
  | .CHL_HOMEMAP => ⟨0x0e0040, 8, [(8, 8)]⟩
  | .CHL_PORT_CTRL => ⟨0x0e0100, 4, [(2, 128)]⟩
  | .CHL_PORT_STATUS => ⟨0x0e0104, 4, [(2, 128)]⟩
  | .CHL_PORT_FEC_CORRECTED => ⟨0x0e0108, 8, [(2, 128)]⟩
  | .CHL_PORT_CRC_ERRORS => ⟨0x0e0110, 8, [(2, 128)]⟩
  | .CHL_PORT_REPLAYS => ⟨0x0e0118, 8, [(2, 128)]⟩
  | .CHL_PORT_RETRAINS => ⟨0x0e0120, 8, [(2, 128)]⟩
  | .CHL_PORT_TIMEOUTS => ⟨0x0e0128, 8, [(2, 128)]⟩
  | .CHL_PORT_NOHOME => ⟨0x0e0130, 8, [(2, 128)]⟩
  | .CHL_MSI_ADDR => ⟨0x0e8000, 8, [(2048, 16)]⟩
  | .CHL_MSI_DATA => ⟨0x0e8008, 4, [(2048, 16)]⟩
  | .CHL_MSI_CTRL => ⟨0x0e800c, 4, [(2048, 16)]⟩
  | .MGT_SETUP => ⟨0x0f0000, 4, []⟩
  | .MGT_LIMITS => ⟨0x0f0004, 4, []⟩
  | .MGT_STATUS => ⟨0x0f0008, 4, []⟩
  | .MGT_IRQ => ⟨0x0f000c, 4, []⟩
  | .MGT_MOULT_CTRL => ⟨0x0f0010, 4, []⟩
  | .MGT_COUNTER_WRAP => ⟨0x0f0014, 4, []⟩
  | .MGT_DIE_STATUS => ⟨0x0f0020, 4, [(8, 4)]⟩
  | .MGT_POWER_WARNINGS => ⟨0x0f0040, 8, []⟩
  | .MGT_FAST_LIMITS => ⟨0x0f0048, 8, []⟩
  | .MGT_THROTTLE_STEPS => ⟨0x0f0050, 8, []⟩
  | .MGT_HARD_TRIPS => ⟨0x0f0058, 8, []⟩
  | .MGT_MOULTS => ⟨0x0f0060, 8, []⟩
  | .MGT_LOG_RECORDS => ⟨0x0f0068, 8, []⟩
  | .MGT_LOG_DROPPED => ⟨0x0f0070, 8, []⟩
  | .MGT_MBX_CMD => ⟨0x0f0080, 4, []⟩
  | .MGT_MBX_STATUS => ⟨0x0f0084, 4, []⟩
  | .MGT_MBX_DATA => ⟨0x0f1000, 4, [(1024, 4)]⟩
  | .SEC_SETUP => ⟨0x100000, 4, []⟩
  | .SEC_STATUS => ⟨0x100004, 4, []⟩
  | .SEC_MBX_CMD => ⟨0x100008, 4, []⟩
  | .SEC_MBX_STATUS => ⟨0x10000c, 4, []⟩
  | .SEC_DEVICE_ID => ⟨0x100010, 8, []⟩
  | .SEC_LOG_COUNT => ⟨0x100018, 4, []⟩
  | .SEC_COUNTER_WRAP => ⟨0x10001c, 4, []⟩
  | .SEC_LOADS => ⟨0x100020, 8, []⟩
  | .SEC_REJECTS => ⟨0x100028, 8, []⟩
  | .SEC_WATCHDOGS => ⟨0x100030, 8, []⟩
  | .SEC_REPORTS => ⟨0x100038, 8, []⟩
  | .SEC_PROC_STATUS => ⟨0x100100, 4, [(22, 4)]⟩
  | .SEC_PROC_ABI => ⟨0x100200, 4, [(22, 4)]⟩
  | .SEC_MR => ⟨0x100400, 4, [(16, 64), (16, 4)]⟩
  | .SEC_MBX_DATA => ⟨0x101000, 4, [(1024, 4)]⟩
  | .SEQ_CTRL => ⟨0x200000, 4, [(832, 4096)]⟩
  | .SEQ_SETUP => ⟨0x200004, 4, [(832, 4096)]⟩
  | .SEQ_STATUS => ⟨0x200008, 4, [(832, 4096)]⟩
  | .SEQ_GANG => ⟨0x20000c, 4, [(832, 4096)]⟩
  | .SEQ_QUEUE_LEVEL => ⟨0x200010, 4, [(832, 4096)]⟩
  | .SEQ_IDENTITY => ⟨0x200014, 4, [(832, 4096)]⟩
  | .SEQ_PC => ⟨0x200018, 8, [(832, 4096), (4, 8)]⟩
  | .SEQ_HALT_REASON => ⟨0x200040, 4, [(832, 4096)]⟩
  | .SEQ_HALT_ORIGIN => ⟨0x200044, 4, [(832, 4096)]⟩
  | .SEQ_HALT_ADDR => ⟨0x200048, 8, [(832, 4096)]⟩
  | .SEQ_STALL_CYCLES => ⟨0x200080, 8, [(832, 4096), (4, 8)]⟩
  | .SEQ_ISSUE => ⟨0x2000a0, 8, [(832, 4096), (4, 8)]⟩
  | .SEQ_COUNTER_WRAP => ⟨0x2000c0, 4, [(832, 4096)]⟩
  | .SEQ_Q => ⟨0x200100, 8, [(832, 4096), (4, 128), (16, 8)]⟩
  | .THR_SETUP => ⟨0x200300, 4, [(832, 4096)]⟩
  | .THR_STATUS => ⟨0x200304, 4, [(832, 4096)]⟩
  | .THR_L1_WAYS => ⟨0x200308, 4, [(832, 4096)]⟩
  | .THR_COUNTER_WRAP => ⟨0x20030c, 4, [(832, 4096)]⟩
  | .THR_ISSUE => ⟨0x200310, 8, [(832, 4096)]⟩
  | .THR_L1_HIT => ⟨0x200318, 8, [(832, 4096)]⟩
  | .THR_L1_MISS => ⟨0x200320, 8, [(832, 4096)]⟩
  | .THR_SB_FULL_CYCLES => ⟨0x200328, 8, [(832, 4096)]⟩
  | .THR_PRELOAD_SKIP => ⟨0x200330, 8, [(832, 4096)]⟩
  | .THR_L1_CE_WAY => ⟨0x200340, 8, [(832, 4096), (8, 8)]⟩
  | .GRP_DBG_SEL => ⟨0x200380, 4, [(832, 4096)]⟩
  | .GRP_DBG_CTRL => ⟨0x200384, 4, [(832, 4096)]⟩
  | .GRP_DBG_STATUS => ⟨0x200388, 4, [(832, 4096)]⟩
  | .GRP_DBG_MASK => ⟨0x20038c, 4, [(832, 4096)]⟩
  | .GRP_DBG_PC => ⟨0x200390, 8, [(832, 4096)]⟩
  | .GRP_DBG_PROGRESS => ⟨0x200398, 8, [(832, 4096)]⟩
  | .GRP_DBG_REG_SEL => ⟨0x2003a0, 4, [(832, 4096)]⟩
  | .GRP_DBG_STACK_MASK => ⟨0x2003a4, 4, [(832, 4096)]⟩
  | .GRP_DBG_UNIFORM => ⟨0x2003a8, 8, [(832, 4096)]⟩
  | .GRP_DBG_STACK_ADDR => ⟨0x2003b0, 8, [(832, 4096)]⟩
  | .GRP_DBG_STACK_RPC => ⟨0x2003b8, 8, [(832, 4096)]⟩
  | .GRP_DBG_VDATA => ⟨0x200400, 4, [(832, 4096), (32, 4)]⟩
  | .MAT_SETUP => ⟨0x200600, 4, [(832, 4096)]⟩
  | .MAT_STATUS => ⟨0x200604, 4, [(832, 4096)]⟩
  | .MAT_HAZARD_FIRST => ⟨0x200608, 4, [(832, 4096)]⟩
  | .MAT_COUNTER_WRAP => ⟨0x20060c, 4, [(832, 4096)]⟩
  | .MAT_HAZARD_ADDR => ⟨0x200610, 8, [(832, 4096)]⟩
  | .MAT_HAZARD_COUNT => ⟨0x200618, 8, [(832, 4096)]⟩
  | .MAT_SAT_COUNT => ⟨0x200620, 8, [(832, 4096)]⟩
  | .MAT_STREAM_CYCLES => ⟨0x200628, 8, [(832, 4096)]⟩
  | .MAT_GMMA_CYCLES => ⟨0x200630, 8, [(832, 4096)]⟩
  | .MAT_FREEZE_CYCLES => ⟨0x200638, 8, [(832, 4096)]⟩
  | .MAT_INSPECT_SEL => ⟨0x200640, 4, [(832, 4096)]⟩
  | .MAT_INSPECT_DATA => ⟨0x200700, 4, [(832, 4096), (64, 4)]⟩
  | .SPAD_STATUS => ⟨0x200800, 4, [(832, 4096)]⟩
  | .GAT_SETUP => ⟨0x200804, 4, [(832, 4096)]⟩
  | .GAT_STATUS => ⟨0x200808, 4, [(832, 4096)]⟩
  | .GAT_COUNTER_WRAP => ⟨0x20080c, 4, [(832, 4096)]⟩
  | .SPAD_COUNTER_WRAP => ⟨0x200810, 8, [(832, 4096)]⟩
  | .SPAD_ACCESS => ⟨0x200818, 8, [(832, 4096)]⟩
  | .GAT_TRANSFERS => ⟨0x200820, 8, [(832, 4096)]⟩
  | .GAT_BYTES_READ => ⟨0x200828, 8, [(832, 4096)]⟩
  | .GAT_BYTES_WRITTEN => ⟨0x200830, 8, [(832, 4096)]⟩
  | .GAT_OOR_COUNT => ⟨0x200838, 8, [(832, 4096)]⟩
  | .GAT_PAGES => ⟨0x200840, 8, [(832, 4096)]⟩
  | .GAT_PAGE_FAIL => ⟨0x200848, 8, [(832, 4096)]⟩
  | .GAT_FAULT_STALL_CYCLES => ⟨0x200850, 8, [(832, 4096)]⟩
  | .SPAD_INSPECT_SEL => ⟨0x200858, 4, [(832, 4096)]⟩
  | .SPAD_CONFLICT_BANK => ⟨0x200900, 8, [(832, 4096), (32, 8)]⟩
  | .SPAD_INSPECT_DATA => ⟨0x200c00, 4, [(832, 4096), (256, 4)]⟩

/-- The fields of each register. -/
def Reg.fields : Reg → List Fld
  | .GLB_IDENTITY => [.GLB_IDENTITY_PART_NUMBER, .GLB_IDENTITY_STEPPING]
  | .GLB_CAPABILITY => [.GLB_CAPABILITY_VERSION, .GLB_CAPABILITY_TILES_PER_DIE, .GLB_CAPABILITY_RESERVE_PER_DIE, .GLB_CAPABILITY_STACK_GIB]
  | .GLB_FW_ABI => [.GLB_FW_ABI_ABI_ID]
  | .GLB_COUNTER_WRAP => [.GLB_COUNTER_WRAP_ACCESS_WRAPPED, .GLB_COUNTER_WRAP_MEM_ABSENT_WRAPPED]
  | .GLB_POP_COMPUTE => [.GLB_POP_COMPUTE_DIES, .GLB_POP_COMPUTE_CODEC]
  | .GLB_POP_IO => [.GLB_POP_IO_DIES]
  | .GLB_POP_STACKS => [.GLB_POP_STACKS_PRESENT, .GLB_POP_STACKS_FITTED]
  | .GLB_POP_LINKS_LO => [.GLB_POP_LINKS_LO_LINKS]
  | .GLB_POP_LINKS_HI => [.GLB_POP_LINKS_HI_LINKS, .GLB_POP_LINKS_HI_CONNECTORS]
  | .GLB_POP_FIRMWARE => [.GLB_POP_FIRMWARE_PROCESSORS]
  | .GLB_POP_TILES => [.GLB_POP_TILES_ENABLED_TILES]
  | .GLB_POP_MEMORY => [.GLB_POP_MEMORY_MEMORY_GIB]
  | .GLB_ACCESS_ERRORS => [.GLB_ACCESS_ERRORS_COUNT]
  | .GLB_MEM_ABSENT => [.GLB_MEM_ABSENT_COUNT]
  | .GLB_POWERED_TIME => [.GLB_POWERED_TIME_TIME]
  | .CLK_STATUS => [.CLK_STATUS_PLLS_LOCKED, .CLK_STATUS_HW_READY, .CLK_STATUS_STACKS_OPEN]
  | .CLK_RESET_CAUSE => [.CLK_RESET_CAUSE_CAUSE, .CLK_RESET_CAUSE_DOMAIN, .CLK_RESET_CAUSE_COUNTER_INDEX]
  | .CLK_RESET_CTRL => [.CLK_RESET_CTRL_PART_RESET, .CLK_RESET_CTRL_KEY]
  | .CLK_LOCK => [.CLK_LOCK_SETUP_LOCK]
  | .CLK_RESET_TIME => [.CLK_RESET_TIME_TIME]
  | .CLK_PART_RESETS => [.CLK_PART_RESETS_COUNT]
  | .CLK_COUNTER_WRAP => [.CLK_COUNTER_WRAP_WRAPPED]
  | .CLK_COUNT => [.CLK_COUNT_COUNT]
  | .CTX_CTRL => [.CTX_CTRL_OPEN, .CTX_CTRL_START, .CTX_CTRL_ABORT, .CTX_CTRL_DESTROY]
  | .CTX_STATUS => [.CTX_STATUS_STATE, .CTX_STATUS_SQS, .CTX_STATUS_CQS]
  | .CTX_SETUP => [.CTX_SETUP_VA_BITS, .CTX_SETUP_INTERLEAVE, .CTX_SETUP_STOP_ON_FAULT]
  | .CTX_FAULT => [.CTX_FAULT_HALT, .CTX_FAULT_DEST_DEAD, .CTX_FAULT_UNSERVICEABLE]
  | .CTX_S1_ROOT => [.CTX_S1_ROOT_ADDR]
  | .CTX_FAULT_HALT => [.CTX_FAULT_HALT_TILE, .CTX_FAULT_HALT_REASON]
  | .CTX_FAULT_ENDPOINT => [.CTX_FAULT_ENDPOINT_ENDPOINT]
  | .CTX_COUNTER_WRAP => [.CTX_COUNTER_WRAP_DESCRIPTORS_WRAPPED, .CTX_COUNTER_WRAP_DONE_WRAPPED, .CTX_COUNTER_WRAP_FAILED_WRAPPED]
  | .CTX_OUTSTANDING => [.CTX_OUTSTANDING_COUNT]
  | .CTX_DESCRIPTORS => [.CTX_DESCRIPTORS_COUNT]
  | .CTX_ITEMS_DONE => [.CTX_ITEMS_DONE_COUNT]
  | .CTX_ITEMS_FAILED => [.CTX_ITEMS_FAILED_COUNT]
  | .QUE_SQ_CTRL => [.QUE_SQ_CTRL_ENABLE, .QUE_SQ_CTRL_SETUP_ERROR]
  | .QUE_SQ_SETUP => [.QUE_SQ_SETUP_CONTEXT, .QUE_SQ_SETUP_SIZE_LOG2, .QUE_SQ_SETUP_SERVE_DIE, .QUE_SQ_SETUP_PRIORITY, .QUE_SQ_SETUP_CQ]
  | .QUE_SQ_BASE => [.QUE_SQ_BASE_ADDR]
  | .QUE_SQ_DOORBELL => [.QUE_SQ_DOORBELL_ADDR]
  | .QUE_SQ_STATUS => [.QUE_SQ_STATUS_STATE, .QUE_SQ_STATUS_HELD]
  | .QUE_SQ_CONSUMER => [.QUE_SQ_CONSUMER_INDEX]
  | .QUE_SQ_INFLIGHT => [.QUE_SQ_INFLIGHT_COUNT]
  | .QUE_CQ_CTRL => [.QUE_CQ_CTRL_ENABLE, .QUE_CQ_CTRL_SETUP_ERROR]
  | .QUE_CQ_SETUP => [.QUE_CQ_SETUP_CONTEXT, .QUE_CQ_SETUP_SIZE_LOG2, .QUE_CQ_SETUP_VECTOR, .QUE_CQ_SETUP_IRQ_EN, .QUE_CQ_SETUP_IRQ_ALL, .QUE_CQ_SETUP_HOLDOFF_LOG2]
  | .QUE_CQ_BASE => [.QUE_CQ_BASE_ADDR]
  | .QUE_CQ_CONS_LINE => [.QUE_CQ_CONS_LINE_ADDR]
  | .QUE_CQ_STATUS => [.QUE_CQ_STATUS_STATE, .QUE_CQ_STATUS_FULL, .QUE_CQ_STATUS_WAITING]
  | .QUE_CQ_PRODUCER => [.QUE_CQ_PRODUCER_INDEX]
  | .QUE_ERING_SETUP => [.QUE_ERING_SETUP_SIZE_LOG2, .QUE_ERING_SETUP_VECTOR, .QUE_ERING_SETUP_IRQ_EN, .QUE_ERING_SETUP_HOLDOFF_LOG2, .QUE_ERING_SETUP_ENABLE]
  | .QUE_ERING_STATUS => [.QUE_ERING_STATUS_RING_FAULT, .QUE_ERING_STATUS_FULL, .QUE_ERING_STATUS_HELD]
  | .QUE_ERING_BASE => [.QUE_ERING_BASE_ADDR]
  | .QUE_ERING_CONS_LINE => [.QUE_ERING_CONS_LINE_ADDR]
  | .QUE_ERING_NEXT => [.QUE_ERING_NEXT_SEQUENCE]
  | .QUE_ERING_CTRL => [.QUE_ERING_CTRL_RING_RETRY]
  | .QUE_ERR_DROPPED => [.QUE_ERR_DROPPED_COUNT]
  | .QUE_COUNTER_WRAP => [.QUE_COUNTER_WRAP_WRAPPED]
  | .OBJ_STATUS => [.OBJ_STATUS_READY, .OBJ_STATUS_LIVE]
  | .OBJ_COUNTER_WRAP => [.OBJ_COUNTER_WRAP_REGISTERED_WRAPPED, .OBJ_COUNTER_WRAP_RELEASED_WRAPPED, .OBJ_COUNTER_WRAP_STALE_WRAPPED]
  | .OBJ_TABLE_BASE => [.OBJ_TABLE_BASE_ADDR]
  | .OBJ_REGISTERED => [.OBJ_REGISTERED_COUNT]
  | .OBJ_RELEASED => [.OBJ_RELEASED_COUNT]
  | .OBJ_STALE_ITEMS => [.OBJ_STALE_ITEMS_COUNT]
  | .FEN_SETUP => [.FEN_SETUP_LOG_REGRESS]
  | .FEN_COUNTER_WRAP => [.FEN_COUNTER_WRAP_REGRESS_WRAPPED, .FEN_COUNTER_WRAP_SIGNALS_WRAPPED]
  | .FEN_REGRESS => [.FEN_REGRESS_COUNT]
  | .FEN_SIGNALS => [.FEN_SIGNALS_COUNT]
  | .XLT_SETUP => [.XLT_SETUP_IPA_BITS, .XLT_SETUP_FRING_LOG2, .XLT_SETUP_RRING_LOG2, .XLT_SETUP_FAULT_VECTOR, .XLT_SETUP_FAULT_IRQ_EN, .XLT_SETUP_HOLDOFF_LOG2]
  | .XLT_STATUS => [.XLT_STATUS_RING_FAULT, .XLT_STATUS_FRING_FULL]
  | .XLT_CTRL => [.XLT_CTRL_RING_RETRY]
  | .XLT_COUNTER_WRAP => [.XLT_COUNTER_WRAP_WALKS_WRAPPED, .XLT_COUNTER_WRAP_FAULTS_WRAPPED, .XLT_COUNTER_WRAP_IGNORED_WRAPPED, .XLT_COUNTER_WRAP_INV_WRAPPED, .XLT_COUNTER_WRAP_FULL_WRAPPED]
  | .XLT_S2_ROOT => [.XLT_S2_ROOT_TARGET, .XLT_S2_ROOT_ADDR]
  | .XLT_FRING_BASE => [.XLT_FRING_BASE_ADDR]
  | .XLT_FRING_CONS_LINE => [.XLT_FRING_CONS_LINE_ADDR]
  | .XLT_RRING_BASE => [.XLT_RRING_BASE_ADDR]
  | .XLT_RRING_PROD_LINE => [.XLT_RRING_PROD_LINE_ADDR]
  | .XLT_FRING_NEXT => [.XLT_FRING_NEXT_SEQUENCE]
  | .XLT_RRING_NEXT => [.XLT_RRING_NEXT_COUNT]
  | .XLT_WALKS => [.XLT_WALKS_COUNT]
  | .XLT_FAULTS => [.XLT_FAULTS_COUNT]
  | .XLT_RESP_IGNORED => [.XLT_RESP_IGNORED_COUNT]
  | .XLT_INVALIDATIONS => [.XLT_INVALIDATIONS_COUNT]
  | .XLT_TABLE_FULL_CYCLES => [.XLT_TABLE_FULL_CYCLES_COUNT]
  | .XLT_WALKER_STATUS => [.XLT_WALKER_STATUS_WALKS, .XLT_WALKER_STATUS_PENDING, .XLT_WALKER_STATUS_UNREPORTED]
  | .XLTC_STATUS => [.XLTC_STATUS_VALID_ENTRIES, .XLTC_STATUS_WALK_WAIT, .XLTC_STATUS_FAULT_WAIT]
  | .XLTC_COUNTER_WRAP => [.XLTC_COUNTER_WRAP_LOOKUPS_WRAPPED, .XLTC_COUNTER_WRAP_MISSES_WRAPPED, .XLTC_COUNTER_WRAP_FAULTS_WRAPPED]
  | .XLTC_LOOKUPS => [.XLTC_LOOKUPS_COUNT]
  | .XLTC_MISSES => [.XLTC_MISSES_COUNT]
  | .XLTC_FAULTS => [.XLTC_FAULTS_COUNT]
  | .SYN_SEM => [.SYN_SEM_VALUE]
  | .SYN_STATUS => [.SYN_STATUS_BAR_SLOT, .SYN_STATUS_BAR_WAITING, .SYN_STATUS_FWAIT_WAITING, .SYN_STATUS_POLL_WAITING, .SYN_STATUS_MEMBAR_WAITING, .SYN_STATUS_BAR_ERROR, .SYN_STATUS_SEM_SATURATED, .SYN_STATUS_BAR_SCOPE]
  | .SYN_BAR_SENSE => [.SYN_BAR_SENSE_TILE_SENSE, .SYN_BAR_SENSE_GANG_SENSE, .SYN_BAR_SENSE_PART_SENSE, .SYN_BAR_SENSE_SYSTEM_SENSE]
  | .SYN_COUNTER_WRAP => [.SYN_COUNTER_WRAP_SIGNALS_WRAPPED, .SYN_COUNTER_WRAP_WAIT_WRAPPED, .SYN_COUNTER_WRAP_BARRIERS_WRAPPED, .SYN_COUNTER_WRAP_BAR_ERRORS_WRAPPED, .SYN_COUNTER_WRAP_SATURATE_WRAPPED]
  | .SYN_SIGNALS => [.SYN_SIGNALS_COUNT]
  | .SYN_WAIT_CYCLES => [.SYN_WAIT_CYCLES_COUNT]
  | .SYN_BARRIERS => [.SYN_BARRIERS_COUNT]
  | .SYN_BAR_ERRORS => [.SYN_BAR_ERRORS_COUNT]
  | .SYN_SEM_SATURATE => [.SYN_SEM_SATURATE_COUNT]
  | .HBM_SETUP => [.HBM_SETUP_THROTTLE_C, .HBM_SETUP_TRIP_C, .HBM_SETUP_SCRUB_HOURS, .HBM_SETUP_ROW_CE_LIMIT, .HBM_SETUP_REMAP_EN]
  | .HBM_STATUS => [.HBM_STATUS_STATE, .HBM_STATUS_TEMP_C, .HBM_STATUS_LEVEL, .HBM_STATUS_TRIPPED, .HBM_STATUS_REPAIR_EXHAUSTED, .HBM_STATUS_SENSOR_LOST]
  | .HBM_REPAIR => [.HBM_REPAIR_REMAP_USED, .HBM_REPAIR_PPR_PENDING]
  | .HBM_COUNTER_WRAP => [.HBM_COUNTER_WRAP_READS_WRAPPED, .HBM_COUNTER_WRAP_WRITES_WRAPPED, .HBM_COUNTER_WRAP_CE_WRAPPED, .HBM_COUNTER_WRAP_UE_WRAPPED, .HBM_COUNTER_WRAP_EYESPOT_WRAPPED, .HBM_COUNTER_WRAP_THROTTLE_WRAPPED, .HBM_COUNTER_WRAP_REFETCH_WRAPPED, .HBM_COUNTER_WRAP_REFETCH_FAIL_WRAPPED, .HBM_COUNTER_WRAP_ODECC_WRAPPED]
  | .HBM_EYESPOT_FIRST => [.HBM_EYESPOT_FIRST_ADDR, .HBM_EYESPOT_FIRST_VALID]
  | .HBM_READS => [.HBM_READS_COUNT]
  | .HBM_WRITES => [.HBM_WRITES_COUNT]
  | .HBM_CE => [.HBM_CE_COUNT]
  | .HBM_UE => [.HBM_UE_COUNT]
  | .HBM_EYESPOT_READS => [.HBM_EYESPOT_READS_COUNT]
  | .HBM_THROTTLE_CYCLES => [.HBM_THROTTLE_CYCLES_COUNT]
  | .HBM_REFETCH => [.HBM_REFETCH_COUNT]
  | .HBM_REFETCH_FAIL => [.HBM_REFETCH_FAIL_COUNT]
  | .HBM_ODECC => [.HBM_ODECC_COUNT]
  | .HBM_ABSENT => [.HBM_ABSENT_COUNT]
  | .HBM_REMAP_SEL => [.HBM_REMAP_SEL_ENTRY]
  | .HBM_REMAP_DATA => [.HBM_REMAP_DATA_VALID, .HBM_REMAP_DATA_PSEUDO_CHANNEL, .HBM_REMAP_DATA_BANK, .HBM_REMAP_DATA_ROW, .HBM_REMAP_DATA_CAUSE, .HBM_REMAP_DATA_PERMANENT]
  | .FAB_SETUP => [.FAB_SETUP_ENDPOINT, .FAB_SETUP_ENABLE, .FAB_SETUP_SPARE_LOG2, .FAB_SETUP_COLL_LIMIT_LOG2]
  | .FAB_STATUS => [.FAB_STATUS_RUNNING, .FAB_STATUS_SETUP_ERROR, .FAB_STATUS_LINKS_UP, .FAB_STATUS_ANY_DEAD]
  | .FAB_IRQ => [.FAB_IRQ_VECTOR, .FAB_IRQ_DEAD_IRQ_EN, .FAB_IRQ_LINK_IRQ_EN, .FAB_IRQ_COLL_IRQ_EN, .FAB_IRQ_HOLDOFF_LOG2]
  | .FAB_COUNTER_WRAP => [.FAB_COUNTER_WRAP_PUTS_WRAPPED, .FAB_COUNTER_WRAP_GETS_WRAPPED, .FAB_COUNTER_WRAP_ATOMICS_WRAPPED, .FAB_COUNTER_WRAP_RX_REQUESTS_WRAPPED, .FAB_COUNTER_WRAP_UNROUTABLE_WRAPPED, .FAB_COUNTER_WRAP_LATE_RESPONSES_WRAPPED, .FAB_COUNTER_WRAP_DEAD_DECLARED_WRAPPED, .FAB_COUNTER_WRAP_RX_FAILED_WRAPPED]
  | .FAB_DIM => [.FAB_DIM_SIZE, .FAB_DIM_WRAP]
  | .FAB_DIR => [.FAB_DIR_LINKS]
  | .FAB_PUTS => [.FAB_PUTS_COUNT]
  | .FAB_GETS => [.FAB_GETS_COUNT]
  | .FAB_ATOMICS => [.FAB_ATOMICS_COUNT]
  | .FAB_RX_REQUESTS => [.FAB_RX_REQUESTS_COUNT]
  | .FAB_UNROUTABLE => [.FAB_UNROUTABLE_COUNT]
  | .FAB_LATE_RESPONSES => [.FAB_LATE_RESPONSES_COUNT]
  | .FAB_DEAD_DECLARED => [.FAB_DEAD_DECLARED_COUNT]
  | .FAB_RX_FAILED => [.FAB_RX_FAILED_COUNT]
  | .FAB_LINK_CTRL => [.FAB_LINK_CTRL_ENABLE, .FAB_LINK_CTRL_RETRAIN]
  | .FAB_LINK_STATUS => [.FAB_LINK_STATUS_STATE, .FAB_LINK_STATUS_LANE_OUT, .FAB_LINK_STATUS_SPARED, .FAB_LINK_STATUS_WENT_DOWN, .FAB_LINK_STATUS_DOWN_CAUSE, .FAB_LINK_STATUS_SPARE_OK]
  | .FAB_LINK_PEER => [.FAB_LINK_PEER_PEER_ENDPOINT, .FAB_LINK_PEER_PEER_LINK, .FAB_LINK_PEER_PEER_VALID]
  | .FAB_LINK_COUNTER_WRAP => [.FAB_LINK_COUNTER_WRAP_FEC_CORRECTED_WRAPPED, .FAB_LINK_COUNTER_WRAP_FEC_UNCORRECTABLE_WRAPPED, .FAB_LINK_COUNTER_WRAP_CRC_ERRORS_WRAPPED, .FAB_LINK_COUNTER_WRAP_REPLAYS_WRAPPED, .FAB_LINK_COUNTER_WRAP_RETRAINS_WRAPPED, .FAB_LINK_COUNTER_WRAP_FRAMES_WRAPPED]
  | .FAB_LINK_FEC_CORRECTED => [.FAB_LINK_FEC_CORRECTED_COUNT]
  | .FAB_LINK_FEC_UNCORRECTABLE => [.FAB_LINK_FEC_UNCORRECTABLE_COUNT]
  | .FAB_LINK_CRC_ERRORS => [.FAB_LINK_CRC_ERRORS_COUNT]
  | .FAB_LINK_REPLAYS => [.FAB_LINK_REPLAYS_COUNT]
  | .FAB_LINK_RETRAINS => [.FAB_LINK_RETRAINS_COUNT]
  | .FAB_LINK_FRAMES => [.FAB_LINK_FRAMES_COUNT]
  | .FAB_COLL_SETUP => [.FAB_COLL_SETUP_ENABLE, .FAB_COLL_SETUP_IO_DIE, .FAB_COLL_SETUP_OP, .FAB_COLL_SETUP_FORMAT, .FAB_COLL_SETUP_LOCAL, .FAB_COLL_SETUP_CHILDREN, .FAB_COLL_SETUP_ROOT, .FAB_COLL_SETUP_PARENT, .FAB_COLL_SETUP_CHUNKS]
  | .FAB_COLL_STATUS => [.FAB_COLL_STATUS_OPEN, .FAB_COLL_STATUS_ERROR, .FAB_COLL_STATUS_SETUP_ERROR]
  | .FAB_COLL_FENCE => [.FAB_COLL_FENCE_SLOT, .FAB_COLL_FENCE_SIGNAL_EN]
  | .FAB_COLL_RESULT => [.FAB_COLL_RESULT_RESULT]
  | .FAB_COLL_ROUND => [.FAB_COLL_ROUND_ROUND]
  | .FAB_COLL_CHILD => [.FAB_COLL_CHILD_CHILD0, .FAB_COLL_CHILD_CHILD1, .FAB_COLL_CHILD_CHILD2]
  | .FAB_DEAD => [.FAB_DEAD_DEAD]
  | .CHL_SETUP => [.CHL_SETUP_TIMEOUT_LOG2, .CHL_SETUP_LINK_VECTOR, .CHL_SETUP_LINK_IRQ_EN]
  | .CHL_SF_STATUS => [.CHL_SF_STATUS_OCCUPIED]
  | .CHL_COUNTER_WRAP => [.CHL_COUNTER_WRAP_EVICTIONS_WRAPPED, .CHL_COUNTER_WRAP_SNOOPS_WRAPPED, .CHL_COUNTER_WRAP_PORT0_WRAPPED, .CHL_COUNTER_WRAP_PORT1_WRAPPED]
  | .CHL_SF_EVICTIONS => [.CHL_SF_EVICTIONS_COUNT]
  | .CHL_SNOOPS => [.CHL_SNOOPS_COUNT]
  | .CHL_HOMEMAP => [.CHL_HOMEMAP_VALID, .CHL_HOMEMAP_PORT, .CHL_HOMEMAP_BASE, .CHL_HOMEMAP_LIMIT]
  | .CHL_PORT_CTRL => [.CHL_PORT_CTRL_RETRAIN]
  | .CHL_PORT_STATUS => [.CHL_PORT_STATUS_STATE, .CHL_PORT_STATUS_WIDTH, .CHL_PORT_STATUS_RATE, .CHL_PORT_STATUS_FAIL_CAUSE, .CHL_PORT_STATUS_LANES_REVERSED]
  | .CHL_PORT_FEC_CORRECTED => [.CHL_PORT_FEC_CORRECTED_COUNT]
  | .CHL_PORT_CRC_ERRORS => [.CHL_PORT_CRC_ERRORS_COUNT]
  | .CHL_PORT_REPLAYS => [.CHL_PORT_REPLAYS_COUNT]
  | .CHL_PORT_RETRAINS => [.CHL_PORT_RETRAINS_COUNT]
  | .CHL_PORT_TIMEOUTS => [.CHL_PORT_TIMEOUTS_COUNT]
  | .CHL_PORT_NOHOME => [.CHL_PORT_NOHOME_COUNT]
  | .CHL_MSI_ADDR => [.CHL_MSI_ADDR_ADDR]
  | .CHL_MSI_DATA => [.CHL_MSI_DATA_DATA]
  | .CHL_MSI_CTRL => [.CHL_MSI_CTRL_MASK, .CHL_MSI_CTRL_PORT, .CHL_MSI_CTRL_PENDING]
  | .MGT_SETUP => [.MGT_SETUP_DIE_THROTTLE_C, .MGT_SETUP_MOULT_AUTO, .MGT_SETUP_MOULT_CE_LIMIT_LOG2]
  | .MGT_LIMITS => [.MGT_LIMITS_POWER_LIMIT, .MGT_LIMITS_MCLK_CEILING]
  | .MGT_STATUS => [.MGT_STATUS_POWER_WARN, .MGT_STATUS_POWER_WARN_EVENT, .MGT_STATUS_FAST_LIMIT, .MGT_STATUS_POWER_UNMET, .MGT_STATUS_THERMAL_EVENT, .MGT_STATUS_LOG_READY]
  | .MGT_IRQ => [.MGT_IRQ_VECTOR, .MGT_IRQ_WARN_IRQ_EN, .MGT_IRQ_THERMAL_IRQ_EN, .MGT_IRQ_MOULT_IRQ_EN]
  | .MGT_MOULT_CTRL => [.MGT_MOULT_CTRL_QUIESCE]
  | .MGT_COUNTER_WRAP => [.MGT_COUNTER_WRAP_POWER_WARNINGS_WRAPPED, .MGT_COUNTER_WRAP_FAST_LIMITS_WRAPPED, .MGT_COUNTER_WRAP_THROTTLE_STEPS_WRAPPED, .MGT_COUNTER_WRAP_HARD_TRIPS_WRAPPED, .MGT_COUNTER_WRAP_MOULTS_WRAPPED, .MGT_COUNTER_WRAP_LOG_RECORDS_WRAPPED, .MGT_COUNTER_WRAP_LOG_DROPPED_WRAPPED]
  | .MGT_DIE_STATUS => [.MGT_DIE_STATUS_MCLK_MHZ, .MGT_DIE_STATUS_CAUSES, .MGT_DIE_STATUS_TEMP_C, .MGT_DIE_STATUS_RESERVE_FREE, .MGT_DIE_STATUS_MOULT_PENDING, .MGT_DIE_STATUS_QUIESCING]
  | .MGT_POWER_WARNINGS => [.MGT_POWER_WARNINGS_COUNT]
  | .MGT_FAST_LIMITS => [.MGT_FAST_LIMITS_COUNT]
  | .MGT_THROTTLE_STEPS => [.MGT_THROTTLE_STEPS_COUNT]
  | .MGT_HARD_TRIPS => [.MGT_HARD_TRIPS_COUNT]
  | .MGT_MOULTS => [.MGT_MOULTS_COUNT]
  | .MGT_LOG_RECORDS => [.MGT_LOG_RECORDS_COUNT]
  | .MGT_LOG_DROPPED => [.MGT_LOG_DROPPED_COUNT]
  | .MGT_MBX_CMD => [.MGT_MBX_CMD_OPCODE]
  | .MGT_MBX_STATUS => [.MGT_MBX_STATUS_BUSY, .MGT_MBX_STATUS_DONE, .MGT_MBX_STATUS_OVERRUN, .MGT_MBX_STATUS_STATUS]
  | .MGT_MBX_DATA => [.MGT_MBX_DATA_DATA]
  | .SEC_SETUP => [.SEC_SETUP_VECTOR, .SEC_SETUP_IRQ_EN, .SEC_SETUP_WDOG_LOG2]
  | .SEC_STATUS => [.SEC_STATUS_REQUIRE_SIGNED, .SEC_STATUS_OWNER_KEY_SET, .SEC_STATUS_CHAIN_VALID, .SEC_STATUS_LOG_FULL, .SEC_STATUS_ABI_MIXED, .SEC_STATUS_COCOON_EVENT]
  | .SEC_MBX_CMD => [.SEC_MBX_CMD_OPCODE]
  | .SEC_MBX_STATUS => [.SEC_MBX_STATUS_BUSY, .SEC_MBX_STATUS_DONE, .SEC_MBX_STATUS_OVERRUN, .SEC_MBX_STATUS_STATUS, .SEC_MBX_STATUS_VERDICT]
  | .SEC_DEVICE_ID => [.SEC_DEVICE_ID_DEVICE_ID]
  | .SEC_LOG_COUNT => [.SEC_LOG_COUNT_COUNT]
  | .SEC_COUNTER_WRAP => [.SEC_COUNTER_WRAP_LOADS_WRAPPED, .SEC_COUNTER_WRAP_REJECTS_WRAPPED, .SEC_COUNTER_WRAP_WATCHDOGS_WRAPPED, .SEC_COUNTER_WRAP_REPORTS_WRAPPED]
  | .SEC_LOADS => [.SEC_LOADS_COUNT]
  | .SEC_REJECTS => [.SEC_REJECTS_COUNT]
  | .SEC_WATCHDOGS => [.SEC_WATCHDOGS_COUNT]
  | .SEC_REPORTS => [.SEC_REPORTS_COUNT]
  | .SEC_PROC_STATUS => [.SEC_PROC_STATUS_STATE, .SEC_PROC_STATUS_VERDICT, .SEC_PROC_STATUS_WATCHDOG]
  | .SEC_PROC_ABI => [.SEC_PROC_ABI_ABI_ID]
  | .SEC_MR => [.SEC_MR_VALUE]
  | .SEC_MBX_DATA => [.SEC_MBX_DATA_DATA]
  | .SEQ_CTRL => [.SEQ_CTRL_HALT_REQ, .SEQ_CTRL_RESUME, .SEQ_CTRL_CLEAR_HALT]
  | .SEQ_SETUP => [.SEQ_SETUP_STALL_LIMIT_LOG2, .SEQ_SETUP_HALT_HOLD]
  | .SEQ_STATUS => [.SEQ_STATUS_STATE, .SEQ_STATUS_STREAM_LIVE, .SEQ_STATUS_STREAM_QFULL, .SEQ_STATUS_STREAM_SEMWAIT, .SEQ_STATUS_ENGINE_SEMWAIT]
  | .SEQ_GANG => [.SEQ_GANG_LEAD_LOCAL_ID, .SEQ_GANG_SIZE_LOG2, .SEQ_GANG_RANK, .SEQ_GANG_CONTEXT]
  | .SEQ_QUEUE_LEVEL => [.SEQ_QUEUE_LEVEL_THRQ, .SEQ_QUEUE_LEVEL_MATQ, .SEQ_QUEUE_LEVEL_GATQ, .SEQ_QUEUE_LEVEL_SYNQ]
  | .SEQ_IDENTITY => [.SEQ_IDENTITY_LOGICAL_LOCAL_ID, .SEQ_IDENTITY_ENABLED, .SEQ_IDENTITY_RETIRED]
  | .SEQ_PC => [.SEQ_PC_PC]
  | .SEQ_HALT_REASON => [.SEQ_HALT_REASON_REASON, .SEQ_HALT_REASON_SOURCE_KIND, .SEQ_HALT_REASON_STREAM, .SEQ_HALT_REASON_GROUP]
  | .SEQ_HALT_ORIGIN => [.SEQ_HALT_ORIGIN_ORIGIN_TILE, .SEQ_HALT_ORIGIN_CONTEXT]
  | .SEQ_HALT_ADDR => [.SEQ_HALT_ADDR_ADDR]
  | .SEQ_STALL_CYCLES => [.SEQ_STALL_CYCLES_COUNT]
  | .SEQ_ISSUE => [.SEQ_ISSUE_COUNT]
  | .SEQ_COUNTER_WRAP => [.SEQ_COUNTER_WRAP_STALL_WRAPPED, .SEQ_COUNTER_WRAP_ISSUE_WRAPPED]
  | .SEQ_Q => [.SEQ_Q_VALUE]
  | .THR_SETUP => [.THR_SETUP_PROGRESS_LIMIT_LOG2]
  | .THR_STATUS => [.THR_STATUS_RESIDENT_GROUPS, .THR_STATUS_ACTIVE_GROUPS, .THR_STATUS_RESIDENT_BLOCKS, .THR_STATUS_FREE_GRANULES, .THR_STATUS_ANY_DEBUG_HALTED, .THR_STATUS_ANY_PARKED]
  | .THR_L1_WAYS => [.THR_L1_WAYS_ENABLED, .THR_L1_WAYS_LOCKED, .THR_L1_WAYS_DISABLED_EVENT]
  | .THR_COUNTER_WRAP => [.THR_COUNTER_WRAP_ISSUE_WRAPPED, .THR_COUNTER_WRAP_HIT_WRAPPED, .THR_COUNTER_WRAP_MISS_WRAPPED, .THR_COUNTER_WRAP_SB_FULL_WRAPPED, .THR_COUNTER_WRAP_SKIP_WRAPPED, .THR_COUNTER_WRAP_CE_WRAPPED]
  | .THR_ISSUE => [.THR_ISSUE_COUNT]
  | .THR_L1_HIT => [.THR_L1_HIT_COUNT]
  | .THR_L1_MISS => [.THR_L1_MISS_COUNT]
  | .THR_SB_FULL_CYCLES => [.THR_SB_FULL_CYCLES_COUNT]
  | .THR_PRELOAD_SKIP => [.THR_PRELOAD_SKIP_COUNT]
  | .THR_L1_CE_WAY => [.THR_L1_CE_WAY_COUNT]
  | .GRP_DBG_SEL => [.GRP_DBG_SEL_GROUP]
  | .GRP_DBG_CTRL => [.GRP_DBG_CTRL_HALT, .GRP_DBG_CTRL_RESUME, .GRP_DBG_CTRL_STEP]
  | .GRP_DBG_STATUS => [.GRP_DBG_STATUS_STATE, .GRP_DBG_STATUS_DEBUG_HALTED, .GRP_DBG_STATUS_HALT_PENDING, .GRP_DBG_STATUS_STACK_DEPTH, .GRP_DBG_STATUS_BLOCK_SLOT, .GRP_DBG_STATUS_GROUP_IN_BLOCK, .GRP_DBG_STATUS_GRANULES]
  | .GRP_DBG_MASK => [.GRP_DBG_MASK_ACTIVE]
  | .GRP_DBG_PC => [.GRP_DBG_PC_PC]
  | .GRP_DBG_PROGRESS => [.GRP_DBG_PROGRESS_COUNT]
  | .GRP_DBG_REG_SEL => [.GRP_DBG_REG_SEL_INDEX, .GRP_DBG_REG_SEL_KIND]
  | .GRP_DBG_STACK_MASK => [.GRP_DBG_STACK_MASK_MASK]
  | .GRP_DBG_UNIFORM => [.GRP_DBG_UNIFORM_VALUE]
  | .GRP_DBG_STACK_ADDR => [.GRP_DBG_STACK_ADDR_ADDR]
  | .GRP_DBG_STACK_RPC => [.GRP_DBG_STACK_RPC_RPC]
  | .GRP_DBG_VDATA => [.GRP_DBG_VDATA_VALUE]
  | .MAT_SETUP => [.MAT_SETUP_HAZARD_MODE]
  | .MAT_STATUS => [.MAT_STATUS_LOADER_BUSY, .MAT_STATUS_STREAMER_BUSY, .MAT_STATUS_STREAMER_GMMA, .MAT_STATUS_DRAINER_BUSY, .MAT_STATUS_ACTIVE_PLANE, .MAT_STATUS_PLANE_A_FORMAT, .MAT_STATUS_PLANE_B_FORMAT, .MAT_STATUS_PLANE_A_PAIRED, .MAT_STATUS_PLANE_B_PAIRED, .MAT_STATUS_GMMA_WAITING, .MAT_STATUS_FROZEN]
  | .MAT_HAZARD_FIRST => [.MAT_HAZARD_FIRST_VALID, .MAT_HAZARD_FIRST_KIND, .MAT_HAZARD_FIRST_ACC_ROW, .MAT_HAZARD_FIRST_PLANE_ROW, .MAT_HAZARD_FIRST_PLANE, .MAT_HAZARD_FIRST_SOURCE, .MAT_HAZARD_FIRST_GROUP]
  | .MAT_COUNTER_WRAP => [.MAT_COUNTER_WRAP_HAZARD_WRAPPED, .MAT_COUNTER_WRAP_SAT_WRAPPED, .MAT_COUNTER_WRAP_STREAM_WRAPPED, .MAT_COUNTER_WRAP_GMMA_WRAPPED, .MAT_COUNTER_WRAP_FREEZE_WRAPPED]
  | .MAT_HAZARD_ADDR => [.MAT_HAZARD_ADDR_ADDR]
  | .MAT_HAZARD_COUNT => [.MAT_HAZARD_COUNT_COUNT]
  | .MAT_SAT_COUNT => [.MAT_SAT_COUNT_COUNT]
  | .MAT_STREAM_CYCLES => [.MAT_STREAM_CYCLES_COUNT]
  | .MAT_GMMA_CYCLES => [.MAT_GMMA_CYCLES_COUNT]
  | .MAT_FREEZE_CYCLES => [.MAT_FREEZE_CYCLES_COUNT]
  | .MAT_INSPECT_SEL => [.MAT_INSPECT_SEL_INDEX, .MAT_INSPECT_SEL_KIND]
  | .MAT_INSPECT_DATA => [.MAT_INSPECT_DATA_VALUE]
  | .SPAD_STATUS => [.SPAD_STATUS_CARVE_ROWS]
  | .GAT_SETUP => [.GAT_SETUP_READ_LIMIT]
  | .GAT_STATUS => [.GAT_STATUS_BUSY, .GAT_STATUS_IN_FLIGHT, .GAT_STATUS_FAULT_STALLED, .GAT_STATUS_OUTSTANDING]
  | .GAT_COUNTER_WRAP => [.GAT_COUNTER_WRAP_TRANSFERS_WRAPPED, .GAT_COUNTER_WRAP_READ_WRAPPED, .GAT_COUNTER_WRAP_WRITTEN_WRAPPED, .GAT_COUNTER_WRAP_OOR_WRAPPED, .GAT_COUNTER_WRAP_PAGES_WRAPPED, .GAT_COUNTER_WRAP_PAGE_FAIL_WRAPPED, .GAT_COUNTER_WRAP_STALL_WRAPPED]
  | .SPAD_COUNTER_WRAP => [.SPAD_COUNTER_WRAP_BANK_WRAPPED, .SPAD_COUNTER_WRAP_ACCESS_WRAPPED]
  | .SPAD_ACCESS => [.SPAD_ACCESS_COUNT]
  | .GAT_TRANSFERS => [.GAT_TRANSFERS_COUNT]
  | .GAT_BYTES_READ => [.GAT_BYTES_READ_COUNT]
  | .GAT_BYTES_WRITTEN => [.GAT_BYTES_WRITTEN_COUNT]
  | .GAT_OOR_COUNT => [.GAT_OOR_COUNT_COUNT]
  | .GAT_PAGES => [.GAT_PAGES_COUNT]
  | .GAT_PAGE_FAIL => [.GAT_PAGE_FAIL_COUNT]
  | .GAT_FAULT_STALL_CYCLES => [.GAT_FAULT_STALL_CYCLES_COUNT]
  | .SPAD_INSPECT_SEL => [.SPAD_INSPECT_SEL_ROW]
  | .SPAD_CONFLICT_BANK => [.SPAD_CONFLICT_BANK_COUNT]
  | .SPAD_INSPECT_DATA => [.SPAD_INSPECT_DATA_VALUE]

/-- Registers of block GLB. -/
def regsGlb : List Reg :=
  [.GLB_IDENTITY, .GLB_CAPABILITY, .GLB_FW_ABI, .GLB_COUNTER_WRAP, .GLB_POP_COMPUTE, .GLB_POP_IO, .GLB_POP_STACKS, .GLB_POP_LINKS_LO, .GLB_POP_LINKS_HI, .GLB_POP_FIRMWARE, .GLB_POP_TILES, .GLB_POP_MEMORY, .GLB_ACCESS_ERRORS, .GLB_MEM_ABSENT, .GLB_POWERED_TIME]

/-- Registers of block CLK. -/
def regsClk : List Reg :=
  [.CLK_STATUS, .CLK_RESET_CAUSE, .CLK_RESET_CTRL, .CLK_LOCK, .CLK_RESET_TIME, .CLK_PART_RESETS, .CLK_COUNTER_WRAP, .CLK_COUNT]

/-- Registers of block CTX. -/
def regsCtx : List Reg :=
  [.CTX_CTRL, .CTX_STATUS, .CTX_SETUP, .CTX_FAULT, .CTX_S1_ROOT, .CTX_FAULT_HALT, .CTX_FAULT_ENDPOINT, .CTX_COUNTER_WRAP, .CTX_OUTSTANDING, .CTX_DESCRIPTORS, .CTX_ITEMS_DONE, .CTX_ITEMS_FAILED]

/-- Registers of block QUE. -/
def regsQue : List Reg :=
  [.QUE_SQ_CTRL, .QUE_SQ_SETUP, .QUE_SQ_BASE, .QUE_SQ_DOORBELL, .QUE_SQ_STATUS, .QUE_SQ_CONSUMER, .QUE_SQ_INFLIGHT, .QUE_CQ_CTRL, .QUE_CQ_SETUP, .QUE_CQ_BASE, .QUE_CQ_CONS_LINE, .QUE_CQ_STATUS, .QUE_CQ_PRODUCER, .QUE_ERING_SETUP, .QUE_ERING_STATUS, .QUE_ERING_BASE, .QUE_ERING_CONS_LINE, .QUE_ERING_NEXT, .QUE_ERING_CTRL, .QUE_ERR_DROPPED, .QUE_COUNTER_WRAP]

/-- Registers of block OBJ. -/
def regsObj : List Reg :=
  [.OBJ_STATUS, .OBJ_COUNTER_WRAP, .OBJ_TABLE_BASE, .OBJ_REGISTERED, .OBJ_RELEASED, .OBJ_STALE_ITEMS]

/-- Registers of block FEN. -/
def regsFen : List Reg :=
  [.FEN_SETUP, .FEN_COUNTER_WRAP, .FEN_REGRESS, .FEN_SIGNALS]

/-- Registers of block XLT. -/
def regsXlt : List Reg :=
  [.XLT_SETUP, .XLT_STATUS, .XLT_CTRL, .XLT_COUNTER_WRAP, .XLT_S2_ROOT, .XLT_FRING_BASE, .XLT_FRING_CONS_LINE, .XLT_RRING_BASE, .XLT_RRING_PROD_LINE, .XLT_FRING_NEXT, .XLT_RRING_NEXT, .XLT_WALKS, .XLT_FAULTS, .XLT_RESP_IGNORED, .XLT_INVALIDATIONS, .XLT_TABLE_FULL_CYCLES, .XLT_WALKER_STATUS]

/-- Registers of block XLTC. -/
def regsXltc : List Reg :=
  [.XLTC_STATUS, .XLTC_COUNTER_WRAP, .XLTC_LOOKUPS, .XLTC_MISSES, .XLTC_FAULTS]

/-- Registers of block SYN. -/
def regsSyn : List Reg :=
  [.SYN_SEM, .SYN_STATUS, .SYN_BAR_SENSE, .SYN_COUNTER_WRAP, .SYN_SIGNALS, .SYN_WAIT_CYCLES, .SYN_BARRIERS, .SYN_BAR_ERRORS, .SYN_SEM_SATURATE]

/-- Registers of block HBM. -/
def regsHbm : List Reg :=
  [.HBM_SETUP, .HBM_STATUS, .HBM_REPAIR, .HBM_COUNTER_WRAP, .HBM_EYESPOT_FIRST, .HBM_READS, .HBM_WRITES, .HBM_CE, .HBM_UE, .HBM_EYESPOT_READS, .HBM_THROTTLE_CYCLES, .HBM_REFETCH, .HBM_REFETCH_FAIL, .HBM_ODECC, .HBM_ABSENT, .HBM_REMAP_SEL, .HBM_REMAP_DATA]

/-- Registers of block FAB. -/
def regsFab : List Reg :=
  [.FAB_SETUP, .FAB_STATUS, .FAB_IRQ, .FAB_COUNTER_WRAP, .FAB_DIM, .FAB_DIR, .FAB_PUTS, .FAB_GETS, .FAB_ATOMICS, .FAB_RX_REQUESTS, .FAB_UNROUTABLE, .FAB_LATE_RESPONSES, .FAB_DEAD_DECLARED, .FAB_RX_FAILED, .FAB_LINK_CTRL, .FAB_LINK_STATUS, .FAB_LINK_PEER, .FAB_LINK_COUNTER_WRAP, .FAB_LINK_FEC_CORRECTED, .FAB_LINK_FEC_UNCORRECTABLE, .FAB_LINK_CRC_ERRORS, .FAB_LINK_REPLAYS, .FAB_LINK_RETRAINS, .FAB_LINK_FRAMES, .FAB_COLL_SETUP, .FAB_COLL_STATUS, .FAB_COLL_FENCE, .FAB_COLL_RESULT, .FAB_COLL_ROUND, .FAB_COLL_CHILD, .FAB_DEAD]

/-- Registers of block CHL. -/
def regsChl : List Reg :=
  [.CHL_SETUP, .CHL_SF_STATUS, .CHL_COUNTER_WRAP, .CHL_SF_EVICTIONS, .CHL_SNOOPS, .CHL_HOMEMAP, .CHL_PORT_CTRL, .CHL_PORT_STATUS, .CHL_PORT_FEC_CORRECTED, .CHL_PORT_CRC_ERRORS, .CHL_PORT_REPLAYS, .CHL_PORT_RETRAINS, .CHL_PORT_TIMEOUTS, .CHL_PORT_NOHOME, .CHL_MSI_ADDR, .CHL_MSI_DATA, .CHL_MSI_CTRL]

/-- Registers of block MGT. -/
def regsMgt : List Reg :=
  [.MGT_SETUP, .MGT_LIMITS, .MGT_STATUS, .MGT_IRQ, .MGT_MOULT_CTRL, .MGT_COUNTER_WRAP, .MGT_DIE_STATUS, .MGT_POWER_WARNINGS, .MGT_FAST_LIMITS, .MGT_THROTTLE_STEPS, .MGT_HARD_TRIPS, .MGT_MOULTS, .MGT_LOG_RECORDS, .MGT_LOG_DROPPED, .MGT_MBX_CMD, .MGT_MBX_STATUS, .MGT_MBX_DATA]

/-- Registers of block SEC. -/
def regsSec : List Reg :=
  [.SEC_SETUP, .SEC_STATUS, .SEC_MBX_CMD, .SEC_MBX_STATUS, .SEC_DEVICE_ID, .SEC_LOG_COUNT, .SEC_COUNTER_WRAP, .SEC_LOADS, .SEC_REJECTS, .SEC_WATCHDOGS, .SEC_REPORTS, .SEC_PROC_STATUS, .SEC_PROC_ABI, .SEC_MR, .SEC_MBX_DATA]

/-- Registers of block SEQ. -/
def regsSeq : List Reg :=
  [.SEQ_CTRL, .SEQ_SETUP, .SEQ_STATUS, .SEQ_GANG, .SEQ_QUEUE_LEVEL, .SEQ_IDENTITY, .SEQ_PC, .SEQ_HALT_REASON, .SEQ_HALT_ORIGIN, .SEQ_HALT_ADDR, .SEQ_STALL_CYCLES, .SEQ_ISSUE, .SEQ_COUNTER_WRAP, .SEQ_Q]

/-- Registers of block THR. -/
def regsThr : List Reg :=
  [.THR_SETUP, .THR_STATUS, .THR_L1_WAYS, .THR_COUNTER_WRAP, .THR_ISSUE, .THR_L1_HIT, .THR_L1_MISS, .THR_SB_FULL_CYCLES, .THR_PRELOAD_SKIP, .THR_L1_CE_WAY]

/-- Registers of block GRP. -/
def regsGrp : List Reg :=
  [.GRP_DBG_SEL, .GRP_DBG_CTRL, .GRP_DBG_STATUS, .GRP_DBG_MASK, .GRP_DBG_PC, .GRP_DBG_PROGRESS, .GRP_DBG_REG_SEL, .GRP_DBG_STACK_MASK, .GRP_DBG_UNIFORM, .GRP_DBG_STACK_ADDR, .GRP_DBG_STACK_RPC, .GRP_DBG_VDATA]

/-- Registers of block MAT. -/
def regsMat : List Reg :=
  [.MAT_SETUP, .MAT_STATUS, .MAT_HAZARD_FIRST, .MAT_COUNTER_WRAP, .MAT_HAZARD_ADDR, .MAT_HAZARD_COUNT, .MAT_SAT_COUNT, .MAT_STREAM_CYCLES, .MAT_GMMA_CYCLES, .MAT_FREEZE_CYCLES, .MAT_INSPECT_SEL, .MAT_INSPECT_DATA]

/-- Registers of block SPAD. -/
def regsSpad : List Reg :=
  [.SPAD_STATUS]

/-- Registers of block GAT. -/
def regsGat : List Reg :=
  [.GAT_SETUP, .GAT_STATUS, .GAT_COUNTER_WRAP]

/-- Registers of block SPAD. -/
def regsSpad2 : List Reg :=
  [.SPAD_COUNTER_WRAP, .SPAD_ACCESS]

/-- Registers of block GAT. -/
def regsGat2 : List Reg :=
  [.GAT_TRANSFERS, .GAT_BYTES_READ, .GAT_BYTES_WRITTEN, .GAT_OOR_COUNT, .GAT_PAGES, .GAT_PAGE_FAIL, .GAT_FAULT_STALL_CYCLES]

/-- Registers of block SPAD. -/
def regsSpad3 : List Reg :=
  [.SPAD_INSPECT_SEL, .SPAD_CONFLICT_BANK, .SPAD_INSPECT_DATA]

/-- Every register, in the order of the tables. -/
def Reg.all : List Reg :=
  List.flatten [regsGlb, regsClk, regsCtx, regsQue, regsObj, regsFen, regsXlt, regsXltc, regsSyn, regsHbm, regsFab, regsChl, regsMgt, regsSec, regsSeq, regsThr, regsGrp, regsMat, regsSpad, regsGat, regsSpad2, regsGat2, regsSpad3]

/-- Width of a field in bits. -/
def Fld.width (f : Fld) : Nat := f.info.hi + 1 - f.info.lo

/-- Index of a field, the low ten bits of its key in `State.fields`. -/
def Fld.idx (f : Fld) : Nat := f.ctorIdx

/-- Number of instances of a register. -/
def RegInfo.count (r : RegInfo) : Nat := r.dims.foldl (fun n d => n * d.1) 1

/-- The instance of an array register (all its indices as one number, the last index fastest) whose first byte lies
`o` bytes above the register's own offset; none where no instance starts there. -/
def instAt : List (Nat × Nat) → Nat → Nat → Option Nat
  | [], o, acc => if o = 0 then some acc else none
  | (n, st) :: ds, o, acc =>
    let i := o / st
    if i < n then instAt ds (o - i * st) (acc * n + i) else none

/-- The instance of `r` that covers window offset `o` (any byte of it). -/
def RegInfo.covers (r : RegInfo) (o : Nat) : Option Nat :=
  if o < r.off then none
  else instAt r.dims ((o - r.off) / r.bytes * r.bytes) 0

/-- The first register of a list that covers `o`, with its instance. -/
def findReg : List Reg → Nat → Option (Reg × Nat)
  | [], _ => none
  | r :: rs, o =>
    match r.info.covers o with
    | some i => some (r, i)
    | none => findReg rs o

/-- The register and instance that cover offset `o` of the window (R8); none for an undefined offset. -/
def regAt (o : Nat) : Option (Reg × Nat) := findReg Reg.all o

end Sys2Proof.Machine
end

