-- ==== Sys2Proof/Machine/Counters.lean ====
section
/-!
DEFINITION. The event and cycle counters of the part: which wrap bit belongs to each (R23, R393 and each block's rule),
and which fields keep their value through a part reset (R401).
-/
namespace Sys2Proof.Machine

/-- The wrap bit of a counter's instance: its field, instance and bit. -/
def Fld.wrap (f : Fld) (i : Nat) : Option (Fld × Nat × Nat) :=
  match f with
  | .GLB_ACCESS_ERRORS_COUNT => some (.GLB_COUNTER_WRAP_ACCESS_WRAPPED, i, 0)
  | .GLB_MEM_ABSENT_COUNT => some (.GLB_COUNTER_WRAP_MEM_ABSENT_WRAPPED, i, 0)
  | .CTX_DESCRIPTORS_COUNT => some (.CTX_COUNTER_WRAP_DESCRIPTORS_WRAPPED, i, 0)
  | .CTX_ITEMS_DONE_COUNT => some (.CTX_COUNTER_WRAP_DONE_WRAPPED, i, 0)
  | .CTX_ITEMS_FAILED_COUNT => some (.CTX_COUNTER_WRAP_FAILED_WRAPPED, i, 0)
  | .OBJ_REGISTERED_COUNT => some (.OBJ_COUNTER_WRAP_REGISTERED_WRAPPED, i, 0)
  | .OBJ_RELEASED_COUNT => some (.OBJ_COUNTER_WRAP_RELEASED_WRAPPED, i, 0)
  | .OBJ_STALE_ITEMS_COUNT => some (.OBJ_COUNTER_WRAP_STALE_WRAPPED, i, 0)
  | .FEN_REGRESS_COUNT => some (.FEN_COUNTER_WRAP_REGRESS_WRAPPED, i, 0)
  | .FEN_SIGNALS_COUNT => some (.FEN_COUNTER_WRAP_SIGNALS_WRAPPED, i, 0)
  | .XLT_WALKS_COUNT => some (.XLT_COUNTER_WRAP_WALKS_WRAPPED, i, 0)
  | .XLT_FAULTS_COUNT => some (.XLT_COUNTER_WRAP_FAULTS_WRAPPED, i, 0)
  | .XLT_RESP_IGNORED_COUNT => some (.XLT_COUNTER_WRAP_IGNORED_WRAPPED, i, 0)
  | .XLT_INVALIDATIONS_COUNT => some (.XLT_COUNTER_WRAP_INV_WRAPPED, i, 0)
  | .XLT_TABLE_FULL_CYCLES_COUNT => some (.XLT_COUNTER_WRAP_FULL_WRAPPED, i, 0)
  | .XLTC_LOOKUPS_COUNT => some (.XLTC_COUNTER_WRAP_LOOKUPS_WRAPPED, i, 0)
  | .XLTC_MISSES_COUNT => some (.XLTC_COUNTER_WRAP_MISSES_WRAPPED, i, 0)
  | .XLTC_FAULTS_COUNT => some (.XLTC_COUNTER_WRAP_FAULTS_WRAPPED, i, 0)
  | .SYN_SIGNALS_COUNT => some (.SYN_COUNTER_WRAP_SIGNALS_WRAPPED, i, 0)
  | .SYN_WAIT_CYCLES_COUNT => some (.SYN_COUNTER_WRAP_WAIT_WRAPPED, i, 0)
  | .SYN_BARRIERS_COUNT => some (.SYN_COUNTER_WRAP_BARRIERS_WRAPPED, i, 0)
  | .SYN_BAR_ERRORS_COUNT => some (.SYN_COUNTER_WRAP_BAR_ERRORS_WRAPPED, i, 0)
  | .SYN_SEM_SATURATE_COUNT => some (.SYN_COUNTER_WRAP_SATURATE_WRAPPED, i, 0)
  | .HBM_READS_COUNT => some (.HBM_COUNTER_WRAP_READS_WRAPPED, i, 0)
  | .HBM_WRITES_COUNT => some (.HBM_COUNTER_WRAP_WRITES_WRAPPED, i, 0)
  | .HBM_CE_COUNT => some (.HBM_COUNTER_WRAP_CE_WRAPPED, i, 0)
  | .HBM_UE_COUNT => some (.HBM_COUNTER_WRAP_UE_WRAPPED, i, 0)
  | .HBM_EYESPOT_READS_COUNT => some (.HBM_COUNTER_WRAP_EYESPOT_WRAPPED, i, 0)
  | .HBM_THROTTLE_CYCLES_COUNT => some (.HBM_COUNTER_WRAP_THROTTLE_WRAPPED, i, 0)
  | .HBM_REFETCH_COUNT => some (.HBM_COUNTER_WRAP_REFETCH_WRAPPED, i, 0)
  | .HBM_REFETCH_FAIL_COUNT => some (.HBM_COUNTER_WRAP_REFETCH_FAIL_WRAPPED, i, 0)
  | .HBM_ODECC_COUNT => some (.HBM_COUNTER_WRAP_ODECC_WRAPPED, i, 0)
  | .FAB_PUTS_COUNT => some (.FAB_COUNTER_WRAP_PUTS_WRAPPED, i, 0)
  | .FAB_GETS_COUNT => some (.FAB_COUNTER_WRAP_GETS_WRAPPED, i, 0)
  | .FAB_ATOMICS_COUNT => some (.FAB_COUNTER_WRAP_ATOMICS_WRAPPED, i, 0)
  | .FAB_RX_REQUESTS_COUNT => some (.FAB_COUNTER_WRAP_RX_REQUESTS_WRAPPED, i, 0)
  | .FAB_UNROUTABLE_COUNT => some (.FAB_COUNTER_WRAP_UNROUTABLE_WRAPPED, i, 0)
  | .FAB_LATE_RESPONSES_COUNT => some (.FAB_COUNTER_WRAP_LATE_RESPONSES_WRAPPED, i, 0)
  | .FAB_DEAD_DECLARED_COUNT => some (.FAB_COUNTER_WRAP_DEAD_DECLARED_WRAPPED, i, 0)
  | .FAB_RX_FAILED_COUNT => some (.FAB_COUNTER_WRAP_RX_FAILED_WRAPPED, i, 0)
  | .FAB_LINK_FEC_CORRECTED_COUNT => some (.FAB_LINK_COUNTER_WRAP_FEC_CORRECTED_WRAPPED, i, 0)
  | .FAB_LINK_FEC_UNCORRECTABLE_COUNT => some (.FAB_LINK_COUNTER_WRAP_FEC_UNCORRECTABLE_WRAPPED, i, 0)
  | .FAB_LINK_CRC_ERRORS_COUNT => some (.FAB_LINK_COUNTER_WRAP_CRC_ERRORS_WRAPPED, i, 0)
  | .FAB_LINK_REPLAYS_COUNT => some (.FAB_LINK_COUNTER_WRAP_REPLAYS_WRAPPED, i, 0)
  | .FAB_LINK_RETRAINS_COUNT => some (.FAB_LINK_COUNTER_WRAP_RETRAINS_WRAPPED, i, 0)
  | .FAB_LINK_FRAMES_COUNT => some (.FAB_LINK_COUNTER_WRAP_FRAMES_WRAPPED, i, 0)
  | .MGT_POWER_WARNINGS_COUNT => some (.MGT_COUNTER_WRAP_POWER_WARNINGS_WRAPPED, i, 0)
  | .MGT_FAST_LIMITS_COUNT => some (.MGT_COUNTER_WRAP_FAST_LIMITS_WRAPPED, i, 0)
  | .MGT_THROTTLE_STEPS_COUNT => some (.MGT_COUNTER_WRAP_THROTTLE_STEPS_WRAPPED, i, 0)
  | .MGT_HARD_TRIPS_COUNT => some (.MGT_COUNTER_WRAP_HARD_TRIPS_WRAPPED, i, 0)
  | .MGT_MOULTS_COUNT => some (.MGT_COUNTER_WRAP_MOULTS_WRAPPED, i, 0)
  | .MGT_LOG_RECORDS_COUNT => some (.MGT_COUNTER_WRAP_LOG_RECORDS_WRAPPED, i, 0)
  | .MGT_LOG_DROPPED_COUNT => some (.MGT_COUNTER_WRAP_LOG_DROPPED_WRAPPED, i, 0)
  | .SEC_LOADS_COUNT => some (.SEC_COUNTER_WRAP_LOADS_WRAPPED, i, 0)
  | .SEC_REJECTS_COUNT => some (.SEC_COUNTER_WRAP_REJECTS_WRAPPED, i, 0)
  | .SEC_WATCHDOGS_COUNT => some (.SEC_COUNTER_WRAP_WATCHDOGS_WRAPPED, i, 0)
  | .SEC_REPORTS_COUNT => some (.SEC_COUNTER_WRAP_REPORTS_WRAPPED, i, 0)
  | .THR_ISSUE_COUNT => some (.THR_COUNTER_WRAP_ISSUE_WRAPPED, i, 0)
  | .THR_L1_HIT_COUNT => some (.THR_COUNTER_WRAP_HIT_WRAPPED, i, 0)
  | .THR_L1_MISS_COUNT => some (.THR_COUNTER_WRAP_MISS_WRAPPED, i, 0)
  | .THR_SB_FULL_CYCLES_COUNT => some (.THR_COUNTER_WRAP_SB_FULL_WRAPPED, i, 0)
  | .THR_PRELOAD_SKIP_COUNT => some (.THR_COUNTER_WRAP_SKIP_WRAPPED, i, 0)
  | .MAT_HAZARD_COUNT_COUNT => some (.MAT_COUNTER_WRAP_HAZARD_WRAPPED, i, 0)
  | .MAT_SAT_COUNT_COUNT => some (.MAT_COUNTER_WRAP_SAT_WRAPPED, i, 0)
  | .MAT_STREAM_CYCLES_COUNT => some (.MAT_COUNTER_WRAP_STREAM_WRAPPED, i, 0)
  | .MAT_GMMA_CYCLES_COUNT => some (.MAT_COUNTER_WRAP_GMMA_WRAPPED, i, 0)
  | .MAT_FREEZE_CYCLES_COUNT => some (.MAT_COUNTER_WRAP_FREEZE_WRAPPED, i, 0)
  | .GAT_TRANSFERS_COUNT => some (.GAT_COUNTER_WRAP_TRANSFERS_WRAPPED, i, 0)
  | .GAT_BYTES_READ_COUNT => some (.GAT_COUNTER_WRAP_READ_WRAPPED, i, 0)
  | .GAT_BYTES_WRITTEN_COUNT => some (.GAT_COUNTER_WRAP_WRITTEN_WRAPPED, i, 0)
  | .GAT_OOR_COUNT_COUNT => some (.GAT_COUNTER_WRAP_OOR_WRAPPED, i, 0)
  | .GAT_PAGES_COUNT => some (.GAT_COUNTER_WRAP_PAGES_WRAPPED, i, 0)
  | .GAT_PAGE_FAIL_COUNT => some (.GAT_COUNTER_WRAP_PAGE_FAIL_WRAPPED, i, 0)
  | .GAT_FAULT_STALL_CYCLES_COUNT => some (.GAT_COUNTER_WRAP_STALL_WRAPPED, i, 0)
  | .QUE_ERR_DROPPED_COUNT => some (.QUE_COUNTER_WRAP_WRAPPED, i, 0)
  | .CLK_PART_RESETS_COUNT => some (.CLK_COUNTER_WRAP_WRAPPED, 11, 10)
  | .CLK_COUNT_COUNT => some (.CLK_COUNTER_WRAP_WRAPPED, i / 32, i % 32)
  | .SEQ_STALL_CYCLES_COUNT => some (.SEQ_COUNTER_WRAP_STALL_WRAPPED, i / 4, i % 4)
  | .SEQ_ISSUE_COUNT => some (.SEQ_COUNTER_WRAP_ISSUE_WRAPPED, i / 4, i % 4)
  | .THR_L1_CE_WAY_COUNT => some (.THR_COUNTER_WRAP_CE_WRAPPED, i / 8, i % 8)
  | .SPAD_CONFLICT_BANK_COUNT => some (.SPAD_COUNTER_WRAP_BANK_WRAPPED, i / 32, i % 32)
  | .SPAD_ACCESS_COUNT => some (.SPAD_COUNTER_WRAP_ACCESS_WRAPPED, i, 0)
  | .CHL_SF_EVICTIONS_COUNT => some (.CHL_COUNTER_WRAP_EVICTIONS_WRAPPED, 0, 0)
  | .CHL_SNOOPS_COUNT => some (.CHL_COUNTER_WRAP_SNOOPS_WRAPPED, 0, 0)
  | .CHL_PORT_FEC_CORRECTED_COUNT => some (if i = 0 then Fld.CHL_COUNTER_WRAP_PORT0_WRAPPED else Fld.CHL_COUNTER_WRAP_PORT1_WRAPPED, 0, 0)
  | .CHL_PORT_CRC_ERRORS_COUNT => some (if i = 0 then Fld.CHL_COUNTER_WRAP_PORT0_WRAPPED else Fld.CHL_COUNTER_WRAP_PORT1_WRAPPED, 0, 1)
  | .CHL_PORT_REPLAYS_COUNT => some (if i = 0 then Fld.CHL_COUNTER_WRAP_PORT0_WRAPPED else Fld.CHL_COUNTER_WRAP_PORT1_WRAPPED, 0, 2)
  | .CHL_PORT_RETRAINS_COUNT => some (if i = 0 then Fld.CHL_COUNTER_WRAP_PORT0_WRAPPED else Fld.CHL_COUNTER_WRAP_PORT1_WRAPPED, 0, 3)
  | .CHL_PORT_TIMEOUTS_COUNT => some (if i = 0 then Fld.CHL_COUNTER_WRAP_PORT0_WRAPPED else Fld.CHL_COUNTER_WRAP_PORT1_WRAPPED, 0, 4)
  | .CHL_PORT_NOHOME_COUNT => some (if i = 0 then Fld.CHL_COUNTER_WRAP_PORT0_WRAPPED else Fld.CHL_COUNTER_WRAP_PORT1_WRAPPED, 0, 5)
  | _ => none

/-- A field of a wrap register. -/
def Fld.isWrap (f : Fld) : Bool :=
  match f.info.reg with
  | .GLB_COUNTER_WRAP | .CLK_COUNTER_WRAP | .CTX_COUNTER_WRAP | .QUE_COUNTER_WRAP | .OBJ_COUNTER_WRAP | .FEN_COUNTER_WRAP | .XLT_COUNTER_WRAP | .XLTC_COUNTER_WRAP | .SYN_COUNTER_WRAP | .HBM_COUNTER_WRAP | .FAB_COUNTER_WRAP | .FAB_LINK_COUNTER_WRAP | .CHL_COUNTER_WRAP | .MGT_COUNTER_WRAP | .SEC_COUNTER_WRAP | .SEQ_COUNTER_WRAP | .THR_COUNTER_WRAP | .MAT_COUNTER_WRAP | .GAT_COUNTER_WRAP | .SPAD_COUNTER_WRAP => true
  | _ => false

/-- Fields that keep their value through a part reset (R401). The stack states are handled with the stacks. -/
def Fld.kept (f : Fld) : Bool :=
  (f.wrap 0).isSome || f.isWrap ||
  match f with
  | .CLK_RESET_CAUSE_CAUSE | .CLK_RESET_CAUSE_DOMAIN | .CLK_RESET_CAUSE_COUNTER_INDEX | .CLK_RESET_TIME_TIME
  | .XLT_FRING_NEXT_SEQUENCE | .QUE_ERING_NEXT_SEQUENCE => true
  | _ => false

/-- Every field, in the order of the tables. -/
def Fld.all : List Fld := Reg.all.flatMap Reg.fields

end Sys2Proof.Machine
end

