-- ==== Sys2Proof/Machine/FMap.lean ====
section
/-!
DEFINITION. Finite maps as plain data: a list of (key, value) pairs with strictly rising keys and no entry equal to
the value an unlisted key has. Registers, tiles, memories and tables of the part are held this way.
-/
namespace Sys2Proof.Machine

/-- A finite map from `Nat`; the operations take the value `d` of the keys it does not list. -/
abbrev FMap (α : Type) := List (Nat × α)

/-- The value of key `k`: that of the first entry for it. -/
def FMap.get {α : Type} (d : α) : FMap α → Nat → α
  | [], _ => d
  | (j, v) :: m, k => if j = k then v else FMap.get d m k

/-- The map without key `k`. -/
def FMap.erase {α : Type} : FMap α → Nat → FMap α
  | [], _ => []
  | (j, v) :: m, k => if j = k then FMap.erase m k else (j, v) :: FMap.erase m k

/-- Enter key `k` ahead of the first larger key. -/
def FMap.insert {α : Type} : FMap α → Nat → α → FMap α
  | [], k, v => [(k, v)]
  | (j, w) :: m, k, v => if k < j then (k, v) :: (j, w) :: m else (j, w) :: FMap.insert m k v

/-- Give key `k` the value `v`; an entry equal to `d` is not kept. -/
def FMap.put {α : Type} [DecidableEq α] (d : α) (m : FMap α) (k : Nat) (v : α) : FMap α :=
  if v = d then m.erase k else (m.erase k).insert k v

/-- Change the value of key `k`. -/
def FMap.upd {α : Type} [DecidableEq α] (d : α) (m : FMap α) (k : Nat) (f : α → α) : FMap α :=
  m.put d k (f (m.get d k))

/-- All keys of `m` are at least `b`, rise strictly, and `ok` holds of every entry. -/
def FMap.wfBy {α : Type} (ok : Nat → α → Bool) : Nat → FMap α → Bool
  | _, [] => true
  | b, (j, w) :: m => decide (b ≤ j) && ok j w && FMap.wfBy ok (j + 1) m

/-- The canonical form: keys rise strictly and no value is `d`. -/
def FMap.wf {α : Type} [DecidableEq α] (d : α) (m : FMap α) : Bool := FMap.wfBy (fun _ v => decide (v ≠ d)) 0 m

/-- Store the bytes of a list at rising keys from `k` on. -/
def FMap.putList {α : Type} [DecidableEq α] (d : α) : FMap α → Nat → List α → FMap α
  | m, _, [] => m
  | m, k, b :: bs => FMap.putList d (m.put d k b) (k + 1) bs

/-- The values of `n` keys from `k` on. -/
def FMap.getList {α : Type} (d : α) (m : FMap α) (k : Nat) : Nat → List α
  | 0 => []
  | n + 1 => m.get d k :: FMap.getList d m (k + 1) n

/-- The keys listed. -/
def FMap.keys {α : Type} (m : FMap α) : List Nat := m.map Prod.fst

/-- A list without the first member that satisfies `q`. -/
def dropFirst {α : Type} (q : α → Bool) : List α → List α
  | [] => []
  | x :: xs => if q x then xs else x :: dropFirst q xs

/-- A list with `f` applied to the first member that satisfies `q`. -/
def updFirst {α : Type} (q : α → Bool) (f : α → α) : List α → List α
  | [] => []
  | x :: xs => if q x then f x :: xs else x :: updFirst q f xs

/-- Member `n` of a list, or `d`. -/
def nth {α : Type} (d : α) (l : List α) (n : Nat) : α := l.getD n d

/-- `n` copies. -/
def rep {α : Type} (n : Nat) (x : α) : List α := List.replicate n x

/-- The numbers `b … b + n - 1`. -/
def span (b n : Nat) : List Nat := (List.range n).map (b + ·)

end Sys2Proof.Machine
end

