-- ==== Sys2Proof/Machine/Population.lean ====
section
/-!
DEFINITION. The population of the six part numbers (00_scope.md R1 to R3, 01_denesque_at_scale.md R21, R22).
-/
namespace Sys2Proof.Machine

/-- The part numbers of Table DNQ-800 series population. -/
inductive Variant where
  | dnq880 | dnq860 | dnq840 | dnq480 | dnq440 | dnq220
  deriving DecidableEq, Repr

namespace Variant

/-- Compute dies 0 to n - 1 are present. -/
def dies : Variant → Nat
  | dnq880 | dnq860 | dnq840 => 8
  | dnq480 | dnq440 => 4
  | dnq220 => 2

/-- I/O dies 0 to n - 1 are present. -/
def ioDies : Variant → Nat
  | dnq880 | dnq480 => 4
  | dnq860 | dnq840 | dnq440 => 2
  | dnq220 => 1

/-- Stacks built into the part number; the DNQ-840 has the even ones (R2). -/
def fitted (v : Variant) (s : Nat) : Bool :=
  match v with
  | dnq840 => decide (s < 16) && s % 2 == 0
  | _ => decide (s < 2 * v.dies)

/-- Links 0 to n - 1 are present: nine for each I/O die. -/
def links (v : Variant) : Nat := 9 * v.ioDies

/-- Fabric connectors F0 to F(n - 1) are in use. -/
def connectors : Variant → Nat
  | dnq880 | dnq480 => 9
  | dnq860 | dnq840 | dnq440 => 5
  | dnq220 => 3

/-- Codec engines: one on each compute die, or none. -/
def codecs (v : Variant) : Nat :=
  match v with
  | dnq440 | dnq220 => 0
  | _ => v.dies

/-- Module TDP in W. -/
def tdp : Variant → Nat
  | dnq880 => 2400
  | dnq860 => 2250
  | dnq840 => 1900
  | dnq480 => 1350
  | dnq440 => 1200
  | dnq220 => 650

/-- PART_NUMBER of R22. -/
def code : Variant → Nat
  | dnq880 => 0x0880
  | dnq860 => 0x0860
  | dnq840 => 0x0840
  | dnq480 => 0x0480
  | dnq440 => 0x0440
  | dnq220 => 0x0220

/-- Compute die `d` is present. -/
def hasDie (v : Variant) (d : Nat) : Bool := decide (d < v.dies)
/-- I/O die `i` is present. -/
def hasIo (v : Variant) (i : Nat) : Bool := decide (i < v.ioDies)
/-- Link `l` is present. -/
def hasLink (v : Variant) (l : Nat) : Bool := decide (l < v.links)
/-- Compute die `d` carries a codec engine. -/
def hasCodec (v : Variant) (d : Nat) : Bool := decide (d < v.codecs)
/-- Rail `r` is fitted (R423). -/
def hasRail (v : Variant) (r : Nat) : Bool :=
  if r < 8 then v.hasDie r else if r < 16 then v.hasDie (r - 8) else if r < 20 then v.hasIo (r - 16) else decide (r < 23)
/-- Physical tile `p` lies on a present compute die (R9). -/
def hasTile (v : Variant) (p : Nat) : Bool := decide (p < 104 * v.dies)

end Variant

end Sys2Proof.Machine
end

