-- ==== Sys2Proof/Syntax.lean ====
section
/-!
DEFINITION. Syntax: the commands of the block, one constructor for each row of spec/opcode_table.json, in the
table's order, with the operand types they carry. The table gives no operand and no bits; the operands are what the
rule named in each row says the event depends on and the part does not hold itself.
-/
namespace Sys2Proof

/-- The four streams and their engines (02_tiles_streams_and_gangs.md, "Stream slots"). -/
inductive StreamId where
  | thr | mat | gat | syn
  deriving DecidableEq, Repr

/-- Scalar format S-R of R164, every bit of the two words but CLASS and OPCODE. -/
structure ScalarR where
  len : BitVec 1
  d : BitVec 4
  a : BitVec 4
  b : BitVec 4
  rsv0 : BitVec 10
  rsv1 : BitVec 32
  deriving DecidableEq, Repr

/-- Scalar format S-I of R164. -/
structure ScalarI where
  len : BitVec 1
  d : BitVec 4
  a : BitVec 4
  rsv0 : BitVec 14
  imm : BitVec 32
  deriving DecidableEq, Repr

/-- Scalar format S-B of R164. -/
structure ScalarB where
  len : BitVec 1
  a : BitVec 4
  b : BitVec 4
  cond : BitVec 3
  rsv0 : BitVec 11
  offset : BitVec 32
  deriving DecidableEq, Repr

/-- Scalar format S-L of R164. -/
structure ScalarL where
  len : BitVec 1
  count : BitVec 4
  rsv0 : BitVec 18
  endOff : BitVec 32
  deriving DecidableEq, Repr

/-- Scalar format S-W of R164. -/
structure ScalarW where
  len : BitVec 1
  cond : BitVec 2
  sem : BitVec 5
  count : BitVec 4
  rsv0 : BitVec 11
  rsv1 : BitVec 32
  deriving DecidableEq, Repr

/-- Scalar format S-X of R164. -/
structure ScalarX where
  len : BitVec 1
  d : BitVec 4
  rsv0 : BitVec 18
  rsv1 : BitVec 32
  imm64 : BitVec 64
  deriving DecidableEq, Repr

/-- The fields of a thread instruction (R181), every bit of its 64 but CLASS and OP. -/
structure ThreadFields where
  d : BitVec 8
  a : BitVec 8
  mod : BitVec 6
  b : BitVec 8
  c : BitVec 8
  imm : BitVec 16
  deriving DecidableEq, Repr

/-- Who fetches an instruction (R28, R191). -/
inductive Fetcher where
  | stream (s : StreamId)
  | group (g : Nat)
  deriving DecidableEq, Repr

/-- Whose wait the stall limit ends (R35). -/
inductive Waiter where
  | stream (s : StreamId)
  | engine (s : StreamId)
  | group (g : Nat)
  deriving DecidableEq, Repr

/-- The MCLK cycles that pass before an event of the MAT engine: `cycles` unfrozen ones and `frozen` ones (R87).
DEDUCED: notes/assumptions/38.md. -/
structure MatTime where
  cycles : Nat
  frozen : Nat
  deriving DecidableEq, Repr

/-- An error that a tile memory word shows when it is read (R381), or an L1 line (R72). -/
inductive TileErr where
  | none
  | corrected
  | detected
  /-- A corrected or, when `unc`, an uncorrectable error in L1 way `way` (R72). -/
  | l1 (way : Nat) (unc : Bool)
  deriving DecidableEq, Repr

/-- What a stack controller finds when it reads a line's cells (R227, R229). -/
inductive CellErr where
  | none
  | correctable
  | uncorrectable
  deriving DecidableEq, Repr

/-- What a read of memory outside the part returned: the bytes, a poisoned line, or a failure (R315, R342). -/
inductive ExtReply where
  | data (bytes : List Byte)
  | poisoned (bytes : List Byte)
  | failed
  deriving DecidableEq, Repr

/-- The replies to the reads of host memory that one event of a walker or command processor makes, by host address.
An address that is not listed is a read that failed (R315). DESIGN CHOICE: notes/assumptions/9.md. -/
abbrev HostMem := List (Nat × ExtReply)

/-- The host lines through which the part watches host stores (R270). -/
inductive HostLine where
  | doorbell (sq : Nat)
  | cqConsumer (cq : Nat)
  | eringConsumer
  | fringConsumer
  | rringProducer
  deriving DecidableEq, Repr

/-- Who waits for a fence (R219, R298). -/
inductive FenceWaiter where
  | tile (p : Nat)
  | descriptor (sq n : Nat)
  deriving DecidableEq, Repr

/-- Which wait a barrier's publication ends (R212): the tile's YBAR, or the BARB of one block slot. -/
inductive BarrierKind where
  | ybar
  | barb (block : Nat)
  deriving DecidableEq, Repr

/-- A participant of an invalidation (R259). -/
inductive InvParticipant where
  | tile (p : Nat)
  | walker (d : Nat)
  | cp (d : Nat)
  | codec (d : Nat)
  deriving DecidableEq, Repr

/-- An interrupt source with a holdoff (R299, R252). -/
inductive IrqSource where
  | cq (n : Nat)
  | fring
  | ering
  | fab
  deriving DecidableEq, Repr

/-- A flit as its receiver sees it after the FEC (R304): its header word, the corrections made, whether its CRC holds. -/
structure Flit where
  header : BitVec 32
  corrections : Nat
  crcOk : Bool
  deriving DecidableEq, Repr

/-- The five channels of Chautlink (R305). -/
inductive Channel where
  | req | snp | rsp | drsp | nc
  deriving DecidableEq, Repr

/-- A packet of the fabric: its header slot (R335) and its data bytes. -/
structure Packet where
  hdr : BitVec 128
  data : List Byte
  deriving DecidableEq, Repr

/-- A frame as its receiver sees it (R322, R323): header and credit words, FEC results of each lane (corrected
symbols, uncorrectable codewords), whether its CRC holds, and the packets in its slots for other endpoints. -/
structure Frame where
  header : BitVec 32
  credits : BitVec 32
  fec : List (Nat × Nat × Nat)
  crcOk : Bool
  packets : List Packet
  deriving DecidableEq, Repr

/-- A sensor of Table Sensors (R372). -/
inductive PmbusSensor where
  | inputVoltage | inputCurrent
  | railVoltage (r : Nat) | railCurrent (r : Nat) | regTemp (r : Nat)
  deriving DecidableEq, Repr

/-- What the hardware start finds (R406): which stacks train at 8.0 or at 6.4 Gb/s, each port's training result
(width, rate, reversal, or none), the certificate chain read from flash. -/
structure StartResult where
  fast : BitVec 16
  slow : BitVec 16
  port0 : Option (Bool × Bool × Bool)
  port1 : Option (Bool × Bool × Bool)
  chain : List Byte
  deriving DecidableEq, Repr

/-- How an I3C dynamic address is given (R427). -/
inductive DaaKind where
  | setdasa
  | entdaa
  deriving DecidableEq, Repr

/-- A command of the block: one constructor per row of spec/opcode_table.json. `p` is a part-wide physical tile
index (R9), `g` a group slot, `d` a compute die, `l` a link, `port` a Chautlink port.
DEDUCED: notes/assumptions/10.md; DEDUCED: notes/assumptions/80.md. -/
inductive Instr where
  -- registers and JTAG (R11, R309, R428, R429)
  | registerWrite (port : Nat) (hdr : BitVec 128) (data : W64)
  | mmrd (port : Nat) (hdr : BitVec 128)
  | registerAccess (dr : BitVec 98)
  | bypass
  | idcode
  | samplePreload (cells : BitVec 11)
  | extest
  | clamp
  | highz
  | tapReset
  -- tiles and streams (R28 to R49)
  | launchMessage (p : Nat)
  | kernelEnd (p : Nat)
  | instructionFetchFill (p : Nat) (who : Fetcher)
  | engineInstructionPush (p : Nat) (s : StreamId) (raw : BitVec 128)
  | queueEntryFreed (p : Nat) (s : StreamId) (stall : Nat)
  | engineInstructionComplete (p : Nat) (e : StreamId) (t : MatTime)
  | streamStallLimit (p : Nat) (w : Waiter) (cycles : Nat)
  | broadcastReceive (p : Nat) (s : StreamId)
  | broadcastCreditReturn (p : Nat) (s : StreamId) (stall : Nat)
  | gangWaitComplete (p : Nat) (s : StreamId)
  | gangHalt (p : Nat)
  | haltRecordsFinal (p : Nat)
  | haltReq (p : Nat)
  | seqCtrlResume (p : Nat)
  | clearHalt (p : Nat)
  -- scalar instructions (R165)
  | qnop (p : Nat) (s : StreamId) (f : ScalarR)
  | qend (p : Nat) (s : StreamId) (f : ScalarR)
  | qadd (p : Nat) (s : StreamId) (f : ScalarR)
  | qsub (p : Nat) (s : StreamId) (f : ScalarR)
  | qmul (p : Nat) (s : StreamId) (f : ScalarR)
  | qand (p : Nat) (s : StreamId) (f : ScalarR)
  | qor (p : Nat) (s : StreamId) (f : ScalarR)
  | qxor (p : Nat) (s : StreamId) (f : ScalarR)
  | qshl (p : Nat) (s : StreamId) (f : ScalarR)
  | qshr (p : Nat) (s : StreamId) (f : ScalarR)
  | qsra (p : Nat) (s : StreamId) (f : ScalarR)
  | qmin (p : Nat) (s : StreamId) (f : ScalarR)
  | qmax (p : Nat) (s : StreamId) (f : ScalarR)
  | qminu (p : Nat) (s : StreamId) (f : ScalarR)
  | qmaxu (p : Nat) (s : StreamId) (f : ScalarR)
  | qslt (p : Nat) (s : StreamId) (f : ScalarR)
  | qsltu (p : Nat) (s : StreamId) (f : ScalarR)
  | qaddi (p : Nat) (s : StreamId) (f : ScalarI)
  | qandi (p : Nat) (s : StreamId) (f : ScalarI)
  | qori (p : Nat) (s : StreamId) (f : ScalarI)
  | qxori (p : Nat) (s : StreamId) (f : ScalarI)
  | qshli (p : Nat) (s : StreamId) (f : ScalarI)
  | qshri (p : Nat) (s : StreamId) (f : ScalarI)
  | qmuli (p : Nat) (s : StreamId) (f : ScalarI)
  | qmovi (p : Nat) (s : StreamId) (f : ScalarI)
  | qmovi64 (p : Nat) (s : StreamId) (f : ScalarX)
  | qld (p : Nat) (s : StreamId) (f : ScalarI)
  | qldsp (p : Nat) (s : StreamId) (f : ScalarI)
  | qbr (p : Nat) (s : StreamId) (f : ScalarB)
  | qloop (p : Nat) (s : StreamId) (f : ScalarL)
  | qloopx (p : Nat) (s : StreamId) (f : ScalarR)
  | qloopn (p : Nat) (s : StreamId) (f : ScalarI)
  | qwait (p : Nat) (s : StreamId) (f : ScalarW)
  -- thread engine and group events
  | tlaunch (p : Nat)
  | tcarve (p : Nat)
  | tpreload (p : Nat) (ext : HostMem)
  | tnop (p : Nat)
  | groupPromotion (p : Nat)
  | loadReturn (p : Nat) (g : Nat) (k : Nat) (way : Nat)
  | storeBufferDrain (p : Nat) (full : Nat) (err : TileErr)
  | writeBufferDrain (p : Nat)
  | groupNoProgress (p : Nat) (g : Nat)
  | wayDisable (p : Nat) (w : Nat)
  | l1ErrorWindowEnd (p : Nat) (w : Nat)
  | grpDbgHalt (p : Nat)
  | grpDbgResume (p : Nat)
  | grpDbgStep (p : Nat)
  -- thread instructions (R184 to R187)
  | mov (p g : Nat) (f : ThreadFields)
  | add (p g : Nat) (f : ThreadFields)
  | sub (p g : Nat) (f : ThreadFields)
  | mul (p g : Nat) (f : ThreadFields)
  | mulhi (p g : Nat) (f : ThreadFields)
  | mulhiu (p g : Nat) (f : ThreadFields)
  | and (p g : Nat) (f : ThreadFields)
  | or (p g : Nat) (f : ThreadFields)
  | xor (p g : Nat) (f : ThreadFields)
  | shl (p g : Nat) (f : ThreadFields)
  | shr (p g : Nat) (f : ThreadFields)
  | sra (p g : Nat) (f : ThreadFields)
  | min (p g : Nat) (f : ThreadFields)
  | max (p g : Nat) (f : ThreadFields)
  | minu (p g : Nat) (f : ThreadFields)
  | maxu (p g : Nat) (f : ThreadFields)
  | adds (p g : Nat) (f : ThreadFields)
  | subs (p g : Nat) (f : ThreadFields)
  | addsu (p g : Nat) (f : ThreadFields)
  | subsu (p g : Nat) (f : ThreadFields)
  | cmp (p g : Nat) (f : ThreadFields)
  | sel (p g : Nat) (f : ThreadFields)
  | add64 (p g : Nat) (f : ThreadFields)
  | sub64 (p g : Nat) (f : ThreadFields)
  | shfl (p g : Nat) (f : ThreadFields)
  | fadd (p g : Nat) (f : ThreadFields)
  | fsub (p g : Nat) (f : ThreadFields)
  | fmul (p g : Nat) (f : ThreadFields)
  | ffma (p g : Nat) (f : ThreadFields)
  | fmin (p g : Nat) (f : ThreadFields)
  | fmax (p g : Nat) (f : ThreadFields)
  | fcmp (p g : Nat) (f : ThreadFields)
  | fexp2 (p g : Nat) (f : ThreadFields)
  | flog2 (p g : Nat) (f : ThreadFields)
  | frcp (p g : Nat) (f : ThreadFields)
  | frsqrt (p g : Nat) (f : ThreadFields)
  | cvt (p g : Nat) (f : ThreadFields)
  | ld (p g : Nat) (f : ThreadFields) (err : TileErr)
  | st (p g : Nat) (f : ThreadFields)
  | atom (p g : Nat) (f : ThreadFields)
  | nop (p g : Nat) (raw : W64)
  | bra (p g : Nat) (f : ThreadFields)
  | brx (p g : Nat) (f : ThreadFields)
  | elect (p g : Nat) (f : ThreadFields)
  | vote (p g : Nat) (f : ThreadFields)
  | thrEnd (p g : Nat) (f : ThreadFields)
  | cinv (p g : Nat) (f : ThreadFields)
  | barb (p g : Nat) (f : ThreadFields)
  | membar (p g : Nat) (f : ThreadFields)
  | semwait (p g : Nat) (f : ThreadFields)
  | semsig (p g : Nat) (f : ThreadFields)
  | gmma (p g : Nat) (f : ThreadFields)
  | umov (p g : Nat) (f : ThreadFields)
  | uadd (p g : Nat) (f : ThreadFields)
  | usub (p g : Nat) (f : ThreadFields)
  | umul (p g : Nat) (f : ThreadFields)
  | uand (p g : Nat) (f : ThreadFields)
  | uor (p g : Nat) (f : ThreadFields)
  | uxor (p g : Nat) (f : ThreadFields)
  | ushl (p g : Nat) (f : ThreadFields)
  | ushr (p g : Nat) (f : ThreadFields)
  | uld (p g : Nat) (f : ThreadFields)
  | uins16 (p g : Nat) (f : ThreadFields)
  -- matrix engine
  | mldp (p : Nat) (t : MatTime)
  | mlut (p : Nat) (t : MatTime)
  | mswap (p : Nat) (t : MatTime)
  | mstr (p : Nat) (t : MatTime) (err : TileErr)
  | mdrn (p : Nat) (t : MatTime)
  | mzero (p : Nat) (t : MatTime)
  | mdly (p : Nat) (t : MatTime)
  | gmmaBegin (p : Nat) (t : MatTime)
  | gmmaResult (p : Nat) (t : MatTime)
  -- gather engine
  | gxfer (p : Nat)
  | gfill (p : Nat)
  | gnop (p : Nat)
  | gatherReadReturn (p : Nat) (stall : Nat)
  -- sync engine, barriers, fences
  | ynop (p : Nat)
  | yset (p : Nat)
  | ybar (p : Nat)
  | ymembar (p : Nat)
  | yfsignal (p : Nat)
  | yfwait (p : Nat)
  | ypoll (p : Nat)
  | ypollReread (p : Nat)
  | semaphoreSignal (p : Nat) (wait : Nat)
  | barrierArrival (p : Nat)
  | barrierPublicationReceive (p : Nat) (k : BarrierKind)
  | fenceSignal (n : Nat)
  | fenceWaitSatisfied (w : FenceWaiter)
  -- memory
  | stackRead (s : Nat) (line : Nat) (err : CellErr) (odecc : Nat)
  | stackWrite (s : Nat) (line : Nat) (mask : W64) (data : List Byte) (err : CellErr)
  | stackAtomic (s : Nat) (off : Nat) (op : BitVec 4) (wide : Bool) (a b : W64) (err : CellErr)
  | scrubRead (s : Nat) (err : CellErr)
  | stackTemperatureRead (s : Nat) (reading : Option Nat) (throttled : Nat)
  | rowRemapComplete (s : Nat) (bad : List Nat)
  | refetch (d : Nat)
  -- translation
  | walkRequest (p : Nat)
  | walkComplete (d : Nat) (k : Nat) (hs : HostMem)
  | faultEntryAllocate (d : Nat) (waited : Nat)
  | faultRecordWrite (hs : HostMem)
  | retry (resp : BitVec 128) (hs : HostMem)
  | unserviceable (resp : BitVec 128) (hs : HostMem)
  | xltRingRetry
  | invalidationAck (id : Nat) (who : InvParticipant)
  -- contexts, queues, objects
  | openCtx (c : Nat)
  | start (c : Nat)
  | abort (c : Nat) (bells : List (Nat × BitVec 32))
  | contextStopped (c : Nat)
  | destroy (c : Nat)
  | sqEnable (q : Nat)
  | sqDisable (q : Nat)
  | cqEnable (q : Nat)
  | cqDisable (q : Nat)
  | hostLineReread (l : HostLine) (hs : HostMem)
  | descriptorFetch (q : Nat) (hs : HostMem)
  | launch (q n : Nat) (hs : HostMem)
  | copy (q n : Nat) (hs : HostMem)
  | compress (q n : Nat) (hs : HostMem)
  | decompress (q n : Nat) (hs : HostMem)
  | fence (q n : Nat)
  | invalidate (q n : Nat)
  | objRegister (q n : Nat) (hs : HostMem)
  | objRelease (q n : Nat)
  | itemDispatch (d : Nat) (hs : HostMem)
  | codecFrameComplete (d : Nat) (hs : HostMem)
  | completionRecordWrite (cq : Nat) (hs : HostMem)
  | descriptorFenceSignal (q n : Nat)
  | errorRecordWrite (hs : HostMem)
  | eringRingRetry
  | objTableBaseWrite (value : W64)
  | objectTableReady
  | interruptHoldoffExpiry (src : IrqSource)
  -- Chautlink
  | flitReceive (port : Nat) (f : Flit)
  | credit (port : Nat) (c : Channel) (n : Nat)
  | rds (port : Nat) (hdr : BitVec 128)
  | rdo (port : Nat) (hdr : BitVec 128)
  | rdnc (port : Nat) (hdr : BitVec 128)
  | wrl (port : Nat) (hdr : BitVec 128) (data : List Byte)
  | wrp (port : Nat) (hdr : BitVec 128) (data : List Byte)
  | chlAtom (port : Nat) (hdr : BitVec 128) (data : List Byte)
  | wb (port : Nat) (hdr : BitVec 128) (data : List Byte)
  | evict (port : Nat) (hdr : BitVec 128)
  | snpinv (port : Nat) (hdr : BitVec 128)
  | chlCmp (port : Nat) (hdr : BitVec 128)
  | chlAck (port : Nat) (hdr : BitVec 128)
  | ackd (port : Nat) (hdr : BitVec 128) (data : List Byte)
  | nohome (port : Nat) (hdr : BitVec 128)
  | chlData (port : Nat) (hdr : BitVec 128) (data : List Byte)
  | chlCompletionTimeout (port : Nat) (tag : Nat)
  | snoopTimeout (port : Nat)
  | chlPortRetrain (port : Nat)
  -- Kyolor fabric
  | frameReceive (l : Nat) (f : Frame)
  | laneLockLoss (l : Nat) (rx : Bool) (lane : Nat)
  | fecWindowEnd (l : Nat) (rx : Bool) (lane : Nat) (corrected uncorrectable : Nat)
  | linkEnable (l : Nat)
  | linkDisable (l : Nat)
  | fabLinkRetrain (l : Nat)
  | linkTrainingComplete (l : Nat) (result : Option (BitVec 18 × BitVec 6 × Bool))
  | linkDownRetry (l : Nat)
  | retrainAttemptTimeout (l : Nat)
  | fabSetupEnable (value : BitVec 32)
  | put (pk : Packet)
  | get (pk : Packet)
  | fabAtom (pk : Packet)
  | cput (pk : Packet)
  | fabAck (pk : Packet)
  | fabData (pk : Packet)
  | fail (pk : Packet)
  | destDeadTimeout (io : Nat) (entry : Nat)
  | fabDeadClear (endpoint : BitVec 18)
  | fabCollEnable (g : Nat)
  | collectiveContribution (g : Nat) (addr : Nat) (data : List Byte)
  | collectiveRoundComplete (g : Nat) (parity : Bool)
  | collectiveRoundTimeout (g : Nat) (parity : Bool)
  -- firmware, trust, sideband
  | load (image : Option (List Byte))
  | imageCheck
  | report
  | readLog
  | readChain
  | extend
  | programFuse
  | watchdogExpiry (i : Nat)
  | getVersion (req : List Byte)
  | getCapabilities (req : List Byte)
  | negotiateAlgorithms (req : List Byte)
  | getDigests (req : List Byte)
  | getCertificate (req : List Byte)
  | challenge (req : List Byte)
  | getMeasurements (req : List Byte)
  | spdmUnsupportedRequest (req : List Byte)
  | setEndpointId (req : List Byte)
  | getEndpointId (req : List Byte)
  | getMctpVersionSupport (req : List Byte)
  | getMessageTypeSupport (req : List Byte)
  | getTid (req : List Byte)
  | setTid (req : List Byte)
  | getPldmVersion (req : List Byte)
  | getPldmTypes (req : List Byte)
  | getPldmCommands (req : List Byte)
  | getPdrRepositoryInfo (req : List Byte)
  | getPdr (req : List Byte)
  | getSensorReading (req : List Byte)
  | getStateSensorReadings (req : List Byte)
  | pldmUnsupportedCommand (req : List Byte)
  -- health
  | sensorRead
  | logInfo
  | logRead
  | moultNominate
  | quiesce (d : Nat)
  | moult (d : Nat)
  | dieSensorSample (io : Bool) (d k : Nat) (reading : Option Int)
  | shutdownPowerOff
  | pmbusRead (sensor : PmbusSensor) (reading : Option Int)
  | dieEvaluation (d : Nat)
  | fastCurrentLimit
  | fastLimitRelease
  | tileErrorPeriodEnd
  | logRecordProgram
  | logSectorErase
  | stacksOpen (d : Nat) (noResource : List Nat) (badReserve : List Nat)
  | powerWarning (millivolts : Nat)
  | powerWarningClear
  -- reset and power
  | powerOnReset
  | partReset
  | hardwareStart (r : StartResult)
  | partResetKeyWrite (value : BitVec 32)
  | setupLock
  | refLost
  | refReturn
  | pllLost (domain : BitVec 5) (index : BitVec 9) (starting : Bool)
  | pwrEnAssert (msSinceDeassert : Nat)
  | pwrEnDeassert
  | railOutOfRegulation (r : Nat)
  | railStartTimeout
  | vinOvervoltage
  | vinUndervoltage
  | inputCurrentLimitTimeout
  | vcblOvercurrent (k : Nat)
  | chlPortTrainingComplete (port : Nat) (result : Option (Bool × Bool × Bool))
  | partResetDelayExpiry
  | vinApplied
  | dynamicAddressAssignment (kind : DaaKind) (addr : BitVec 7)
  deriving DecidableEq, Repr

end Sys2Proof
end

