-- ==== Sys2Proof/Machine/PartState.lean ====
section
/-!
DEFINITION. The state of the units outside the tiles, as plain data: memory stacks (09), translation (10), queues,
contexts and objects (11), Chautlink (12), the fabric (13), firmware and trust (14), health and the log (15), clocks
and power (16, 17), JTAG (17). A status that a register shows field for field is held in `State.fields` only.
-/
namespace Sys2Proof.Machine

/-! ### Who waits for a request that left the part -/

/-- The owner of a request to host memory, to another part, or of a snoop: who takes its outcome. -/
inductive Owner where
  /-- a load or atomic of a thread group; its data returns through LOAD_RETURN -/
  | group (p g : Nat)
  /-- a stream's QLD or instruction fetch -/
  | stream (p : Nat) (s : StreamId)
  /-- a group's instruction fetch -/
  | groupFetch (p g : Nat)
  /-- a read of the gather engine -/
  | gather (p : Nat)
  /-- YPOLL -/
  | sync (p : Nat)
  /-- a store that left a tile's buffers, by the (group slot, store number) pairs it holds; slot 64 is the gather
  engine -/
  | store (p : Nat) (who : List (Nat × Nat))
  /-- a record or line of a completion queue -/
  | cq (n : Nat)
  | fring
  | ering
  /-- a descriptor's item: STATUS word, COPY or codec writes -/
  | item (q n i : Nat)
  /-- a refetch of the die controller -/
  | refetch (d : Nat)
  /-- a collective engine's packet or write for group `g`, parity, round -/
  | coll (g : Nat) (parity : Bool) (round : Nat)
  /-- a request of the host or a peer that needed a snoop first -/
  | outside
  /-- a read whose requester was discarded (R48): its reply goes nowhere -/
  | nobody
  deriving DecidableEq, Repr

/-! ### Memory stacks (09) -/

/-- A spare row in use (R236, HBM_REMAP_DATA). -/
structure Spare where
  pc : Nat
  bank : Nat
  row : Nat
  cause : Nat
  permanent : Bool
  deriving DecidableEq, Repr

/-- A row copy in progress: its spare entry and what it will hold (R236). -/
structure RowCopy where
  entry : Nat
  spare : Spare
  deriving DecidableEq, Repr

/-- A stack controller's state that no register shows as it stands. -/
structure Stack where
  spares : FMap (Option Spare)
  copies : List RowCopy
  /-- corrected errors of each row in the running scrub period -/
  rowCe : FMap Nat
  /-- next line of the scrub -/
  scrub : Nat
  failedReads : Nat
  /-- the line last served to STACK_READ or STACK_ATOMIC: data, eyespot -/
  reply : Option (List Byte × Bool)
  deriving DecidableEq, Repr

/-- A stack with nothing remapped. -/
def Stack.reset : Stack := ⟨[], [], [], 0, 0, none⟩

/-- A physical range of a reloadable object that a die controller holds (R233, R294). -/
structure Reload where
  handle : Nat
  base : Nat
  bytes : Nat
  backing : Nat
  deriving DecidableEq, Repr

/-- A refetch in progress (R233): the cell line, its object, the 64 host reads of its granule. -/
structure Refetch where
  line : Nat
  handle : Nat
  ids : List Nat
  data : FMap (List Byte)
  failed : Bool
  released : Bool
  noSpare : Bool
  deriving DecidableEq, Repr

/-! ### Translation (10) -/

/-- Kinds of access that translation distinguishes (R251 ACCESS). -/
inductive Access where
  | read | store | atomic | fetch
  deriving DecidableEq, Repr

/-- A translation of a tile's cache (R248). -/
structure XEntry where
  ctx : Nat
  va : Nat
  bits : Nat
  ipa : Nat
  target : Nat
  pa : Nat
  endpoint : Nat
  w1 : Bool
  x1 : Bool
  l1 : Nat
  w2 : Bool
  x2 : Bool
  l2 : Nat
  deriving DecidableEq, Repr

/-- A requester of Table Translating requesters (R244). -/
inductive Requester where
  | group (p g : Nat)
  | stream (p : Nat) (s : StreamId)
  | gather (p : Nat)
  | sync (p : Nat)
  | codec (d : Nat)
  | cp (q n i : Nat)
  deriving DecidableEq, Repr

/-- A fault as a walk or a cached entry finds it (R440). -/
structure XFault where
  kind : Nat
  stage : Nat
  level : Nat
  ipa : Nat
  deriving DecidableEq, Repr

/-- A miss: who needs which address, and how. -/
structure Miss where
  who : Requester
  die : Nat
  ctx : Nat
  va : Nat
  acc : Access
  instr : Nat
  /-- the kernel is a COPY item, which runs no kernel (R255) -/
  copy : Bool
  deriving DecidableEq, Repr

/-- A pending-fault entry (R250). -/
structure FaultEntry where
  miss : Miss
  fault : XFault
  order : Nat
  /-- sequence of its record once written -/
  seq : Option Nat
  answered : Bool
  deriving DecidableEq, Repr

/-- A cached table entry of a walker: whose (context, or none for stage 2), level, input address of the entry. -/
structure WEntry where
  ctx : Option Nat
  level : Nat
  key : Nat
  word : Nat
  deriving DecidableEq, Repr

/-- A compute die's walker, die controller and MCLK control. -/
structure Die where
  walks : List Miss
  queued : List Miss
  w1 : List WEntry
  w2 : List WEntry
  entries : FMap (Option FaultEntry)
  faultQueue : List (Miss × XFault)
  reloads : List Reload
  reports : List Nat
  refetches : List Refetch
  /-- MCLK level in MHz (R375) -/
  level : Nat
  hardTrip : Bool
  /-- evaluations in succession in which no cause has held -/
  quiet : Nat
  /-- the codec engine's waiting items, oldest first (R284) -/
  codec : List (Nat × Nat × Nat)
  /-- items waiting for a gang: priority, queue, descriptor, item (R272) -/
  waiting : List (Nat × Nat × Nat × Nat)
  deriving DecidableEq, Repr

/-- A die with nothing in progress, MCLK at 700 MHz (R375). -/
def Die.reset : Die := ⟨[], [], [], [], [], [], [], [], [], 700, false, 0, [], []⟩

/-- A page that an invalidation removed from a tile's cache, with the number of the tile's next store then: older accesses
to it are the old ones of R259. -/
structure InvPage where
  tile : Nat
  limit : Nat
  target : Nat
  pa : Nat
  bits : Nat
  endpoint : Nat
  deriving DecidableEq, Repr

/-- An invalidation in progress (R258, R259). DEDUCED: notes/assumptions/52.md. -/
structure Inval where
  id : Nat
  kind : Nat
  ctx : Nat
  start : Nat
  length : Nat
  waitingFor : List InvParticipant
  pages : List InvPage
  /-- requests older than this belong to it -/
  before : Nat
  desc : Option (Nat × Nat)
  /-- the context that a DESTROY frees when it ends -/
  destroys : Option Nat
  deriving DecidableEq, Repr

/-! ### Queues, contexts and objects (11) -/

/-- Where an item stands. -/
inductive ItemStage where
  | fresh | waiting | running | draining | ended
  deriving DecidableEq, Repr

/-- One item of a descriptor: its stage, its first failure, whether its STATUS word is written (R286). -/
structure Item where
  stage : ItemStage
  code : Nat
  statusDone : Bool
  /-- COPY and codec: addresses and lengths taken from the body or the list -/
  src : Nat
  dst : Nat
  /-- requests and snoops of its stores that it waits for once it has run (R202) -/
  stores : List Nat
  /-- words of a codec entry (R284) -/
  entry : List Nat
  deriving DecidableEq, Repr

/-- Where a descriptor stands. -/
inductive DescStage where
  | fetched | started | complete | performed
  deriving DecidableEq, Repr

/-- A descriptor fetched and not yet finished. -/
structure Desc where
  q : Nat
  n : Nat
  ctx : Nat
  cq : Nat
  die : Nat
  priority : Nat
  words : List Nat
  stage : DescStage
  /-- its fence wait holds -/
  waitDone : Bool
  items : List Item
  malformed : Bool
  poisoned : Bool
  result : Nat
  aborted : Bool
  /-- kernel header of a LAUNCH: the four entries, enables, gang size -/
  pcs : List Nat
  enables : Nat
  gangLog2 : Nat
  deriving DecidableEq, Repr

/-- A submission queue's command processor state. -/
structure SqState where
  producer : Nat
  known : Bool
  /-- index latched by an abort -/
  latched : Option Nat
  deriving DecidableEq, Repr

/-- A record held by a completion queue: its eight words without PHASE, its descriptor, whether it asks for IRQ. -/
structure HeldRec where
  words : List Nat
  q : Nat
  n : Nat
  irq : Bool
  deriving DecidableEq, Repr

/-- A completion queue's command processor state: the consumer index once its line has been read, whether the oldest held
record is being written. -/
structure CqState where
  consumer : Option Nat
  writing : Bool
  held : List HeldRec
  deriving DecidableEq, Repr

/-- Nothing held, the consumer line not read. -/
def CqState.reset : CqState := ⟨none, false, []⟩

/-- A record on its way into the fault ring or the error ring: where its word 0 goes, its sequence, the requests not yet
performed, whether word 0 is among them, the count in DROPPED (R252, R290). -/
structure RingWrite where
  addr : Nat
  seq : Nat
  ids : List Nat
  last : Bool
  dropped : Nat
  deriving DecidableEq, Repr

/-- An error record waiting in the part (R290). -/
structure ErrRec where
  kind : Nat
  ctx : Option Nat
  time : Nat
  words : List Nat
  deriving DecidableEq, Repr

/-- State of the command processors. -/
structure Cp where
  descs : List Desc
  sqs : FMap SqState
  cqs : FMap CqState
  /-- items of a context that its abort has failed (R266) -/
  aborted : FMap Nat
  errs : List ErrRec
  errDropped : Nat
  /-- consumer sequences, once their lines have been read -/
  errConsumer : Option Nat
  fringConsumer : Option Nat
  /-- records being written to the error ring and the fault ring -/
  errWriting : Option RingWrite
  faultWriting : Option RingWrite
  rringProducer : Nat
  tableZeroing : Bool
  /-- interrupt sources with a raise that waits for its holdoff (R299) -/
  heldIrqs : List IrqSource
  /-- sources within a holdoff period -/
  holding : List IrqSource
  /-- host lines held shared, and lines to read again (R270) -/
  lines : List (HostLine × Nat)
  stale : List HostLine
  /-- queue served last in each priority class (R272) -/
  lastServed : FMap Nat
  deriving DecidableEq, Repr

/-- No descriptor, nothing held. -/
def Cp.reset : Cp := ⟨[], [], [], [], [], 0, none, none, none, none, 0, false, [], [], [], [], []⟩

/-! ### Chautlink (12) -/

/-- A message: its header slot and its data. -/
structure Msg where
  hdr : Nat
  data : List Byte
  deriving DecidableEq, Repr

/-- The owner takes the bytes of its requests later. -/
def Owner.reads : Owner → Bool
  | .group _ _ | .stream _ _ | .groupFetch _ _ | .gather _ | .sync _ | .outside => true
  | _ => false

/-- What a request to host memory asks. -/
inductive ReqKind where
  | rds | rdnc | wrl | wrp | atom
  deriving DecidableEq, Repr

/-- How a request to the host or another part stands. -/
inductive ReqStatus where
  | waiting | done | failed | dead
  deriving DecidableEq, Repr

/-- A request to host memory that has not been settled (R307, R315). -/
structure HostReq where
  id : Nat
  port : Nat
  tag : Nat
  kind : ReqKind
  addr : Nat
  len : Nat
  owner : Owner
  /-- context and item of the access, for HOST_ACCESS_FAILED -/
  item : Option (Nat × Nat × Nat)
  status : ReqStatus
  reply : List Byte
  poison : Bool
  snooped : Bool
  deriving DecidableEq, Repr

/-- Header credits of the five channels. -/
structure Credits where
  req : Nat
  snp : Nat
  rsp : Nat
  drsp : Nat
  nc : Nat
  deriving DecidableEq, Repr

/-- A Chautlink port: configuration space, link layer, credits, messages. -/
structure Port where
  aperture : Nat
  regBase : Nat
  memEn : Bool
  regEn : Bool
  reqEn : Bool
  intrEn : Bool
  rxSeq : Nat
  discarding : Bool
  txSeq : Nat
  unacked : List Nat
  replays : Nat
  recoveries : Nat
  credits : Credits
  queue : List (Channel × Msg)
  out : List Msg
  naks : List Nat
  deriving DecidableEq, Repr

/-- A port after reset: configuration space clear, nothing sent. -/
def Port.reset : Port :=
  ⟨0, 0, false, false, false, false, 1023, false, 0, [], 0, 0, ⟨0, 0, 0, 0, 0⟩, [], [], []⟩

/-- A line in the snoop filter (R312): presence of each port, OWNED, allocation order. -/
structure FilterEntry where
  p0 : Bool
  p1 : Bool
  owned : Bool
  order : Nat
  deriving DecidableEq, Repr

/-- A snoop sent and not yet settled. `wb` says that an owned line's ACK still awaits a WB (R313). -/
structure Snoop where
  id : Nat
  port : Nat
  tag : Nat
  line : Nat
  data : Bool
  evict : Bool
  wb : Bool
  owner : Owner
  deriving DecidableEq, Repr

/-- State of the Chautlink transport. -/
structure Chl where
  ports : FMap Port
  reqs : List HostReq
  filter : FMap (Option FilterEntry)
  filterOrder : Nat
  snoops : List Snoop
  /-- host requests that wait behind a snoop, by port -/
  waiting : List (Nat × Msg)
  /-- requests and snoops that wait for a free tag of their port: number, port, channel, message without its tag -/
  later : List (Nat × Nat × Channel × Msg)
  /-- tags, by port, of requests that timed out and whose responses may still come -/
  late : List (Nat × Nat)
  deriving DecidableEq, Repr

/-- Nothing outstanding. -/
def Chl.reset : Chl := ⟨[], [], [], 0, [], [], [], []⟩

/-! ### Fabric (13) -/

/-- One direction of a link: lane spared, handshake state, lanes without lock, lanes with an uncorrectable last window. -/
structure LaneDir where
  spared : Option Nat
  bringing : Option Nat
  lost : List Nat
  bad : List Nat
  failing : List Nat
  deriving DecidableEq, Repr

/-- Credits of the four virtual channels, in slots (R324). -/
structure VcCredits where
  req0 : Nat
  req1 : Nat
  rsp0 : Nat
  rsp1 : Nat
  deriving DecidableEq, Repr

/-- A Kyolor link's controller (R323 to R327). -/
structure Link where
  tx : LaneDir
  rx : LaneDir
  spareOk : Bool
  attempts : Nat
  rxSeq : Nat
  discarding : Bool
  txSeq : Nat
  unacked : List (Nat × Packet)
  replays : Nat
  credits : VcCredits
  out : List Packet
  naks : List Nat
  deriving DecidableEq, Repr

/-- A link that sends nothing. -/
def Link.reset : Link :=
  ⟨⟨none, none, [], [], []⟩, ⟨none, none, [], [], []⟩, false, 0, 4095, false, 0, [], 0, ⟨0, 0, 0, 0⟩, [], []⟩

/-- A request of this part that awaits a response (R339). -/
structure FabReq where
  id : Nat
  io : Nat
  entry : Nat
  gen : Nat
  dest : Nat
  pk : Packet
  owner : Owner
  item : Option (Nat × Nat × Nat)
  ctx : Option Nat
  /-- the request holds a transport entry and has been sent -/
  sent : Bool
  acked : Bool
  status : ReqStatus
  reply : List Byte
  poison : Bool
  deriving DecidableEq, Repr

/-- A contribution of an agent of this part, or the partial of a child, to one chunk (R345, R346). -/
structure Contribution where
  chunk : Nat
  source : Option Nat
  agent : Option (Nat × Nat)
  data : List Byte
  deriving DecidableEq, Repr

/-- A chunk of a collective round: what it holds, its result, whether that is written. -/
structure Chunk where
  parts : List Contribution
  result : Option (List Byte)
  written : Bool
  deriving DecidableEq, Repr

/-- A chunk that holds nothing. -/
def Chunk.reset : Chunk := ⟨[], none, false⟩

/-- The open round of one parity of a collective group: its chunks, contributions held for the next round, failure cause,
rounds whose results are unspecified (R345), whether its status line is written. -/
structure Round where
  opened : Bool
  chunks : FMap Chunk
  held : List Contribution
  cause : Nat
  spoil : Nat
  status : Bool
  deriving DecidableEq, Repr

/-- A round that holds nothing. -/
def Round.reset : Round := ⟨false, [], [], 0, 0, false⟩

/-- State of the fabric endpoint. -/
structure Fab where
  links : FMap Link
  reqs : List FabReq
  gens : FMap Nat
  /-- packets that wait for a link: direction, packet, own -/
  queue : List (Nat × Packet × Bool)
  /-- last link of each direction and bucket (R333) -/
  buckets : FMap Nat
  even : FMap Round
  odd : FMap Round
  /-- peers' requests held behind a snoop -/
  heldPeers : List Packet
  deriving DecidableEq, Repr

/-- Nothing outstanding. -/
def Fab.reset : Fab := ⟨[], [], [], [], [], [], [], []⟩

/-! ### Firmware and trust (14) -/

/-- The fuses and straps (R358, R22, R427). -/
structure Fuses where
  variant : Variant
  stepping : Nat
  /-- REQUIRE_SIGNED is blown -/
  signedBlown : Bool
  ownerDigest : List Byte
  ownerWritten : Bool
  deviceId : Nat
  chainDigest : List Byte
  deriving DecidableEq, Repr

/-- A firmware processor's memory and image (R355). Its status is in SEC_PROC_STATUS.
DESIGN CHOICE: notes/assumptions/77.md. -/
structure Proc where
  code : List Byte
  entry : Nat
  deriving DecidableEq, Repr

/-- State of the boot ROM and the security processor. -/
structure Sec where
  procs : FMap Proc
  mrs : FMap (BitVec 512)
  log : List (List Byte)
  /-- the image that LOAD has fetched and IMAGE_CHECK has not yet judged -/
  staging : Option (List Byte)
  /-- opcode of the mailbox command in progress; its data have been written meanwhile (R369) -/
  busy : Option Nat
  dirty : Bool
  chain : List Byte
  /-- SPDM: version given, capabilities given, algorithms negotiated; the messages since GET_VERSION and, for
  measurements, since their last signature -/
  spdmVersion : Bool
  spdmCaps : Bool
  spdmAlgs : Bool
  transcript : List Byte
  measured : List Byte
  /-- MCTP endpoint ID (R363) -/
  eid : Nat
  /-- answers sent on the sideband, in order -/
  responses : List (List Byte)
  deriving DecidableEq, Repr

/-! ### Health and the log (15) -/

/-- A sensor's last reading (quarter °C, mV, mA, mW or °C), whether it has failed, failed attempts in succession. -/
structure Sensor where
  value : Int
  failed : Bool
  attempts : Nat
  deriving DecidableEq, Repr

/-- A log record without MAGIC and CRC (R386). -/
structure LogRec where
  kind : Nat
  repair : Bool
  carried : Bool
  seq : Nat
  time : Nat
  start : Nat
  source : Nat
  orig : Nat
  body : List Nat
  deriving DecidableEq, Repr

/-- A nomination for moult (R381). -/
structure Nominee where
  p : Nat
  cause : Nat
  deriving DecidableEq, Repr

/-- The repair state (R384): logical ID to physical tile of each die, retired tiles, disabled ways. -/
structure Repair where
  phys : FMap Nat
  retired : FMap Bool
  ways : FMap Bool
  deriving DecidableEq, Repr

/-- State of the management processor, the sensors and the log. -/
structure Mgt where
  sensors : FMap Sensor
  unreadMs : Nat
  lowEvals : Nat
  /-- cause, unit and reading of a shutdown begun -/
  shutdown : Option (Nat × Nat × Int)
  queue : List LogRec
  held : List LogRec
  dropped : Nat
  flash : FMap (Option LogRec)
  head : Nat
  seq : Nat
  startCount : Nat
  /-- opcode of the mailbox command in progress; its data have been written meanwhile (R369, R390) -/
  busy : Option Nat
  dirty : Bool
  /-- PLDM terminus ID -/
  tid : Nat
  nominees : List Nominee
  repair : Repair
  ce : FMap Nat
  /-- THROTTLE episode of each die: left the ceiling -/
  throttled : FMap Bool
  /-- PLDM answers sent on the sideband, in order -/
  responses : List (List Byte)
  /-- PLDM requests that wait while the management processor is in cocoon (R389) -/
  waiting : List (List Byte)
  deriving DecidableEq, Repr

/-- A valid sensor at 0. DESIGN CHOICE: notes/assumptions/6.md. -/
def Sensor.reset : Sensor := ⟨0, false, 0⟩

/-- The repair state with no repair made. DESIGN CHOICE: notes/assumptions/5.md. -/
def Repair.reset : Repair := ⟨[], [], []⟩

/-! ### Clocks, power and JTAG (16, 17) -/

/-- Where the start stands (R406). -/
inductive StartStep where
  | off | rails | inReset | refLost | running
  deriving DecidableEq, Repr

/-- The module's power and reset (R398 to R420). DEDUCED: notes/assumptions/61.md. -/
structure Power where
  vin : Bool
  /-- the hold-up capacitors stand at 62 V or more -/
  charged : Bool
  pwrEn : Bool
  converters : Bool
  pwrGood : Bool
  /-- the converters stay off until the board cycles PWR_EN -/
  latchedOff : Bool
  /-- RESET_N is asserted -/
  resetN : Bool
  start : StartStep
  /-- an accepted CLK_RESET_CTRL write waits for its 10 µs -/
  resetPending : Bool
  /-- the REF cycle in which the part reset under way began (R405) -/
  resetAt : Option Nat
  /-- starts in succession in which the PLL of a counter index has not locked (R398) -/
  lockFailures : FMap Nat
  /-- the part of a cycle that each domain instance has run since its last whole one, in REF cycles × Hz -/
  acc : FMap Nat
  /-- connectors whose VCBL is switched off (R431) -/
  vcblOff : FMap Bool
  deriving DecidableEq, Repr

/-- The TAP (R428, R429): the selected instruction, the boundary-scan cells as last loaded, the value that the last
command's Capture-DR took into the selected data register, the data of the last register read, which the next Capture-DR of
REGISTER_ACCESS takes, the levels that EXTEST and CLAMP hold on the contacts, HIGHZ. -/
structure Jtag where
  ir : Nat
  cells : Nat
  captured : Nat
  readData : Nat
  driven : Option Nat
  floated : Bool
  deriving DecidableEq, Repr

/-- Barrier state of the part (R212): a root of PART or SYSTEM scope for a context and slot, or of TILE and GANG
scope for a tile or gang and slot. -/
structure BarRoot where
  sense : Bool
  arrived : List Nat
  count : Nat
  /-- status code that set the error flag, 0 while it is clear (R213, R216) -/
  error : Nat
  deriving DecidableEq, Repr

/-- A root before any generation: published sense 1 (R212). -/
def BarRoot.reset : BarRoot := ⟨true, [], 0, 0⟩

/-- A fence signal under way: slot, value, source kind and unit (R217). -/
structure FenceSig where
  slot : Nat
  value : Nat
  source : Nat
  unit : Nat
  /-- port and tag of the host store that CMP answers -/
  reply : Option (Nat × Nat)
  deriving DecidableEq, Repr

end Sys2Proof.Machine
end

