-- ==== Sys2Proof/Machine/TileState.lean ====
section
/-!
DEFINITION. The state of a tile, as plain data: sequencer (02), thread engine (03), matrix engine (04), scratchpad
and gather engine (06), sync engine (08), translation cache (10). A status that a register shows is computed from it.
-/
namespace Sys2Proof.Machine

/-! ### Sequencer (02) -/

/-- The item a tile runs: context, submission queue, descriptor, item, the COPY flag (R283). -/
structure Job where
  ctx : Nat
  q : Nat
  n : Nat
  item : Nat
  copy : Bool
  deriving DecidableEq, Repr

/-- A launch message (R36): entries and enables of the streams, q0, the gang and this tile's rank in it. -/
structure LaunchMsg where
  job : Job
  pcs : List Nat
  enables : Nat
  args : Nat
  gangLog2 : Nat
  lead : Nat
  rank : Nat
  deriving DecidableEq, Repr

/-- What a tile does. -/
inductive RunState where
  | idle | lead | member | halted
  deriving DecidableEq, Repr

/-- A semaphore wait (R206): the semaphore, the count, whether it consumes. -/
structure SemWait where
  sem : Nat
  count : Nat
  consume : Bool
  deriving DecidableEq, Repr

/-- A level of a stream's loop unit (R29): first and last instruction of the body, passes still to begin. -/
structure LoopLevel where
  first : Nat
  last : Nat
  left : Nat
  deriving DecidableEq, Repr

/-- Why a stream executes nothing (R33, R34). -/
inductive Stall where
  | none
  /-- a full queue or zero broadcast credit: the engine instruction not yet pushed -/
  | full (raw : Nat)
  /-- a stream-level wait; the ranks that have granted it -/
  | wait (w : SemWait) (granted : List Nat)
  deriving DecidableEq, Repr

/-- A stream slot (R27), with the broadcast bookkeeping of a lead (R43). -/
structure Slot where
  enabled : Bool
  ended : Bool
  pc : Nat
  q : FMap Nat
  /-- active levels, the innermost first -/
  loops : List LoopLevel
  stall : Stall
  /-- entries broadcast since launch, and credits returned -/
  pushed : Nat
  returned : Nat
  /-- the QLD whose read of memory outside the part is under way -/
  read : Option Nat
  deriving DecidableEq, Repr

/-- A slot of a tile that runs nothing. -/
def Slot.reset : Slot := ⟨false, true, 0, [], [], .none, 0, 0, none⟩

/-- A resolved engine instruction (R31, R170): its words, the address it was pushed from, the q-registers as they stood
at the push, the rank of this tile. -/
structure Entry where
  raw : Nat
  addr : Nat
  q : FMap Nat
  rank : Nat
  deriving DecidableEq, Repr

/-- An engine queue: entries broadcast and not yet received, entries held, dequeues not yet visible to the stream,
dequeues since launch; whether the head's wait has been granted. -/
structure Queue where
  transit : List Entry
  held : List Entry
  freed : Nat
  taken : Nat
  granted : Bool
  deriving DecidableEq, Repr

/-- An empty queue. -/
def Queue.reset : Queue := ⟨[], [], 0, 0, false⟩

/-- A halt record (R46). -/
structure Halt where
  reason : Nat
  kind : Nat
  stream : Nat
  group : Nat
  origin : Nat
  ctx : Nat
  addr : Nat
  deriving DecidableEq, Repr

/-- Sequencer state of a tile: what it runs, its slots by stream number, its halt and that halt's progress. -/
structure SeqState where
  run : RunState
  inbox : Option LaunchMsg
  kernel : Option LaunchMsg
  slots : FMap Slot
  queues : FMap Queue
  /-- lines of the sequencer's and the thread engine's instruction caches: line address, bytes -/
  icache : List (Nat × List Byte)
  tcache : List (Nat × List Byte)
  halt : Option Halt
  /-- the records of the gang are final and have been handed on -/
  final : Bool
  /-- CLEAR_HALT was written before that -/
  clearAsked : Bool
  /-- an instruction fetch from outside the part under way: stream number, or 4 + group; its virtual line, its request -/
  fetches : FMap (Option (Nat × Nat))
  deriving DecidableEq, Repr

/-- An idle sequencer. -/
def SeqState.reset : SeqState := ⟨.idle, none, none, [], [], [], [], none, false, false, []⟩

/-! ### Thread engine (03) -/

/-- Where one lane's access goes: its lane, virtual address, and what translation gave (target 3 is local memory, `pa`
then a scratchpad address). -/
structure LaneAcc where
  lane : Nat
  va : Nat
  target : Nat
  pa : Nat
  endpoint : Nat
  /-- data of a store, operands of an atomic -/
  a : Nat
  b : Nat
  deriving DecidableEq, Repr

/-- Destination of a load: `uni` for ULD; `atom` takes the old value; bytes per lane, sign extension. -/
structure LoadDest where
  uni : Bool
  reg : Nat
  size : Nat
  signed : Bool
  deriving DecidableEq, Repr

/-- A load or atomic whose data has not returned (R59). `got` holds an atomic's old values or a request's data by lane;
`reqs` the requests that left the part by line or lane. -/
structure LoadOp where
  id : Nat
  atomic : Bool
  cached : Bool
  acquire : Bool
  dest : LoadDest
  lanes : List LaneAcc
  /-- the atomic has drained -/
  issued : Bool
  /-- a compare-and-swap, which writes only where the old value matches (R64) -/
  swap : Bool
  got : FMap Nat
  reqs : List (Nat × Nat)
  deriving DecidableEq, Repr

/-- A store-buffer entry (R65): a store, a release when it is one, or an atomic with its operation; the load of the same
number takes an atomic's old value. -/
structure SbEntry where
  id : Nat
  group : Nat
  launch : Nat
  atomic : Option Nat
  release : Bool
  size : Nat
  lanes : List LaneAcc
  deriving DecidableEq, Repr

/-- A write-buffer entry (R68): one 128-byte line with the bytes stored and the stores they come from. -/
structure WbEntry where
  line : Nat
  target : Nat
  pa : Nat
  endpoint : Nat
  bytes : FMap (Option Byte)
  stores : List (Nat × Nat × Nat)
  deriving DecidableEq, Repr

/-- An entry of a group's reconvergence stack (R62). -/
structure Path where
  addr : Nat
  mask : Nat
  rpc : Option Nat
  deriving DecidableEq, Repr

/-- What a group waits for besides its loads (R59). -/
inductive GWait where
  | none
  /-- an instruction that needs outstanding loads, or entries still in the store buffer -/
  | data (loads entries : List Nat)
  /-- a translation of its next instruction's access -/
  | xlat
  | full
  | array
  /-- BARB; whether it has arrived -/
  | barb (arrived : Bool)
  /-- MEMBAR of a scope for the stores below a number -/
  | membar (scope limit : Nat)
  | sem (w : SemWait)
  deriving DecidableEq, Repr

/-- A resident group. -/
structure Group where
  block : Nat
  index : Nat
  n : Nat
  /-- number of its block launch and the first store number that can be its own -/
  launch : Nat
  firstStore : Nat
  pc : Nat
  mask : Nat
  alive : Nat
  rpc : Option Nat
  stack : List Path
  progress : Nat
  v : FMap Nat
  u : FMap Nat
  active : Bool
  wait : GWait
  loads : List LoadOp
  /-- address of its last backward branch (R64) -/
  lastBranch : Nat
  dbgHalted : Bool
  haltPending : Bool
  stepping : Bool
  deriving DecidableEq, Repr

/-- A resident block: its entry in THRQ, its launch number, its groups and local rows, BARB arrivals of the open
generation. -/
structure Block where
  entry : Entry
  launch : Nat
  groups : List Nat
  rowFirst : Nat
  rows : Nat
  arrived : List Nat
  deriving DecidableEq, Repr

/-- One L1 way's error window (R72): accesses and errors. -/
structure WayErr where
  accesses : Nat
  errors : Nat
  deriving DecidableEq, Repr

/-- A SEMSIG not yet raised (R187): its group's slot, the range of the numbers of the stores it follows, the semaphore
and the count. -/
structure Sig where
  group : Nat
  first : Nat
  limit : Nat
  sem : Nat
  count : Nat
  deriving DecidableEq, Repr

/-- State of the thread engine. `running` holds the THR instructions begun and not complete, oldest first, with the
launch number of a block. -/
structure Thr where
  groups : FMap (Option Group)
  blocks : FMap (Option Block)
  running : List (Entry × Option Nat)
  /-- groups ready and awaiting promotion, in the order in which their waits cleared -/
  promo : List Nat
  sb : List SbEntry
  wb : List WbEntry
  sigs : List Sig
  /-- number of the next store, load or block launch -/
  nextStore : Nat
  /-- L1 lines by set × 8 + way: line address, 128 bytes -/
  l1 : FMap (Option (Nat × List Byte))
  locked : Nat
  ways : FMap WayErr
  carve : Nat
  deriving DecidableEq, Repr

/-- A thread engine with nothing resident. -/
def Thr.reset : Thr := ⟨[], [], [], [], [], [], [], 0, [], 0, [], 0⟩

/-! ### Matrix engine (04) -/

/-- What a MAT instruction in flight does. -/
inductive MatWork where
  | mldp (plane first n : Nat) (paired : Bool) (table : List Nat)
  | mlut
  | mswap
  | mstr (plane fmt : Nat) (paired : Bool) (m k w : Nat)
  | gmma (group plane fmt : Nat) (half k w : Nat) (left : List Nat) (leftFmt dest : Nat) (accumulate : Bool)
  /-- the per-column scales -/
  | mdrn (base n : Nat) (cols : List Nat)
  | mzero (base n : Nat)
  | mdly
  deriving DecidableEq, Repr

/-- A MAT instruction begun and not complete: its number in begin order, the cycle it began and the one it completes
in, its entry, its work, the scratchpad it has read (wavefronts, scale entries) and the versions of cells rewritten
since it could read them (R89, R95, R101), drained rows not yet written with the cycle of their writing, whether it has
committed a hazard. DEDUCED: notes/assumptions/39.md. -/
structure MatOp where
  num : Nat
  start : Nat
  due : Nat
  entry : Entry
  work : MatWork
  reads : FMap (List Byte)
  olds : FMap (List (List Byte))
  writes : List (Nat × List (Nat × List Byte))
  hazard : Bool
  /-- complete, and kept while an instruction begun before it is in flight -/
  done : Bool
  deriving DecidableEq, Repr

/-- A write of an accumulator element not yet settled (R97): its cycle, the number of its instruction, whether the
streamer made it, its value. -/
structure AccWrite where
  cycle : Nat
  num : Nat
  streamer : Bool
  value : Nat
  deriving DecidableEq, Repr

/-- A GMMA waiting for the array (R109). -/
structure GmmaWait where
  group : Nat
  addr : Nat
  plane : Nat
  half : Nat
  k : Nat
  left : List Nat
  leftFmt : Nat
  dest : Nat
  accumulate : Bool
  deriving DecidableEq, Repr

/-- State of the matrix engine. `now` counts unfrozen MCLK cycles. -/
structure Mat where
  now : Nat
  nums : Nat
  lastBegin : Option Nat
  /-- the next begin after an MDLY is no earlier -/
  earliest : Nat
  loaderFree : Nat
  streamerFree : Nat
  drainerFree : Nat
  /-- the streamer's last occupant is a GMMA -/
  streamerGmma : Bool
  /-- cells of planes A and B, by plane × 4096 + row × 64 + column -/
  plane : FMap Nat
  /-- rows written lately: cycle, plane × 64 + row, the 64 values before -/
  planeLog : List (Nat × Nat × List Nat)
  tables : FMap Nat
  /-- tags and active plane, with the cycles of their last changes -/
  tags : List (Nat × Nat × Nat × Bool)
  swaps : List Nat
  activeB : Bool
  acc : FMap Nat
  accLog : FMap (List AccWrite)
  ops : List MatOp
  gmmas : List GmmaWait
  /-- versions of scratchpad cells rewritten since the head's wait held -/
  headOlds : FMap (List (List Byte))
  deriving DecidableEq, Repr

/-- A matrix engine with nothing loaded. -/
def Mat.reset : Mat := ⟨0, 0, none, 0, 0, 0, 0, false, [], [], [], [], [], false, [], [], [], [], []⟩

/-! ### Gather engine (06) -/

/-- A transfer descriptor as a GXFER uses it (R143). -/
structure Xfer where
  mode : Nat
  out : Bool
  layout : Nat
  axis : Bool
  fmt : Nat
  spread : Bool
  policy : Nat
  n0 : Nat
  n1 : Nat
  n2 : Nat
  n3 : Nat
  count : Nat
  stride1 : Nat
  stride2 : Nat
  stride3 : Nat
  scale : Nat
  base : Nat
  index : Nat
  bound : Nat
  spad : Nat
  dpitch : Nat
  deriving DecidableEq, Repr

/-- What a gather instruction does next. -/
inductive GatPhase where
  /-- direct, indexed: element, row in it, address of the element -/
  | rows (j row src : Nat)
  /-- indexed: the index of element `j` is to be read -/
  | index (j : Nat)
  /-- page list: entry `i` is to be read -/
  | list (i : Nat)
  /-- the header of the page at `page` -/
  | header (i page : Nat)
  /-- token row `t` of a page with its fill, row bytes and scale -/
  | token (i page t fill rowBytes scale : Nat)
  /-- everything read; memory writes, fills and waits remain -/
  | done
  deriving DecidableEq, Repr

/-- A gather instruction begun and not complete: its number, its transfer (none for GFILL and GNOP), what it does next,
the destination bytes staged, vectors delivered, TRUNCATED, the bytes of the present row, entry or header read so far, how
many bytes of the present row are written, the 64-byte unit of the list or index tensor last read, its read that left
the part. DEDUCED: notes/assumptions/42.md. -/
structure GatOp where
  num : Nat
  entry : Entry
  xfer : Option Xfer
  phase : GatPhase
  staged : FMap (Option Byte)
  delivered : Nat
  truncated : Bool
  row : List Byte
  offset : Nat
  unit : Option (Nat × List Byte)
  req : Option Nat
  deriving DecidableEq, Repr

/-- State of the gather engine; a COPY item's progress is `copied` bytes. -/
structure Gat where
  ops : List GatOp
  nums : Nat
  copied : Nat
  copyReq : Option Nat
  deriving DecidableEq, Repr

/-- A gather engine with nothing in progress. -/
def Gat.reset : Gat := ⟨[], 0, 0, none⟩

/-! ### Sync engine (08) -/

/-- What a SYN instruction begun and not complete does. -/
inductive SynWork where
  | done
  /-- YBAR: scope, slot, participants; the requests its covered stores wait for; arrived; the published error code -/
  | bar (scope slot count : Nat) (ids : List Nat) (arrived : Bool) (seen : Option Nat) (dead : Bool)
  | membar (ids : List Nat)
  | fsignal (slot value : Nat) (ids : List Nat)
  | fwait (slot value : Nat)
  /-- YPOLL: whether COND held on the last read; a read that left the part -/
  | poll (va value cond : Nat) (holds : Bool) (req : Option Nat)
  deriving DecidableEq, Repr

/-- State of the sync engine: semaphores, signals not yet arrived, the 32 sense bits, the instruction in progress,
stream-level waits sent by a gang's lead, and the endpoints of the kernel's stores that failed with FAB_DEST_DEAD, with
the stores that each held. -/
structure Syn where
  sems : FMap Nat
  signals : List (Nat × Nat)
  sense : Nat
  cur : Option (Entry × SynWork)
  waits : FMap (Option SemWait)
  dead : List (Nat × List (Nat × Nat))
  deriving DecidableEq, Repr

/-- A sync engine with nothing in progress. -/
def Syn.reset : Syn := ⟨[], [], 0, none, [], []⟩

/-! ### The tile -/

/-- A tile. -/
structure Tile where
  seq : SeqState
  thr : Thr
  mat : Mat
  /-- bytes of the scratchpad (R133) -/
  spad : FMap Byte
  gat : Gat
  syn : Syn
  xc : List XEntry
  /-- misses not yet sent to the walker, oldest first, then those sent -/
  misses : List Miss
  sent : List Miss
  deriving DecidableEq, Repr

/-- A tile after reset. DESIGN CHOICE: notes/assumptions/6.md. -/
def Tile.reset : Tile := ⟨.reset, .reset, .reset, [], .reset, .reset, [], [], []⟩

end Sys2Proof.Machine
end

