-- ==== Sys2Proof/Machine/State.lean ====
section
/-!
DEFINITION. The state of the part, its state right after reset, and the reasons for which a step can stop.
-/
namespace Sys2Proof.Machine

/-- Why a command stops with a fault. No rule of the spec stops the part: faults, halts and errors of the part are
next states, so the type is empty of reasons but this one, which nothing raises. -/
inductive Fault where
  /-- Raised by nothing: kept so that the type is not empty. Safe. -/
  | none
  deriving DecidableEq, Repr

/-- Why a command has no meaning. -/
inductive Refusal where
  /-- The command has no meaning in the model yet. Raised by an arm of exec; safe. -/
  | notModelled (mnemonic : String)
  /-- EXTEST, CLAMP or HIGHZ while the part is not held in reset: R428 calls the behaviour undefined. Raised by those
  three commands; safe. -/
  | boundaryScanWhileRunning
  deriving DecidableEq, Repr

/-- The state of the part. DESIGN CHOICE: notes/assumptions/4.md. -/
structure State where
  fuses : Fuses
  /-- SB_ADDR straps (R427) -/
  straps : Nat
  /-- the register fields that hold their own value, by field and instance -/
  fields : FMap Nat
  /-- part memory by cell: stack × 2^36 + in-stack offset (R224) -/
  mem : List Host.Cell
  /-- lines that carry an eyespot, by cell line (R229) -/
  eyes : FMap Bool
  hbm : FMap Stack
  tiles : FMap Tile
  dies : FMap Die
  invals : List Inval
  cp : Cp
  chl : Chl
  fab : Fab
  sec : Sec
  mgt : Mgt
  power : Power
  jtag : Jtag
  /-- I3C dynamic address (R427) -/
  i3c : Option Nat
  roots : FMap BarRoot
  fences : FMap Nat
  fenceQueue : List FenceSig
  /-- GLB_POWERED_TIME (R410) -/
  time : Nat
  /-- the model's own: next request id, next fault order, next free value -/
  nextId : Nat
  freeIx : Nat
  /-- commands that wait, first in, first out -/
  pending : List Instr
  deriving DecidableEq, Repr

/-- The fuses as the model takes them (DESIGN CHOICE: notes/assumptions/1.md). -/
def Fuses.reset : Fuses := ⟨.dnq880, 0, false, List.replicate 64 0, false, 0, List.replicate 64 0⟩

/-- The boot ROM not yet started, no image, no connection. -/
def Sec.reset : Sec := ⟨[], [], [], none, none, false, [], false, false, false, [], [], 0, []⟩

/-- Sensors at 0, empty log, no repair (DESIGN CHOICE: notes/assumptions/5.md, 6.md, 12.md). -/
def Mgt.reset : Mgt := ⟨[], 0, 0, none, [], [], 0, [], 0, 0, 0, none, false, 0, [], .reset, [], [], [], []⟩

/-- Power-on reset done, RESET_N still asserted (DESIGN CHOICE: notes/assumptions/2.md). -/
def Power.reset : Power :=
  ⟨true, true, true, true, true, false, true, .inReset, false, none, [], [], []⟩

/-- IDCODE selected, nothing driven (R428). -/
def Jtag.reset : Jtag := ⟨1, 0, 0, 0, none, false⟩

/-- The part right after a power-on reset, before the board releases RESET_N (R400, R403, R406).
DESIGN CHOICE: notes/assumptions/1.md; DESIGN CHOICE: notes/assumptions/2.md. -/
def State.reset : State where
  fuses := .reset
  straps := 0
  fields := [(Fld.MGT_LIMITS_POWER_LIMIT.idx, 2400)]
  mem := []
  eyes := []
  hbm := []
  tiles := []
  dies := []
  invals := []
  cp := .reset
  chl := .reset
  fab := .reset
  sec := .reset
  mgt := .reset
  power := .reset
  jtag := .reset
  i3c := none
  roots := []
  fences := []
  fenceQueue := []
  time := 0
  nextId := 0
  freeIx := 0
  pending := []

end Sys2Proof.Machine
end

