-- ==== Sys2Proof/Machine/Ops.lean ====
section
/-!
DEFINITION. The named operations that the families share: bits and bytes, register fields and counters, the units of
the state, free values, messages, interrupts, log and error records, the outcome of items.
-/
namespace Sys2Proof.Machine

/-- What a command answers. -/
abbrev Out := Host.Outcome State Fault Refusal

/-! ### Bits and bytes (R6) -/

/-- Bits [hi:lo] of a number. -/
def bits (x hi lo : Nat) : Nat := x / 2 ^ lo % 2 ^ (hi + 1 - lo)

/-- Bit `n` of a number. -/
def bit (x n : Nat) : Bool := x / 2 ^ n % 2 == 1

/-- A flag as a number. -/
def b2n (b : Bool) : Nat := if b then 1 else 0

/-- A number with bit `n` set. -/
def setBit (x n : Nat) : Nat := if bit x n then x else x + 2 ^ n

/-- A number with bit `n` clear. -/
def clearBit (x n : Nat) : Nat := if bit x n then x - 2 ^ n else x

/-- The little-endian value of bytes. -/
def fromLE : List Byte → Nat
  | [] => 0
  | b :: bs => b.toNat + 256 * fromLE bs

/-- `n` little-endian bytes of a number. -/
def toLE : Nat → Nat → List Byte
  | 0, _ => []
  | n + 1, x => BitVec.ofNat 8 x :: toLE n (x / 256)

/-- The bytes of 32-bit words (R6). -/
def wordBytes (ws : List Nat) : List Byte := ws.flatMap (toLE 4)

/-- The 32-bit words of bytes. -/
def bytesWords (n : Nat) (bs : List Byte) : List Nat :=
  (List.range n).map fun i => fromLE ((bs.drop (4 * i)).take 4)

/-- Bytes cut or zero-extended to a length. -/
def fit (n : Nat) (bs : List Byte) : List Byte := (bs ++ rep (n - bs.length) 0).take n

/-- Words cut or zero-extended to a length. -/
def fitW (n : Nat) (ws : List Nat) : List Nat := (ws ++ rep (n - ws.length) 0).take n

/-- A number held within bounds. -/
def clamp (lo hi x : Nat) : Nat := if x < lo then lo else if x > hi then hi else x

/-- A value that saturates at a bound. -/
def satAt (hi x : Nat) : Nat := if x > hi then hi else x

/-- One bit of CRC-32C, reflected. -/
def crcBit (c : Nat) : Nat := if c % 2 = 1 then (c / 2) ^^^ 0x82F63B78 else c / 2

/-- One byte of CRC-32C. -/
def crcByte (c : Nat) (b : Byte) : Nat :=
  crcBit (crcBit (crcBit (crcBit (crcBit (crcBit (crcBit (crcBit (c ^^^ b.toNat))))))))

/-- CRC-32C as R157 defines it. -/
def crc32c (bs : List Byte) : Nat := (bs.foldl crcByte 0xFFFFFFFF) ^^^ 0xFFFFFFFF

/-- Runs of consecutive set bits of a byte mask, as (first byte, length), from byte `i` on. -/
def maskRuns : Nat → Nat → Nat → List (Nat × Nat)
  | 0, _, _ => []
  | n + 1, i, m =>
    if bit m i then
      match maskRuns n (i + 1) m with
      | (j, l) :: rest => if j = i + 1 then (i, l + 1) :: rest else (i, 1) :: (j, l) :: rest
      | [] => [(i, 1)]
    else maskRuns n (i + 1) m

namespace State

/-! ### Register fields (R11 to R13) -/

/-- Key of a field's instance. -/
def key (x : Fld) (i : Nat) : Nat := i * 1024 + x.idx

/-- A field's value. -/
def f (s : State) (x : Fld) (i : Nat := 0) : Nat := s.fields.get x.info.reset (key x i)

/-- Set a field, cut to its width. -/
def setF (s : State) (x : Fld) (i v : Nat) : State :=
  { s with fields := s.fields.put x.info.reset (key x i) (v % 2 ^ x.width) }

/-- A one-bit field. -/
def flag (s : State) (x : Fld) (i : Nat := 0) : Bool := s.f x i == 1

/-- Set a one-bit field. -/
def setFlag (s : State) (x : Fld) (i : Nat) (b : Bool) : State := s.setF x i (b2n b)

/-- Set a bit of a field. -/
def orBit (s : State) (x : Fld) (i n : Nat) : State := s.setF x i (setBit (s.f x i) n)

/-- Count `n` events in a 64-bit counter; on wrap it restarts at zero and sets its wrap bit (R23, R393). -/
def bump (s : State) (c : Fld) (i : Nat := 0) (n : Nat := 1) : State :=
  let v := s.f c i + n
  let s := s.setF c i v
  if v < 2 ^ 64 then s
  else match c.wrap i with
    | some (w, j, b) => s.orBit w j b
    | none => s

/-- Count in a counter that saturates. -/
def bumpSat (s : State) (c : Fld) (i : Nat := 0) (n : Nat := 1) : State :=
  s.setF c i (satAt (2 ^ c.width - 1) (s.f c i + n))

/-! ### Units -/

/-- A tile. -/
def tile (s : State) (p : Nat) : Tile := s.tiles.get Tile.reset p
/-- Replace a tile. -/
def setTile (s : State) (p : Nat) (t : Tile) : State := { s with tiles := s.tiles.put Tile.reset p t }
/-- Change a tile. -/
def modTile (s : State) (p : Nat) (g : Tile → Tile) : State := s.setTile p (g (s.tile p))
/-- A compute die's own state. -/
def die (s : State) (d : Nat) : Die := s.dies.get Die.reset d
/-- Change a die. -/
def modDie (s : State) (d : Nat) (g : Die → Die) : State := { s with dies := s.dies.put Die.reset d (g (s.die d)) }
/-- A stack controller. -/
def stack (s : State) (k : Nat) : Stack := s.hbm.get Stack.reset k
/-- Change a stack. -/
def modStack (s : State) (k : Nat) (g : Stack → Stack) : State :=
  { s with hbm := s.hbm.put Stack.reset k (g (s.stack k)) }
/-- A Chautlink port. -/
def port (s : State) (k : Nat) : Port := s.chl.ports.get Port.reset k
/-- Change a port. -/
def modPort (s : State) (k : Nat) (g : Port → Port) : State :=
  { s with chl := { s.chl with ports := s.chl.ports.put Port.reset k (g (s.port k)) } }
/-- A Kyolor link. -/
def link (s : State) (k : Nat) : Link := s.fab.links.get Link.reset k
/-- Change a link. -/
def modLink (s : State) (k : Nat) (g : Link → Link) : State :=
  { s with fab := { s.fab with links := s.fab.links.put Link.reset k (g (s.link k)) } }
/-- Change the management processor's state. -/
def modMgt (s : State) (g : Mgt → Mgt) : State := { s with mgt := g s.mgt }
/-- Change the command processors' state. -/
def modCp (s : State) (g : Cp → Cp) : State := { s with cp := g s.cp }

/-- The part number. -/
def variant (s : State) : Variant := s.fuses.variant

/-- A fresh free value (DESIGN CHOICE: notes/assumptions/4.md). -/
def free (s : State) : Nat × State := ((Config.freeBits s.freeIx).toNat, { s with freeIx := s.freeIx + 1 })

/-- A fresh free choice (R5). DESIGN CHOICE: notes/assumptions/4.md; DESIGN CHOICE: notes/assumptions/20.md. -/
def choose (s : State) : Bool × State := (Config.freeBool s.freeIx, { s with freeIx := s.freeIx + 1 })

/-- `n` fresh free values below `2 ^ w`. -/
def freeList (w : Nat) : Nat → State → List Nat × State
  | 0, s => ([], s)
  | n + 1, s =>
    let (v, s) := s.free
    let (vs, s) := freeList w n s
    (v % 2 ^ w :: vs, s)

/-- What a mailbox command leaves: its results and status, or free values when its data were written while it ran
(R369). DEDUCED: notes/assumptions/65.md. -/
def mailboxResults (s : State) (dirty : Bool) (results : List Nat) (status : Nat) : List Nat × Nat × State :=
  if dirty then
    let (st, s) := s.free
    let (vs, s) := freeList 32 results.length s
    (vs, st % 16, s)
  else (results, status, s)

/-- A fresh request id. -/
def fresh (s : State) : Nat × State := (s.nextId, { s with nextId := s.nextId + 1 })

/-- Apply a change for each member of a list, in order. -/
def forEach {α : Type} (s : State) (l : List α) (g : State → α → State) : State := l.foldl g s

/-- Apply a change where a condition holds. -/
def when (s : State) (b : Bool) (g : State → State) : State := if b then g s else s

/-! ### Population (R1 to R3, R22, R222) -/

/-- Stack `k` is fitted and trained. -/
def stackPresent (s : State) (k : Nat) : Bool :=
  s.variant.fitted k && (s.f .HBM_STATUS_STATE k == 1 || s.f .HBM_STATUS_STATE k == 2)

/-- The present stacks, ascending. -/
def presentStacks (s : State) : List Nat := (List.range 16).filter s.stackPresent

/-- The present stacks of die `d`, ascending. -/
def dieStacks (s : State) (d : Nat) : List Nat := [2 * d, 2 * d + 1].filter s.stackPresent

/-- A firmware processor is present (R350). -/
def procPresent (s : State) (i : Nat) : Bool :=
  if i < 2 then true
  else if i < 10 then s.variant.hasDie (i - 2)
  else if i < 18 then s.variant.hasDie (i - 10)
  else decide (i < 22) && s.variant.hasIo (i - 18)

/-- A firmware processor runs: SEC_PROC_STATUS.STATE is 2 (R355). DESIGN CHOICE: notes/assumptions/77.md. -/
def procRunning (s : State) (i : Nat) : Bool := s.f .SEC_PROC_STATUS_STATE i == 2

/-- The stacks of die `d` are open (R407). -/
def stacksOpen (s : State) (d : Nat) : Bool := bit (s.f .CLK_STATUS_STACKS_OPEN) d

/-- The part runs: RESET_N is released and the hardware start is done (R406). -/
def running (s : State) : Bool := s.power.start == .running

/-- The physical tile of a logical local ID of die `d` (R383). -/
def physOf (s : State) (d l : Nat) : Nat := 104 * d + s.mgt.repair.phys.get l (104 * d + l)

/-- The logical local ID of a physical tile, none for a tile of the reserve (R25). -/
def localOf (s : State) (p : Nat) : Option Nat :=
  (List.range 96).find? fun l => s.physOf (p / 104) l == p

/-- The part-wide logical ID of a physical tile: die × 96 + local ID; 0 for a tile without one. -/
def logicalOf (s : State) (p : Nat) : Nat := p / 104 * 96 + (s.localOf p).getD 0

/-! ### Log records (R386, R387) -/

/-- Send a record to the log queue: a full queue keeps a repair record at its source and drops another. -/
def log (s : State) (kind : Nat) (repair : Bool) (source : Nat) (body : List Nat) : State :=
  let r : LogRec := ⟨kind, repair, false, 0, s.time, s.mgt.startCount, source, 0, body⟩
  if s.mgt.queue.length < 64 then s.modMgt fun m => { m with queue := m.queue ++ [r] }
  else if repair then s.modMgt fun m => { m with held := m.held ++ [r] }
  else (s.modMgt fun m => { m with dropped := m.dropped + 1 }).bump .MGT_LOG_DROPPED_COUNT

/-- Index of a die controller, a link controller (R350). -/
def dcIx (d : Nat) : Nat := 10 + d
def lcIx (i : Nat) : Nat := 18 + i

/-! ### Error records (R290, R291) -/

/-- An error record waits in the part; beyond 256 it is dropped and counted. -/
def errRec (s : State) (kind : Nat) (ctx : Option Nat) (words : List Nat) : State :=
  if s.cp.errs.length < 256 then
    s.modCp fun c => { c with errs := c.errs ++ [⟨kind, ctx, s.time, words⟩] }
  else
    (s.modCp fun c => { c with errDropped := satAt 65535 (c.errDropped + 1) }).bump .QUE_ERR_DROPPED_COUNT

end State

/-! ### Chautlink messages (R305, R308) -/

/-- Fields of a message header. -/
def Msg.type (h : Nat) : Nat := bits h 5 0
def Msg.tag (h : Nat) : Nat := bits h 19 8
def Msg.poison (h : Nat) : Bool := bit h 20
def Msg.cfg (h : Nat) : Bool := bit h 21
def Msg.addr (h : Nat) : Nat := bits h 83 32
def Msg.length (h : Nat) : Nat := bits h 102 96
def Msg.atomOp (h : Nat) : Nat := bits h 106 103
def Msg.wide (h : Nat) : Bool := bit h 107
def Msg.code (h : Nat) : Nat := bits h 111 108

/-- A message header from its fields. -/
def Msg.header (type tag addr : Nat) (length : Nat := 0) (poison : Bool := false) (op : Nat := 0)
    (wide : Bool := false) (code : Nat := 0) (cfg : Bool := false) : Nat :=
  type + tag * 2 ^ 8 + b2n poison * 2 ^ 20 + b2n cfg * 2 ^ 21 + addr % 2 ^ 52 * 2 ^ 32 + length % 2 ^ 7 * 2 ^ 96
    + op % 16 * 2 ^ 103 + b2n wide * 2 ^ 107 + code % 16 * 2 ^ 108

/-- Credits of a channel. -/
def Credits.get (c : Credits) : Channel → Nat
  | .req => c.req
  | .snp => c.snp
  | .rsp => c.rsp
  | .drsp => c.drsp
  | .nc => c.nc

/-- Set the credits of a channel. -/
def Credits.set (c : Credits) (ch : Channel) (n : Nat) : Credits :=
  match ch with
  | .req => { c with req := n }
  | .snp => { c with snp := n }
  | .rsp => { c with rsp := n }
  | .drsp => { c with drsp := n }
  | .nc => { c with nc := n }

/-- Send the queued messages that may go: against credits, in the order of each channel, REQ only with REQ_EN
(R305, R318), at most 512 flits unacknowledged (R304); each message takes a flit (DESIGN CHOICE: notes/assumptions/13.md).
DEDUCED: notes/assumptions/45.md. -/
def Port.flushFrom (p : Port) : List (Channel × Msg) → Port
  | [] => p
  | (c, m) :: rest =>
    if p.credits.get c = 0 ∨ (c = .req ∧ p.reqEn = false) ∨ 512 ≤ p.unacked.length
        ∨ p.queue.any (fun x => x.1 == c) then
      ({ p with queue := p.queue ++ [(c, m)] }).flushFrom rest
    else
      ({ p with credits := p.credits.set c (p.credits.get c - 1), out := p.out ++ [m],
                unacked := p.unacked ++ [p.txSeq], txSeq := (p.txSeq + 1) % 1024 }).flushFrom rest

namespace State

/-- Port `k` is UP (R318). -/
def portUp (s : State) (k : Nat) : Bool := s.f .CHL_PORT_STATUS_STATE k == 2

/-- Send what the port may send now. -/
def flushPort (s : State) (k : Nat) : State :=
  if s.portUp k then s.modPort k fun p => ({ p with queue := [] }).flushFrom p.queue else s

/-- Queue a message on a channel of a port and send what may go; a FAILED port takes none (R316).
DEDUCED: notes/assumptions/72.md. -/
def sendMsg (s : State) (k : Nat) (c : Channel) (hdr : Nat) (data : List Byte := []) : State :=
  if s.f .CHL_PORT_STATUS_STATE k == 4 then s
  else (s.modPort k fun p => { p with queue := p.queue ++ [(c, ⟨hdr, data⟩)] }).flushPort k

/-! ### Interrupts (R317) -/

/-- Send the INTR of a vector, or leave it pending while it is masked or its port not enabled.
DESIGN CHOICE: notes/assumptions/79.md. -/
def raise (s : State) (v : Nat) : State :=
  let k := s.f .CHL_MSI_CTRL_PORT v
  if s.flag .CHL_MSI_CTRL_MASK v || !(s.port k).intrEn then s.setFlag .CHL_MSI_CTRL_PENDING v true
  else
    (s.setFlag .CHL_MSI_CTRL_PENDING v false).sendMsg k .nc
      (Msg.header 0x3B 0 (s.f .CHL_MSI_ADDR_ADDR v * 4)) (toLE 4 (s.f .CHL_MSI_DATA_DATA v))

/-- Send a pending vector that is now unmasked and enabled. -/
def raisePending (s : State) (v : Nat) : State := s.when (s.flag .CHL_MSI_CTRL_PENDING v) (·.raise v)

/-- A source with a holdoff raises its vector: at once outside a holdoff period, which the raise starts, else once
when the period ends (R299). -/
def raiseHeld (s : State) (src : IrqSource) (v holdoff : Nat) : State :=
  if holdoff = 0 then s.raise v
  else if src ∈ s.cp.holding then
    s.modCp fun c => { c with heldIrqs := if src ∈ c.heldIrqs then c.heldIrqs else c.heldIrqs ++ [src] }
  else (s.modCp fun c => { c with holding := c.holding ++ [src] }).raise v

/-- Raise the FAB vector (R342, R327, R348). -/
def raiseFab (s : State) : State := s.raiseHeld .fab (s.f .FAB_IRQ_VECTOR) (s.f .FAB_IRQ_HOLDOFF_LOG2)

/-! ### Items (R286, R289) -/

/-- Change a descriptor. -/
def modDesc (s : State) (q n : Nat) (g : Desc → Desc) : State :=
  s.modCp fun c => { c with descs := updFirst (fun d => d.q == q && d.n == n) g c.descs }

/-- A descriptor held by the part. -/
def desc? (s : State) (q n : Nat) : Option Desc := s.cp.descs.find? fun d => d.q == q && d.n == n

end State

/-- Change item `i` of a descriptor. -/
def Desc.modItem (d : Desc) (i : Nat) (g : Item → Item) : Desc := { d with items := d.items.modify i g }

/-- An item's first failure gives its code; TILE_HALTED replaces any (R286). -/
def Item.fail (it : Item) (code : Nat) : Item :=
  if it.stage = .ended then it
  else if it.code = 0 ∨ code = 0x0020 then { it with code := code } else it

/-- Status codes of R289. -/
def stDescMalformed := 0x0001
def stItemMalformed := 0x0002
def stLaunchInvalid := 0x0003
def stUnitAbsent := 0x0004
def stObjStale := 0x0005
def stObjBusy := 0x0006
def stObjRetired := 0x0007
def stObjBacking := 0x0008
def stMemPoison := 0x0010
def stMemAbsent := 0x0011
def stPageMalformed := 0x0012
def stXltUnserviceable := 0x0013
def stHostFailed := 0x0014
def stTileHalted := 0x0020
def stCtxAborted := 0x0021
def stSyncMismatch := 0x0022
def stDestDead := 0x0030
def stCodecCorrupt := 0x0040
def stCodecOverflow := 0x0041

namespace State

/-- Fail an item with a code. -/
def failItem (s : State) (q n i code : Nat) : State :=
  s.modDesc q n fun d => d.modItem i (·.fail code)

/-- Fail the item of an optional job. -/
def failAt (s : State) (it : Option (Nat × Nat × Nat)) (code : Nat) : State :=
  match it with
  | some (q, n, i) => s.failItem q n i code
  | none => s

/-- The item that a tile runs, as (queue, descriptor, item). -/
def itemOf (s : State) (p : Nat) : Option (Nat × Nat × Nat) :=
  (s.tile p).seq.kernel.map fun k => (k.job.q, k.job.n, k.job.item)

/-- The context of the kernel that a tile runs. -/
def ctxOf (s : State) (p : Nat) : Option Nat := (s.tile p).seq.kernel.map fun k => k.job.ctx

/-- Requests and snoops, by number, that are not yet settled. -/
def outstanding (s : State) (ids : List Nat) : List Nat :=
  ids.filter fun i => s.chl.reqs.any (fun r => r.id == i && r.status == .waiting)
    || s.fab.reqs.any (fun r => r.id == i && r.status == .waiting) || s.chl.snoops.any (fun x => x.id == i)

/-- The unsettled requests and snoops whose owner satisfies `g`. -/
def owned (s : State) (g : Owner → Bool) : List Nat :=
  ((s.chl.reqs.filter fun r => r.status == .waiting && g r.owner).map (·.id))
  ++ ((s.fab.reqs.filter fun r => r.status == .waiting && g r.owner).map (·.id))
  ++ ((s.chl.snoops.filter fun x => g x.owner).map (·.id))

/-! ### Requests to host memory (R303, R307, R315) -/

/-- The port that serves a host line. -/
def homePort (s : State) (addr : Nat) : Nat :=
  let g := addr / 2 ^ 30
  match (List.range 8).find? fun e => s.flag .CHL_HOMEMAP_VALID e && decide (s.f .CHL_HOMEMAP_BASE e ≤ g)
      && decide (g ≤ s.f .CHL_HOMEMAP_LIMIT e) with
  | some e => s.f .CHL_HOMEMAP_PORT e
  | none => 0

/-- The lowest tag not in `used`. DEDUCED: notes/assumptions/43.md. -/
def freeTag (used : List Nat) : Nat → Nat → Nat
  | 0, t => t
  | n + 1, t => if used.contains t then freeTag used n (t + 1) else t

/-- Message type of a request. -/
def reqType : ReqKind → Nat
  | .rds => 0x01
  | .rdnc => 0x03
  | .wrl => 0x04
  | .wrp => 0x05
  | .atom => 0x06

/-- The tag of a port's next request or snoop: the lowest free one, 4096 while none is free or earlier ones wait for
one. A tag is free when no outstanding message has it and no response to a timed-out request can bear it (R315).
DEDUCED: notes/assumptions/43.md. -/
def nextTag (s : State) (k : Nat) (c : Channel) : Nat :=
  if s.chl.later.any fun x => x.2.1 == k && x.2.2.1 == c then 4096
  else freeTag (match c with
    | .snp => (s.chl.snoops.filter (·.port == k)).map (·.tag)
    | _ => (s.chl.reqs.filter fun r => r.port == k && r.status == .waiting).map (·.tag)
        ++ (s.chl.late.filter (·.1 == k)).map (·.2)) 4096 0

/-- Send a request or snoop with its tag, or keep it until one is free. -/
def sendTagged (s : State) (id k : Nat) (c : Channel) (tag hdr : Nat) (data : List Byte) : State :=
  if tag < 4096 then s.sendMsg k c (hdr + tag * 2 ^ 8) data
  else { s with chl := { s.chl with later := s.chl.later ++ [(id, k, c, ⟨hdr, data⟩)] } }

/-- The oldest request or snoop that waits for a tag of a port takes one that is now free. -/
def sendLater (s : State) (k : Nat) (c : Channel) : State :=
  match s.chl.later.find? fun x => x.2.1 == k && x.2.2.1 == c with
  | none => s
  | some x =>
    let s1 : State := { s with chl := { s.chl with later := s.chl.later.filter fun y => !(y.2.1 == k && y.2.2.1 == c) } }
    let tag := s1.nextTag k c
    if 4096 ≤ tag then s
    else
      let s : State := { s with chl := { s.chl with
        later := s.chl.later.filter (·.1 != x.1),
        reqs := s.chl.reqs.map fun r => if r.id = x.1 then { r with tag := tag } else r,
        snoops := s.chl.snoops.map fun y => if y.id = x.1 then { y with tag := tag } else y } }
      s.sendMsg k c (x.2.2.2.hdr + tag * 2 ^ 8) x.2.2.2.data

/-- The port that serves a host line is FAILED. -/
def hostDead (s : State) (addr : Nat) : Bool := s.f .CHL_PORT_STATUS_STATE (s.homePort addr) == 4

/-- Issue a request to host memory on behalf of an owner; on a FAILED port it fails at once, and its item with it
(R315, R316). DEDUCED: notes/assumptions/72.md. -/
def hostReq (s : State) (kind : ReqKind) (addr len : Nat) (data : List Byte) (op : Nat) (wide : Bool)
    (owner : Owner) (item : Option (Nat × Nat × Nat)) (poison : Bool := false) : State :=
  let k := s.homePort addr
  let tag := s.nextTag k .req
  let dead := s.hostDead addr
  let r : HostReq := ⟨s.nextId, k, tag, kind, addr, len, owner, item, if dead then .failed else .waiting,
    if dead then rep len 0 else [], false, false⟩
  let s := { s with nextId := s.nextId + 1,
                    chl := { s.chl with reqs := s.chl.reqs ++ (if dead && !owner.reads then [] else [r]) } }
  if dead then s.failAt item stHostFailed
  else s.sendTagged r.id k .req tag (Msg.header (reqType kind) 0 addr (if kind = .rdnc ∨ kind = .wrp then len else 0) poison op wide) data

/-- Write bytes of one host line: WRL for a full line, else WRP (R310). -/
def hostWrite (s : State) (addr : Nat) (data : List Byte) (owner : Owner) (item : Option (Nat × Nat × Nat)) : State :=
  if data.length = 64 then s.hostReq .wrl addr 0 data 0 false owner item
  else s.hostReq .wrp addr data.length data 0 false owner item

end State

end Sys2Proof.Machine
end

