-- ==== Sys2Proof/Machine/Numeric.lean ====
section
/-!
DEFINITION. Number formats and arithmetic (05_number_formats.md): exact values, the layouts of the formats, rounding,
the conversions of R128, the column algorithm of R123 and the thread engine's FP32 operations.
-/
namespace Sys2Proof.Machine

/-! ### Exact values -/

/-- The value of a format's bits: NaN, an infinity, or ± m × 2^e. -/
inductive Num where
  | nan
  | inf (neg : Bool)
  | fin (neg : Bool) (m : Nat) (e : Int)
  deriving DecidableEq, Repr

/-- 2^k as a factor of a natural number, for k ≥ 0. -/
def shl (m : Nat) (k : Int) : Nat := m * 2 ^ k.toNat

/-- A finite value as an integer in units of 2^e, for an e no larger than its own. -/
def Num.units (neg : Bool) (m : Nat) (e0 e : Int) : Int :=
  let v : Int := shl m (e0 - e)
  if neg then -v else v

/-- An exact value from an integer in units of 2^e; zero takes the sign given. -/
def Num.ofUnits (v : Int) (e : Int) (zeroNeg : Bool) : Num :=
  if v = 0 then .fin zeroNeg 0 0 else .fin (decide (v < 0)) v.natAbs e

/-- A value is zero. -/
def Num.isZero : Num → Bool
  | .fin _ m _ => m == 0
  | _ => false

/-- Exact product; infinity × 0 is NaN. -/
def Num.mul (x y : Num) : Num :=
  match x, y with
  | .nan, _ | _, .nan => .nan
  | .inf a, .inf b => .inf (a != b)
  | .inf a, .fin b m _ => if m = 0 then .nan else .inf (a != b)
  | .fin a m _, .inf b => if m = 0 then .nan else .inf (a != b)
  | .fin a m e, .fin b n f => .fin (a != b) (m * n) (e + f)

/-- Exact sum; opposite infinities give NaN, an exact zero of opposite signs is +0. -/
def Num.add (x y : Num) : Num :=
  match x, y with
  | .nan, _ | _, .nan => .nan
  | .inf a, .inf b => if a = b then .inf a else .nan
  | .inf a, .fin _ _ _ | .fin _ _ _, .inf a => .inf a
  | .fin a m e, .fin b n f =>
    let g := if e < f then e else f
    Num.ofUnits (Num.units a m e g + Num.units b n f g) g (a && b && m == 0 && n == 0)

/-- Negation. -/
def Num.neg : Num → Num
  | .nan => .nan
  | .inf a => .inf (!a)
  | .fin a m e => .fin (!a) m e

/-- An integer. -/
def Num.ofInt (v : Int) : Num := Num.ofUnits v 0 false

/-- x < y for values that are not NaN. -/
def Num.lt (x y : Num) : Bool :=
  match x, y with
  | .nan, _ | _, .nan => false
  | .inf a, .inf b => a && !b
  | .inf a, .fin _ _ _ => a
  | .fin _ _ _, .inf b => !b
  | .fin a m e, .fin b n f =>
    let g := if e < f then e else f
    decide (Num.units a m e g < Num.units b n f g)

/-- x = y for values that are not NaN. -/
def Num.eq (x y : Num) : Bool := x != .nan && y != .nan && !x.lt y && !y.lt x

/-! ### Rounding (R115, R117) -/

/-- A floating format: mantissa bits, bias, width, largest finite magnitude code, infinity code, canonical NaN. -/
structure FFmt where
  man : Nat
  bias : Nat
  width : Nat
  maxCode : Nat
  infCode : Option Nat
  nan : Nat
  deriving DecidableEq, Repr

def e4m3 : FFmt := ⟨3, 7, 8, 0x7E, none, 0x7F⟩
def e5m2 : FFmt := ⟨2, 15, 8, 0x7B, some 0x7C, 0x7E⟩
def bf16 : FFmt := ⟨7, 127, 16, 0x7F7F, some 0x7F80, 0x7FC0⟩
def fp16 : FFmt := ⟨10, 15, 16, 0x7BFF, some 0x7C00, 0x7E00⟩
def fp32 : FFmt := ⟨23, 127, 32, 0x7F7FFFFF, some 0x7F800000, 0x7FC00000⟩

/-- Nearest multiple, ties to even: m / 2^k. -/
def halfEven (m k : Nat) : Nat :=
  let q := m / 2 ^ k
  let r := m % 2 ^ k
  if k = 0 then m
  else if r * 2 > 2 ^ k ∨ (r * 2 = 2 ^ k ∧ q % 2 = 1) then q + 1 else q

/-- Magnitude code of m × 2^e (m > 0) rounded to nearest, ties to even, with an unbounded exponent range above. -/
def FFmt.code (f : FFmt) (m : Nat) (e : Int) : Nat :=
  let low : Int := 1 - (f.bias : Int) - f.man
  let lsb0 : Int := e + Nat.log2 m - f.man
  let lsb := if lsb0 < low then low else lsb0
  let q := if lsb ≤ e then shl m (e - lsb) else halfEven m (lsb - e).toNat
  if q < 2 ^ f.man then q
  else ((lsb - low).toNat + 1) * 2 ^ f.man + (q - 2 ^ f.man)

/-- Sign bit of a format. -/
def FFmt.sign (f : FFmt) (neg : Bool) : Nat := if neg then 2 ^ (f.width - 1) else 0

/-- Bits of a value in a format and whether a finite value was beyond its largest: then the largest finite value with
`sat`, else infinity (R126 to R128, R130). -/
def FFmt.round (f : FFmt) (sat : Bool) : Num → Nat × Bool
  | .nan => (f.nan, false)
  | .inf a => (f.sign a + f.infCode.getD f.maxCode, false)
  | .fin a m e =>
    if m = 0 then (f.sign a, false)
    else
      let c := f.code m e
      if f.maxCode < c then (f.sign a + (if sat then f.maxCode else f.infCode.getD f.maxCode), true)
      else (f.sign a + c, false)

/-- The value of a format's bits. -/
def FFmt.value (f : FFmt) (x : Nat) : Num :=
  let x := x % 2 ^ f.width
  let neg := bit x (f.width - 1)
  let c := x % 2 ^ (f.width - 1)
  let low : Int := 1 - (f.bias : Int) - f.man
  if f.infCode = some c then .inf neg
  else if f.maxCode < c then .nan
  else
    let ex := c / 2 ^ f.man
    let mn := c % 2 ^ f.man
    if ex = 0 then .fin neg mn (if mn = 0 then 0 else low) else .fin neg (2 ^ f.man + mn) (low + (ex - 1 : Int))

/-! ### Format codes (R114, R116) -/

/-- Bits of a value of a format code 1 to 10. -/
def fmtBits (c : Nat) : Nat :=
  match c with
  | 1 | 2 => 4
  | 3 | 4 | 5 | 6 => 8
  | 7 | 8 => 16
  | 9 | 10 => 32
  | _ => 0

/-- The floating format of a code. -/
def floatFmt (c : Nat) : Option FFmt :=
  match c with
  | 5 => some e4m3
  | 6 => some e5m2
  | 7 => some bf16
  | 8 => some fp16
  | 10 => some fp32
  | _ => none

/-- An integer code. -/
def isInt (c : Nat) : Bool := c == 1 || c == 2 || c == 3 || c == 4 || c == 9

/-- The signed integer codes. -/
def isSigned (c : Nat) : Bool := c == 1 || c == 3 || c == 9

/-- Two's complement value of `w` bits. -/
def signedOf (w x : Nat) : Int := if x % 2 ^ w < 2 ^ (w - 1) then (x % 2 ^ w : Nat) else (x % 2 ^ w : Nat) - 2 ^ w

/-- `w` bits of an integer. -/
def bitsOfInt (w : Nat) (v : Int) : Nat := (v % 2 ^ w).toNat

/-- The integer value of bits of an integer code. -/
def intValue (c x : Nat) : Int := if isSigned c then signedOf (fmtBits c) x else (x % 2 ^ fmtBits c : Nat)

/-- The value of bits of any code. -/
def fmtValue (c x : Nat) : Num :=
  match floatFmt c with
  | some f => f.value x
  | none => Num.ofInt (intValue c x)

/-- The range of an integer code. -/
def intRange (c : Nat) : Int × Int :=
  let w := fmtBits c
  if isSigned c then (-2 ^ (w - 1), 2 ^ (w - 1) - 1) else (0, 2 ^ w - 1)

/-- An integer held within a range. -/
def clampInt (lo hi v : Int) : Int := if v < lo then lo else if hi < v then hi else v

/-- Nearest integer, ties to even. -/
def roundInt (neg : Bool) (m : Nat) (e : Int) : Int :=
  let q := if 0 ≤ e then shl m e else halfEven m (-e).toNat
  if neg then -(q : Int) else q

/-- Conversion of a value to an output format (Table Conversion to output formats). -/
def convert (c : Nat) (x : Num) : Nat :=
  match floatFmt c with
  | some f => (f.round true x).1
  | none =>
    let (lo, hi) := intRange c
    bitsOfInt (fmtBits c) (match x with
      | .nan => 0
      | .inf a => if a then lo else hi
      | .fin a m e => clampInt lo hi (roundInt a m e))

/-! ### FP32 arithmetic (R124 to R127, R130) -/

/-- Bits to value and back, IEEE overflow. -/
def f32 (x : Nat) : Num := fp32.value x
def f32Round (x : Num) : Nat := (fp32.round false x).1

/-- Bits, and whether a finite result saturated. -/
def f32Sat (x : Num) : Nat × Bool := fp32.round true x

/-- The product of a drain: rounded, saturating (R127). -/
def drainMul (x y : Nat) : Nat := (f32Sat ((f32 x).mul (f32 y))).1

/-- Of two zeros of opposite sign FMIN and FMAX give either (R184 does not say which): a function of the operands.
DEDUCED: notes/assumptions/40.md. -/
def pickZero (op a b : Nat) : Nat := if (Config.approxOpen op a).getLsbD 0 then a else b

/-- FMIN and FMAX: a NaN operand gives the canonical NaN. DEDUCED: notes/assumptions/40.md. -/
def fmin (a b : Nat) : Nat :=
  if f32 a = .nan ∨ f32 b = .nan then fp32.nan
  else if (f32 b).lt (f32 a) then b
  else if (f32 a).lt (f32 b) then a
  else pickZero 4 a b
def fmax (a b : Nat) : Nat :=
  if f32 a = .nan ∨ f32 b = .nan then fp32.nan
  else if (f32 a).lt (f32 b) then b
  else if (f32 b).lt (f32 a) then a
  else pickZero 5 a b

/-- A CVT between two format codes: narrow to narrow goes through FP32 (R130, R185).
DEDUCED: notes/assumptions/40.md. -/
def cvtBits (src dst x : Nat) : Nat :=
  let v := fmtValue src (x % 2 ^ fmtBits src)
  if isInt src && isInt dst then
    let (lo, hi) := intRange dst
    bitsOfInt (fmtBits dst) (clampInt lo hi (intValue src x))
  else convert dst (f32 (f32Round v))

/-! ### Columns of the array (R105, R118, R123, R125) -/

/-- Precision of an operand format. -/
def precision (c : Nat) : Nat :=
  match c with
  | 6 => 3
  | 5 => 4
  | 1 | 2 => 4
  | 3 | 4 | 7 => 8
  | 8 => 11
  | _ => 0

/-- floor(log2 |t|) of a non-zero finite value. -/
def exponentOf (m : Nat) (e : Int) : Int := e + Nat.log2 m

/-- The column result of a floating pairing from its terms (R123, R125): bits, and whether its rounding saturated. -/
def columnFloat (pa pb : Nat) (terms : List Num) : Nat × Bool :=
  if terms.any (· == .nan) then (fp32.nan, false)
  else
    let pos := terms.any (· == .inf false)
    let neg := terms.any (· == .inf true)
    if pos && neg then (fp32.nan, false)
    else if pos then (fp32.sign false + 0x7F800000, false)
    else if neg then (fp32.sign true + 0x7F800000, false)
    else
      let nz := terms.filterMap fun t => match t with
        | .fin a m e => if m = 0 then none else some (a, m, e)
        | _ => none
      match nz with
      | [] => (0, false)
      | (_, m0, e0) :: _ =>
        let top := nz.foldl (fun b t => if b < exponentOf t.2.1 t.2.2 then exponentOf t.2.1 t.2.2 else b) (exponentOf m0 e0)
        let q : Int := top - (pa + pb + 2 : Nat)
        let sum : Int := nz.foldl (fun acc t =>
          let mag : Nat := if q ≤ t.2.2 then shl t.2.1 (t.2.2 - q) else t.2.1 / 2 ^ (q - t.2.2).toNat
          acc + (if t.1 then -(mag : Int) else mag)) 0
        f32Sat (Num.ofUnits sum q false)

/-- A pairing of MAC is allowed (R118): plane format, paired plane, stream format. -/
def pairingOk (plane : Nat) (paired : Bool) (stream : Nat) : Bool :=
  decide (1 ≤ plane ∧ plane ≤ 8 ∧ 1 ≤ stream ∧ stream ≤ 8) && (!paired || (stream ≤ 2))

/-- The pairing accumulates in INT32. -/
def pairingInt (plane stream : Nat) : Bool := isInt plane && isInt stream

/-- w of R84: 4 with a 16-bit operand. -/
def passWidth (plane stream : Nat) : Nat := if fmtBits plane = 16 ∨ fmtBits stream = 16 then 4 else 1

/-- The term of an integer mode. -/
def modeTerm (mode : Nat) (x w : Int) : Int :=
  match mode with
  | 0 => x * w
  | 1 => (x - w).natAbs
  | 2 => (x - w) * (x - w)
  | 3 | 4 => x + w
  | _ => if x = w then 1 else 0

/-- The combine operation and identity of a mode. -/
def modeCombine (mode : Nat) (a b : Int) : Int :=
  match mode with
  | 3 => if a < b then a else b
  | 4 => if a < b then b else a
  | _ => a + b
def modeIdentity (mode : Nat) : Int :=
  match mode with
  | 3 => 2 ^ 31 - 1
  | 4 => -2 ^ 31
  | _ => 0

/-- INT32 saturation, with the flag that it happened. -/
def satInt32 (v : Int) : Int × Bool :=
  (clampInt (-2 ^ 31) (2 ^ 31 - 1) v, decide (v < -2 ^ 31) || decide (2 ^ 31 - 1 < v))

/-- The element that a column of integer terms leaves (R99, R105): bits, saturated. -/
def columnInt (mode : Nat) (accumulate : Bool) (old : Nat) (terms : List (Int × Int)) : Nat × Bool :=
  let y := terms.foldl (fun a t => modeCombine mode a (modeTerm mode t.1 t.2)) (modeIdentity mode)
  let v := if accumulate then modeCombine mode (signedOf 32 old) y else y
  let r := satInt32 v
  (bitsOfInt 32 r.1, r.2)

/-- The element of a floating pairing after accumulation (R124, R125): bits, saturated. -/
def accumulateFloat (accumulate : Bool) (old : Nat) (y : Nat × Bool) : Nat × Bool :=
  if accumulate then
    let r := f32Sat ((f32 old).add (f32 y.1))
    (r.1, r.2 || y.2)
  else y

/-! ### Approximations (R184) -/

/-- Integer square root: the largest r with r² ≤ n, by bits from 2^k down. -/
def isqrt (n : Nat) : Nat → Nat → Nat
  | 0, r => if (r + 1) * (r + 1) ≤ n then r + 1 else r
  | k + 1, r => isqrt n k (if (r + 2 ^ (k + 1)) * (r + 2 ^ (k + 1)) ≤ n then r + 2 ^ (k + 1) else r)

/-- Square root of a number of at most 2·b bits. -/
def sqrtBits (b n : Nat) : Nat := isqrt n b 0

/-- 2^(f / 2^80) in units of 2^-100, for f < 2^80: the product of 2^(2^-i) over the set bits of f. -/
def exp2Frac (f : Nat) : Nat :=
  ((List.range 80).foldl (fun (x : Nat × Nat) i =>
    let c := sqrtBits 104 (x.2 * 2 ^ 100)
    (if bit f (79 - i) then x.1 * c / 2 ^ 100 else x.1, c)) (2 ^ 100, 2 ^ 101)).1

/-- log2(m / 2^160) in units of 2^-80, for 2^160 ≤ m < 2^161, by squaring. -/
def log2Frac (m : Nat) : Nat :=
  ((List.range 80).foldl (fun (x : Nat × Nat) _ =>
    let y := x.2 * x.2 / 2 ^ 160
    if 2 ^ 161 ≤ y then (2 * x.1 + 1, y / 2) else (2 * x.1, y)) (0, m)).1

/-- An exact result to some 60 bits beyond FP32, as m × 2^e with its sign. -/
def approxExact (op : Nat) (x : Num) : Option (Bool × Nat × Int) :=
  match x with
  | .fin a m e =>
    match op with
    | 0 =>
      -- 2^x, x in units of 2^-80
      let u : Int := if -80 ≤ e then Num.units a m e (-80) else
        (if a then -((m / 2 ^ (-80 - e).toNat : Nat) : Int) else (m / 2 ^ (-80 - e).toNat : Nat))
      let n := u / 2 ^ 80
      if 200 < n ∨ n < -200 then none
      else some (false, exp2Frac (u % 2 ^ 80).toNat, n - 100)
    | 1 =>
      if m = 0 then none
      else
        let l := Nat.log2 m
        let fr := log2Frac (m * 2 ^ 160 / 2 ^ l)
        let v : Int := (e + l) * 2 ^ 80 + fr
        if v = 0 then none else some (decide (v < 0), v.natAbs, -80)
    | 2 => if m = 0 then none else some (a, 2 ^ 160 / m, -160 - e)
    | _ =>
      if m = 0 ∨ a then none
      else
        -- 1 / sqrt(m 2^e), with an even exponent
        let (m, e) := if e % 2 = 0 then (m, e) else (2 * m, e - 1)
        some (false, sqrtBits 120 (2 ^ 200 / m), -100 - e / 2)
  | _ => none

/-- A magnitude code lies within 2 units in the last place of m × 2^e. -/
def within2 (c m : Nat) (e : Int) : Bool :=
  let ulp : Int := e + Nat.log2 m - 23
  match fp32.value c with
  | .fin false n f =>
    let g := (if e < f then (if e < ulp then e else ulp) else (if f < ulp then f else ulp))
    decide ((Num.units false n f g - Num.units false m e g).natAbs ≤ shl 2 (ulp - g))
  | _ => false

/-- The result of FEXP2 (0), FLOG2 (1), FRCP (2) or FRSQRT (3) on FP32 bits (R184).
DESIGN CHOICE: notes/assumptions/19.md. -/
def approxOp (op x : Nat) : Nat :=
  let v := f32 x
  let openValue := (Config.approxOpen op x).toNat
  match op, v with
  | _, .nan => fp32.nan
  | 0, .inf true => 0
  | 1, .fin _ 0 _ => 0xFF800000
  | 1, .fin true _ _ | 1, .inf true | 3, .inf true => fp32.nan
  | 2, .fin a 0 _ => fp32.sign a + 0x7F800000
  | 3, .fin false 0 _ => 0x7F800000
  | 3, .fin true m _ => if m = 0 then openValue else fp32.nan
  | _, _ =>
    match approxExact op v with
    | none => openValue
    | some (neg, m, e) =>
      let c := fp32.code m e
      if c < 0x00800000 ∨ fp32.maxCode < c then openValue
      else
        let k := clampInt (-2) 2 (Config.approx op x)
        let pick := fun (k : Int) => ((c : Int) + k).toNat
        let k := if within2 (pick k) m e then k else if 0 < k then k - 1 else k + 1
        let k := if within2 (pick k) m e then k else 0
        fp32.sign neg + pick k

end Sys2Proof.Machine
end

