-- ==== Sys2Proof/Machine/Flags.lean ====
section
/-!
DEFINITION. Conditions: those of CMP and FCMP (R184). The part has no flag register: a comparison writes a register.
-/
namespace Sys2Proof.Machine

/-- The condition codes of CMP: EQ, NE, LT, LE, LTU, LEU. -/
def cmpHolds (cond : Nat) (a b : W32) : Bool :=
  match cond with
  | 0 => a == b
  | 1 => a != b
  | 2 => a.slt b
  | 3 => a.sle b
  | 4 => a.ult b
  | _ => a.ule b

/-- The condition codes of FCMP: EQ, NE, LT, LE on FP32 bits; with a NaN only NE holds. -/
def fcmpHolds (cond a b : Nat) : Bool :=
  let x := f32 a
  let y := f32 b
  match cond with
  | 0 => x.eq y
  | 1 => !x.eq y
  | 2 => x.lt y
  | _ => x.lt y || x.eq y

/-- COND of YPOLL (R178) on its word and the comparand: 0 at least, unsigned, 1 equal, 2 not equal. -/
def pollHolds (cond a b : Nat) : Bool :=
  match cond with
  | 0 => decide (b ≤ a)
  | 1 => a == b
  | _ => a != b

end Sys2Proof.Machine
end

