-- ==== Sys2Proof/Machine/Memory.lean ====
section
/-!
DEFINITION. Part memory (09_context_memory.md): the two windows, the stack controllers' reads, writes, atomics and
scrub, eyespots, row repair, temperature, and the snoops an access needs before it is served (12 R313).
-/
namespace Sys2Proof.Machine

/-- Atomic operations of R186 on values of `w` bits; a code above 9 is reserved and leaves the old value. -/
def atomicOp (op w old a b : Nat) : Nat :=
  let m := 2 ^ w
  let sg := fun x : Nat => if x < m / 2 then (x : Int) else (x : Int) - m
  match op with
  | 0 => (old + a) % m
  | 1 => if sg a < sg old then a else old
  | 2 => if sg old < sg a then a else old
  | 3 => if a < old then a else old
  | 4 => if old < a then a else old
  | 5 => old &&& a
  | 6 => old ||| a
  | 7 => old ^^^ a
  | 8 => a
  | 9 => if old = a then b else old
  | _ => old

/-- What a read of memory gives: the bytes, zero where a line carries an eyespot, and what it met. -/
structure Got where
  s : State
  bytes : List Byte
  poison : Bool
  absent : Bool

namespace State

/-! ### The two windows (R223, R224) -/

/-- The cell of a physical address: stack × 2^36 + in-stack offset; none where the address is unmapped. -/
def cellOf (s : State) (pa : Nat) : Option Nat :=
  if pa < 2 ^ 40 then
    let d := pa / 2 ^ 37
    let u := pa % 2 ^ 37
    match s.dieStacks d with
    | [a, b] => some ((if u / 4096 % 2 = 0 then a else b) * 2 ^ 36 + (u / 8192 * 4096 + u % 4096))
    | [a] => if u < 2 ^ 36 then some (a * 2 ^ 36 + u) else none
    | _ => none
  else if pa < 2 ^ 41 then
    let o := pa - 2 ^ 40
    let l := s.presentStacks
    let n := l.length
    if n = 0 ∨ n * 2 ^ 36 ≤ o then none
    else some (nth 0 l (o / 4096 % n) * 2 ^ 36 + (o / 4096 / n * 4096 + o % 4096))
  else none

/-- The die-local physical address of a cell. -/
def dieLocal (s : State) (cell : Nat) : Nat :=
  let k := cell / 2 ^ 36
  let off := cell % 2 ^ 36
  match s.dieStacks (k / 2) with
  | [a, _] => k / 2 * 2 ^ 37 + (off / 4096 * 8192 + (if k = a then 0 else 4096) + off % 4096)
  | _ => k / 2 * 2 ^ 37 + off

/-- The package-wide physical address of a cell. -/
def packageWide (s : State) (cell : Nat) : Nat :=
  let l := s.presentStacks
  2 ^ 40 + ((cell % 2 ^ 36 / 4096 * l.length + l.idxOf (cell / 2 ^ 36)) * 4096 + cell % 4096)

/-- One access to an unmapped address, raised on compute die `d`, or on an I/O die (R225). -/
def countAbsent (s : State) (d : Option Nat) : State :=
  let own := match d with
    | some d => s.dieStacks d
    | none => []
  match own ++ s.presentStacks with
  | k :: _ => s.bumpSat .HBM_ABSENT_COUNT k
  | [] => s.bump .GLB_MEM_ABSENT_COUNT

/-! ### Cells and eyespots -/

/-- What a byte of part memory that nothing has written reads as (DESIGN CHOICE: notes/assumptions/7.md). -/
def memDefault : Byte := 0

/-- A byte of part memory. DESIGN CHOICE: notes/assumptions/7.md. -/
def memByte (s : State) (cell : Nat) : Byte := FMap.get memDefault s.mem cell

/-- Bytes of part memory from a cell on. -/
def memBytes (s : State) (cell n : Nat) : List Byte := FMap.getList memDefault s.mem cell n

/-- Store bytes from a cell on. -/
def putBytes (s : State) (cell : Nat) (bs : List Byte) : State :=
  { s with mem := FMap.putList memDefault s.mem cell bs }

/-- A line carries an eyespot. -/
def eye (s : State) (line : Nat) : Bool := s.eyes.get false line

/-- Mark or clear a line. -/
def setEye (s : State) (line : Nat) (b : Bool) : State := { s with eyes := s.eyes.put false line b }

/-- Pseudo-channel, bank and row of a cell line. -/
def rowOf (line : Nat) : Nat × Nat × Nat :=
  let l := line % 2 ^ 30
  let b := (Config.bankRow l).toNat
  ((l % 64 + l / 64) % 64, b % 64, b / 64)

/-- A row as one number. -/
def rowKey (r : Nat × Nat × Nat) : Nat := r.1 + 64 * r.2.1 + 4096 * r.2.2

/-- A row is served from a spare, or is being copied. -/
def remapped (s : State) (k : Nat) (r : Nat × Nat × Nat) : Bool :=
  let same := fun (x : Spare) => x.pc == r.1 && x.bank == r.2.1 && x.row == r.2.2
  (s.stack k).spares.any (fun e => e.2.any same) || (s.stack k).copies.any (fun c => same c.spare)

/-- The lowest spare entry that is free, below 2,048. -/
def freeSpare (s : State) (k : Nat) : Option Nat :=
  let used := FMap.keys (s.stack k).spares ++ (s.stack k).copies.map (·.entry)
  let e := freeTag used 2048 0
  if e < 2048 then some e else none

/-- HBM_REMAP_DATA of a spare entry. -/
def spareWord (x : Option Spare) : Nat :=
  match x with
  | some x => 1 + x.pc * 2 + x.bank * 2 ^ 7 + x.row * 2 ^ 13 + x.cause * 2 ^ 32 + b2n x.permanent * 2 ^ 34
  | none => 0

/-- A row becomes a candidate for repair: it is remapped live, or logged only (R235, R236).
DEDUCED: notes/assumptions/14.md. -/
def rowCandidate (s : State) (k line cause : Nat) : State :=
  let r := rowOf line
  if s.remapped k r then s
  else
    let x : Spare := ⟨r.1, r.2.1, r.2.2, cause, false⟩
    match s.flag .HBM_SETUP_REMAP_EN k, s.freeSpare k with
    | true, some e => s.modStack k fun st => { st with copies := st.copies ++ [⟨e, x⟩] }
    | _, _ => s.log 0x08 false (dcIx (k / 2)) [k, (spareWord (some x) - 1) % 2 ^ 32, (spareWord (some x) - 1) / 2 ^ 32]

/-- Mark a line that a read found uncorrectable (R229) and report it to the die controller. -/
def markLine (s : State) (line : Nat) : State :=
  let k := line / 2 ^ 30
  let s := (s.setEye line true).bump .HBM_UE_COUNT k
  let s := if s.flag .HBM_EYESPOT_FIRST_VALID k then s
    else (s.setF .HBM_EYESPOT_FIRST_ADDR k (s.dieLocal (line * 64))).setFlag .HBM_EYESPOT_FIRST_VALID k true
  (s.modDie (k / 2) fun d => { d with reports := d.reports ++ [line] }).rowCandidate k line 0

/-- Count a corrected error in a line's row (R227, R235). -/
def correctLine (s : State) (line : Nat) : State :=
  let k := line / 2 ^ 30
  let s := s.bump .HBM_CE_COUNT k
  let key := rowKey (rowOf line)
  let n := (s.stack k).rowCe.get 0 key + 1
  let s := s.modStack k fun st => { st with rowCe := st.rowCe.put 0 key n }
  if s.f .HBM_SETUP_ROW_CE_LIMIT k = n then s.rowCandidate k line 1 else s

/-- What the controller does with the errors that a read of a line's cells finds. -/
def meetErr (s : State) (line : Nat) (err : CellErr) : State :=
  match err with
  | .none => s
  | .correctable => if s.eye line then s else s.correctLine line
  | .uncorrectable => if s.eye line then s else s.markLine line

/-- A stack controller serves a read of a line for a requester (R227, R229): data and eyespot. -/
def readLine (s : State) (line : Nat) (err : CellErr) : State × List Byte × Bool :=
  let k := line / 2 ^ 30
  let s := (s.bump .HBM_READS_COUNT k).meetErr line err
  let s := s.when (s.eye line) (·.bump .HBM_EYESPOT_READS_COUNT k)
  (s, s.memBytes (line * 64) 64, s.eye line)

/-- A stack controller serves a write of `bs` from byte `lo` of a line: a full line clears its eyespot, a part of one
is merged after a read of the line (R231). -/
def writeLine (s : State) (line lo : Nat) (bs : List Byte) (err : CellErr) : State :=
  let k := line / 2 ^ 30
  let s := s.bump .HBM_WRITES_COUNT k
  if bs.length = 64 then (s.setEye line false).putBytes (line * 64) bs
  else (s.meetErr line err).putBytes (line * 64 + lo) bs

/-- A write under a byte mask, one access at the controller. -/
def writeMasked (s : State) (line mask : Nat) (bs : List Byte) (err : CellErr) : State :=
  if mask = 2 ^ 64 - 1 then s.writeLine line 0 (fit 64 bs) err
  else
    let s := (s.bump .HBM_WRITES_COUNT (line / 2 ^ 30)).meetErr line err
    s.forEach (maskRuns 64 0 mask) fun s (i, n) => s.putBytes (line * 64 + i) ((fit 64 bs).drop i |>.take n)

/-- An atomic at a cell (R67, R186): not performed on a line with an eyespot, which gives zero (R230). -/
def atomicAt (s : State) (cell op : Nat) (wide : Bool) (a b : Nat) (err : CellErr) : State × Nat × Bool :=
  let n := if wide then 8 else 4
  let (s, _, p) := s.readLine (cell / 64) err
  if p then (s, 0, true)
  else
    let old := fromLE (s.memBytes cell n)
    let s := (s.bump .HBM_WRITES_COUNT (cell / 2 ^ 36)).putBytes cell
      (toLE n (atomicOp op (8 * n) old (a % 2 ^ (8 * n)) (b % 2 ^ (8 * n))))
    (s, old, false)

/-- The stack of a cell serves requests: it is not tripped (R240, R241). -/
def serves (s : State) (cell : Nat) : Bool := !s.flag .HBM_STATUS_TRIPPED (cell / 2 ^ 36)

/-! ### Accesses by physical address -/

end State

/-- The parts of `n` bytes at `a` that lie in one 64-byte line each. -/
def lineParts : Nat → Nat → Nat → List (Nat × Nat)
  | 0, _, _ => []
  | fuel + 1, a, n =>
    if n = 0 then []
    else
      let l := Nat.min n (64 - a % 64)
      (a, l) :: lineParts fuel (a + l) (n - l)

/-- The line parts of an access. -/
def partsOf (a n : Nat) : List (Nat × Nat) := lineParts (n / 64 + 2) a n

namespace State

/-- Read `n` bytes of part memory at a physical address for an agent on die `d` (none: an I/O die). -/
def physRead (s : State) (d : Option Nat) (pa n : Nat) : Got :=
  (partsOf pa n).foldl (fun g x =>
    match g.s.cellOf x.1 with
    | none => ⟨g.s.countAbsent d, g.bytes ++ rep x.2 0, g.poison, true⟩
    | some c =>
      let (s, bs, p) := g.s.readLine (c / 64) .none
      ⟨s, g.bytes ++ (if p then rep x.2 0 else (bs.drop (c % 64)).take x.2), g.poison || p, g.absent⟩)
    ⟨s, [], false, false⟩

/-- Write bytes of part memory at a physical address; true where part of it was unmapped. -/
def physWrite (s : State) (d : Option Nat) (pa : Nat) (bs : List Byte) : State × Bool :=
  let (s, _, a) := (partsOf pa bs.length).foldl (fun (x : State × List Byte × Bool) y =>
    let (s, rest, a) := x
    match s.cellOf y.1 with
    | none => (s.countAbsent d, rest.drop y.2, true)
    | some c => (s.writeLine (c / 64) (c % 64) (rest.take y.2) .none, rest.drop y.2, a)) (s, bs, false)
  (s, a)

/-! ### The snoop filter (12 R312, R313) -/

/-- A line of the aperture in the filter. -/
def filterAt (s : State) (line : Nat) : Option FilterEntry := s.chl.filter.get none line

/-- Set or drop a line's entry. -/
def setFilter (s : State) (line : Nat) (e : Option FilterEntry) : State :=
  { s with chl := { s.chl with filter := s.chl.filter.put none line e } }

/-- The aperture lines under which the host may cache a cell's line. -/
def aliases (s : State) (cell : Nat) : List Nat := [s.dieLocal cell / 64, s.packageWide cell / 64]

/-- A snoop of the line is outstanding. -/
def snooped (s : State) (line : Nat) : Bool := s.chl.snoops.any (·.line == line)

/-- Send a snoop of a line through a port (CHL_SNOOPS counts it). -/
def sendSnoop (s : State) (k line : Nat) (data evict : Bool) (owner : Owner) : State :=
  let tag := s.nextTag k .snp
  let s := (s.bump .CHL_SNOOPS_COUNT).sendTagged s.nextId k .snp tag
    (Msg.header (if data then 0x11 else 0x10) 0 ((s.port k).aperture + line * 64)) []
  { s with nextId := s.nextId + 1,
           chl := { s.chl with snoops := s.chl.snoops ++ [⟨s.nextId, k, tag, line, data, evict, false, owner⟩] } }

/-- The ports, other than the one the access comes from, that hold a line. -/
def holders (e : FilterEntry) (from_ : Option Nat) : List Nat :=
  (if e.p0 && from_ != some 0 then [0] else []) ++ (if e.p1 && from_ != some 1 then [1] else [])

/-- The aperture lines of a cell that keep an access waiting: owned elsewhere, or, for `own` (a grant of ownership or a
write that must be settled first), shared elsewhere (R313). -/
def blockers (s : State) (cell : Nat) (from_ : Option Nat) (own : Bool) : List (Nat × FilterEntry) :=
  (s.aliases cell).filterMap fun l =>
    match s.filterAt l with
    | some e => if holders e from_ ≠ [] ∧ (e.owned ∨ own) then some (l, e) else none
    | none => none

/-- Snoop the blockers of an access, once each. -/
def snoopBlockers (s : State) (bl : List (Nat × FilterEntry)) (from_ : Option Nat) (write : Bool) : State :=
  s.forEach bl fun s x =>
    if s.snooped x.1 then s
    else s.forEach (holders x.2 from_) fun s k => s.sendSnoop k x.1 (x.2.owned && !write) false .outside

/-- The cells of the lines of an access. -/
def cellsOf (s : State) (pa n : Nat) : List Nat := (partsOf pa n).filterMap fun x => s.cellOf x.1

/-- Whether an access by an agent of the part must wait for a snoop, a stack trip or an unsettled snoop; if so the
state in which the snoops it needs have been sent. DEDUCED: notes/assumptions/35.md. -/
def mustWait (s : State) (pa n : Nat) (write : Bool) : Option State :=
  let cells := s.cellsOf pa n
  let bl := cells.flatMap fun c => s.blockers c none false
  if bl ≠ [] then some (s.snoopBlockers bl none write)
  else if cells.all fun c => s.serves c && !((s.aliases c).any s.snooped) then none else some s

/-- Invalidate the host's shared copies of what an agent of the part writes (R313, "Accepted at once"). -/
def snoopShared (s : State) (pa n : Nat) (owner : Owner) : State :=
  s.forEach ((s.cellsOf pa n).flatMap s.aliases) fun s l =>
    match s.filterAt l with
    | some e => if s.snooped l then s
      else s.forEach (holders e none) fun s k => s.sendSnoop k l false false owner
    | none => s

/-! ### The memory commands -/

/-- STACK_READ: the controller serves a read of an in-stack line (R227, R229). -/
def stackRead (s : State) (k line : Nat) (err : CellErr) (odecc : Nat) : State :=
  if s.stackPresent k && decide (line < 2 ^ 30) && s.serves (k * 2 ^ 36) then
    let (s, bs, p) := (s.bump .HBM_ODECC_COUNT k odecc).readLine (k * 2 ^ 30 + line) err
    s.modStack k fun st => { st with reply := some (bs, p) }
  else s

/-- STACK_WRITE: the controller performs a full-line write or a merged partial one (R231). -/
def stackWrite (s : State) (k line : Nat) (mask : Nat) (bs : List Byte) (err : CellErr) : State :=
  if s.stackPresent k && decide (line < 2 ^ 30) && s.serves (k * 2 ^ 36) then
    s.writeMasked (k * 2 ^ 30 + line) mask bs err
  else s

/-- STACK_ATOMIC: the controller performs an atomic at the home of its address (R67). -/
def stackAtomic (s : State) (k off op : Nat) (wide : Bool) (a b : Nat) (err : CellErr) : State :=
  let n := if wide then 8 else 4
  if s.stackPresent k && decide (off < 2 ^ 36) && s.serves (k * 2 ^ 36) && off % n == 0 && decide (op < 10) then
    let (s, old, p) := s.atomicAt (k * 2 ^ 36 + off) op wide a b err
    s.modStack k fun st => { st with reply := some (toLE n old, p) }
  else s

/-- SCRUB_READ: the controller scrubs its next line; a new pass starts the row counts again (R228, R235). -/
def scrubRead (s : State) (k : Nat) (err : CellErr) : State :=
  if s.stackPresent k && s.f .HBM_SETUP_SCRUB_HOURS k != 0 && s.serves (k * 2 ^ 36) then
    let l := (s.stack k).scrub
    let s := (s.bump .HBM_READS_COUNT k).meetErr (k * 2 ^ 30 + l) err
    s.modStack k fun st =>
      { st with scrub := (l + 1) % 2 ^ 30, rowCe := if l + 1 = 2 ^ 30 then [] else st.rowCe }
  else s

/-- Level of a reading under R239, by the lower edges. -/
def levelOf (t thr trip : Nat) : Nat :=
  if trip ≤ t then 4 else if thr + 6 ≤ t then 3 else if thr + 3 ≤ t then 2 else if thr ≤ t then 1 else 0

/-- Lower edge of a level. -/
def levelEdge (l thr trip : Nat) : Nat :=
  if l = 4 then trip else if l = 3 then thr + 6 else if l = 2 then thr + 3 else thr

/-- The level after a reading: a higher level at once; a level is left only 2 °C below its lower edge. -/
def nextLevel (cur t thr trip : Nat) : Nat :=
  let l := levelOf t thr trip
  if cur ≤ l then l else if t + 2 ≤ levelEdge cur thr trip then l else cur

/-! ### The MCLK level of a die (15 R372, R375) -/

/-- A sensor's state. -/
def sensor (s : State) (id : Nat) : Sensor := s.mgt.sensors.get .reset id

/-- Valid readings of a compute die, in quarter °C. -/
def dieReadings (s : State) (d : Nat) : List Int :=
  (List.range 16).filterMap fun k =>
    let x := s.sensor (0x0100 + 16 * d + k)
    if x.failed then none else some x.value

/-- T_d: the highest reading among a die's valid sensors, in quarter °C. -/
def dieTemp (s : State) (d : Nat) : Option Int :=
  (s.dieReadings d).foldl (fun b v => match b with
    | some w => some (if w < v then v else w)
    | none => some v) none

/-- Input power in mW, when both its readings are valid. -/
def inputPower (s : State) : Option Int :=
  if (s.sensor 0x0300).failed || (s.sensor 0x0301).failed then none
  else some ((s.sensor 0x0300).value * (s.sensor 0x0301).value / 1000)

/-- Causes P, T, S, U of a die, as bits 0 to 3. -/
def causes (s : State) (d : Nat) : Nat :=
  let p := s.inputPower.any fun w => decide ((s.f .MGT_LIMITS_POWER_LIMIT : Int) * 1000 < w)
  let t := (s.dieTemp d).any fun v => decide ((s.f .MGT_SETUP_DIE_THROTTLE_C : Int) * 4 ≤ v)
  let hot := [2 * d, 2 * d + 1].any fun k => s.stackPresent k &&
    (decide (2 ≤ s.f .HBM_STATUS_LEVEL k) || s.flag .HBM_STATUS_TRIPPED k)
  let u := decide ((s.dieReadings d).length < 12) || decide (10 ≤ s.mgt.unreadMs)
  b2n p + b2n t * 2 + b2n hot * 4 + b2n u * 8

/-- The causes with the fast limit and the hard trip, as a THROTTLE record and MGT_DIE_STATUS hold them. -/
def heldCauses (s : State) (d : Nat) : Nat :=
  s.causes d + s.f .MGT_STATUS_FAST_LIMIT * 16 + b2n (s.die d).hardTrip * 32

/-- Set a die's level: each change counts, the first step from the ceiling and the return to it are logged (R387).
DEDUCED: notes/assumptions/64.md. -/
def setLevel (s : State) (d l ceiling cs : Nat) : State :=
  let old := (s.die d).level
  if l = old then s
  else
    let s := (s.modDie d fun x => { x with level := l }).bump .MGT_THROTTLE_STEPS_COUNT
    let away := s.mgt.throttled.get false d
    let rec_ := fun (s : State) => s.log 0x04 false (dcIx d) [d + old * 2 ^ 8 + l * 2 ^ 18, cs]
    let mark := fun (s : State) b => s.modMgt fun m => { m with throttled := m.throttled.put false d b }
    if !away && decide (l < old) && decide (l < ceiling) then mark (rec_ s) true
    else if away && decide (ceiling ≤ l) then mark (rec_ s) false
    else s

/-- The stack trips: nothing but refresh is issued, and its die's MCLK falls to 200 MHz (R240, R375).
DEDUCED: notes/assumptions/64.md. -/
def tripStack (s : State) (k : Nat) : State :=
  if s.flag .HBM_STATUS_TRIPPED k then s
  else
    let s := s.setFlag .HBM_STATUS_TRIPPED k true
    let s := s.log 0x06 false (dcIx (k / 2))
      [k + 16 + b2n (s.flag .HBM_STATUS_SENSOR_LOST k) * 32, s.f .HBM_STATUS_TEMP_C k]
    let d := k / 2
    (s.modDie d fun x => { x with quiet := 0 }).setLevel d 200 (s.f .MGT_LIMITS_MCLK_CEILING) (s.heldCauses d)

/-- The trip ends (R240). -/
def untripStack (s : State) (k : Nat) : State :=
  if s.flag .HBM_STATUS_TRIPPED k then
    (s.setFlag .HBM_STATUS_TRIPPED k false).log 0x06 false (dcIx (k / 2)) [k, s.f .HBM_STATUS_TEMP_C k]
  else s

/-- STACK_TEMPERATURE_READ: a reading, or a failed read; `throttled` cycles were limited since the last (R239 to R241).
A shutdown at 115 °C is R380's. -/
def stackTemperature (s : State) (k : Nat) (reading : Option Nat) (throttled : Nat) : State :=
  if s.stackPresent k then
    let s := s.bump .HBM_THROTTLE_CYCLES_COUNT k throttled
    match reading with
    | none =>
      let n := (s.stack k).failedReads + 1
      let s := s.modStack k fun st => { st with failedReads := n }
      if 3 ≤ n ∧ !s.flag .HBM_STATUS_SENSOR_LOST k then (s.setFlag .HBM_STATUS_SENSOR_LOST k true).tripStack k else s
    | some t =>
      let s := s.modStack k fun st => { st with failedReads := 0 }
      let lost := s.flag .HBM_STATUS_SENSOR_LOST k
      let s := (s.setFlag .HBM_STATUS_SENSOR_LOST k false).setF .HBM_STATUS_TEMP_C k t
      let thr := s.f .HBM_SETUP_THROTTLE_C k
      let trip := s.f .HBM_SETUP_TRIP_C k
      let s := if trip ≤ t then s.tripStack k
        else if s.flag .HBM_STATUS_TRIPPED k then
          if t + 5 ≤ trip ∨ lost then (s.untripStack k).setF .HBM_STATUS_LEVEL k (levelOf t thr trip) else s
        else s.setF .HBM_STATUS_LEVEL k (nextLevel (s.f .HBM_STATUS_LEVEL k) t thr trip)
      if 115 ≤ t ∧ s.mgt.shutdown = none then
        s.modMgt fun m => { m with shutdown := some (3, k, 4 * (t : Int)) }
      else s
  else s

/-- ROW_REMAP_COMPLETE: the oldest row copy of the stack ends; lines found uncorrectable on the way carry eyespots in
the spare row, and the remap is recorded (R236, R237). -/
def rowRemapComplete (s : State) (k : Nat) (bad : List Nat) : State :=
  match (s.stack k).copies with
  | [] => s
  | c :: rest =>
    let row := (c.spare.pc, c.spare.bank, c.spare.row)
    let s := s.forEach (bad.filter fun l => rowOf l == row && decide (l < 2 ^ 30)) fun s l =>
      if s.eye (k * 2 ^ 30 + l) then s else s.markLine (k * 2 ^ 30 + l)
    let s := s.modStack k fun st => { st with copies := rest, spares := st.spares.put none c.entry (some c.spare) }
    let s := s.when ((s.stack k).spares.length == 2048) (·.setFlag .HBM_STATUS_REPAIR_EXHAUSTED k true)
    let w := spareWord (some c.spare)
    s.log 0x08 true (dcIx (k / 2)) [k + c.entry * 16, w % 2 ^ 32, w / 2 ^ 32]

/-- The range of a reloadable object that holds a cell line of die `d`, and the line's address in it. -/
def reloadOf (s : State) (d line : Nat) : Option (Reload × Nat) :=
  (s.die d).reloads.findSome? fun r =>
    ([s.dieLocal (line * 64), s.packageWide (line * 64)].find? fun a => decide (r.base ≤ a) && decide (a < r.base + r.bytes)).map
      fun a => (r, a)

/-- A refetch ends without rewriting: it is counted and logged with its outcome (R234). -/
def refetchFailed (s : State) (x : Refetch) (outcome : Nat) : State :=
  let k := x.line / 2 ^ 30
  (s.bump .HBM_REFETCH_FAIL_COUNT k).log 0x0A false (dcIx (k / 2))
    [k + outcome * 16, x.handle, rowKey (rowOf x.line) / 4096]

/-- The read-back of a line rewritten in place: whether it is uncorrectable again is free; no new refetch follows it (R234).
DESIGN CHOICE: notes/assumptions/4.md. -/
def readBack (s : State) (line : Nat) : State :=
  let d := line / 2 ^ 31
  let (bad, s) := s.choose
  let reports := (s.die d).reports
  (s.readLine line (if bad then .uncorrectable else .none)).1.modDie d fun x => { x with reports := reports }

/-- The refetch of a line ends: every marked line of its granule is rewritten, and the refetch is counted and logged
(R233 steps 3 and 4), or it has failed (R234). -/
def refetchEnd (s : State) (d : Nat) (x : Refetch) : State :=
  let s := s.modDie d fun y => { y with refetches := y.refetches.filter (· != x) }
  if x.released then s.refetchFailed x 2
  else if x.failed then s.refetchFailed x 1
  else
    let k := x.line / 2 ^ 30
    let base := x.line / 64 * 64
    let marked := (span base 64).filter s.eye
    let s := s.forEach marked fun s l => s.writeLine l 0 (fit 64 (x.data.get [] (l - base))) .none
    let s := if x.noSpare then s.forEach marked readBack else s
    if marked.any s.eye then s.refetchFailed x 3
    else (s.bump .HBM_REFETCH_COUNT k).log 0x0A false (dcIx (k / 2)) [k, x.handle, rowKey (rowOf x.line) / 4096]

/-- REFETCH: die controller `d` takes its oldest report. A marked line in a reloadable object has its row remapped (it
is a candidate since it was marked) and its 4 KiB granule read from the host copy (R233). -/
def refetch (s : State) (d : Nat) : State :=
  match (s.die d).reports with
  | [] => s
  | line :: rest =>
    let s := s.modDie d fun x => { x with reports := rest }
    match s.reloadOf d line with
    | none => s
    | some (r, a) =>
      let noSpare := !s.remapped (line / 2 ^ 30) (rowOf line) && (s.freeSpare (line / 2 ^ 30)).isNone
      let x : Refetch := ⟨line, r.handle, span s.nextId 64, [], false, false, noSpare⟩
      let from_ := r.backing + (a / 4096 * 4096 - r.base)
      if s.hostDead from_ then s.refetchEnd d { x with failed := true }
      else
        (s.modDie d fun y => { y with refetches := y.refetches ++ [x] }).forEach (List.range 64) fun s i =>
          s.hostReq .rdnc (from_ + 64 * i) 64 [] 0 false (.refetch d) none

end State

/-! ### Meanings -/

/-- STACK_READ (R227). -/
def execStackRead (k line : Nat) (err : CellErr) (odecc : Nat) (s : State) : Out := .next (s.stackRead k line err odecc)

/-- STACK_WRITE (R231). -/
def execStackWrite (k line : Nat) (mask : W64) (data : List Byte) (err : CellErr) (s : State) : Out := .next (s.stackWrite k line mask.toNat data err)

/-- STACK_ATOMIC (R67). -/
def execStackAtomic (k off : Nat) (op : BitVec 4) (wide : Bool) (a b : W64) (err : CellErr) (s : State) : Out := .next (s.stackAtomic k off op.toNat wide a.toNat b.toNat err)

/-- SCRUB_READ (R228). -/
def execScrubRead (k : Nat) (err : CellErr) (s : State) : Out := .next (s.scrubRead k err)

/-- ROW_REMAP_COMPLETE (R236). -/
def execRowRemapComplete (k : Nat) (bad : List Nat) (s : State) : Out := .next (s.rowRemapComplete k bad)

/-- REFETCH (R233). -/
def execRefetch (d : Nat) (s : State) : Out := .next (s.refetch d)

end Sys2Proof.Machine
end

