-- ==== Sys2Proof/Machine/Fabric.lean ====
section
/-!
DEFINITION. The Kyolor fabric (13_kyolor_fabric.md): links and their link layer, routing, this part's requests and
their responses, peers' requests, dead destinations. Collective groups are in Collective.lean.
-/
namespace Sys2Proof.Machine

/-! ### Packet headers (R335) -/

/-- Fields of a packet header. -/
def Pk.type (h : Nat) : Nat := bits h 3 0
def Pk.dest (h : Nat) : Nat := bits h 21 4
def Pk.len (h : Nat) : Nat := bits h 29 22 + 1
def Pk.dl (h : Nat) : Bool := bit h 31
def Pk.source (h : Nat) : Nat := bits h 49 32
def Pk.tag (h : Nat) : Nat := bits h 63 50
def Pk.addr (h : Nat) : Nat := bits h 104 64
def Pk.op (h : Nat) : Nat := bits h 108 105
def Pk.wide (h : Nat) : Bool := bit h 109
def Pk.coll (h : Nat) : Nat := bits h 115 110
def Pk.code (h : Nat) : Nat := bits h 119 116
def Pk.poison (h : Nat) : Nat := bits h 123 120

/-- A packet header from its fields. -/
def Pk.header (type dest source tag addr : Nat) (len : Nat := 1) (op : Nat := 0) (wide : Bool := false)
    (coll : Nat := 0) (code : Nat := 0) (poison : Nat := 0) (dl : Bool := false) : Nat :=
  type + dest % 2 ^ 18 * 2 ^ 4 + (len - 1) % 256 * 2 ^ 22 + b2n dl * 2 ^ 31 + source % 2 ^ 18 * 2 ^ 32
    + tag % 2 ^ 14 * 2 ^ 50 + addr % 2 ^ 41 * 2 ^ 64 + op % 16 * 2 ^ 105 + b2n wide * 2 ^ 109 + coll % 64 * 2 ^ 110
    + code % 16 * 2 ^ 116 + poison % 16 * 2 ^ 120

/-- A packet from its header and data. -/
def Pk.make (h : Nat) (data : List Byte := []) : Packet := ⟨BitVec.ofNat 128 h, data⟩

/-- A request or response header whose reserved fields are zero (R335). -/
def Pk.clean (h : Nat) : Bool :=
  let t := Pk.type h
  let sized := t == 1 || t == 2 || t == 4
  h == Pk.header t (Pk.dest h) (Pk.source h) (Pk.tag h) (Pk.addr h) (if sized then Pk.len h else 1)
    (if t == 3 then Pk.op h else 0) (t == 3 && Pk.wide h) (if t == 4 then Pk.coll h else 0)
    (if t == 4 || t == 10 then Pk.code h else 0) (if t == 9 then Pk.poison h else 0) (Pk.dl h)

/-- A request that keeps the rules of its type: within one 256-byte block, an ATOM aligned and of a listed operation. -/
def Pk.requestOk (h : Nat) : Bool :=
  Pk.clean h &&
  (if Pk.type h == 3 then Pk.addr h % (if Pk.wide h then 8 else 4) == 0 && decide (Pk.op h < 10)
   else decide (Pk.addr h % 256 + Pk.len h ≤ 256))

/-- Slots of a packet: its header and its data (R324). -/
def pkSlots (p : Packet) : Nat := 1 + (p.data.length + 15) / 16

namespace State

/-! ### Endpoints and routing (R329 to R331) -/

/-- The sizes of the used dimensions. -/
def dims (s : State) : List Nat :=
  ((List.range 6).map fun d => s.f .FAB_DIM_SIZE d).takeWhile (· != 0)

/-- N, the number of parts. -/
def partsN (s : State) : Nat := s.dims.foldl (· * ·) 1

/-- This part's endpoint. -/
def endpoint (s : State) : Nat := s.f .FAB_SETUP_ENDPOINT

/-- The transport runs. -/
def fabOn (s : State) : Bool := s.flag .FAB_STATUS_RUNNING

/-- Coordinates of an endpoint. -/
def coords : List Nat → Nat → List Nat
  | [], _ => []
  | n :: ns, e => e % n :: coords ns (e / n)

/-- The direction of the first differing dimension from `own` to `dest`: dimension, positive. -/
def firstHop : List Nat → List Bool → List Nat → List Nat → Nat → Option (Nat × Bool)
  | n :: ns, w :: ws, a :: as_, b :: bs, d =>
    if a = b then firstHop ns ws as_ bs (d + 1)
    else
      let f := (b + n - a) % n
      some (d, if w then decide (f ≤ n - f) else decide (a < b))
  | _, _, _, _, _ => none

/-- The direction in which a packet for `dest` leaves; none for this part (R331). -/
def route (s : State) (dest : Nat) : Option Nat :=
  let ds := s.dims
  (firstHop ds ((List.range 6).map fun d => s.flag .FAB_DIM_WRAP d) (coords ds s.endpoint) (coords ds dest) 0).map
    fun x => 2 * x.1 + (if x.2 then 0 else 1)

/-- The links of a direction. -/
def dirLinks (s : State) (j : Nat) : List Nat := (List.range 36).filter fun l => bit (s.f .FAB_DIR_LINKS j) l

/-- State of a link (R327). -/
def linkState (s : State) (l : Nat) : Nat := s.f .FAB_LINK_STATUS_STATE l

/-- The direction that names a link. -/
def dirOf (s : State) (l : Nat) : Option Nat := (List.range 12).find? fun j => bit (s.f .FAB_DIR_LINKS j) l

/-- The hop in direction `j` crosses between coordinates n - 1 and 0 of a ring (R332). -/
def dateline (s : State) (j : Nat) : Bool :=
  let d := j / 2
  let n := nth 1 s.dims d
  let c := nth 0 (coords s.dims s.endpoint) d
  s.flag .FAB_DIM_WRAP d && (if j % 2 = 0 then c + 1 == n else c == 0)

end State

/-- Credits of the channel of a packet (R324): requests REQ0/REQ1, responses RSP0/RSP1, by DL. -/
def VcCredits.of (c : VcCredits) (h : Nat) : Nat :=
  match decide (Pk.type h < 8), Pk.dl h with
  | true, false => c.req0
  | true, true => c.req1
  | false, false => c.rsp0
  | false, true => c.rsp1

/-- Spend credits of the channel of a packet. -/
def VcCredits.spend (c : VcCredits) (h n : Nat) : VcCredits :=
  match decide (Pk.type h < 8), Pk.dl h with
  | true, false => { c with req0 := c.req0 - n }
  | true, true => { c with req1 := c.req1 - n }
  | false, false => { c with rsp0 := c.rsp0 - n }
  | false, true => { c with rsp1 := c.rsp1 - n }

/-- The bucket of a packet (R333). -/
def pkBucket (p : Packet) : Nat := (Pk.source p.hdr.toNat ^^^ Pk.dest p.hdr.toNat) % 256

namespace State

/-- The link on which a packet leaves in direction `j` now, if any (R333): the previous link of its bucket while that
holds an unacknowledged packet of it, else the UP link with most credits, the lower number on a tie. -/
def pickLink (s : State) (j : Nat) (p : Packet) : Option Nat :=
  let h := p.hdr.toNat
  let fits := fun l => s.linkState l == 3 && decide ((pkSlots p) ≤ (s.link l).credits.of h)
    && decide ((s.link l).unacked.length < 1024)
  let last := s.fab.buckets.get 36 (j * 256 + (pkBucket p))
  if (s.link last).unacked.any (fun x => (pkBucket x.2) == (pkBucket p)) then (if fits last then some last else none)
  else ((s.dirLinks j).filter fits).foldl (fun b l =>
    match b with
    | some k => if (s.link k).credits.of h < (s.link l).credits.of h then some l else b
    | none => some l) none

/-- Send a packet on a link: one frame (DESIGN CHOICE: notes/assumptions/13.md). -/
def sendOn (s : State) (j l : Nat) (p : Packet) : State :=
  let s := { s with fab := { s.fab with buckets := s.fab.buckets.put 36 (j * 256 + (pkBucket p)) l } }
  (s.modLink l fun k =>
    { k with unacked := k.unacked ++ [(k.txSeq, p)], txSeq := (k.txSeq + 1) % 4096,
             credits := k.credits.spend p.hdr.toNat (pkSlots p), out := k.out ++ [p] }).bump .FAB_LINK_FRAMES_COUNT l

/-- A packet that waits for a link, behind earlier ones of its direction and bucket. -/
def queuePacket (s : State) (j : Nat) (p : Packet) (own : Bool) : State :=
  { s with fab := { s.fab with queue := s.fab.queue ++ [(j, p, own)] } }

/-- Whether a direction can carry packets now or later: some link neither DOWN nor DISABLED (R334). -/
def dirAlive (s : State) (j : Nat) : Bool :=
  (s.dirLinks j).any fun l => s.linkState l == 2 || s.linkState l == 3 || s.linkState l == 4

/-- Send or queue a packet in direction `j`; one of a dead direction is discarded and counted (R334). -/
def sendDir (s : State) (j : Nat) (p : Packet) (own : Bool) : State :=
  if !s.dirAlive j then s.bump .FAB_UNROUTABLE_COUNT
  else if s.fab.queue.any (fun x => x.1 == j && (pkBucket x.2.1) == (pkBucket p)) then s.queuePacket j p own
  else match s.pickLink j p with
    | some l => s.sendOn j l p
    | none => s.queuePacket j p own

/-- Try again what waits for a link. -/
def flushFab (s : State) : State :=
  let q := s.fab.queue
  ({ s with fab := { s.fab with queue := [] } }).forEach q fun s x => s.sendDir x.1 x.2.1 x.2.2

/-- Set the dateline bit of a packet for its next hop (R332); `from_` is the direction it came in on. -/
def hopDl (s : State) (p : Packet) (j : Nat) (from_ : Option Nat) : Packet :=
  let h := p.hdr.toNat
  let keep := match from_ with
    | some i => i / 2 == j / 2 && Pk.dl h
    | none => false
  let dl := keep || s.dateline j
  ⟨BitVec.ofNat 128 ((if dl then setBit h 31 else clearBit h 31)), p.data⟩

/-- Answer a peer's request with a response packet; to this part's own endpoint it is matched at once by its sender. -/
def respond (s : State) (p : Packet) : State :=
  match s.route (Pk.dest p.hdr.toNat) with
  | some j => s.sendDir j (s.hopDl p j none) true
  | none => s

/-! ### Dead destinations (R341 to R343, R216) -/

/-- A destination's FAB_DEAD bit. -/
def isDead (s : State) (e : Nat) : Bool := bit (s.f .FAB_DEAD_DEAD (e / 32)) (e % 32)

/-- A store of a context fails with FAB_DEST_DEAD: its fault state is set and captured, an error record written, and
the error flags of the context's SYSTEM barriers set (R216, R268). -/
def ctxDestDead (s : State) (ctx : Option Nat) (e : Nat) : State :=
  match ctx with
  | none => s
  | some c =>
    if s.flag .CTX_FAULT_DEST_DEAD c then s
    else ((s.setFlag .CTX_FAULT_DEST_DEAD c true).setF .CTX_FAULT_ENDPOINT_ENDPOINT c e).errRec 4 (some c) [e]

/-- Key of a PART (2) or SYSTEM (3) root of a context, or of a TILE (0) or GANG (1) root of a lead tile, by slot. -/
def rootKey (scope who slot : Nat) : Nat := (scope * 1024 + who) * 8 + slot

/-- A store of a tile fails with FAB_DEST_DEAD: the kernel remembers its endpoint, and a SYSTEM YBAR that covers it
carries the error and sets the context's fault state (R216). -/
def storeDead (s : State) (id e : Nat) (owner : Owner) (ctx : Option Nat) : State :=
  match owner with
  | .store p who =>
    let s := s.modTile p fun t => { t with syn := { t.syn with dead := t.syn.dead ++ [(e, who)] } }
    match (s.tile p).syn.cur with
    | some (en, .bar 3 slot count ids arrived seen _) =>
      if ids.contains id then
        (s.modTile p fun t => { t with syn := { t.syn with cur := some (en, .bar 3 slot count ids arrived seen true) } }).ctxDestDead ctx e
      else s
    | _ => s
  | _ => s

/-- Remove a request of this part. -/
def dropFab (s : State) (r : FabReq) : State :=
  { s with fab := { s.fab with reqs := s.fab.reqs.filter (·.id != r.id) } }

/-- The open round of a parity of a collective group: the lowest from ROUND on (R345). -/
def openRound (s : State) (g : Nat) (parity : Bool) : Nat :=
  let r := s.f .FAB_COLL_ROUND_ROUND g
  if r % 2 = b2n parity then r else r + 1

/-- Change the round of a parity of a collective group. -/
def modRound (s : State) (g : Nat) (parity : Bool) (h : Round → Round) : State :=
  if parity then { s with fab := { s.fab with odd := s.fab.odd.upd .reset g h } }
  else { s with fab := { s.fab with even := s.fab.even.upd .reset g h } }

/-- Fail the open round of a collective group with a cause (R348). -/
def roundFail (s : State) (g : Nat) (parity : Bool) (cause : Nat) : State :=
  s.modRound g parity fun r => if r.cause = 0 then { r with cause := cause } else r

/-- A request of this part fails: its generation advances, its item fails, a read or atomic returns zero (R339, R342). -/
def failFab (s : State) (r : FabReq) (code : Nat) : State :=
  let s := s.when (r.sent && !r.acked) fun s =>
    { s with fab := { s.fab with gens := s.fab.gens.put 0 (r.io * 4096 + r.entry) ((r.gen + 1) % 4) } }
  let s := s.failAt r.item code
  let isPut := Pk.type r.pk.hdr.toNat == 1
  let s := if code = stDestDead && isPut then s.storeDead r.id r.dest r.owner r.ctx else s
  match r.owner with
  | .coll g par n => (s.dropFab r).when (s.openRound g par == n) fun s => s.roundFail g par (if code = stSyncMismatch then 3 else 2)
  | _ =>
    if isPut || r.owner == .nobody then s.dropFab r
    else { s with fab := { s.fab with reqs := updFirst (fun x => x.id == r.id) (fun x => { x with status := .failed, reply := rep (Pk.len r.pk.hdr.toNat) 0 }) s.fab.reqs } }

/-- The I/O die of the first direction to a destination; I/O die 0 for this part's own endpoint. -/
def ioFor (s : State) (dest : Nat) : Nat :=
  match s.route dest with
  | some j => (s.dirLinks j).headD 0 / 9
  | none => 0

/-- Put a waiting request into its I/O die's transport and send its packet, if an entry is free: one that no request
awaiting its response has (R339).
DEDUCED: notes/assumptions/43.md. -/
def launchFab (s : State) (r : FabReq) : State :=
  let used := (s.fab.reqs.filter fun x => x.io == r.io && x.sent && x.status == .waiting && !x.acked).map (·.entry)
  let e := freeTag used 4096 0
  if 4096 ≤ e then s
  else
    let gen := s.fab.gens.get 0 (r.io * 4096 + e)
    let h := r.pk.hdr.toNat + (e + gen * 4096) * 2 ^ 50
    let pk : Packet := ⟨BitVec.ofNat 128 h, r.pk.data⟩
    let s := { s with fab := { s.fab with reqs := updFirst (fun x => x.id == r.id) (fun x => { x with sent := true, entry := e, gen := gen, pk := pk }) s.fab.reqs } }
    let t := Pk.type h
    let s := if t = 2 then s.bump .FAB_GETS_COUNT else if t = 3 then s.bump .FAB_ATOMICS_COUNT
      else if t = 1 then s.bump .FAB_PUTS_COUNT else s
    match s.route r.dest with
    | some j => s.sendDir j (s.hopDl pk j none) true
    | none => s

/-- Start requests that waited for a transport entry. -/
def startWaiting (s : State) : State :=
  s.forEach (s.fab.reqs.filter fun r => !r.sent && r.status == .waiting && decide (r.dest < 0x3FFC0)) fun s r => s.launchFab r

/-- Declare a destination dead (R342). -/
def declareDead (s : State) (e : Nat) : State :=
  let s := (s.orBit .FAB_DEAD_DEAD (e / 32) (e % 32)).bump .FAB_DEAD_DECLARED_COUNT
  let mine := s.fab.reqs.filter fun r => r.dest == e && r.status == .waiting
  let s := { s with fab := { s.fab with queue := s.fab.queue.filter fun x =>
    !(x.2.2 && Pk.dest x.2.1.hdr.toNat == e && decide (Pk.type x.2.1.hdr.toNat < 8)) } }
  let s := s.forEach mine fun s r => s.failFab r stDestDead
  let s := s.log 0x11 false (lcIx 0) [e]
  (s.when (s.flag .FAB_IRQ_DEAD_IRQ_EN) (·.raiseFab)).startWaiting

/-! ### Requests of this part (R336 to R339, R341) -/

/-- A request of this part to an endpoint: refused while the transport does not run, to a dead destination, or where no
route leaves (R341, R342); a collective endpoint's request waits for its engine (R345). -/
def fabReq (s : State) (type addr len : Nat) (data : List Byte) (op : Nat) (wide : Bool) (dest : Nat)
    (owner : Owner) (item : Option (Nat × Nat × Nat)) (ctx : Option Nat) (coll code : Nat := 0) : State :=
  let h := Pk.header type dest s.endpoint 0 addr (if type = 3 then 1 else len) op wide coll code
  let r : FabReq := ⟨s.nextId, s.ioFor dest, 0, 0, dest, Pk.make h data, owner, item, ctx, false, false, .waiting, [], false⟩
  let s := { s with nextId := s.nextId + 1, fab := { s.fab with reqs := s.fab.reqs ++ [r] } }
  if 0x3FFC0 ≤ dest then s
  else if dest = s.endpoint then s.launchFab r
  else if !s.fabOn then s.failFab r stDestDead
  else if s.isDead dest then s.failFab r stDestDead
  else if s.partsN ≤ dest then s.declareDead dest
  else match s.route dest with
    | some j => if s.dirAlive j then s.launchFab r else s.declareDead dest
    | none => s.launchFab r

/-- Settle the PUTs of a flow that are acknowledged and have no earlier one unperformed (R339). -/
def settlePuts (s : State) (dest : Nat) : State :=
  let flow := s.fab.reqs.filter fun r => r.dest == dest && Pk.type r.pk.hdr.toNat != 2 && Pk.type r.pk.hdr.toNat != 3
  s.forEach (flow.takeWhile (·.acked)) fun s r => s.dropFab r

/-- The outstanding request that a response matches (R339). -/
def matchFab (s : State) (h : Nat) : Option FabReq :=
  s.fab.reqs.find? fun r => r.sent && r.status == .waiting && !r.acked && r.dest == Pk.source h
    && r.entry == Pk.tag h % 4096 && r.gen == Pk.tag h / 4096

/-- A response reaches this part: it settles its request, or is discarded and counted (R338, R339). -/
def fabResponse (s : State) (p : Packet) : State :=
  let h := p.hdr.toNat
  match s.matchFab h with
  | none => s.bump .FAB_LATE_RESPONSES_COUNT
  | some r =>
    let rt := Pk.type r.pk.hdr.toNat
    let upd := fun g => { s with fab := { s.fab with reqs := updFirst (fun x => x.id == r.id) g s.fab.reqs } }
    if Pk.type h = 8 ∧ (rt = 1 ∨ rt = 4) then
      ((upd fun x => { x with acked := true }).settlePuts r.dest).startWaiting
    else if Pk.type h = 9 ∧ (rt = 2 ∨ rt = 3) ∧ r.owner = .nobody then (s.dropFab r).startWaiting
    else if Pk.type h = 9 ∧ (rt = 2 ∨ rt = 3) then
      (upd fun x => { x with status := .done, reply := p.data, poison := decide (Pk.poison h ≠ 0) }).startWaiting
    else if Pk.type h = 10 then
      ((s.failFab r (if Pk.code h = 3 then stSyncMismatch else stMemAbsent)).settlePuts r.dest).startWaiting
    else s.bump .FAB_LATE_RESPONSES_COUNT

/-- A response of type `t` arrives for this part; while the transport does not run it is discarded. -/
def peerResponse (s : State) (t : Nat) (p : Packet) : State :=
  if Pk.type p.hdr.toNat != t || (!s.fabOn && Pk.source p.hdr.toNat != s.endpoint) then s.bump .FAB_UNROUTABLE_COUNT
  else s.fabResponse p

/-! ### Requests of peers (R337, R338) -/

/-- Answer a peer's request with FAIL. -/
def refusePeer (s : State) (h code : Nat) : State :=
  s.respond (Pk.make (Pk.header 10 (Pk.source h) (Pk.dest h) (Pk.tag h) 0 (code := code)))

/-- A response of this part to its own request settles it directly; any other leaves by a link. -/
def answer (s : State) (p : Packet) : State :=
  if Pk.dest p.hdr.toNat = s.endpoint then s.fabResponse p else s.respond p

/-- Perform a PUT, GET or ATOM of a peer at its home and answer it (R338); one that needs a snoop first is held.
DEDUCED: notes/assumptions/47.md. -/
def performPeer (s : State) (p : Packet) : State :=
  let h := p.hdr.toNat
  let t := Pk.type h
  let n := if t = 3 then (if Pk.wide h then 8 else 4) else Pk.len h
  let src := Pk.source h
  let ok := (partsOf (Pk.addr h) n).all fun x => (s.cellOf x.1).isSome
  if !ok then
    ((s.bump .FAB_RX_REQUESTS_COUNT).bump .FAB_RX_FAILED_COUNT |>.countAbsent none).answer
      (Pk.make (Pk.header 10 src (Pk.dest h) (Pk.tag h) 0 (code := 1)))
  else
    let bl := (s.cellsOf (Pk.addr h) n).flatMap fun c => s.blockers c none (t != 2)
    let hold := fun (s : State) => { s with fab := { s.fab with heldPeers := s.fab.heldPeers ++ [p] } }
    if bl ≠ [] then hold (s.snoopBlockers bl none (t != 2))
    else if !(s.cellsOf (Pk.addr h) n).all s.serves then hold s
    else
      let s := s.bump .FAB_RX_REQUESTS_COUNT
      if t = 1 then
        (s.physWrite none (Pk.addr h) (fit n p.data)).1.answer (Pk.make (Pk.header 8 src (Pk.dest h) (Pk.tag h) 0))
      else if t = 2 then
        let parts := partsOf (Pk.addr h) n
        let (s, bs, po, _) := parts.foldl (fun (x : State × List Byte × Nat × Nat) y =>
          let (s, bs, po, i) := x
          match s.cellOf y.1 with
          | some c =>
            let (s, l, e) := s.readLine (c / 64) .none
            (s, bs ++ (l.drop (c % 64)).take y.2, (if e then po + 2 ^ i else po), i + 1)
          | none => (s, bs, po, i + 1)) (s, [], 0, 0)
        s.answer (Pk.make (Pk.header 9 src (Pk.dest h) (Pk.tag h) 0 (poison := po)) bs)
      else
        match s.cellOf (Pk.addr h) with
        | some c =>
          let (s, old, e) := s.atomicAt c (Pk.op h) (Pk.wide h) (fromLE (p.data.take 8)) (fromLE ((p.data.drop 8).take 8)) .none
          s.answer (Pk.make (Pk.header 9 src (Pk.dest h) (Pk.tag h) 0 (poison := b2n e)) (toLE 8 old ++ rep 8 0))
        | none => s

/-- A request of type `t` arrives for this part: discarded while the transport is off, refused with CODE 2 where it
breaks a rule of its type, with CODE 3 for a GET or ATOM to a collective endpoint.
DEDUCED: notes/assumptions/47.md; DEDUCED: notes/assumptions/57.md. -/
def peerRequest (s : State) (t : Nat) (p : Packet) : State :=
  let h := p.hdr.toNat
  if !s.fabOn && Pk.source h != s.endpoint then s.bump .FAB_UNROUTABLE_COUNT
  else if Pk.type h ≠ t then s.bump .FAB_UNROUTABLE_COUNT
  else if !Pk.requestOk h then (s.bump .FAB_RX_REQUESTS_COUNT).answer
      (Pk.make (Pk.header 10 (Pk.source h) (Pk.dest h) (Pk.tag h) 0 (code := 2)))
  else if s.fab.heldPeers.any (fun q => Pk.source q.hdr.toNat == Pk.source h) then
    { s with fab := { s.fab with heldPeers := s.fab.heldPeers ++ [p] } }
  else s.performPeer p

/-- Perform again the peers' requests that were held, in order. -/
def rerunPeers (s : State) : State :=
  let q := s.fab.heldPeers
  ({ s with fab := { s.fab with heldPeers := [] } }).forEach q fun s p =>
    if s.fab.heldPeers.any (fun r => Pk.source r.hdr.toNat == Pk.source p.hdr.toNat) then
      { s with fab := { s.fab with heldPeers := s.fab.heldPeers ++ [p] } }
    else s.performPeer p

/-! ### Link states (R327, R328) -/

/-- A link leaves for DOWN (1) or DISABLED (0): unacknowledged frames are lost (R328), a departure from UP is shown,
logged and raised. -/
def linkOut (s : State) (l state cause : Nat) : State :=
  let was := s.linkState l
  let frames := (s.link l).unacked.map (·.2)
  let s := (s.setF .FAB_LINK_STATUS_STATE l state).setF .FAB_LINK_STATUS_DOWN_CAUSE l cause
  let s := s.modLink l fun k => { k with unacked := [], attempts := 0, replays := 0 }
  let own := frames.filter fun p => Pk.source p.hdr.toNat == s.endpoint && decide (Pk.type p.hdr.toNat < 8)
  let s := s.bump .FAB_UNROUTABLE_COUNT 0 (frames.length - own.length)
  let s := s.forEach own fun s p => if s.isDead (Pk.dest p.hdr.toNat) then s else s.declareDead (Pk.dest p.hdr.toNat)
  let s := s.when (was == 3 || was == 4) fun s =>
    ((s.setFlag .FAB_LINK_STATUS_WENT_DOWN l true).log 0x10 false (lcIx (l / 9)) [l + cause * 64]).when
      (s.flag .FAB_IRQ_LINK_IRQ_EN) (·.raiseFab)
  s.flushFab

/-- A link enters RETRAIN. -/
def linkRetrain (s : State) (l : Nat) : State :=
  ((s.setF .FAB_LINK_STATUS_STATE l 4).bump .FAB_LINK_RETRAINS_COUNT l).modLink l fun k => { k with attempts := 0, replays := 0 }

/-- An attempt to retrain fails; four in a row enter DOWN with cause 2. -/
def attemptFailed (s : State) (l : Nat) : State :=
  let n := (s.link l).attempts + 1
  if 4 ≤ n then s.linkOut l 1 2 else s.modLink l fun k => { k with attempts := n }

/-- SPARED, LANE_OUT and SPARE_OK of a link from its controller's state. -/
def showSpares (s : State) (l : Nat) : State :=
  let k := s.link l
  let out := match k.tx.spared, k.rx.spared with
    | some a, _ => some a
    | none, some b => some b
    | none, none => none
  ((s.setFlag .FAB_LINK_STATUS_SPARED l out.isSome).setF .FAB_LINK_STATUS_LANE_OUT l (out.getD 0)).setFlag
    .FAB_LINK_STATUS_SPARE_OK l k.spareOk

/-- Change one direction of a link. -/
def modDir (s : State) (l : Nat) (rx : Bool) (g : LaneDir → LaneDir) : State :=
  s.modLink l fun k => if rx then { k with rx := g k.rx } else { k with tx := g k.tx }

/-- A lane of one direction is failing (R326): the spare is brought in, or the link goes DOWN with cause 3. -/
def laneFailing (s : State) (l : Nat) (rx : Bool) (lane : Nat) : State :=
  let d := if rx then (s.link l).rx else (s.link l).tx
  if lane = 4 then
    if d.spared.isSome || d.bringing.isSome then s.linkOut l 1 3
    else (s.modLink l fun k => { k with spareOk := false }).showSpares l
  else if d.bringing = some lane ∨ d.spared = some lane then s
  else if d.spared.isSome || d.bringing.isSome || !(s.link l).spareOk then s.linkOut l 1 3
  else s.modDir l rx fun d => { d with bringing := some lane }

/-- The spare of a direction has taken over a lane's stripe: shown and logged (R326). -/
def spareDone (s : State) (l : Nat) (rx : Bool) (lane : Nat) : State :=
  ((s.modDir l rx fun d => { d with bringing := none, spared := some lane }).showSpares l).log 0x0F false (lcIx (l / 9))
    [l + b2n rx * 64 + lane * 128]

/-- LINK_TRAINING_COMPLETE for a link in TRAINING or RETRAIN. -/
def linkTrained (s : State) (l : Nat) (result : Option (BitVec 18 × BitVec 6 × Bool)) : State :=
  match s.linkState l, result.filter (fun _ => !s.power.vcblOff.get false (l / 4)) with
  | 2, some (e, k, sp) =>
    let s := ((s.setF .FAB_LINK_PEER_PEER_ENDPOINT l e.toNat).setF .FAB_LINK_PEER_PEER_LINK l k.toNat).setFlag
      .FAB_LINK_PEER_PEER_VALID l true
    let s := s.modLink l fun x => { Link.reset with spareOk := sp, credits := ⟨1024, 1024, 512, 512⟩, out := x.out }
    let s := (s.setF .FAB_LINK_STATUS_STATE l 3).setF .FAB_LINK_STATUS_DOWN_CAUSE l 0
    (s.showSpares l).flushFab
  | 2, none => s.linkOut l 1 1
  | 4, some _ => ((s.modLink l fun k => { k with attempts := 0, discarding := false }).setF .FAB_LINK_STATUS_STATE l 3).flushFab
  | 4, none => s.attemptFailed l
  | _, _ => s

/-- LINK_ENABLE: ENABLE is written to 1 (R327). -/
def linkEnable (s : State) (l : Nat) : State :=
  if s.variant.hasLink l then
    let s := s.setFlag .FAB_LINK_CTRL_ENABLE l true
    if s.linkState l = 0 then s.setF .FAB_LINK_STATUS_STATE l 2 else s
  else s

/-- LINK_DISABLE: ENABLE is written to 0; from any state the link is DISABLED (R327, R328). -/
def linkDisable (s : State) (l : Nat) : State :=
  if s.variant.hasLink l then
    let s := s.setFlag .FAB_LINK_CTRL_ENABLE l false
    if s.linkState l = 0 then s else s.linkOut l 0 0
  else s

/-- A request of this part's packets forwarded for others (R331 to R334). -/
def forward (s : State) (l : Nat) (p : Packet) : State :=
  let dest := Pk.dest p.hdr.toNat
  let t := Pk.type p.hdr.toNat
  if !s.fabOn || (!(t == 1 || t == 2 || t == 3 || t == 4 || t == 8 || t == 9 || t == 10)) || decide (s.partsN ≤ dest) then
    s.bump .FAB_UNROUTABLE_COUNT
  else match s.route dest with
    | some j => s.sendDir j (s.hopDl p j (s.dirOf l)) false
    | none => s

/-- Drop the acknowledged prefix of a send list: everything up to SEQ `a`. -/
def ackUpTo {α : Type} (a : Nat) (l : List (Nat × α)) : List (Nat × α) :=
  if l.any (fun x => x.1 == a) then (l.dropWhile (fun x => x.1 != a)).drop 1 else l

/-- FRAME_RECEIVE: FEC, CRC, sequence, acknowledgement, credits, the spare lane's handshake, and the packets for other
endpoints (R323 to R326, R333). DEDUCED: notes/assumptions/15.md. -/
def frameReceive (s : State) (l : Nat) (fr : Frame) : State :=
  if s.linkState l ≠ 3 then s
  else
    let s := s.forEach fr.fec fun s x =>
      (s.bump .FAB_LINK_FEC_CORRECTED_COUNT l x.2.1).bump .FAB_LINK_FEC_UNCORRECTABLE_COUNT l x.2.2
    let k := s.link l
    let nak := fun (s : State) => s.modLink l fun k => { k with discarding := true, naks := k.naks ++ [k.rxSeq] }
    if !fr.crcOk then nak (s.bump .FAB_LINK_CRC_ERRORS_COUNT l)
    else
      let h := fr.header.toNat
      let seq := bits h 11 0
      if seq ≠ (k.rxSeq + 1) % 4096 then (if k.discarding then s else nak s)
      else
        let c := fr.credits.toNat
        let s := s.modLink l fun k => { k with rxSeq := seq, discarding := false, credits :=
          ⟨k.credits.req0 + bits c 7 0, k.credits.req1 + bits c 15 8, k.credits.rsp0 + bits c 23 16, k.credits.rsp1 + bits c 31 24⟩ }
        let s := if bit h 24 || bit h 25 then
            let rest := ackUpTo (bits h 23 12) (s.link l).unacked
            let moved := decide (rest.length < (s.link l).unacked.length)
            s.modLink l fun k => { k with unacked := rest, replays := if moved then 0 else k.replays }
          else s
        let s := if bit h 25 then
            let n := (s.link l).replays + 1
            let s := (s.bump .FAB_LINK_REPLAYS_COUNT l).modLink l fun k => { k with replays := n }
            if 8 ≤ n then s.linkRetrain l else s
          else s
        let lane := bits h 30 28
        let s := if bits h 27 26 = 1 ∧ (s.link l).rx.spared = none then s.spareDone l true lane
          else if bits h 27 26 = 2 ∧ (s.link l).tx.bringing = some lane then s.spareDone l false lane
          else s
        (s.forEach fr.packets fun s p => s.forward l p).flushFab

/-- LANE_LOCK_LOSS: two lanes of one direction without lock send the link into RETRAIN, one is failing (R325, R327). -/
def laneLockLoss (s : State) (l : Nat) (rx : Bool) (lane : Nat) : State :=
  if s.linkState l ≠ 3 ∨ 5 ≤ lane then s
  else
    let s := s.modDir l rx fun d => { d with lost := if lane ∈ d.lost then d.lost else d.lost ++ [lane] }
    let d := if rx then (s.link l).rx else (s.link l).tx
    if 2 ≤ d.lost.length then (s.linkRetrain l).modDir l rx fun d => { d with lost := [] } else s.laneFailing l rx lane

/-- FEC_WINDOW_END: a lane's window of 2^24 FTCLK cycles is judged (R325). DEDUCED: notes/assumptions/15.md. -/
def fecWindowEnd (s : State) (l : Nat) (rx : Bool) (lane corrected uncorrectable : Nat) : State :=
  if s.linkState l ≠ 3 ∨ 5 ≤ lane then s
  else
    let d := if rx then (s.link l).rx else (s.link l).tx
    let bad := decide (0 < uncorrectable)
    let failing := decide (2 ^ s.f .FAB_SETUP_SPARE_LOG2 < corrected) || (bad && d.bad.contains lane)
    let s := s.modDir l rx fun d =>
      { d with bad := if bad then (if lane ∈ d.bad then d.bad else d.bad ++ [lane]) else d.bad.filter (· != lane) }
    if failing then s.laneFailing l rx lane else s

/-! ### Set-up (R330) -/

/-- The five conditions under which ENABLE takes effect. -/
def fabSetupOk (s : State) (endpoint : Nat) : Bool :=
  let masks := (List.range 12).map s.dirLinks
  let used := s.dims.length
  decide (s.partsN ≤ 262080) && decide (endpoint < s.partsN)
  && masks.all (fun m => m.all fun l => s.variant.hasLink l && l / 9 == m.headD 0 / 9)
  && (List.range 36).all (fun l => decide ((masks.filter (·.contains l)).length ≤ 1))
  && ((List.range 12).all fun j => decide (j / 2 < used) || (s.dirLinks j).isEmpty)
  && ((List.range 6).all fun d => decide (d < used) || s.f .FAB_DIM_SIZE d == 0)

/-- FAB_SETUP_ENABLE: a write of FAB_SETUP, an RWL register (R330). -/
def fabSetup (s : State) (v : Nat) : State :=
  if s.flag .CLK_LOCK_SETUP_LOCK then s
  else
    let e := bits v 17 0
    let s := ((s.setF .FAB_SETUP_ENDPOINT 0 e).setF .FAB_SETUP_SPARE_LOG2 0 (clamp 8 24 (bits v 23 19))).setF
      .FAB_SETUP_COLL_LIMIT_LOG2 0 (clamp 16 31 (bits v 28 24))
    if !bit v 18 then (s.setFlag .FAB_SETUP_ENABLE 0 false).setFlag .FAB_STATUS_RUNNING 0 false
    else if s.fabSetupOk e then (s.setFlag .FAB_SETUP_ENABLE 0 true).setFlag .FAB_STATUS_RUNNING 0 true
    else ((s.setFlag .FAB_SETUP_ENABLE 0 false).setFlag .FAB_STATUS_RUNNING 0 false).setFlag .FAB_STATUS_SETUP_ERROR 0 true

/-- DEST_DEAD_TIMEOUT: the request in an entry has waited too long (R341). -/
def destDeadTimeout (s : State) (io entry : Nat) : State :=
  match s.fab.reqs.find? fun r => r.sent && r.io == io && r.entry == entry && r.status == .waiting && !r.acked with
  | some r => s.declareDead r.dest
  | none => s

/-- FAB_DEAD_CLEAR: a write of 1 to a destination's bit (R343). -/
def fabDeadClear (s : State) (e : Nat) : State :=
  s.setF .FAB_DEAD_DEAD (e / 32) (clearBit (s.f .FAB_DEAD_DEAD (e / 32)) (e % 32))

end State

/-! ### Meanings -/

/-- FRAME_RECEIVE (R323). -/
def execFrameReceive (l : Nat) (f : Frame) (s : State) : Out := .next (s.frameReceive l f)

/-- LANE_LOCK_LOSS (R325). -/
def execLaneLockLoss (l : Nat) (rx : Bool) (lane : Nat) (s : State) : Out := .next (s.laneLockLoss l rx lane)

/-- FEC_WINDOW_END (R325). -/
def execFecWindowEnd (l : Nat) (rx : Bool) (lane corrected uncorrectable : Nat) (s : State) : Out := .next (s.fecWindowEnd l rx lane corrected uncorrectable)

/-- LINK_ENABLE (R327). -/
def execLinkEnable (l : Nat) (s : State) : Out := .next (s.linkEnable l)

/-- LINK_DISABLE (R327). -/
def execLinkDisable (l : Nat) (s : State) : Out := .next (s.linkDisable l)

/-- FAB_LINK_RETRAIN (R327). -/
def execFabLinkRetrain (l : Nat) (s : State) : Out := .next (if s.linkState l = 3 then s.linkRetrain l else s)

/-- LINK_TRAINING_COMPLETE (R327). -/
def execLinkTrainingComplete (l : Nat) (result : Option (BitVec 18 × BitVec 6 × Bool)) (s : State) : Out := .next (s.linkTrained l result)

/-- LINK_DOWN_RETRY (R327). -/
def execLinkDownRetry (l : Nat) (s : State) : Out := .next (if s.linkState l = 1 ∧ s.flag .FAB_LINK_CTRL_ENABLE l then s.setF .FAB_LINK_STATUS_STATE l 2 else s)

/-- RETRAIN_ATTEMPT_TIMEOUT (R327). -/
def execRetrainAttemptTimeout (l : Nat) (s : State) : Out := .next (if s.linkState l = 4 then s.attemptFailed l else s)

/-- FAB_SETUP_ENABLE (R330). -/
def execFabSetupEnable (value : BitVec 32) (s : State) : Out := .next (s.fabSetup value.toNat)

/-- PUT (R338). -/
def execPut (pk : Packet) (s : State) : Out := .next (s.peerRequest 1 pk)

/-- GET (R338). -/
def execGet (pk : Packet) (s : State) : Out := .next (s.peerRequest 2 pk)

/-- FAB_ATOM (R338). -/
def execFabAtom (pk : Packet) (s : State) : Out := .next (s.peerRequest 3 pk)

/-- FAB_ACK (R339). -/
def execFabAck (pk : Packet) (s : State) : Out := .next (s.peerResponse 8 pk)

/-- FAB_DATA (R339). -/
def execFabData (pk : Packet) (s : State) : Out := .next (s.peerResponse 9 pk)

/-- FAIL (R338). -/
def execFail (pk : Packet) (s : State) : Out := .next (s.peerResponse 10 pk)

/-- DEST_DEAD_TIMEOUT (R341). -/
def execDestDeadTimeout (io entry : Nat) (s : State) : Out := .next (s.destDeadTimeout io entry)

/-- FAB_DEAD_CLEAR (R343). -/
def execFabDeadClear (endpoint : BitVec 18) (s : State) : Out := .next (s.fabDeadClear endpoint.toNat)

end Sys2Proof.Machine
end

