-- ==== Sys2Proof/Machine/Chautlink.lean ====
section
/-!
DEFINITION. Chautlink (12_chautlink.md): flits, credits, host requests to part memory and the fence window, snoops and
their answers, responses to the part's own requests, port states.
-/
namespace Sys2Proof.Machine

namespace State

/-! ### Outcome of the part's own requests (R315, R197) -/

/-- Remove a request. -/
def dropHost (s : State) (r : HostReq) : State :=
  { s with chl := { s.chl with reqs := s.chl.reqs.filter (·.id != r.id) } }

/-- Change a request. -/
def modHost (s : State) (r : HostReq) (g : HostReq → HostReq) : State :=
  { s with chl := { s.chl with reqs := updFirst (fun x => x.id == r.id) g s.chl.reqs } }

/-- The refetch that waits for a request, and the line of the granule that the request reads. -/
def refetchOf (s : State) (d id : Nat) : Option (Refetch × Nat) :=
  (s.die d).refetches.findSome? fun x => if id ∈ x.ids then some (x, x.ids.idxOf id) else none

/-- A read of a refetch has ended: with its bytes, or failed or poisoned (R234). The last one ends the refetch. -/
def refetchData (s : State) (d : Nat) (r : HostReq) (bytes : List Byte) (bad : Bool) : State :=
  match s.refetchOf d r.id with
  | none => s
  | some (x, i) =>
    let y : Refetch := { x with data := x.data.put [] i (fit 64 bytes), failed := x.failed || bad }
    let s := s.modDie d fun z => { z with refetches := z.refetches.map fun w => if w == x then y else w }
    if s.chl.reqs.any (fun q => q.owner == .refetch d && x.ids.contains q.id) then s else s.refetchEnd d y

/-- The vector of the fault ring, where FAULT_IRQ_EN asks for it (R252, R256, R299). -/
def raiseFaultIrq (s : State) : State :=
  s.when (s.flag .XLT_SETUP_FAULT_IRQ_EN) (·.raiseHeld .fring (s.f .XLT_SETUP_FAULT_VECTOR) (s.f .XLT_SETUP_HOLDOFF_LOG2))

/-- A queue or ring stops because its access failed (R256, R275, R290). -/
def ringFailed (s : State) (o : Owner) : State :=
  match o with
  | .cq n => ((s.modCp fun c => { c with cqs := c.cqs.upd .reset n fun x => { x with writing := false } }).setF
      .QUE_CQ_STATUS_STATE n 2).errRec 3 (some (s.f .QUE_CQ_SETUP_CONTEXT n)) [n + 1024 + 1 * 4096]
  | .fring => if s.flag .XLT_STATUS_RING_FAULT then s else (s.setFlag .XLT_STATUS_RING_FAULT 0 true).raiseFaultIrq
  | .ering => s.setFlag .QUE_ERING_STATUS_RING_FAULT 0 true
  | _ => s

/-- Descriptors of a queue fetched and not completed: their records not yet written. DEDUCED: notes/assumptions/75.md. -/
def inflight (s : State) (q : Nat) : Nat := (s.cp.descs.filter fun d => d.q == q && d.stage != .performed).length

/-- The record that a completion queue was writing has been performed at SYSTEM scope: it is no longer held, its
descriptor ends or waits to signal its fence, a drained queue is disabled, and the vector is raised (R273, R274, R298,
R299, R317). -/
def recordPerformed (s : State) (cq : Nat) : State :=
  let x := s.cp.cqs.get .reset cq
  match x.held with
  | [] => s
  | r :: rest =>
    let s := s.modCp fun c => { c with cqs := c.cqs.put .reset cq { x with held := rest, writing := false } }
    let s := (s.setF .QUE_CQ_PRODUCER_INDEX cq ((s.f .QUE_CQ_PRODUCER_INDEX cq + 1) % 2 ^ 32)).bump
      .CTX_DESCRIPTORS_COUNT (bits (nth 0 r.words 6) 15 10)
    let s := match s.desc? r.q r.n with
      | some d => if bit (nth 0 d.words 0) 17 && !d.malformed && !d.poisoned then
            s.modDesc r.q r.n fun d => { d with stage := .performed }
          else s.modCp fun c => { c with descs := c.descs.filter fun d => !(d.q == r.q && d.n == r.n) }
      | none => s
    let s := s.when (s.f .QUE_SQ_STATUS_STATE r.q == 2 && s.inflight r.q == 0) (·.setF .QUE_SQ_STATUS_STATE r.q 0)
    let ask := r.irq || s.flag .QUE_CQ_SETUP_IRQ_ALL cq || nth 0 r.words 0 != 0 || nth 0 r.words 1 != 0
    s.when (s.flag .QUE_CQ_SETUP_IRQ_EN cq && ask)
      (·.raiseHeld (.cq cq) (s.f .QUE_CQ_SETUP_VECTOR cq) (s.f .QUE_CQ_SETUP_HOLDOFF_LOG2 cq))

/-- The record that the fault ring or the error ring is writing. -/
def ringWriting (s : State) : Owner → Option RingWrite
  | .fring => s.cp.faultWriting
  | .ering => s.cp.errWriting
  | _ => none

/-- Change it. -/
def setRing (s : State) (o : Owner) (w : Option RingWrite) : State :=
  match o with
  | .fring => s.modCp fun c => { c with faultWriting := w }
  | .ering => s.modCp fun c => { c with errWriting := w }
  | _ => s

/-- The record being written is not written after all: it waits as before (R256, R290). -/
def ringUndo (s : State) (o : Owner) : State :=
  match s.ringWriting o with
  | none => s
  | some w =>
    let s := s.setRing o none
    match o with
    | .fring => (s.forEach (List.range 8) fun s d => s.modDie d fun x => { x with
        entries := x.entries.map fun e => (e.1, e.2.map fun e => if e.seq = some w.seq then { e with seq := none } else e) }).setF
        .XLT_FRING_NEXT_SEQUENCE 0 w.seq
    | _ => s.setF .QUE_ERING_NEXT_SEQUENCE 0 w.seq

/-- A ring has stopped. -/
def ringStopped (s : State) : Owner → Bool
  | .fring => s.flag .XLT_STATUS_RING_FAULT
  | .ering => s.flag .QUE_ERING_STATUS_RING_FAULT
  | _ => false

/-- A record of a ring is written: it waits no longer, and the ring's vector is raised (R252, R290, R299). -/
def ringRecorded (s : State) (o : Owner) (w : RingWrite) : State :=
  let s := s.setRing o none
  match o with
  | .fring => (s.bump .XLT_FAULTS_COUNT).raiseFaultIrq
  | .ering => (s.modCp fun c => { c with errs := c.errs.tail, errDropped := c.errDropped - w.dropped }).when
      (s.flag .QUE_ERING_SETUP_IRQ_EN)
      (·.raiseHeld .ering (s.f .QUE_ERING_SETUP_VECTOR) (s.f .QUE_ERING_SETUP_HOLDOFF_LOG2))
  | _ => s

/-- A write of a ring record has been performed: word 0 follows all the others, and after word 0 the record is written. -/
def ringPerformed (s : State) (o : Owner) (id : Nat) : State :=
  match s.ringWriting o with
  | none => s
  | some w =>
    if id ∉ w.ids then s
    else if w.ids.erase id ≠ [] then s.setRing o (some { w with ids := w.ids.erase id })
    else if w.last then s.ringRecorded o w
    else if s.ringStopped o then s.ringUndo o
    else if s.hostDead w.addr then (s.ringUndo o).ringFailed o
    else (s.setRing o (some { w with ids := [s.nextId], last := true })).hostWrite w.addr (toLE 4 w.seq) o none

/-- A write of a ring or queue record has failed. -/
def ringWriteFailed (s : State) (o : Owner) (id : Nat) : State :=
  (s.when ((s.ringWriting o).any fun w => decide (id ∈ w.ids)) (·.ringUndo o)).ringFailed o

/-- A request of the part succeeds. -/
def hostDone (s : State) (r : HostReq) (bytes : List Byte) (poison : Bool) : State :=
  match r.owner with
  | .group _ _ | .stream _ _ | .groupFetch _ _ | .gather _ | .sync _ | .outside =>
    s.modHost r fun x => { x with status := .done, reply := bytes, poison := poison }
  | .refetch d => (s.dropHost r).refetchData d r bytes poison
  | .cq n => (s.dropHost r).recordPerformed n
  | o => (s.dropHost r).ringPerformed o r.id

/-- A request of the part fails (R315): its item fails, a read gives zero, a ring or line access stops its queue. -/
def hostFailed (s : State) (r : HostReq) : State :=
  let s := s.failAt (match r.owner with
    | .cq _ => none
    | _ => r.item) stHostFailed
  match r.owner with
  | .group _ _ | .stream _ _ | .groupFetch _ _ | .gather _ | .sync _ | .outside =>
    s.modHost r fun x => { x with status := .failed, reply := rep r.len 0 }
  | .refetch d => (s.dropHost r).refetchData d r [] true
  | o => (s.dropHost r).ringWriteFailed o r.id

/-- The outstanding request with a tag on a port. -/
def hostByTag (s : State) (k tag : Nat) : Option HostReq :=
  s.chl.reqs.find? fun r => r.port == k && r.tag == tag && r.status == .waiting

/-- A response to the part arrives: CMP (0x20), DATA (0x30) or NOHOME (0x22); one that matches nothing is discarded.
DEDUCED: notes/assumptions/76.md. -/
def hostResponse (s : State) (k type hdr : Nat) (data : List Byte) : State :=
  if Msg.type hdr ≠ type then s
  else match s.hostByTag k (Msg.tag hdr) with
  | none => ({ s with chl := { s.chl with late := s.chl.late.erase (k, Msg.tag hdr) } }).sendLater k .req
  | some r =>
    let isRead := r.kind == .rds || r.kind == .rdnc || r.kind == .atom
    if type = 0x22 then (s.hostFailed r).sendLater k .req
    else if type = 0x30 && isRead then (s.hostDone r data (Msg.poison hdr)).sendLater k .req
    else if type = 0x20 && !isRead then (s.hostDone r [] false).sendLater k .req
    else s

/-- CHL_COMPLETION_TIMEOUT: the request with a tag has had no response within the limit; its late response is discarded
(R315). -/
def completionTimeout (s : State) (k tag : Nat) : State :=
  match s.hostByTag k tag with
  | some r =>
    ({ s with chl := { s.chl with late := if tag < 4096 then s.chl.late ++ [(k, tag)] else s.chl.late,
                                  later := s.chl.later.filter (·.1 != r.id) } } |>.bump .CHL_PORT_TIMEOUTS_COUNT k).hostFailed r
  | none => s

/-! ### Requests of the host (R302, R309 to R314) -/

/-- Answer NOHOME and count it (R309). DEDUCED: notes/assumptions/45.md. -/
def nohome (s : State) (k hdr code : Nat) : State :=
  (s.bump .CHL_PORT_NOHOME_COUNT k).sendMsg k .rsp (Msg.header 0x22 (Msg.tag hdr) (Msg.addr hdr) (code := code))

/-- Answer CMP. -/
def cmp (s : State) (k tag : Nat) : State := s.sendMsg k .rsp (Msg.header 0x20 tag 0)

/-- Answer DATA. -/
def dataMsg (s : State) (k hdr : Nat) (bytes : List Byte) (poison : Bool) : State :=
  s.sendMsg k .drsp (Msg.header 0x30 (Msg.tag hdr) (Msg.addr hdr) (poison := poison)) bytes

end State

/-- A request header of type `t` whose reserved fields are zero and whose length and alignment keep the type's rules. -/
def Msg.requestOk (t h : Nat) : Bool :=
  let sized := t == 3 || t == 5
  let atom := t == 6
  let dat := t == 4 || t == 5 || t == 7
  Msg.type h == t
  && h == Msg.header t (Msg.tag h) (Msg.addr h) (if sized then Msg.length h else 0) (dat && Msg.poison h)
    (if atom then Msg.atomOp h else 0) (atom && Msg.wide h)
  && (if sized then decide (1 ≤ Msg.length h) && decide (Msg.addr h % 64 + Msg.length h ≤ 64)
      else if atom then Msg.addr h % (if Msg.wide h then 8 else 4) == 0 && decide (Msg.atomOp h < 10)
      else Msg.addr h % 64 == 0)

namespace State

/-- Grant a line to a port: presence, ownership, allocation order of a new entry (R312). -/
def grant (s : State) (k line : Nat) (own : Bool) : State :=
  let o := s.chl.filterOrder
  let e := (s.filterAt line).getD ⟨false, false, false, o⟩
  let e' : FilterEntry :=
    if own then ⟨k == 0, k == 1, true, e.order⟩
    else ⟨e.p0 || k == 0, e.p1 || k == 1, e.owned, e.order⟩
  let s := s.setFilter line (some e')
  { s with chl := { s.chl with filterOrder := o + 1 } }

/-- The entry that must leave before a grant of a new line: the one of a full set allocated least recently (R312). -/
def victim (s : State) (line : Nat) : Option (Nat × FilterEntry) :=
  if (s.filterAt line).isSome then none
  else
    let set := s.chl.filter.filterMap fun x =>
      if Config.filterSet x.1 = Config.filterSet line then x.2.map fun e => (x.1, e) else none
    if set.length < 16 then none
    else set.foldl (fun b x => match b with
      | some y => if x.2.order < y.2.order then some x else b
      | none => some x) none

/-- A host request waits behind a snoop (R313). -/
def waitHost (s : State) (k : Nat) (m : Msg) : State :=
  { s with chl := { s.chl with waiting := s.chl.waiting ++ [(k, m)] } }

/-- Serve a host request to a cell of part memory that needs no further snoop. -/
def hostAccess (s : State) (k t pa cell : Nat) (m : Msg) : State :=
  let h := m.hdr
  let line := cell / 64
  if t = 1 ∨ t = 2 then
    let (s, bs, p) := s.readLine line .none
    (s.grant k (pa / 64) (t == 2)).dataMsg k h bs p
  else if t = 3 then
    let (s, bs, p) := s.readLine line .none
    s.dataMsg k h ((bs.drop (cell % 64)).take (Msg.length h)) p
  else if t = 6 then
    let (s, old, p) := s.atomicAt cell (Msg.atomOp h) (Msg.wide h) (fromLE (m.data.take 8)) (fromLE ((m.data.drop 8).take 8)) .none
    s.dataMsg k h (toLE 8 old ++ rep 8 0) p
  else
    let n := if t = 5 then Msg.length h else 64
    let s := s.writeLine line (cell % 64) (fit n m.data) .none
    let s := if Msg.poison h then s.setEye line true else s
    s.cmp k (Msg.tag h)

/-- A host request of type `t` that port `k` has taken: refused, held behind a snoop, or served (R309, R313, R318).
DEDUCED: notes/assumptions/49.md. -/
def hostServe (s : State) (t k : Nat) (m : Msg) : State :=
  let h := m.hdr
  let a := Msg.addr h
  let pt := s.port k
  if !Msg.requestOk t h || !pt.memEn || decide (a < pt.aperture) || decide (pt.aperture + 2 ^ 42 ≤ a) then s.nohome k h 1
  else
    let pa := a - pt.aperture
    if 2 ^ 41 ≤ pa ∧ pa < 2 ^ 41 + 0x80000 then
      let slot := (pa - 2 ^ 41) / 8
      if pa % 8 ≠ 0 ∨ Msg.length h ≠ 8 ∨ ¬ (t = 3 ∨ t = 5) then s.nohome k h 1
      else if t = 3 then s.dataMsg k h (toLE 8 (s.fences.get 0 slot)) false
      else { s with fenceQueue := s.fenceQueue ++ [⟨slot, fromLE (fit 8 m.data), 2, k, some (k, Msg.tag h)⟩] }
    else match s.cellOf pa with
    | none => s.nohome k h 1
    | some cell =>
      if !s.stacksOpen (cell / 2 ^ 37) then s.nohome k h 1
      else if !s.serves cell || s.snooped (pa / 64) then s.waitHost k m
      else
        let bl := s.blockers cell (some k) (t != 1 && t != 3)
        if bl ≠ [] then (s.snoopBlockers bl (some k) (t != 1 && t != 3)).waitHost k m
        else match (if t = 1 ∨ t = 2 then s.victim (pa / 64) else none) with
        | some (l, e) =>
          (if s.snooped l then s else s.forEach (holders e none) fun s j => s.sendSnoop j l false true .outside).waitHost k m
        | none => s.hostAccess k t pa cell m

/-- A host request of type `t` arrives on port `k`, which must be UP (R318). -/
def hostRequest (s : State) (t k : Nat) (m : Msg) : State := if s.portUp k then s.hostServe t k m else s

/-- Serve again what waited behind snoops or a tripped stack: the host's requests and the peers', in arrival order. -/
def rerun (s : State) : State :=
  let w := s.chl.waiting
  (({ s with chl := { s.chl with waiting := [] } }).forEach w fun s x => s.hostServe (Msg.type x.2.hdr) x.1 x.2).rerunPeers

/-! ### Answers to snoops (R312, R313) -/

/-- A port gives up a line, or keeps it shared after SNPDATA; an entry without a holder is free. -/
def snoopSettled (s : State) (x : Snoop) : State :=
  let s := ({ s with chl := { s.chl with snoops := s.chl.snoops.filter (·.id != x.id) } }).sendLater x.port .snp
  match s.filterAt x.line with
  | none => s
  | some e =>
    let e' : FilterEntry := if x.data then { e with owned := false }
      else ⟨e.p0 && x.port != 0, e.p1 && x.port != 1, false, e.order⟩
    let gone := !e'.p0 && !e'.p1
    let s := s.setFilter x.line (if gone then none else some e')
    s.when (gone && x.evict) (·.bump .CHL_SF_EVICTIONS_COUNT)

/-- The snoop that an answer on a port names. -/
def snoopByTag (s : State) (k tag : Nat) : Option Snoop :=
  s.chl.snoops.find? fun x => x.port == k && x.tag == tag

/-- Write the host's modified line to memory. -/
def writeBack (s : State) (line : Nat) (data : List Byte) (poison : Bool) : State :=
  match s.cellOf (line * 64) with
  | some c => (s.writeLine (c / 64) 0 (fit 64 data) .none).when poison fun s => s.setEye (c / 64) true
  | none => s

/-- CHL_ACK: an owned line's ACK without data leaves the home waiting for its WB. -/
def snoopAck (s : State) (k hdr : Nat) : State :=
  if Msg.type hdr ≠ 0x21 then s
  else match s.snoopByTag k (Msg.tag hdr) with
  | none => s
  | some x =>
    match s.filterAt x.line with
    | some e => if e.owned then
        { s with chl := { s.chl with snoops := updFirst (fun y => y.id == x.id) (fun y => { y with wb := true }) s.chl.snoops } }
      else (s.snoopSettled x).rerun
    | none => (s.snoopSettled x).rerun

/-- ACKD: the modified line comes with the answer. -/
def snoopAckData (s : State) (k hdr : Nat) (data : List Byte) : State :=
  if Msg.type hdr ≠ 0x31 then s
  else match s.snoopByTag k (Msg.tag hdr) with
  | none => s
  | some x => ((s.writeBack x.line data (Msg.poison hdr)).snoopSettled x).rerun

/-- WB and EVICT clear the entry of a line that the port owns; a snoop that awaited this is settled (R312, R313). -/
def hostGivesUp (s : State) (t k : Nat) (m : Msg) : State :=
  let h := m.hdr
  let pt := s.port k
  let a := Msg.addr h
  if !s.portUp k then s
  else if !Msg.requestOk t h || !pt.memEn || decide (a < pt.aperture) || decide (pt.aperture + 2 ^ 42 ≤ a)
      || (s.cellOf (a - pt.aperture)).isNone then s.nohome k h 1
  else
    let line := (a - pt.aperture) / 64
    let s := if t = 7 then s.writeBack line m.data (Msg.poison h) else s
    let s := match s.filterAt line with
      | some e => if e.owned && (if k = 0 then e.p0 else e.p1) then s.setFilter line none else s
      | none => s
    let s := s.cmp k (Msg.tag h)
    match s.chl.snoops.find? fun x => x.line == line && x.port == k && x.wb with
    | some x => (s.snoopSettled x).rerun
    | none => s

/-! ### Ports (R304, R316, R318) -/

/-- Raise a vector through a given port; while it is masked, or before the port's INTR_EN, it is pending (R317). -/
def raiseVia (s : State) (v k : Nat) : State :=
  if s.flag .CHL_MSI_CTRL_MASK v || !(s.port k).intrEn then s.setFlag .CHL_MSI_CTRL_PENDING v true
  else s.sendMsg k .nc (Msg.header 0x3B 0 (s.f .CHL_MSI_ADDR_ADDR v * 4)) (toLE 4 (s.f .CHL_MSI_DATA_DATA v))

/-- A port enters FAILED (R316). DEDUCED: notes/assumptions/72.md. -/
def portFail (s : State) (k cause : Nat) : State :=
  let s := (s.setF .CHL_PORT_STATUS_STATE k 4).setF .CHL_PORT_STATUS_FAIL_CAUSE k cause
  let s := s.forEach (s.chl.reqs.filter fun r => r.port == k && r.status == .waiting) fun s r => s.hostFailed r
  let s := s.modPort k fun p => { p with queue := [], unacked := [] }
  let s := s.forEach s.chl.filter fun s x =>
    match x.2 with
    | none => s
    | some e =>
      let mine := if k = 0 then e.p0 else e.p1
      let s := if e.owned && mine then
          match s.cellOf (x.1 * 64) with
          | some c => s.setEye (c / 64) true
          | none => s
        else s
      let e' : FilterEntry := ⟨e.p0 && k != 0, e.p1 && k != 1, e.owned && !mine, e.order⟩
      s.setFilter x.1 (if e'.p0 || e'.p1 then some e' else none)
  let s : State := { s with chl := { s.chl with
    snoops := s.chl.snoops.filter (·.port != k)
    waiting := s.chl.waiting.filter (·.1 != k)
    later := s.chl.later.filter (·.2.1 != k)
    late := s.chl.late.filter (·.1 != k) } }
  let st := 4 + s.f .CHL_PORT_STATUS_WIDTH k * 8 + s.f .CHL_PORT_STATUS_RATE k * 16 + cause * 32
    + s.f .CHL_PORT_STATUS_LANES_REVERSED k * 256
  let s := s.log 0x12 false 1 [st + k * 512]
  let s := s.when (s.portUp (1 - k) && s.flag .CHL_SETUP_LINK_IRQ_EN)
    (·.raiseVia (s.f .CHL_SETUP_LINK_VECTOR) (1 - k))
  s.rerun

/-- An UP port enters RECOVERY. -/
def portRecover (s : State) (k : Nat) : State :=
  ((s.setF .CHL_PORT_STATUS_STATE k 3).bump .CHL_PORT_RETRAINS_COUNT k).modPort k fun p => { p with replays := 0 }

/-- CHL_PORT_RETRAIN: RETRAIN sends an UP port into RECOVERY or trains a FAILED port 1 again. -/
def portRetrain (s : State) (k : Nat) : State :=
  if 2 ≤ k then s
  else if s.portUp k then s.portRecover k
  else if k = 1 ∧ s.f .CHL_PORT_STATUS_STATE k = 4 then s.setF .CHL_PORT_STATUS_STATE k 1
  else s

/-- A training gives a port its rate, width and reversal: it is UP with no credits yet. -/
def portTrained (s : State) (k : Nat) (r : Bool × Bool × Bool) : State :=
  let s := ((s.setFlag .CHL_PORT_STATUS_WIDTH k r.1).setFlag .CHL_PORT_STATUS_RATE k r.2.1).setFlag .CHL_PORT_STATUS_LANES_REVERSED k r.2.2
  let s := (s.setF .CHL_PORT_STATUS_STATE k 2).setF .CHL_PORT_STATUS_FAIL_CAUSE k 0
  s.modPort k fun p => { p with rxSeq := 1023, discarding := false, txSeq := 0, unacked := [], replays := 0,
                                recoveries := 0, credits := ⟨0, 0, 0, 0, 0⟩ }

/-- CHL_PORT_TRAINING_COMPLETE: a training or a recovery ends (R318). -/
def portTrainingComplete (s : State) (k : Nat) (result : Option (Bool × Bool × Bool)) : State :=
  match s.f .CHL_PORT_STATUS_STATE k, result with
  | 1, some r => if k < 2 then s.portTrained k r else s
  | 1, none => s.portFail k 1
  | 3, some _ =>
    (((s.setF .CHL_PORT_STATUS_STATE k 2).modPort k fun p => { p with recoveries := 0, discarding := false }).flushPort k)
  | 3, none =>
    let n := (s.port k).recoveries + 1
    if 4 ≤ n then s.portFail k 2 else s.modPort k fun p => { p with recoveries := n }
  | _, _ => s

/-- SNOOP_TIMEOUT: a snoop sent through the port has gone unanswered for the completion limit. -/
def snoopTimeout (s : State) (k : Nat) : State :=
  if s.chl.snoops.any (·.port == k) then s.portFail k 3 else s

/-- FLIT_RECEIVE: corrections, CRC, sequence, acknowledgement and replay (R304). -/
def flitReceive (s : State) (k : Nat) (fl : Flit) : State :=
  if !s.portUp k then s
  else
    let s := s.bump .CHL_PORT_FEC_CORRECTED_COUNT k fl.corrections
    let nak := fun (s : State) => s.modPort k fun p => { p with discarding := true, naks := p.naks ++ [p.rxSeq] }
    if !fl.crcOk then nak (s.bump .CHL_PORT_CRC_ERRORS_COUNT k)
    else
      let h := fl.header.toNat
      let seq := bits h 9 0
      let pt := s.port k
      if seq ≠ (pt.rxSeq + 1) % 1024 then (if pt.discarding then s else nak s)
      else
        let s := s.modPort k fun p => { p with rxSeq := seq, discarding := false }
        let s := if bit h 20 || bit h 21 then
            let rest := (ackUpTo (bits h 19 10) ((s.port k).unacked.map fun x => (x, ()))).map (·.1)
            let moved := decide (rest.length < (s.port k).unacked.length)
            s.modPort k fun p => { p with unacked := rest, replays := if moved then 0 else p.replays }
          else s
        let s := if bit h 21 then
            let n := (s.port k).replays + 1
            let s := (s.bump .CHL_PORT_REPLAYS_COUNT k).modPort k fun p => { p with replays := n }
            if 8 ≤ n then s.portRecover k else s
          else s
        s.flushPort k

/-- CREDIT: the host advertises or returns credits of a channel (R305). -/
def creditReceive (s : State) (k : Nat) (c : Channel) (n : Nat) : State :=
  if s.portUp k then (s.modPort k fun p => { p with credits := p.credits.set c (p.credits.get c + n) }).flushPort k else s

/-- SNPINV of the host: answered with ACK; a line held shared by a command processor is I and is read again (R310,
R270). -/
def hostSnoop (s : State) (k hdr : Nat) : State :=
  if !s.portUp k then s
  else if Msg.type hdr ≠ 0x10 then s
  else
    let a := Msg.addr hdr / 64
    let mine := s.cp.lines.filter fun x => x.2 / 64 == a
    let s := s.modCp fun c => { c with lines := c.lines.filter (fun x => x.2 / 64 != a), stale := c.stale ++ mine.map (·.1) }
    let s := { s with chl := { s.chl with reqs := s.chl.reqs.map fun (r : HostReq) =>
      if r.kind = ReqKind.rds ∧ r.addr / 64 = a then { r with snooped := true } else r } }
    s.sendMsg k .rsp (Msg.header 0x21 (Msg.tag hdr) (Msg.addr hdr))

end State

/-! ### Meanings -/

/-- STACK_TEMPERATURE_READ (R239). -/
def execStackTemperatureRead (k : Nat) (reading : Option Nat) (throttled : Nat) (s : State) : Out := .next ((s.stackTemperature k reading throttled).rerun)

/-- FLIT_RECEIVE (R304). -/
def execFlitReceive (port : Nat) (f : Flit) (s : State) : Out := .next (s.flitReceive port f)

/-- CREDIT (R305). -/
def execCredit (port : Nat) (c : Channel) (n : Nat) (s : State) : Out := .next (s.creditReceive port c n)

/-- RDS (R313). -/
def execRds (port : Nat) (hdr : BitVec 128) (s : State) : Out := .next (s.hostRequest 1 port ⟨hdr.toNat, []⟩)

/-- RDO (R312). -/
def execRdo (port : Nat) (hdr : BitVec 128) (s : State) : Out := .next (s.hostRequest 2 port ⟨hdr.toNat, []⟩)

/-- RDNC (R309). -/
def execRdnc (port : Nat) (hdr : BitVec 128) (s : State) : Out := .next (s.hostRequest 3 port ⟨hdr.toNat, []⟩)

/-- WRL (R313). -/
def execWrl (port : Nat) (hdr : BitVec 128) (data : List Byte) (s : State) : Out := .next (s.hostRequest 4 port ⟨hdr.toNat, data⟩)

/-- WRP (R313). -/
def execWrp (port : Nat) (hdr : BitVec 128) (data : List Byte) (s : State) : Out := .next (s.hostRequest 5 port ⟨hdr.toNat, data⟩)

/-- CHL_ATOM (R313). -/
def execChlAtom (port : Nat) (hdr : BitVec 128) (data : List Byte) (s : State) : Out := .next (s.hostRequest 6 port ⟨hdr.toNat, data⟩)

/-- WB (R312). -/
def execWb (port : Nat) (hdr : BitVec 128) (data : List Byte) (s : State) : Out := .next (s.hostGivesUp 7 port ⟨hdr.toNat, data⟩)

/-- EVICT (R312). -/
def execEvict (port : Nat) (hdr : BitVec 128) (s : State) : Out := .next (s.hostGivesUp 8 port ⟨hdr.toNat, []⟩)

/-- SNPINV (R310). -/
def execSnpinv (port : Nat) (hdr : BitVec 128) (s : State) : Out := .next (s.hostSnoop port hdr.toNat)

/-- CHL_CMP (R315). -/
def execChlCmp (port : Nat) (hdr : BitVec 128) (s : State) : Out := .next (s.hostResponse port 0x20 hdr.toNat [])

/-- CHL_ACK (R313). -/
def execChlAck (port : Nat) (hdr : BitVec 128) (s : State) : Out := .next (s.snoopAck port hdr.toNat)

/-- ACKD (R313). -/
def execAckd (port : Nat) (hdr : BitVec 128) (data : List Byte) (s : State) : Out := .next (s.snoopAckData port hdr.toNat data)

/-- NOHOME (R315). -/
def execNohome (port : Nat) (hdr : BitVec 128) (s : State) : Out := .next (s.hostResponse port 0x22 hdr.toNat [])

/-- CHL_DATA (R311). -/
def execChlData (port : Nat) (hdr : BitVec 128) (data : List Byte) (s : State) : Out := .next (s.hostResponse port 0x30 hdr.toNat data)

/-- CHL_COMPLETION_TIMEOUT (R315). -/
def execChlCompletionTimeout (port tag : Nat) (s : State) : Out := .next (s.completionTimeout port tag)

/-- SNOOP_TIMEOUT (R316). -/
def execSnoopTimeout (port : Nat) (s : State) : Out := .next (s.snoopTimeout port)

/-- CHL_PORT_RETRAIN (R318). -/
def execChlPortRetrain (port : Nat) (s : State) : Out := .next (s.portRetrain port)

end Sys2Proof.Machine
end

