-- ==== Sys2Proof/Machine/Health.lean ====
section
/-!
DEFINITION. Health (15_health_and_wear.md): sensors, MCLK levels and their causes, trips and shutdown, the management
log, nominations for moult, power warnings, the MGT mailbox commands on readings and the log.
-/
namespace Sys2Proof.Machine

/-- PLDM sensor ID of a PMBus sensor (R372). DEDUCED: notes/assumptions/16.md. -/
def pmbusId : PmbusSensor → Nat
  | .inputVoltage => 0x0300
  | .inputCurrent => 0x0301
  | .railVoltage r => 0x0310 + 2 * r
  | .railCurrent r => 0x0311 + 2 * r
  | .regTemp r => 0x0340 + r

/-- The 256 bytes of a log record (R386). -/
def LogRec.bytes (r : LogRec) : List Byte :=
  let ws := [0xD106 + r.kind * 2 ^ 16 + b2n r.repair * 2 ^ 24 + b2n r.carried * 2 ^ 25, r.seq, r.time % 2 ^ 32,
    r.time / 2 ^ 32 % 2 ^ 32, r.start, r.source, r.orig] ++ r.body
  let bs := fit 252 (wordBytes ws)
  bs ++ toLE 4 (crc32c bs)

/-- Slots of the log: 2,047 sectors of 256 records (R385). -/
def logSlots : Nat := 524032

namespace State

/-! ### Sensors (R372 to R374) -/

/-- Set a sensor. -/
def setSensor (s : State) (id : Nat) (x : Sensor) : State :=
  s.modMgt fun m => { m with sensors := m.sensors.put .reset id x }

/-- A sample of a sensor: a failure and a return to use are logged once (R374).
DEDUCED: notes/assumptions/64.md. -/
def sample (s : State) (id : Nat) (v : Option Int) (tries : Nat) : State :=
  let x := s.sensor id
  match v with
  | some r => (s.setSensor id ⟨r, false, 0⟩).when x.failed fun s => s.log 0x14 false 1 [id]
  | none =>
    let n := x.attempts + 1
    if tries ≤ n ∧ !x.failed then (s.setSensor id ⟨x.value, true, n⟩).log 0x14 false 1 [id + 2 ^ 16]
    else s.setSensor id { x with attempts := n }

/-- Raise the MGT vector when an enable field allows it. -/
def raiseMgt (s : State) (en : Fld) : State := s.when (s.flag en) (·.raise (s.f .MGT_IRQ_VECTOR))

/-- The die's hard thermal trip begins or ends (R378). -/
def hardTrip (s : State) (d : Nat) (r : Int) : State :=
  let readings := s.dieReadings d
  if !(s.die d).hardTrip && readings.any (fun v => decide (440 ≤ v)) then
    let s := (s.modDie d fun x => { x with hardTrip := true }).bump .MGT_HARD_TRIPS_COUNT
    let s := (s.setFlag .MGT_STATUS_THERMAL_EVENT 0 true).log 0x16 false (dcIx d) [d + 8, (r % 2 ^ 32).toNat]
    s.raiseMgt .MGT_IRQ_THERMAL_IRQ_EN
  else if (s.die d).hardTrip && readings.all (fun v => decide (v ≤ 420)) then
    (s.modDie d fun x => { x with hardTrip := false }).log 0x16 false (dcIx d) [d, (r % 2 ^ 32).toNat]
  else s

/-- A shutdown begins (R380). -/
def beginShutdown (s : State) (cause unit : Nat) (r : Int) : State :=
  if s.mgt.shutdown = none then s.modMgt fun m => { m with shutdown := some (cause, unit, r) } else s

/-- DIE_SENSOR_SAMPLE: a sample outside −40 to 150 °C, or none, fails the sensor. -/
def dieSensor (s : State) (io : Bool) (d k : Nat) (reading : Option Int) : State :=
  if (if io then s.variant.hasIo d && decide (k < 4) else s.variant.hasDie d && decide (k < 16)) then
    let id := if io then 0x0200 + 4 * d + k else 0x0100 + 16 * d + k
    let v := reading.filter fun r => decide (-160 ≤ r) && decide (r ≤ 600)
    let s := s.sample id v 1
    match v with
    | some r =>
      let s := if io then s else s.hardTrip d r
      if 480 ≤ r then s.beginShutdown (if io then 2 else 1) d r else s
    | none => s
  else s

/-- PMBUS_READ: a reading fails after three attempts without a valid packet error code; time without readable input
power is counted in the 1 ms intervals of the input voltage. -/
def pmbus (s : State) (x : PmbusSensor) (reading : Option Int) : State :=
  let there := match x with
    | .railVoltage r | .railCurrent r | .regTemp r => s.variant.hasRail r
    | _ => true
  if !s.procRunning 1 || !there then s
  else
    let s := s.sample (pmbusId x) reading 3
    match x with
    | .inputVoltage => s.modMgt fun m => { m with unreadMs := if s.inputPower.isNone then m.unreadMs + 1 else 0 }
    | _ => s

/-! ### Clocks under load (R375 to R379) -/

/-- Effective MCLK of a die in MHz (R376). -/
def mclk (s : State) (d : Nat) : Nat :=
  let l := (s.die d).level
  let l := if s.flag .MGT_STATUS_FAST_LIMIT then Nat.min l 350 else l
  if (s.die d).hardTrip then Nat.min l 200 else l

/-- POWER_UNMET: every compute die at 200 MHz for 100 evaluations while P held; it clears when P does not hold. Die 0's
evaluations count (R379). DEDUCED: notes/assumptions/50.md. -/
def powerUnmet (s : State) (cs : Nat) : State :=
  if !bit cs 0 then (s.setFlag .MGT_STATUS_POWER_UNMET 0 false).modMgt fun m => { m with lowEvals := 0 }
  else
    let low := (List.range s.variant.dies).all fun d => (s.die d).level == 200
    let n := if low then s.mgt.lowEvals + 1 else 0
    let s := s.modMgt fun m => { m with lowEvals := n }
    if 100 ≤ n ∧ !s.flag .MGT_STATUS_POWER_UNMET then
      ((s.setFlag .MGT_STATUS_POWER_UNMET 0 true).log 0x05 false 1
        [(s.inputPower.getD 0 / 1000).toNat, s.f .MGT_LIMITS_POWER_LIMIT]).raiseMgt .MGT_IRQ_THERMAL_IRQ_EN
    else s

/-- DIE_EVALUATION: the die controller steps its MCLK level (R375). DEDUCED: notes/assumptions/50.md. -/
def dieEvaluation (s : State) (d : Nat) : State :=
  if !s.variant.hasDie d || !s.procRunning (dcIx d) then s
  else
    let cs := s.causes d
    let all := s.heldCauses d
    let s := s.setF .MGT_DIE_STATUS_CAUSES d all
    let ceiling := s.f .MGT_LIMITS_MCLK_CEILING
    let lvl := (s.die d).level
    let tripped := [2 * d, 2 * d + 1].any fun k => s.flag .HBM_STATUS_TRIPPED k
    let quiet := if cs = 0 then (s.die d).quiet + 1 else 0
    let cool := (s.dieTemp d).all fun v => decide (v + 12 ≤ (s.f .MGT_SETUP_DIE_THROTTLE_C : Int) * 4)
    let spare := s.inputPower.any fun w => decide (w * 100 ≤ (s.f .MGT_LIMITS_POWER_LIMIT : Int) * 97000)
    let up := decide (10 ≤ quiet) && cool && spare && !tripped && decide (lvl + 50 ≤ ceiling)
    let l := if cs ≠ 0 then Nat.max 200 (lvl - 50) else if up then lvl + 50 else lvl
    let l := Nat.max 200 (Nat.min l ceiling)
    let s := (s.modDie d fun x => { x with quiet := if up then 0 else quiet }).setLevel d l ceiling all
    if d = 0 then s.powerUnmet cs else s

/-- FAST_CURRENT_LIMIT and FAST_LIMIT_RELEASE (R377). -/
def fastLimit (s : State) : State :=
  if s.flag .MGT_STATUS_FAST_LIMIT then s
  else (s.setFlag .MGT_STATUS_FAST_LIMIT 0 true).bump .MGT_FAST_LIMITS_COUNT

/-! ### The management log (R385 to R388) -/

/-- Program a record at the head, if the slot is erased. -/
def program (s : State) (r : LogRec) : State :=
  let m := s.mgt
  if (m.flash.get none m.head).isSome then s
  else
    let r : LogRec := { r with seq := m.seq, orig := if r.carried then r.orig else m.seq, start := if r.carried then r.start else m.startCount }
    let m : Mgt :=
      { m with flash := m.flash.put none m.head (some r), head := (m.head + 1) % logSlots, seq := (m.seq + 1) % 2 ^ 32 }
    (s.modMgt fun _ => m).bump .MGT_LOG_RECORDS_COUNT

/-- The queue has room: held repair records enter it, and a RECORDS_DROPPED record follows (R387). -/
def refill (s : State) : State :=
  let m := s.mgt
  let room := 64 - m.queue.length
  let s := s.modMgt fun m => { m with queue := m.queue ++ m.held.take room, held := m.held.drop room }
  if 0 < s.mgt.dropped ∧ s.mgt.queue.length < 64 then
    let n := s.mgt.dropped
    (s.modMgt fun m => { m with dropped := 0 }).log 0x15 false 1 [n]
  else s

/-- The log can be programmed: the management processor runs and the log is ready. -/
def logReady (s : State) : Bool := s.procRunning 1 && s.flag .MGT_STATUS_LOG_READY

/-- A repair record is current (R387): nothing later settles it. `later` are the records after it, by sequence. -/
def currentRepair (r : LogRec) (later : List LogRec) : Bool :=
  let w0 := nth 0 r.body 0
  match r.kind with
  | 0x08 => !(later.any fun x => x.kind == 0x09 && nth 0 x.body 0 % 16 == w0 % 16
      && nth 1 x.body 0 / 2 == nth 1 r.body 0 / 2)
  | 0x09 => bit (nth 2 r.body 0) 2
  | 0x0B => true
  | 0x0C => !(later.any fun x => x.kind == 0x0D && bits (nth 0 x.body 0) 19 10 == bits w0 19 10)
  | 0x0D => true
  | _ => false

/-- The records of the log, oldest first: the slots from the head on. -/
def logRecords (s : State) : List LogRec :=
  let after := s.mgt.flash.filter fun x => decide (s.mgt.head ≤ x.1)
  let before := s.mgt.flash.filter fun x => decide (x.1 < s.mgt.head)
  (after ++ before).filterMap (·.2)

/-- Records not stood for by a later copy. -/
def dropCopied : List LogRec → List LogRec
  | [] => []
  | r :: rs => if rs.any (fun x => x.carried && x.orig == r.orig) then dropCopied rs else r :: dropCopied rs

/-- The current repair records of a list, oldest first. -/
def currentIn : List LogRec → List LogRec
  | [] => []
  | r :: rs => if r.repair && currentRepair r rs then r :: currentIn rs else currentIn rs

/-- Put a record before those of later origin; `now` is the sequence of the next record, and sequences are compared within
a window of 2^31 (R386). -/
def insertByOrigin (now : Nat) (r : LogRec) : List LogRec → List LogRec
  | [] => [r]
  | x :: xs =>
    if (now + 2 ^ 32 - x.orig) % 2 ^ 32 ≤ (now + 2 ^ 32 - r.orig) % 2 ^ 32 then r :: x :: xs else x :: insertByOrigin now r xs

/-- The current repair records of the log, in the order of their originals, for which copies stand (R387). -/
def repairs (s : State) : List LogRec :=
  currentIn ((dropCopied s.logRecords).foldr (insertByOrigin s.mgt.seq) [])

/-- The current repair records in the sector after the head, which must be copied to the head before it is erased. -/
def carriedNext (s : State) : List LogRec :=
  let mine := (s.mgt.flash.filter fun x => x.1 / 256 == (s.mgt.head / 256 + 1) % 2047).filterMap (·.2)
  s.repairs.filter (mine.contains ·)

/-- Slots of the head's sector from the head on. -/
def headRoom (s : State) : Nat := 256 - s.mgt.head % 256

/-- The sector after the head gives its current repair records to the head and is erased, if it is not empty; no current
repair record is erased (R387). -/
def eraseNext (s : State) : State :=
  let sec := (s.mgt.head / 256 + 1) % 2047
  let cur := s.carriedNext
  if s.headRoom < cur.length then s
  else
    let s := s.forEach cur fun s r => s.program { r with carried := true }
    s.modMgt fun m => { m with flash := m.flash.filter (fun x => x.1 / 256 != sec) }

/-- LOG_RECORD_PROGRAM: the next record, repair records ahead of others; the slots that the copies of the sector after the
head need stay free until it is erased (R387). DEDUCED: notes/assumptions/64.md. -/
def logProgram (s : State) : State :=
  if !s.logReady ∨ (s.mgt.flash.get none s.mgt.head).isSome ∨ s.headRoom ≤ s.carriedNext.length then s
  else
    let next := (s.mgt.queue.find? (·.repair)).orElse fun _ => s.mgt.queue.head?
    match next with
    | none => s
    | some r => ((s.modMgt fun m => { m with queue := dropFirst (· == r) m.queue }).program r).refill

/-- LOG_SECTOR_ERASE; no erase begins during a power warning (R391). -/
def sectorErase (s : State) : State :=
  if !s.logReady || s.flag .MGT_STATUS_POWER_WARN then s else s.eraseNext

/-- The management processor starts for the first time since reset: the log is scanned, the sector after the head
erased again if it is not empty, a START record written, the log ready (R388). -/
def logStart (s : State) (pops : List Nat) : State :=
  if s.flag .MGT_STATUS_LOG_READY then s
  else
    let n := s.mgt.startCount
    let s := if s.flag .MGT_STATUS_POWER_WARN then s else s.eraseNext
    let s := s.program ⟨0x01, false, false, 0, s.time, n, 1, 0, pops⟩
    (s.modMgt fun m => { m with startCount := n + 1 }).setFlag .MGT_STATUS_LOG_READY 0 true

/-! ### Nominations (R381, R382) -/

/-- Reserve tiles of a die: neither retired nor assigned, ascending. -/
def reserve (s : State) (d : Nat) : List Nat :=
  (span (104 * d) 104).filter fun p => !s.mgt.repair.retired.get false p && (s.localOf p).isNone

/-- Body of a nomination record. -/
def nomineeWord (s : State) (p cause : Nat) : Nat :=
  p / 104 + (s.localOf p).getD 0 * 2 ^ 3 + p * 2 ^ 10 + cause * 2 ^ 20

/-- Nominate a tile for moult; without a reserve tile left it is refused and logged (R381, R382).
DEDUCED: notes/assumptions/64.md. -/
def nominate (s : State) (p cause : Nat) : State :=
  let d := p / 104
  if (s.localOf p).isNone || s.mgt.nominees.any (·.p == p) then s
  else if (s.reserve d).length ≤ (s.mgt.nominees.filter fun x => x.p / 104 == d).length then
    (s.log 0x0E false (dcIx d) [s.nomineeWord p cause]).raiseMgt .MGT_IRQ_MOULT_IRQ_EN
  else
    ((s.modMgt fun m => { m with nominees := m.nominees ++ [⟨p, cause⟩] }).log 0x0C true (dcIx d)
      [s.nomineeWord p cause]).raiseMgt .MGT_IRQ_MOULT_IRQ_EN

/-- A corrected error in a tile's memories (R381). DEDUCED: notes/assumptions/33.md. -/
def tileCorrected (s : State) (p : Nat) : State :=
  let n := s.mgt.ce.get 0 p + 1
  let s := s.modMgt fun m => { m with ce := m.ce.put 0 p n }
  if n = 2 ^ s.f .MGT_SETUP_MOULT_CE_LIMIT_LOG2 then s.nominate p 1 else s

/-- A detected error in a tile's memories fails the item that the tile runs (R381).
DEDUCED: notes/assumptions/33.md. -/
def tileDetected (s : State) (p : Nat) : State := (s.failAt (s.itemOf p) stMemPoison).nominate p 2

/-! ### Power warnings (R391) -/

/-- POWER_WARNING: the input falls below 58 V. -/
def powerWarning (s : State) (mv : Nat) : State :=
  if s.flag .MGT_STATUS_POWER_WARN || !s.power.pwrGood then s
  else
    let s := ((s.setFlag .MGT_STATUS_POWER_WARN 0 true).setFlag .MGT_STATUS_POWER_WARN_EVENT 0 true).bump .MGT_POWER_WARNINGS_COUNT
    let s := s.raiseMgt .MGT_IRQ_WARN_IRQ_EN
    if s.logReady then s.program ⟨0x02, false, false, 0, s.time, s.mgt.startCount, 1, 0, [mv]⟩ else s

/-! ### MGT mailbox (R390) -/

/-- The mailbox command in progress ends with a status and results from byte 0 of its data. -/
def mgtDone (s : State) (status : Nat) (results : List Nat) : State :=
  let (results, status, s) := s.mailboxResults s.mgt.dirty results status
  let s := s.forEach (results.zipIdx) fun s x => s.setF .MGT_MBX_DATA_DATA x.2 x.1
  ((((s.modMgt fun m => { m with busy := none, dirty := false }).setFlag .MGT_MBX_STATUS_BUSY 0 false).setFlag .MGT_MBX_STATUS_DONE 0 true).setF
    .MGT_MBX_STATUS_STATUS 0 status)

/-- IDs of Table Sensors; the rails are those of Table Rails, each with one regulator (R423).
DEDUCED: notes/assumptions/16.md. -/
def sensorExists (id : Nat) : Bool :=
  (decide (0x100 ≤ id) && decide (id < 0x180)) || (decide (0x200 ≤ id) && decide (id < 0x210))
  || (decide (0x280 ≤ id) && decide (id < 0x290)) || (decide (0x300 ≤ id) && decide (id < 0x303))
  || (decide (0x310 ≤ id) && decide (id < 0x33E)) || (decide (0x340 ≤ id) && decide (id < 0x357))
  || (decide (0x400 ≤ id) && decide (id < 0x408))

/-- A sensor of an absent unit is absent (R372, R3). DEDUCED: notes/assumptions/16.md. -/
def sensorAbsent (s : State) (id : Nat) : Bool :=
  if id < 0x200 then !s.variant.hasDie ((id - 0x100) / 16)
  else if id < 0x280 then !s.variant.hasIo ((id - 0x200) / 4)
  else if id < 0x300 then !s.stackPresent (id - 0x280)
  else if 0x400 ≤ id then !s.variant.hasDie (id - 0x400)
  else if 0x340 ≤ id then !s.variant.hasRail (id - 0x340)
  else if 0x310 ≤ id then !s.variant.hasRail ((id - 0x310) / 2)
  else false

/-- The reading of a sensor, thousandths for °C, and its status (R390). -/
def reading (s : State) (id : Nat) : Int × Nat :=
  if !sensorExists id then (0, 3)
  else if s.sensorAbsent id then (0, 2)
  else if id < 0x280 then ((s.sensor id).value * 250, b2n (s.sensor id).failed)
  else if id < 0x300 then ((s.f .HBM_STATUS_TEMP_C (id - 0x280) : Int) * 1000, s.f .HBM_STATUS_SENSOR_LOST (id - 0x280))
  else if id = 0x302 then (s.inputPower.getD 0, b2n s.inputPower.isNone)
  else if 0x400 ≤ id then ((s.mclk (id - 0x400) : Int), 0)
  else if 0x340 ≤ id then ((s.sensor id).value * 1000, b2n (s.sensor id).failed)
  else ((s.sensor id).value, b2n (s.sensor id).failed)

/-- A signed number as a 32-bit word. -/
def word32 (v : Int) : Nat := (v % 2 ^ 32).toNat

/-- Argument word of the MGT mailbox. -/
def mgtArg (s : State) (w : Nat) : Nat := s.f .MGT_MBX_DATA_DATA w

/-- SENSOR_READ; a count out of range is a bad argument. DEDUCED: notes/assumptions/65.md. -/
def sensorRead (s : State) : State :=
  if s.mgt.busy ≠ some 1 ∨ !s.procRunning 1 then s
  else
    let n := s.mgtArg 1
    if n = 0 ∨ 256 < n then s.mgtDone 1 []
    else s.mgtDone 0 ((List.range n).flatMap fun i =>
      let r := s.reading (s.mgtArg 0 % 2 ^ 16 + i)
      [word32 r.1, r.2])

/-- The record of a sequence number. -/
def recordOf (s : State) (seq : Nat) : Option LogRec := s.logRecords.find? (·.seq == seq % 2 ^ 32)

/-- The oldest kept sequence. -/
def oldestSeq (s : State) : Nat := (s.logRecords.head?.map (·.seq)).getD s.mgt.seq

/-- LOG_INFO. -/
def logInfo (s : State) : State :=
  if s.mgt.busy ≠ some 2 ∨ !s.procRunning 1 then s
  else if !s.flag .MGT_STATUS_LOG_READY then s.mgtDone 4 []
  else s.mgtDone 0 [s.oldestSeq, (s.mgt.seq + 2 ^ 32 - 1) % 2 ^ 32, s.repairs.length, s.mgt.startCount - 1]

/-- LOG_READ: RANGE when the first sequence is older than the oldest kept; a count out of range is a bad argument.
DEDUCED: notes/assumptions/65.md. -/
def logRead (s : State) : State :=
  if s.mgt.busy ≠ some 3 ∨ !s.procRunning 1 then s
  else if !s.flag .MGT_STATUS_LOG_READY then s.mgtDone 4 []
  else
    let a := s.mgtArg 0
    let n := s.mgtArg 1
    if n = 0 ∨ 15 < n then s.mgtDone 1 []
    else if 2 ^ 31 ≤ (a + 2 ^ 32 - s.oldestSeq) % 2 ^ 32 then s.mgtDone 3 []
    else s.mgtDone 0 ((List.range n).flatMap fun i =>
      match s.recordOf (a + i) with
      | some r => bytesWords 64 r.bytes
      | none => rep 64 0)

/-- MOULT_NOMINATE. -/
def moultNominate (s : State) : State :=
  if s.mgt.busy ≠ some 4 ∨ !s.procRunning 1 then s
  else
    let w := s.mgtArg 0
    let d := bits w 2 0
    let l := bits w 9 3
    if !s.variant.hasDie d then s.mgtDone 2 []
    else if 95 < l then s.mgtDone 3 []
    else (s.nominate (s.physOf d l) 4).mgtDone 0 []

end State

/-! ### Meanings -/

/-- SENSOR_READ (R390). -/
def execSensorRead (s : State) : Out := .next (s.sensorRead)

/-- LOG_INFO (R390). -/
def execLogInfo (s : State) : Out := .next (s.logInfo)

/-- LOG_READ (R390). -/
def execLogRead (s : State) : Out := .next (s.logRead)

/-- MOULT_NOMINATE (R381). -/
def execMoultNominate (s : State) : Out := .next (s.moultNominate)

/-- DIE_SENSOR_SAMPLE (R372). -/
def execDieSensorSample (io : Bool) (d k : Nat) (reading : Option Int) (s : State) : Out := .next (s.dieSensor io d k reading)

/-- PMBUS_READ (R373). -/
def execPmbusRead (sensor : PmbusSensor) (reading : Option Int) (s : State) : Out := .next (s.pmbus sensor reading)

/-- DIE_EVALUATION (R375). -/
def execDieEvaluation (d : Nat) (s : State) : Out := .next (s.dieEvaluation d)

/-- FAST_CURRENT_LIMIT (R377). -/
def execFastCurrentLimit (s : State) : Out := .next (s.fastLimit)

/-- LOG_RECORD_PROGRAM (R387). -/
def execLogRecordProgram (s : State) : Out := .next (s.logProgram)

/-- LOG_SECTOR_ERASE (R387). -/
def execLogSectorErase (s : State) : Out := .next (s.sectorErase)

/-- POWER_WARNING (R391). -/
def execPowerWarning (millivolts : Nat) (s : State) : Out := .next (s.powerWarning millivolts)

end Sys2Proof.Machine
end

