-- ==== Sys2Proof/Machine/Translation.lean ====
section
/-!
DEFINITION. Address translation (10_translation_and_faults.md): table entries, the two stages of a walk, the walkers'
and tiles' caches, misses and the faults that they become.
-/
namespace Sys2Proof.Machine

/-- The output of a stage-2 leaf for one address. -/
structure S2Out where
  target : Nat
  pa : Nat
  endpoint : Nat
  level : Nat
  write : Bool
  exec : Bool
  deriving DecidableEq, Repr

/-- Low bit of the address bits that a level indexes (R245); a leaf at the level maps a page of this many bits. -/
def levelShift (level : Nat) : Nat :=
  match level with
  | 0 => 39
  | 1 => 30
  | 2 => 21
  | _ => 16

/-- Index of an address in the table of a level, for an input of `n` bits. -/
def tableIndex (n level a : Nat) : Nat :=
  match level with
  | 0 => bits a (n - 1) 39
  | 1 => bits a 38 30
  | 2 => bits a 29 21
  | _ => bits a 20 16

/-- Alignment of a level-0 table: its own size or 4 KiB, the larger (R245). -/
def rootAlign (n : Nat) : Nat := Nat.max 4096 (8 * 2 ^ (n - 39))

/-- A present entry that breaks R246. -/
def entryMalformed (stage2 : Bool) (level w : Nat) : Bool :=
  let leaf := bit w 1
  let tgt := bits w 5 4
  bits w 7 6 != 0 || bits w 63 59 != 0
  || (if leaf then
        level == 0 || (!stage2 && tgt != 0) || tgt == 3
        || (tgt != 2 && bits w 58 52 != 0)
        || bits w (levelShift level - 1) 8 != 0
      else level == 3 || bits w 5 2 != 0 || bits w 58 52 != 0 || bits w 11 8 != 0)

/-- The address field of a leaf or table entry. -/
def entryAddr (w : Nat) : Nat :=
  if bit w 1 && bits w 5 4 == 2 then bits w 40 8 * 256 else bits w 51 8 * 256

/-- What a walk answers that waits for a line of part memory; no fault of R250 has this code. -/
def walkWait : XFault := ⟨255, 0, 0, 0⟩

/-- An access that a leaf's WRITE and EXEC bits permit (R246). -/
def permits (acc : Access) (write exec : Bool) : Bool :=
  match acc with
  | .read => true
  | .store | .atomic => write
  | .fetch => exec

namespace State

/-- One 8-byte read of a walk at its home: part memory, or host memory by the reply given (R247, R315). None while the
line's home makes it wait (R240, R313). -/
def walkRead (s : State) (d : Nat) (hs : HostMem) (target a : Nat) : State × Option (Nat × Bool) :=
  if target = 0 then
    match s.mustWait a 8 false with
    | some s => (s, none)
    | none =>
      let g := s.physRead (some d) a 8
      (g.s, some (fromLE g.bytes, g.poison))
  else
    match hs.find? (·.1 == a) with
    | some (_, .data bs) => (s, some (fromLE (bs.take 8), false))
    | some (_, .poisoned bs) => (s, some (fromLE (bs.take 8), true))
    | _ => (s, some (0, false))

/-- A cached entry of a walker. -/
def cached (l : List WEntry) (ctx : Option Nat) (level key : Nat) : Option Nat :=
  (l.find? fun e => e.ctx == ctx && e.level == level && e.key == key).map (·.word)

/-- Keep an entry in a walker's cache of 512. DEDUCED: notes/assumptions/44.md. -/
def keepEntry (l : List WEntry) (e : WEntry) : List WEntry :=
  let l := l.filter (fun x => !(x.ctx == e.ctx && x.level == e.level && x.key == e.key)) ++ [e]
  if 512 < l.length then l.drop 1 else l

/-- The output of stage 2 lies in the window that the context does not use (R226). -/
def windowMismatch (interleave : Option Nat) (o : S2Out) : Bool :=
  match interleave with
  | some m => o.target == 0 && (if m = 0 then decide (2 ^ 40 ≤ o.pa) && decide (o.pa < 2 ^ 41) else decide (o.pa < 2 ^ 40))
  | none => false

/-- The levels of a stage-2 walk from a table on. `table` says that the output is a stage-1 table. -/
def s2Levels (d : Nat) (hs : HostMem) (table : Bool) (interleave : Option Nat) (acc : Access) (ipa n target : Nat) :
    Nat → Nat → Nat → State → State × Except XFault S2Out
  | 0, level, _, s => (s, .error ⟨7, 1, level, ipa⟩)
  | fuel + 1, level, base, s =>
    let key := ipa / 2 ^ levelShift level
    let hit := if table then cached (s.die d).w2 none level key else none
    let (s, r) := match hit with
      | some w => (s, some (w, false))
      | none => s.walkRead d hs target (base + 8 * tableIndex n level ipa)
    match r with
    | none => (s, .error walkWait)
    | some (w, poison) =>
    if poison then (s, .error ⟨9, 1, level, ipa⟩)
    else if !bit w 0 then (s, .error ⟨4, 1, level, ipa⟩)
    else if entryMalformed true level w then (s, .error ⟨7, 1, level, ipa⟩)
    else
      let s := if table && hit.isNone then s.modDie d fun x => { x with w2 := keepEntry x.w2 ⟨none, level, key, w⟩ } else s
      if bit w 1 then
        let o : S2Out := ⟨bits w 5 4, entryAddr w + ipa % 2 ^ levelShift level,
          if bits w 5 4 = 2 then bits w 58 41 else 0, level, bit w 2, bit w 3⟩
        if !permits acc o.write o.exec then (s, .error ⟨5, 1, level, ipa⟩)
        else if table && o.target == 2 then (s, .error ⟨10, 1, level, ipa⟩)
        else if windowMismatch interleave o then (s, .error ⟨8, 1, level, ipa⟩)
        else (s, .ok o)
      else s2Levels d hs table interleave acc ipa n target fuel (level + 1) (entryAddr w) s

/-- Stage 2 of an intermediate address (R245 to R247). -/
def stage2 (s : State) (d : Nat) (hs : HostMem) (table : Bool) (interleave : Option Nat) (acc : Access) (ipa : Nat) :
    State × Except XFault S2Out :=
  let n := s.f .XLT_SETUP_IPA_BITS
  let root := s.f .XLT_S2_ROOT_ADDR * 4096
  if 2 ^ n ≤ ipa then (s, .error ⟨6, 1, 0, ipa⟩)
  else if root % rootAlign n ≠ 0 then (s, .error ⟨7, 1, 0, ipa⟩)
  else s2Levels d hs table interleave acc ipa n (s.f .XLT_S2_ROOT_TARGET) 4 0 root s

/-- The levels of a stage-1 walk from a table on, each table address translated by stage 2. -/
def s1Levels (d : Nat) (hs : HostMem) (ctx : Nat) (acc : Access) (va n : Nat) :
    Nat → Nat → Nat → State → State × Except XFault XEntry
  | 0, level, _, s => (s, .error ⟨7, 0, level, 0⟩)
  | fuel + 1, level, base, s =>
    let il := s.f .CTX_SETUP_INTERLEAVE ctx
    let key := va / 2 ^ levelShift level
    let hit := cached (s.die d).w1 (some ctx) level key
    let (s, r) : State × Except XFault (Nat × Bool) := match hit with
      | some w => (s, .ok (w, false))
      | none =>
        match s.stage2 d hs true (some il) .read (base + 8 * tableIndex n level va) with
        | (s, .error e) => (s, .error e)
        | (s, .ok o) =>
          match s.walkRead d hs o.target o.pa with
          | (s, some r) => (s, .ok r)
          | (s, none) => (s, .error walkWait)
    match r with
    | .error e => (s, .error e)
    | .ok (w, poison) =>
      if poison then (s, .error ⟨9, 0, level, 0⟩)
      else if !bit w 0 then (s, .error ⟨1, 0, level, 0⟩)
      else if entryMalformed false level w then (s, .error ⟨7, 0, level, 0⟩)
      else if bit w 1 then
        if !permits acc (bit w 2) (bit w 3) then (s, .error ⟨2, 0, level, 0⟩)
        else
          let ipa := entryAddr w + va % 2 ^ levelShift level
          match s.stage2 d hs false (some il) acc ipa with
          | (s, .error e) => (s, .error e)
          | (s, .ok o) =>
            let b := Nat.min (levelShift level) (levelShift o.level)
            (s, .ok ⟨ctx, va / 2 ^ b * 2 ^ b, b, ipa / 2 ^ b * 2 ^ b, o.target, o.pa / 2 ^ b * 2 ^ b, o.endpoint,
              bit w 2, bit w 3, level, o.write, o.exec, o.level⟩)
      else
        let s := if hit.isNone then s.modDie d fun x => { x with w1 := keepEntry x.w1 ⟨some ctx, level, key, w⟩ } else s
        s1Levels d hs ctx acc va n fuel (level + 1) (entryAddr w) s

/-- A walk of both stages for a context's virtual address (R243, R247). DESIGN CHOICE: notes/assumptions/9.md. -/
def walk (s : State) (d : Nat) (hs : HostMem) (ctx va : Nat) (acc : Access) : State × Except XFault XEntry :=
  let n := s.f .CTX_SETUP_VA_BITS ctx
  let root := s.f .CTX_S1_ROOT_ADDR ctx * 4096
  if 2 ^ n ≤ va then (s, .error ⟨3, 0, 0, 0⟩)
  else if root % rootAlign n ≠ 0 then (s, .error ⟨7, 0, 0, 0⟩)
  else s1Levels d hs ctx acc va n 4 0 root s

/-! ### Lookups, misses and faults (R248 to R250) -/

end State

/-- What a lookup gives: where the access goes, a fault from the entry, or a miss. -/
inductive XRes where
  | ok (target pa endpoint : Nat)
  | fault (f : XFault)
  | miss
  deriving DecidableEq, Repr

/-- The entry covers an address of a context. -/
def XEntry.covers (e : XEntry) (ctx va : Nat) : Bool := e.ctx == ctx && va / 2 ^ e.bits * 2 ^ e.bits == e.va

/-- What an entry gives an access (R248). -/
def XEntry.use (e : XEntry) (va : Nat) (acc : Access) : XRes :=
  if !permits acc e.w1 e.x1 then .fault ⟨2, 0, e.l1, 0⟩
  else if !permits acc e.w2 e.x2 then .fault ⟨5, 1, e.l2, e.ipa + va % 2 ^ e.bits⟩
  else .ok e.target (e.pa + va % 2 ^ e.bits) e.endpoint

namespace State

/-- A lookup in a tile's cache, without counting it. -/
def look (s : State) (p ctx va : Nat) (acc : Access) : XRes :=
  match (s.tile p).xc.find? (·.covers ctx va) with
  | some e => e.use va acc
  | none => .miss

/-- The requester has a miss or a fault that is not settled. -/
def xlWaiting (s : State) (who : Requester) (d : Nat) (p : Option Nat) : Bool :=
  (match p with
    | some p => (s.tile p).misses.any (·.who == who) || (s.tile p).sent.any (·.who == who)
    | none => false)
  || (s.die d).faultQueue.any (·.1.who == who)
  || (s.die d).entries.any (fun e => e.2.any (·.miss.who == who))

/-- The tile of a requester. -/
def tileOf : Requester → Option Nat
  | .group p _ | .stream p _ | .gather p | .sync p => some p
  | _ => none

/-- A fault waits for an entry of its die's table (R250); XLTC_FAULTS counts it for a tile's requester. -/
def raiseFault (s : State) (m : Miss) (f : XFault) : State :=
  let s := match tileOf m.who with
    | some p => s.bump .XLTC_FAULTS_COUNT p
    | none => s
  s.modDie m.die fun x => { x with faultQueue := x.faultQueue ++ [(m, f)] }

/-- Translate an access of a tile's requester: counted, and on a miss or a fault its request is left waiting. -/
def translate (s : State) (p : Nat) (m : Miss) : State × XRes :=
  let s := s.bump .XLTC_LOOKUPS_COUNT p
  match s.look p m.ctx m.va m.acc with
  | .ok t a e => (s, .ok t a e)
  | .fault f => (s.raiseFault m f, .fault f)
  | .miss => ((s.bump .XLTC_MISSES_COUNT p).modTile p fun t => { t with misses := t.misses ++ [m] }, .miss)

/-- Put a translation into a tile's cache of 2,048, in place of what it held for the page.
DEDUCED: notes/assumptions/44.md. -/
def fillTile (s : State) (p : Nat) (e : XEntry) : State :=
  s.modTile p fun t =>
    let l := t.xc.filter (fun x => !(x.covers e.ctx e.va || e.covers x.ctx x.va)) ++ [e]
    { t with xc := if 2048 < l.length then l.drop 1 else l }

/-- A replay looks in no cache for its page: what the tile and the walker held for it is dropped (R254). -/
def dropPage (s : State) (m : Miss) : State :=
  let s := match tileOf m.who with
    | some p => s.modTile p fun t => { t with xc := t.xc.filter fun x => !x.covers m.ctx m.va }
    | none => s
  s.modDie m.die fun x => { x with
    w1 := x.w1.filter (fun e => !(e.ctx == some m.ctx && e.key == m.va / 2 ^ levelShift e.level)), w2 := [] }

/-- WALK_REQUEST: the tile's oldest miss reaches its die's walker, which runs at most 64 walks (R249). -/
def walkRequest (s : State) (p : Nat) : State :=
  match (s.tile p).misses with
  | [] => s
  | m :: rest =>
    let s := s.modTile p fun t => { t with misses := rest, sent := t.sent ++ [m] }
    let x := s.die m.die
    let joins := x.walks.any fun w => w.ctx == m.ctx && w.va / 65536 == m.va / 65536
    if joins || decide (64 ≤ x.walks.length) then s.modDie m.die fun x => { x with queued := x.queued ++ [m] }
    else (s.modDie m.die fun x => { x with walks := x.walks ++ [m] }).bump .XLT_WALKS_COUNT

/-- A queued miss that no running walk covers starts its own. -/
def startWalk (s : State) (d : Nat) : State :=
  let x := s.die d
  if 64 ≤ x.walks.length then s
  else match x.queued.find? fun m => !(x.walks.any fun w => w.ctx == m.ctx && w.va / 65536 == m.va / 65536) with
    | some m => (s.modDie d fun x => { x with walks := x.walks ++ [m], queued := x.queued.erase m }).bump .XLT_WALKS_COUNT
    | none => s

/-- FAULT_ENTRY_ALLOCATE: the oldest waiting fault takes a free entry of the table of 512 (R250). -/
def faultAllocate (s : State) (d waited : Nat) : State :=
  let x := s.die d
  let i := freeTag (FMap.keys x.entries) 512 0
  match x.faultQueue with
  | [] => s
  | (m, f) :: rest =>
    if 512 ≤ i then s
    else
      let s := s.bump .XLT_TABLE_FULL_CYCLES_COUNT 0 waited
      let s := s.modDie d fun x => { x with faultQueue := rest, entries := x.entries.put none i (some ⟨m, f, s.nextId, none, false⟩) }
      { s with nextId := s.nextId + 1 }

end State

/-! ### Meanings -/

/-- WALK_REQUEST (R249). -/
def execWalkRequest (p : Nat) (s : State) : Out := .next (s.walkRequest p)

/-- FAULT_ENTRY_ALLOCATE (R250). -/
def execFaultEntryAllocate (d waited : Nat) (s : State) : Out := .next (s.faultAllocate d waited)

end Sys2Proof.Machine
end

