-- ==== Sys2Proof/Machine/Queues.lean ====
section
/-!
DEFINITION. Contexts, submission and completion queues, descriptors, items and objects
(11_host_queues_and_objects.md): set-up, fetching, start-time checks, dispatch, completion, the object table, the
error ring and interrupt holdoffs.
-/
namespace Sys2Proof.Machine

/-! ### Descriptors (R277 to R285, R294, R295) -/

/-- Word `w` of a descriptor. -/
def Desc.w (d : Desc) (w : Nat) : Nat := nth 0 d.words w
/-- The 64-bit field at word `w`. -/
def Desc.q64 (d : Desc) (w : Nat) : Nat := d.w w + 2 ^ 32 * d.w (w + 1)
def Desc.opcode (d : Desc) : Nat := bits (d.w 0) 7 0
def Desc.count (d : Desc) : Nat := bits (d.w 0) 13 8 + 1
def Desc.ordered (d : Desc) : Bool := bit (d.w 0) 14
def Desc.irq (d : Desc) : Bool := bit (d.w 0) 15
def Desc.waitEn (d : Desc) : Bool := bit (d.w 0) 16
def Desc.signalEn (d : Desc) : Bool := bit (d.w 0) 17
def Desc.stride (d : Desc) : Nat := bits (d.w 12) 31 16
def Desc.list (d : Desc) : Bool := bit (d.w 12) 31
def Desc.itemBytes (d : Desc) : Nat := bits (d.w 12) 30 0

/-- The body of an opcode keeps its layout (R258, R279, R283 to R285, R294, R295). -/
def bodyOk (op : Nat) (d : Desc) : Bool :=
  match op with
  | 0x01 => d.q64 8 % 64 == 0 && d.q64 10 % 64 == 0 && bits (d.w 12) 7 0 != 0 && bits (d.w 12) 15 8 == 0
      && d.stride % 64 == 0 && d.stride != 0 && d.w 13 == 0
  | 0x02 => d.q64 8 % 64 == 0 && (if d.list then d.q64 10 == 0 else d.q64 10 % 64 == 0)
      && d.itemBytes % 64 == 0 && d.itemBytes != 0 && bits (d.w 13) 31 3 == 0
  | 0x03 => d.q64 8 % 64 == 0 && d.w 10 == 0 && d.w 11 == 0 && d.w 12 == 0 && bits (d.w 13) 7 3 == 0 && bits (d.w 13) 31 12 == 0
  | 0x04 => d.q64 8 % 64 == 0 && d.w 10 == 0 && d.w 11 == 0 && d.w 12 == 0 && bits (d.w 13) 31 3 == 0
  | 0x05 => (span 8 8).all fun w => d.w w == 0
  | 0x06 =>
    let k := bits (d.w 8) 1 0
    bits (d.w 8) 31 8 == 0 && d.w 9 == 0 && d.w 14 == 0 && d.w 15 == 0
    && (if k == 1 || k == 3 then bits (d.w 8) 7 2 == 0 else true)
    && (if k ≤ 1 then d.q64 10 % 65536 == 0 && d.q64 12 % 65536 == 0 && d.q64 12 != 0
        else d.q64 10 == 0 && d.q64 12 == 0)
  | 0x07 =>
    d.q64 8 % 65536 == 0 && d.q64 10 % 65536 == 0 && d.q64 10 != 0 && d.q64 12 % 4096 == 0
    && (bit (d.w 14) 20 || d.q64 12 == 0) && bits (d.w 14) 31 21 == 0 && d.w 15 == 0 && bits (d.w 14) 19 0 != 0
  | 0x08 => (span 9 7).all fun w => d.w w == 0
  | _ => false

/-- A descriptor that keeps its layout (R14, R277, R278). -/
def Desc.wellFormed (d : Desc) : Bool :=
  bits (d.w 0) 31 18 == 0 && d.w 3 == 0
  && (d.waitEn || (bits (d.w 2) 15 0 == 0 && d.q64 4 == 0))
  && (d.signalEn || (bits (d.w 2) 31 16 == 0 && d.q64 6 == 0))
  && (decide (d.opcode < 5) || d.count == 1) && bodyOk d.opcode d

/-- Virtual address of the STATUS word of an item, where it has one (R281, R283, R284). -/
def Desc.statusVa (d : Desc) (i : Nat) : Option Nat :=
  match d.opcode with
  | 0x01 => some ((d.q64 10 + i * d.stride + 4) % 2 ^ 64)
  | 0x02 => if d.list then some ((d.q64 8 + 32 * i + 28) % 2 ^ 64) else none
  | 0x03 | 0x04 => some ((d.q64 8 + 64 * i + 60) % 2 ^ 64)
  | _ => none

namespace State

/-! ### Accesses of the command processors -/

end State

/-- Where a ring or line address leads: to host memory, nowhere that serves, or the walk must wait. -/
inductive RingTo where
  | at (pa : Nat)
  | absent
  | wait
  deriving DecidableEq, Repr

namespace State

/-- Stage 2 of a ring or line address; only a host-memory output serves (R256, R269, R275, R290). -/
def ringAddr (s : State) (d : Nat) (hs : HostMem) (ipa : Nat) (acc : Access) : State × RingTo :=
  match s.stage2 d hs false none acc ipa with
  | (s, .ok o) => (s, if o.target = 1 then .at o.pa else .absent)
  | (s, .error f) => (s, if f = walkWait then .wait else .absent)

/-- The reply to a read of host memory. -/
def hostReply (hs : HostMem) (a : Nat) : ExtReply :=
  match hs.find? (·.1 == a) with
  | some (_, r) => r
  | none => .failed

/-- Read a ring slot or line: none while the walk waits, `some none` where it cannot be read. -/
def ringRead (s : State) (d : Nat) (hs : HostMem) (ipa n : Nat) : State × Option (Option (Nat × List Byte × Bool)) :=
  match s.ringAddr d hs ipa .read with
  | (s, .wait) => (s, none)
  | (s, .absent) => (s, some none)
  | (s, .at a) =>
    match hostReply hs a with
    | .data bs => (s, some (some (a, fit n bs, false)))
    | .poisoned bs => (s, some (some (a, fit n bs, true)))
    | .failed => (s, some none)

end State

/-- Key under which a reply from another part's memory stands in a `HostMem`. -/
def remoteKey (endpoint pa : Nat) : Nat := 2 ^ 64 + endpoint * 2 ^ 41 + pa

/-- What a command processor's read of virtual memory gives: bytes and failure code, or a fault that it waits for. -/
inductive CpRead where
  | got (bytes : List Byte) (code : Nat) (poison : Bool)
  | wait
  deriving DecidableEq, Repr

namespace State

/-- A fault of a command processor's or codec engine's access: its item stalls and replays (R244). -/
def vFault (s : State) (who : Requester) (d ctx va : Nat) (acc : Access) (e : XFault) : State :=
  if e = walkWait ∨ s.xlWaiting who d none then s else s.raiseFault ⟨who, d, ctx, va, acc, 0, false⟩ e

/-- A read of `n` bytes within one 64-byte line of a context's virtual memory, on die `d`. -/
def vRead (s : State) (who : Requester) (d ctx va n : Nat) (hs : HostMem) : State × CpRead :=
  if s.xlWaiting who d none then (s, .wait)
  else match s.walk d hs ctx va .read with
  | (s, .error e) => (s.vFault who d ctx va .read e, .wait)
  | (s, .ok x) =>
    let pa := x.pa + va % 2 ^ x.bits
    if x.target = 0 then
      match s.mustWait pa n false with
      | some s => (s, .wait)
      | none =>
        let g := s.physRead (some d) pa n
        (g.s, .got g.bytes (if g.absent then stMemAbsent else 0) g.poison)
    else
      match hostReply hs (if x.target = 1 then pa else remoteKey x.endpoint pa) with
      | .data bs => (s, .got (fit n bs) 0 false)
      | .poisoned _ => (s, .got (rep n 0) 0 true)
      | .failed => (s, .got (rep n 0) (if x.target = 1 then stHostFailed else stDestDead) false)

/-- A write within one line of a context's virtual memory; false where it waits for a fault or a snoop. The last
component says that the address was unmapped. -/
def vWrite (s : State) (who : Requester) (d ctx va : Nat) (bs : List Byte) (hs : HostMem) (owner : Owner)
    (item : Option (Nat × Nat × Nat)) : State × Bool × Bool :=
  if s.xlWaiting who d none then (s, false, false)
  else match s.walk d hs ctx va .store with
  | (s, .error e) => (s.vFault who d ctx va .store e, false, false)
  | (s, .ok x) =>
    let pa := x.pa + va % 2 ^ x.bits
    if x.target = 0 then
      match s.mustWait pa bs.length true with
      | some s => (s, false, false)
      | none =>
        let (s, a) := s.physWrite (some d) pa bs
        (s.snoopShared pa bs.length owner, true, a)
    else if x.target = 1 then (s.hostWrite pa bs owner item, true, false)
    else (s.fabReq 1 pa bs.length bs 0 false x.endpoint owner item (some ctx), true, false)

/-! ### Contexts (R265, R267) -/

/-- State of a context. -/
def ctxState (s : State) (c : Nat) : Nat := s.f .CTX_STATUS_STATE c

/-- OPEN. -/
def ctxOpen (s : State) (c : Nat) : State :=
  if c < 64 ∧ s.ctxState c = 0 then s.setF .CTX_STATUS_STATE c 1 else s

/-- START. -/
def ctxStart (s : State) (c : Nat) : State :=
  if c < 64 ∧ s.ctxState c = 1 then s.setF .CTX_STATUS_STATE c 2 else s

/-- Enabled queues of a context. -/
def sqsOf (s : State) (c : Nat) : List Nat :=
  (List.range 1024).filter fun q => s.flag .QUE_SQ_CTRL_ENABLE q && s.f .QUE_SQ_SETUP_CONTEXT q == c
def cqsOf (s : State) (c : Nat) : List Nat :=
  (List.range 1024).filter fun q => s.flag .QUE_CQ_CTRL_ENABLE q && s.f .QUE_CQ_SETUP_CONTEXT q == c

/-! ### Invalidations (R258, R259) -/

/-- The present participants of an invalidation. -/
def participants (s : State) : List InvParticipant :=
  ((List.range (104 * s.variant.dies)).map fun p => InvParticipant.tile p)
  ++ ((List.range s.variant.dies).map fun d => InvParticipant.walker d)
  ++ ((List.range s.variant.dies).map fun d => InvParticipant.cp d)
  ++ ((List.range s.variant.codecs).map fun d => InvParticipant.codec d)

/-- An entry of a tile's cache, of a walker's stage-1 cache, of its stage-2 cache that an invalidation removes (R258). -/
def tileRemoved (kind ctx start length : Nat) (e : XEntry) : Bool :=
  match kind with
  | 0 => e.ctx == ctx && decide (e.va < start + length) && decide (start < e.va + 2 ^ e.bits)
  | 1 => decide (e.ipa < start + length) && decide (start < e.ipa + 2 ^ e.bits)
  | 2 => e.ctx == ctx
  | _ => true
def walkerRemoved (kind ctx : Nat) (e : WEntry) : Bool := kind == 1 || kind == 3 || e.ctx == some ctx

/-- An invalidation is sent to every participant and reaches each at once: the entries it names go, and a walk under way
ends without a result, its miss to be sent again (R260). -/
def sendInval (s : State) (kind ctx start length : Nat) (desc : Option (Nat × Nat)) (destroys : Option Nat) : State :=
  let gone := tileRemoved kind ctx start length
  let pages := (List.range (104 * s.variant.dies)).flatMap fun p => ((s.tile p).xc.filter gone).map fun e =>
    (⟨p, (s.tile p).thr.nextStore, e.target, e.pa, e.bits, e.endpoint⟩ : InvPage)
  let i : Inval := ⟨s.nextId, kind, ctx, start, length, s.participants, pages, s.nextId, desc, destroys⟩
  let s := { s with nextId := s.nextId + 1, invals := s.invals ++ [i] }
  let s := s.forEach (List.range (104 * s.variant.dies)) fun s p =>
    let n := (s.tile p).sent.length
    (s.modTile p fun t => { t with xc := t.xc.filter (fun e => !gone e), misses := t.sent ++ t.misses, sent := [] }).bump
      .XLTC_MISSES_COUNT p n
  s.forEach (List.range s.variant.dies) fun s d => s.modDie d fun x => { x with
    walks := [], queued := [], w1 := x.w1.filter (fun e => !walkerRemoved kind ctx e),
    w2 := x.w2.filter fun e => !walkerRemoved kind ctx e }

/-! ### Memory objects (R292 to R296) -/

/-- Physical address of the object table. -/
def tableBase (s : State) : Nat := s.f .OBJ_TABLE_BASE_ADDR * 2 ^ 25

/-- The eight words of an entry. -/
def objEntry (s : State) (slot : Nat) : List Nat :=
  match s.cellOf (s.tableBase + 32 * slot) with
  | some c => bytesWords 8 (s.memBytes c 32)
  | none => rep 8 0

/-- Write an entry in one access at its home. -/
def setObj (s : State) (slot : Nat) (ws : List Nat) : State :=
  (s.physWrite (some 0) (s.tableBase + 32 * slot) (wordBytes (fitW 8 ws))).1

/-- A handle is stale: its slot not LIVE, or its instar another (R296). -/
def stale (s : State) (h : Nat) : Bool :=
  let w := nth 0 (s.objEntry (bits h 19 0)) 0
  h != 0 && (!bit w 12 || bits w 11 0 != bits h 31 20)

/-- The slots of the table that memory lists a byte of. -/
def listedSlots (s : State) : List Nat :=
  ((s.mem.flatMap fun c => [s.dieLocal c.1, s.packageWide c.1]).filterMap fun a =>
    if s.tableBase ≤ a ∧ a < s.tableBase + 2 ^ 25 then some ((a - s.tableBase) / 32) else none).eraseDups

/-- The die controllers give up an object's ranges; refetches under way for it fail (R234, R295). -/
def withdraw (s : State) (handle : Nat) : State :=
  s.forEach (List.range 8) fun s d => s.modDie d fun x => { x with
    reloads := x.reloads.filter (·.handle != handle),
    refetches := x.refetches.map fun y => if y.handle = handle then { y with released := true } else y }

/-- Release a live slot: LIVE clear, INSTAR up by one, RETIRED at 4,095 (R295). -/
def releaseSlot (s : State) (slot : Nat) : State :=
  let ws := s.objEntry slot
  let w := nth 0 ws 0
  let inst := (bits w 11 0 + 1) % 4096
  let w' := inst + bits w 31 13 * 2 ^ 13
  let w' := if inst = 4095 then setBit w' 14 else w'
  (s.setObj slot (ws.set 0 w')).withdraw (slot + bits w 11 0 * 2 ^ 20)

/-- The live slots of the table; none until it is READY (R293). -/
def liveSlots (s : State) : List Nat :=
  if s.flag .OBJ_STATUS_READY then s.listedSlots.filter fun k => bit (nth 0 (s.objEntry k) 0) 12 else []

/-- A host line is no longer held or read again. -/
def dropLine (s : State) (l : HostLine) : State :=
  s.modCp fun c => { c with lines := c.lines.filter (·.1 != l), stale := c.stale.filter (· != l) }

/-- DESTROY (R267): the completion queues are disabled and the context invalidated; `destroyed` ends it. -/
def ctxDestroy (s : State) (c : Nat) : State :=
  if c < 64 ∧ (s.ctxState c = 1 ∨ s.ctxState c = 4) ∧ !(s.invals.any (·.destroys == some c)) then
    let s := s.forEach (s.cqsOf c) fun s q =>
      ((s.setFlag .QUE_CQ_CTRL_ENABLE q false).setF .QUE_CQ_STATUS_STATE q 0).dropLine (.cqConsumer q)
    s.sendInval 2 c 0 0 none (some c)
  else s

/-- The context invalidation of a DESTROY has completed: objects released, set-up and fault state back at reset, FREE. -/
def destroyed (s : State) (c : Nat) : State :=
  let s := s.forEach (s.liveSlots.filter fun k => bits (nth 0 (s.objEntry k) 0) 20 15 == c) fun s k => s.releaseSlot k
  let s := s.forEach [Fld.CTX_FAULT_HALT, .CTX_FAULT_DEST_DEAD, .CTX_FAULT_UNSERVICEABLE, .CTX_FAULT_HALT_TILE,
    .CTX_FAULT_HALT_REASON, .CTX_FAULT_ENDPOINT_ENDPOINT, .CTX_SETUP_VA_BITS, .CTX_SETUP_INTERLEAVE,
    .CTX_SETUP_STOP_ON_FAULT, .CTX_S1_ROOT_ADDR, .CTX_STATUS_STATE] fun s x => s.setF x c x.info.reset
  s

/-- OBJ_TABLE_BASE is written: a new table starts empty (R293). -/
def objTableBase (s : State) (v : Nat) : State :=
  if s.flag .CLK_LOCK_SETUP_LOCK then s
  else
    let s := (s.setF .OBJ_TABLE_BASE_ADDR 0 (bits v 51 25)).setFlag .OBJ_STATUS_READY 0 false
    let s := s.forEach (List.range 8) fun s d => s.modDie d fun x =>
      let r := x.refetches.map fun y => { y with released := true }
      { x with reloads := [], refetches := r }
    s.modCp fun c => { c with tableZeroing := true }

/-- OBJECT_TABLE_READY: the table at the new base has been zeroed. -/
def objTableReady (s : State) : State :=
  if !s.cp.tableZeroing then s
  else
    let s := s.forEach s.listedSlots fun s k => s.setObj k []
    (s.modCp fun c => { c with tableZeroing := false }).setFlag .OBJ_STATUS_READY 0 true

/-! ### Queue set-up (R273, R275) -/

/-- Serving die of a queue. -/
def serveDie (s : State) (q : Nat) : Nat := s.f .QUE_SQ_SETUP_SERVE_DIE q

/-- SQ_ENABLE: a write of 1 to ENABLE. -/
def sqEnable (s : State) (q : Nat) : State :=
  if 1024 ≤ q ∨ s.flag .QUE_SQ_CTRL_ENABLE q then s
  else
    let c := s.f .QUE_SQ_SETUP_CONTEXT q
    let cq := s.f .QUE_SQ_SETUP_CQ q
    let base := s.f .QUE_SQ_BASE_ADDR q * 4096
    let ok := s.ctxState c == 2 && s.flag .QUE_CQ_CTRL_ENABLE cq && s.f .QUE_CQ_SETUP_CONTEXT cq == c
      && s.variant.hasDie (s.serveDie q) && base % (64 * 2 ^ s.f .QUE_SQ_SETUP_SIZE_LOG2 q) == 0
      && decide ((s.sqsOf c).length < 16)
    if ok then
      let s := (s.setFlag .QUE_SQ_CTRL_ENABLE q true).setF .QUE_SQ_STATUS_STATE q 1
      s.modCp fun x => { x with sqs := x.sqs.put ⟨0, false, none⟩ q ⟨0, false, none⟩, stale := x.stale ++ [.doorbell q] }
    else s.setFlag .QUE_SQ_CTRL_SETUP_ERROR q true

/-- SQ_DISABLE: a write of 0 stops fetching at once; the queue drains. -/
def sqDisable (s : State) (q : Nat) : State :=
  if 1024 ≤ q ∨ !s.flag .QUE_SQ_CTRL_ENABLE q then s
  else
    let s := (s.setFlag .QUE_SQ_CTRL_ENABLE q false).dropLine (.doorbell q)
    s.setF .QUE_SQ_STATUS_STATE q (if s.inflight q = 0 then 0 else 2)

/-- CQ_ENABLE: a write of 1 enables a disabled queue or restarts a stopped one. -/
def cqEnable (s : State) (q : Nat) : State :=
  if 1024 ≤ q ∨ (s.flag .QUE_CQ_CTRL_ENABLE q && s.f .QUE_CQ_STATUS_STATE q == 1) then s
  else
    let c := s.f .QUE_CQ_SETUP_CONTEXT q
    let base := s.f .QUE_CQ_BASE_ADDR q * 2048
    let ok := s.ctxState c == 2 && base % (32 * 2 ^ s.f .QUE_CQ_SETUP_SIZE_LOG2 q) == 0
      && (s.flag .QUE_CQ_CTRL_ENABLE q || decide ((s.cqsOf c).length < 16))
    if ok then
      let s := (s.setFlag .QUE_CQ_CTRL_ENABLE q true).setF .QUE_CQ_STATUS_STATE q 1
      (s.dropLine (.cqConsumer q)).modCp fun x => { x with
        stale := x.stale ++ [.cqConsumer q], cqs := x.cqs.upd .reset q fun y => { y with consumer := none } }
    else s.setFlag .QUE_CQ_CTRL_SETUP_ERROR q true

/-- CQ_DISABLE: ignored while an enabled submission queue names the queue. -/
def cqDisable (s : State) (q : Nat) : State :=
  if 1024 ≤ q ∨ !s.flag .QUE_CQ_CTRL_ENABLE q
      ∨ (List.range 1024).any (fun k => s.flag .QUE_SQ_CTRL_ENABLE k && s.f .QUE_SQ_SETUP_CQ k == q) then s
  else ((s.setFlag .QUE_CQ_CTRL_ENABLE q false).setF .QUE_CQ_STATUS_STATE q 0).dropLine (.cqConsumer q)

/-- A submission queue stops (R269): cause 1 ring access, 2 doorbell range. -/
def sqStop (s : State) (q cause : Nat) : State :=
  (s.setF .QUE_SQ_STATUS_STATE q 3).errRec 3 (some (s.f .QUE_SQ_SETUP_CONTEXT q)) [q + cause * 4096]

/-! ### Host lines (R270) -/

/-- Intermediate address of a host line, and the die of the command processor that holds it. -/
def lineIpa (s : State) : HostLine → Nat × Nat
  | .doorbell q => (s.f .QUE_SQ_DOORBELL_ADDR q * 64, s.serveDie q)
  | .cqConsumer q => (s.f .QUE_CQ_CONS_LINE_ADDR q * 64, 0)
  | .eringConsumer => (s.f .QUE_ERING_CONS_LINE_ADDR * 64, 0)
  | .fringConsumer => (s.f .XLT_FRING_CONS_LINE_ADDR * 64, 0)
  | .rringProducer => (s.f .XLT_RRING_PROD_LINE_ADDR * 64, 0)

/-- The XLT rings stop (R256). -/
def ringFault (s : State) : State := s.ringFailed .fring

/-- The line cannot be read: its queue or ring stops. -/
def lineFailed (s : State) : HostLine → State
  | .doorbell q => s.sqStop q 1
  | .cqConsumer q => s.ringFailed (.cq q)
  | .eringConsumer => s.setFlag .QUE_ERING_STATUS_RING_FAULT 0 true
  | .fringConsumer | .rringProducer => s.ringFault

/-- A pending count within a ring: (P − C) mod 2^32. -/
def ringAhead (p c : Nat) : Nat := (p + 2 ^ 32 - c) % 2 ^ 32

/-- The value read from a line takes effect. -/
def lineValue (s : State) (l : HostLine) (v : Nat) : State :=
  match l with
  | .doorbell q =>
    let s := s.modCp fun c => { c with sqs := c.sqs.upd ⟨0, false, none⟩ q fun x => { x with producer := v, known := true } }
    if (s.cp.sqs.get ⟨0, false, none⟩ q).latched = none
        ∧ 2 ^ s.f .QUE_SQ_SETUP_SIZE_LOG2 q < ringAhead v (s.f .QUE_SQ_CONSUMER_INDEX q) then s.sqStop q 2 else s
  | .cqConsumer q => s.modCp fun c => { c with cqs := c.cqs.upd .reset q fun x => { x with consumer := some v } }
  | .eringConsumer => s.modCp fun c => { c with errConsumer := some v }
  | .fringConsumer => s.modCp fun c => { c with fringConsumer := some v }
  | .rringProducer =>
    let s := s.modCp fun c => { c with rringProducer := v }
    if 2 ^ s.f .XLT_SETUP_RRING_LOG2 < ringAhead v (s.f .XLT_RRING_NEXT_COUNT) then s.ringFault else s

/-- HOST_LINE_REREAD: a line invalidated, or not yet read, is read with RDS and held shared. -/
def lineReread (s : State) (l : HostLine) (hs : HostMem) : State :=
  let (ipa, d) := s.lineIpa l
  let stopped := match l with
    | .doorbell q => !s.flag .QUE_SQ_CTRL_ENABLE q || s.f .QUE_SQ_STATUS_STATE q != 1
    | .cqConsumer q => !s.flag .QUE_CQ_CTRL_ENABLE q || s.f .QUE_CQ_STATUS_STATE q != 1
    | .eringConsumer => !s.flag .QUE_ERING_SETUP_ENABLE || s.flag .QUE_ERING_STATUS_RING_FAULT
    | .fringConsumer | .rringProducer => s.flag .XLT_STATUS_RING_FAULT
  if stopped || !s.procRunning (2 + d) || s.cp.lines.any (·.1 == l) then s
  else match s.ringRead d hs ipa 64 with
  | (s, none) => s
  | (s, some none) => s.lineFailed l
  | (s, some (some (a, bs, _))) =>
    ((s.dropLine l).modCp fun c => { c with lines := c.lines ++ [(l, a)] }).lineValue l (fromLE (bs.take 4))

/-! ### Items and completion (R286 to R288) -/

/-- The words of a completion record without PHASE. -/
def recordWords (d : Desc) : List Nat :=
  let n := if d.poisoned then 1 else d.count
  let code := fun i => if d.poisoned then stMemPoison else if d.malformed then stDescMalformed
    else ((d.items[i]?).map (·.code)).getD 0
  let mask := (List.range n).foldl (fun m i => if code i = 0 then m else m + 2 ^ i) 0
  let first := ((List.range n).find? fun i => code i != 0).map code
  [mask % 2 ^ 32, mask / 2 ^ 32, d.result, 0, if d.poisoned then 0 else d.w 1, d.n,
   d.q + d.ctx * 2 ^ 10 + (n - 1) * 2 ^ 16, first.getD 0]

/-- A descriptor has completed: its items are counted, its record waits in the completion queue (R275). -/
def complete (s : State) (q n : Nat) : State :=
  match s.desc? q n with
  | none => s
  | some d =>
    let ws := recordWords d
    let cnt := bits (nth 0 ws 6) 21 16 + 1
    let bad := ((List.range cnt).filter fun i => bit (nth 0 ws 0 + 2 ^ 32 * nth 0 ws 1) i).length
    let s := (s.bump .CTX_ITEMS_FAILED_COUNT d.ctx bad).bump .CTX_ITEMS_DONE_COUNT d.ctx (cnt - bad)
    let s := s.bump .OBJ_STALE_ITEMS_COUNT 0 (if d.malformed || d.poisoned then 0 else (d.items.filter (·.code == stObjStale)).length)
    let s := s.modDesc q n fun d => { d with stage := .complete }
    let r : HeldRec := ⟨ws, q, n, d.irq && !d.poisoned⟩
    s.modCp fun c => { c with cqs := c.cqs.upd .reset d.cq fun x => { x with held := x.held ++ [r] } }

/-- An item that an abort has failed is counted for the error record of R266. -/
def countAborted (s : State) (q n i : Nat) : State :=
  match s.desc? q n with
  | some d => if (d.items[i]?).any fun it => it.stage != .ended && it.code == stCtxAborted then
      s.modCp fun c => { c with aborted := c.aborted.upd 0 d.ctx (· + 1) }
    else s
  | none => s

/-- An item ends with the code it has; the last one completes its descriptor. -/
def endItem (s : State) (q n i : Nat) : State :=
  let s := s.countAborted q n i
  let s := s.modDesc q n fun d => d.modItem i fun it => { it with stage := .ended }
  match s.desc? q n with
  | some d => if d.stage == .started && d.items.all (·.stage == .ended) then s.complete q n else s
  | none => s

/-- An item has run: it ends once its stores are performed at SYSTEM scope or have failed (R202). -/
def drainItem (s : State) (q n i : Nat) (ids : List Nat) : State :=
  if s.outstanding ids = [] then s.endItem q n i
  else s.modDesc q n fun d => d.modItem i fun it => { it with stage := .draining, stores := ids }

/-- End the items whose stores have all been settled. DEDUCED: notes/assumptions/75.md. -/
def settleItems (s : State) : State :=
  s.forEach (s.cp.descs.flatMap fun d => (List.range d.items.length).filterMap fun i =>
      match d.items[i]? with
      | some it => if it.stage = .draining then some (d.q, d.n, i, it.stores) else none
      | none => none)
    fun s x => if s.outstanding x.2.2.2 = [] then s.endItem x.1 x.2.1 x.2.2.1 else s

/-- Every item that has met no failure fails with a code. -/
def failAll (s : State) (q n code : Nat) : State :=
  s.modDesc q n fun d => { d with items := d.items.map (·.fail code) }

/-- End every item that has failed before it ran, from item 0 up. -/
def endFailed (s : State) (q n : Nat) : State :=
  match s.desc? q n with
  | none => s
  | some d => s.forEach (List.range d.items.length) fun s i =>
      match (s.desc? q n).bind (·.items[i]?) with
      | some it => if it.code ≠ 0 ∧ it.stage = .fresh then s.endItem q n i else s
      | none => s

/-! ### Fetching (R269, R271, R272, R287) -/

/-- A queue fetched up to the index that an abort latched, or stopped before it, is disabled (R266).
DEDUCED: notes/assumptions/54.md. -/
def latchedDone (s : State) (q : Nat) : State :=
  match (s.cp.sqs.get ⟨0, false, none⟩ q).latched with
  | some n => if n = s.f .QUE_SQ_CONSUMER_INDEX q ∨ s.f .QUE_SQ_STATUS_STATE q = 3 then s.sqDisable q else s
  | none => s

/-- DESCRIPTOR_FETCH: the next descriptor of a queue is read from its ring. -/
def descriptorFetch (s : State) (q : Nat) (hs : HostMem) : State :=
  let x := s.cp.sqs.get ⟨0, false, none⟩ q
  let c := s.f .QUE_SQ_CONSUMER_INDEX q
  let ctx := s.f .QUE_SQ_SETUP_CONTEXT q
  let d := s.serveDie q
  let limit := x.latched.getD x.producer
  let size := 2 ^ s.f .QUE_SQ_SETUP_SIZE_LOG2 q
  if 1024 ≤ q ∨ !s.flag .QUE_SQ_CTRL_ENABLE q ∨ s.f .QUE_SQ_STATUS_STATE q ≠ 1 ∨ (!x.known && x.latched.isNone)
      ∨ c = limit ∨ size < ringAhead limit c ∨ 256 ≤ s.inflight q ∨ !s.procRunning (2 + d) ∨ !s.stacksOpen d then s
  else match s.ringRead d hs (s.f .QUE_SQ_BASE_ADDR q * 4096 + 64 * (c % size)) 64 with
  | (s, none) => s
  | (s, some none) => (s.sqStop q 1).latchedDone q
  | (s, some (some (_, bs, poison))) =>
    let words := bytesWords 16 bs
    let d0 : Desc := ⟨q, c, ctx, s.f .QUE_SQ_SETUP_CQ q, d, s.f .QUE_SQ_SETUP_PRIORITY q, words, .fetched, false, [], false,
      poison, 0, false, [], 0, 0⟩
    let bad := !poison && !d0.wellFormed
    let d1 : Desc := { d0 with malformed := bad, waitDone := !d0.waitEn,
                               items := rep (if poison then 1 else d0.count) ⟨.fresh, 0, false, 0, 0, [], []⟩ }
    let s := (s.modCp fun y => { y with descs := y.descs ++ [d1] }).setF .QUE_SQ_CONSUMER_INDEX q ((c + 1) % 2 ^ 32)
    let s := if bad || poison then s.complete q c
    else if s.ctxState ctx = 3 then
      ((s.modDesc q c fun d => { d with stage := .started, aborted := true }).failAll q c stCtxAborted).endFailed q c
    else s
    s.latchedDone q

/-- The context is held under R268. -/
def ctxHeld (s : State) (c : Nat) : Bool :=
  s.flag .CTX_SETUP_STOP_ON_FAULT c
  && (s.flag .CTX_FAULT_HALT c || s.flag .CTX_FAULT_DEST_DEAD c || s.flag .CTX_FAULT_UNSERVICEABLE c)

/-- A fetched descriptor may start (R272). -/
def ready (s : State) (d : Desc) : Bool :=
  d.stage == .fetched && d.waitDone && !s.ctxHeld d.ctx
  && (!d.ordered || !((s.cp.descs.takeWhile fun e => !(e.q == d.q && e.n == d.n)).any fun e =>
        e.q == d.q && (e.stage == .fetched || e.stage == .started)))

/-- The descriptor that a command processor starts next: the highest priority, round robin among equals, the oldest of
its queue (R272). -/
def nextStart (s : State) (d : Nat) : Option (Nat × Nat) :=
  let rs := s.cp.descs.filter fun x => x.die == d && s.ready x
  let top := rs.foldl (fun m x => Nat.max m x.priority) 0
  let rs := rs.filter (·.priority == top)
  let last := s.cp.lastServed.get 0 (d * 4 + top)
  let dist := fun (x : Desc) => (x.q + 1024 - (last + 1) % 1024) % 1024
  (rs.foldl (fun b x => match b with
    | some y => if dist x < dist y then some x else b
    | none => some x) none).map fun x => (x.q, x.n)

/-- The descriptor `(q, n)` of an opcode, when it is the one to start, or has started and has items that still check;
with it the state in which the items whose stores are settled have ended.
DESIGN CHOICE: notes/assumptions/9.md; DEDUCED: notes/assumptions/75.md. -/
def starting (s : State) (q n op : Nat) : Option (State × Desc) :=
  let s := s.settleItems
  match s.desc? q n with
  | some d =>
    if d.opcode = op ∧ s.procRunning (2 + d.die) ∧ (s.nextStart d.die = some (q, n)
        ∨ (d.stage = .started ∧ d.items.any fun it => it.stage == .fresh)) then some (s, d) else none
  | none => none

/-- The descriptor starts. -/
def begin_ (s : State) (d : Desc) : State :=
  (s.modDesc d.q d.n fun d => { d with stage := .started }).modCp fun c =>
    { c with lastServed := c.lastServed.put 0 (d.die * 4 + d.priority) d.q }

/-- READY, or the descriptor names no handle (R293). -/
def handlesReady (s : State) (h0 h1 : Nat) : Bool := s.flag .OBJ_STATUS_READY || (h0 == 0 && h1 == 0)

/-- Items of a descriptor that still check. -/
def freshItems (s : State) (q n : Nat) : List Nat :=
  match s.desc? q n with
  | some d => (List.range d.items.length).filter fun i => (d.items[i]?).any fun it => it.stage == .fresh && it.code == 0
  | none => []

/-- An item waits to be dispatched on a die (R272). -/
def enqueue (s : State) (d : Desc) (die i src dst : Nat) : State :=
  let s := s.modDesc d.q d.n fun d => d.modItem i fun it => { it with stage := .waiting, src := src, dst := dst }
  if d.opcode = 3 ∨ d.opcode = 4 then s.modDie die fun x => { x with codec := x.codec ++ [(d.q, d.n, i)] }
  else s.modDie die fun x => { x with waiting := x.waiting ++ [(d.priority, d.q, d.n, i)] }

/-- Die of item `i` of a LAUNCH: the (i mod k)-th set bit of DIE_MASK (R282). -/
def launchDie (mask i : Nat) : Nat :=
  let l := (List.range 8).filter (bit mask)
  nth 0 l (i % l.length)

/-- Check the layout and handles of item `i` against what was read, then let it wait on its die, or fail it (R441). -/
def checkItem (s : State) (d : Desc) (i : Nat) (r : CpRead) : State :=
  match r with
  | .wait => s
  | .got bs code poison =>
    let ws := bytesWords (bs.length / 4) bs
    let w := fun k => nth 0 ws k
    let q64 := fun k => w k + 2 ^ 32 * w (k + 1)
    let fail := fun (s : State) c => (s.failItem d.q d.n i c).endItem d.q d.n i
    if poison then fail s stMemPoison
    else if code ≠ 0 then fail s code
    else match d.opcode with
    | 0x01 =>
      let nh := bits (w 0) 2 0
      let hs := (List.range nh).map fun k => w (2 + k)
      if bits (w 0) 31 3 ≠ 0 ∨ 6 < nh then fail s stItemMalformed
      else if hs.any (· != 0) && !s.flag .OBJ_STATUS_READY then s
      else if hs.any s.stale then fail s stObjStale
      else s.enqueue d (launchDie (bits (d.w 12) 7 0) i) i 0 0
    | 0x02 =>
      if q64 0 % 64 ≠ 0 ∨ q64 2 % 64 ≠ 0 ∨ w 4 ≠ 0 ∨ w 5 ≠ 0 ∨ w 6 ≠ 0 then fail s stItemMalformed
      else s.enqueue d (bits (d.w 13) 2 0) i (q64 0) (q64 2)
    | _ =>
      if w 12 ≠ 0 ∨ w 13 ≠ 0 ∨ w 14 ≠ 0 ∨ (d.opcode = 4 ∧ (w 8 ≠ 0 ∨ w 9 ≠ 0 ∨ w 10 ≠ 0 ∨ w 11 ≠ 0)) then fail s stItemMalformed
      else (s.modDesc d.q d.n fun d => d.modItem i fun it => { it with entry := ws }).enqueue d (bits (d.w 13) 2 0) i 0 0

/-- Read and check each item that still checks: the record of a LAUNCH (words 0 to 7), a list or codec entry. -/
def checkItems (s : State) (d : Desc) (hs : HostMem) : State :=
  s.forEach (s.freshItems d.q d.n) fun s i =>
    if d.opcode = 2 ∧ !d.list then
      s.enqueue d (bits (d.w 13) 2 0) i ((d.q64 8 + i * d.itemBytes) % 2 ^ 64) ((d.q64 10 + i * d.itemBytes) % 2 ^ 64)
    else
      let va := if d.opcode = 1 then d.q64 10 + i * d.stride else if d.opcode = 2 then d.q64 8 + 32 * i else d.q64 8 + 64 * i
      let n := if d.opcode = 3 ∨ d.opcode = 4 then 64 else 32
      let (s, r) := s.vRead (.cp d.q d.n i) d.die d.ctx (va % 2 ^ 64) n hs
      s.checkItem d i r

/-- Descriptor-level handles: a stale one fails every item (R296). -/
def checkHandles (s : State) (d : Desc) : State :=
  if s.stale (d.w 14) || s.stale (d.w 15) then s.failAll d.q d.n stObjStale else s

/-- The kernel header of a LAUNCH, read once; none while its read waits (R280, R282). -/
def kernelHeader (s : State) (d : Desc) (hs : HostMem) : State × Bool :=
  if d.pcs ≠ [] then (s, true)
  else match s.vRead (.cp d.q d.n 64) d.die d.ctx (d.q64 8) 64 hs with
  | (s, .wait) => (s, false)
  | (s, .got bs code poison) =>
    let ws := bytesWords 16 bs
    let w := fun k => nth 0 ws k
    let pcs := [w 0 + 2 ^ 32 * w 1, w 2 + 2 ^ 32 * w 3, w 4 + 2 ^ 32 * w 5, w 6 + 2 ^ 32 * w 7]
    let en := bits (w 8) 3 0
    let badPc := (List.range 4).any fun k => bit en k && nth 0 pcs k % 8 != 0
    let bad := en == 0 || bits (w 8) 6 4 == 7 || badPc || bits (w 8) 31 7 != 0 || (span 9 7).any (fun k => w k != 0)
    let s := s.modDesc d.q d.n fun d => { d with pcs := pcs.map (· % 2 ^ 56), enables := en, gangLog2 := bits (w 8) 6 4 }
    let s := if poison then s.failAll d.q d.n stMemPoison
      else if code ≠ 0 then s.failAll d.q d.n code
      else if bad then s.failAll d.q d.n stLaunchInvalid
      else s
    (s, true)

/-- LAUNCH: start-time checks in the order of R441, then its items wait on their dies. -/
def launch (s : State) (q n : Nat) (hs : HostMem) : State :=
  match s.starting q n 0x01 with
  | none => s
  | some (s, d) =>
    let first := d.stage == .fetched
    let s := if first then s.begin_ d else s
    if first && (List.range 8).any (fun k => bit (bits (d.w 12) 7 0) k && !s.variant.hasDie k) then
      (s.failAll q n stUnitAbsent).endFailed q n
    else
      match s.kernelHeader d hs with
      | (s, false) => s
      | (s, true) =>
        let s := s.endFailed q n
        if !s.handlesReady (d.w 14) (d.w 15) then s
        else ((s.checkHandles d).endFailed q n).checkItems d hs

/-- COPY: start-time checks, then its items wait for tiles of one die (R283). DEDUCED: notes/assumptions/41.md. -/
def copy (s : State) (q n : Nat) (hs : HostMem) : State :=
  match s.starting q n 0x02 with
  | none => s
  | some (s, d) =>
    let s := if d.stage == .fetched then s.begin_ d else s
    if !s.variant.hasDie (bits (d.w 13) 2 0) then (s.failAll q n stUnitAbsent).endFailed q n
    else if !s.handlesReady (d.w 14) (d.w 15) then s
    else ((s.checkHandles d).endFailed q n).checkItems d hs

/-- COMPRESS and DECOMPRESS: start-time checks, then their items wait for the codec engine (R284, R160). -/
def codecStart (s : State) (op q n : Nat) (hs : HostMem) : State :=
  match s.starting q n op with
  | none => s
  | some (s, d) =>
    let s := if d.stage == .fetched then s.begin_ d else s
    let width := bits (d.w 13) 11 8
    if !s.variant.hasCodec (bits (d.w 13) 2 0) then (s.failAll q n stUnitAbsent).endFailed q n
    else if op = 3 ∧ width ≠ 4 ∧ width ≠ 8 then (s.failAll q n stCodecCorrupt).endFailed q n
    else if !s.handlesReady (d.w 14) (d.w 15) then s
    else ((s.checkHandles d).endFailed q n).checkItems d hs

/-- FENCE: nothing beyond the header's wait and signal (R278). -/
def fence (s : State) (q n : Nat) : State :=
  match s.starting q n 0x05 with
  | none => s
  | some (s, d) => (s.begin_ d).endItem q n 0

/-- INVALIDATE: the invalidation is sent; its item completes with it (R285, R259).
DEDUCED: notes/assumptions/52.md. -/
def invalidate (s : State) (q n : Nat) : State :=
  match s.starting q n 0x06 with
  | none => s
  | some (s, d) =>
    if d.stage = .started then s
    else
      let s := (s.begin_ d).modDesc q n fun d => d.modItem 0 fun it => { it with stage := .running }
      s.sendInval (bits (d.w 8) 1 0) (bits (d.w 8) 7 2) (d.q64 10) (d.q64 12) (some (q, n)) none

/-- The ranges of a reloadable object: every 64 KiB page must map to part memory and its backing to host memory (R294).
None while a translation waits; the flag says that a page does not map as it must. -/
def objRanges (d : Desc) (hs : HostMem) (handle : Nat) : Nat → Nat → State → State × Option (List Reload × Bool)
  | 0, _, s => (s, some ([], false))
  | k + 1, i, s =>
    match s.walk d.die hs d.ctx (d.q64 8 + 65536 * i) .read with
    | (s, .error e) => (s.vFault (.cp d.q d.n 0) d.die d.ctx (d.q64 8 + 65536 * i) .read e, none)
    | (s, .ok x) =>
      let va := d.q64 8 + 65536 * i
      let pa := x.pa + va % 2 ^ x.bits
      let back := (List.range 16).map fun j => s.ringAddr d.die hs (d.q64 12 + 65536 * i + 4096 * j) .read
      let okBack := back.all fun r => r.2 != .absent
      let okPage := x.target == 0 && (s.cellOf pa).isSome && (s.cellOf (pa + 65535)).isSome
      let rs := (List.range 16).map fun j =>
        (⟨handle, pa + 4096 * j, 4096, match (nth (s, .absent) back j).2 with
          | .at a => a
          | _ => 0⟩ : Reload)
      match back.find? (·.2 == .wait) with
      | some r => (r.1, none)
      | none =>
      match objRanges d hs handle k (i + 1) s with
      | (s, some (l, bad)) => (s, some (rs ++ l, bad || !okBack || !okPage))
      | (s, none) => (s, none)

/-- OBJ_REGISTER (R294). -/
def objRegister (s : State) (q n : Nat) (hs : HostMem) : State :=
  match s.starting q n 0x07 with
  | none => s
  | some (s, d) =>
    let s := if d.stage == .fetched then s.begin_ d else s
    if !s.flag .OBJ_STATUS_READY || s.xlWaiting (.cp q n 0) d.die none then s
    else
      let slot := bits (d.w 14) 19 0
      let rel := bit (d.w 14) 20
      let w := nth 0 (s.objEntry slot) 0
      let fail := fun (s : State) c => (s.failItem q n 0 c).endItem q n 0
      if bit w 12 then fail s stObjBusy
      else if bit w 14 then fail s stObjRetired
      else
        let handle := slot + bits w 11 0 * 2 ^ 20
        let put := fun (s : State) =>
          let s := s.setObj slot [bits w 11 0 + 2 ^ 12 + b2n rel * 2 ^ 13 + d.ctx * 2 ^ 15, 0, d.w 8, d.w 9, d.w 10, d.w 11, d.w 12, d.w 13]
          ((s.modDesc q n fun d => { d with result := handle }).bump .OBJ_REGISTERED_COUNT).endItem q n 0
        if !rel then put s
        else match objRanges d hs handle (d.q64 10 / 65536) 0 s with
        | (s, none) => s
        | (s, some (_, true)) => fail s stObjBacking
        | (s, some (rs, false)) =>
          put (s.forEach rs fun s r =>
            match s.cellOf r.base with
            | some c => s.modDie (c / 2 ^ 37) fun x => { x with reloads := x.reloads ++ [r] }
            | none => s)

/-- OBJ_RELEASE (R295). -/
def objRelease (s : State) (q n : Nat) : State :=
  match s.starting q n 0x08 with
  | none => s
  | some (s, d) =>
    let s := if d.stage == .fetched then s.begin_ d else s
    if !s.flag .OBJ_STATUS_READY then s
    else if d.w 8 = 0 ∨ s.stale (d.w 8) then (s.failItem q n 0 stObjStale).endItem q n 0
    else ((s.releaseSlot (bits (d.w 8) 19 0)).bump .OBJ_RELEASED_COUNT).endItem q n 0

/-! ### Dispatch (R272, R282) -/

/-- The tile of a logical ID is idle and may take a launch: running nothing, halted by nothing, the stores of a halted
kernel drained (R38). -/
def tileIdle (s : State) (p : Nat) : Bool :=
  (s.tile p).seq.run == .idle && (s.tile p).seq.inbox.isNone && (s.tile p).thr.sb.isEmpty && (s.tile p).thr.wb.isEmpty

/-- The lowest-numbered aligned idle gang of 2^g tiles of a die, by first logical ID (R39, R272). -/
def idleGang (s : State) (d g : Nat) : Option Nat :=
  (List.range (96 / 2 ^ g)).map (· * 2 ^ g) |>.find? fun l =>
    (span l (2 ^ g)).all fun k => s.tileIdle (s.physOf d k)

/-- The item of a die's queue that takes tiles next: the highest class, the oldest in it. -/
def nextItem (s : State) (d : Nat) : Option (Nat × Nat × Nat × Nat) :=
  (s.die d).waiting.foldl (fun b x => match b with
    | some y => if y.1 < x.1 then some x else b
    | none => some x) none

/-- ITEM_DISPATCH: the die's next item takes its gang and its launch message goes to the gang's tiles. -/
def itemDispatch (s : State) (d : Nat) : State :=
  if !s.procRunning (2 + d) || bit (s.f .MGT_MOULT_CTRL_QUIESCE) d then s
  else match s.nextItem d with
  | none => s
  | some (pr, q, n, i) =>
    match s.desc? q n with
    | none => s
    | some x =>
      let g := if x.opcode = 1 then x.gangLog2 else 0
      match s.idleGang d g with
      | none => s
      | some l =>
        let s := s.modDie d fun y => { y with waiting := y.waiting.erase (pr, q, n, i) }
        let s := s.modDesc q n fun x => x.modItem i fun it => { it with stage := .running }
        let lead := s.physOf d l
        s.forEach (List.range (2 ^ g)) fun s r =>
          let m : LaunchMsg := ⟨⟨x.ctx, q, n, i, x.opcode == 2⟩, x.pcs, x.enables, (x.q64 10 + i * x.stride) % 2 ^ 64, g, lead, r⟩
          s.modTile (s.physOf d (l + r)) fun t => { t with seq := { t.seq with inbox := some m } }

/-! ### Completion records (R274, R275, R286, R299) -/

/-- Write the STATUS words of a descriptor's items that are not yet written (R286). -/
def writeStatuses (s : State) (d : Desc) (hs : HostMem) : State :=
  s.forEach (List.range d.items.length) fun s i =>
    match (s.desc? d.q d.n).bind (·.items[i]?), d.statusVa i with
    | some it, some va =>
      if it.statusDone then s
      else
        let (s, ok, _) := s.vWrite (.cp d.q d.n i) d.die d.ctx va (toLE 4 it.code) hs (.item d.q d.n i) none
        if ok then s.modDesc d.q d.n fun d => d.modItem i fun it => { it with statusDone := true } else s
    | _, _ => s

/-- Every STATUS word is written and performed. -/
def statusesDone (s : State) (d : Desc) : Bool :=
  (List.range d.items.length).all (fun i => (d.statusVa i).isNone || (d.items[i]?).any (·.statusDone))
  && !(s.chl.reqs.any fun r => match r.owner with
        | .item q n _ => q == d.q && n == d.n
        | _ => false)
  && !(s.fab.reqs.any fun r => match r.owner with
        | .item q n _ => q == d.q && n == d.n
        | _ => false)

/-- COMPLETION_RECORD_WRITE: the oldest held record of a completion queue, after the STATUS words of its items. -/
def recordWrite (s : State) (cq : Nat) (hs : HostMem) : State :=
  let s := s.settleItems
  let x := s.cp.cqs.get .reset cq
  let k := s.f .QUE_CQ_PRODUCER_INDEX cq
  let size := 2 ^ s.f .QUE_CQ_SETUP_SIZE_LOG2 cq
  match x.held with
  | [] => s
  | r :: rest =>
    match s.desc? r.q r.n with
    | none => s
    | some d =>
      if !s.procRunning (2 + d.die) then s
      else
        let s := if d.malformed || d.poisoned then s else s.writeStatuses d hs
        let d := (s.desc? r.q r.n).getD d
        if !(d.malformed || d.poisoned || s.statusesDone d) then s
        else if x.writing || !s.flag .QUE_CQ_CTRL_ENABLE cq || s.f .QUE_CQ_STATUS_STATE cq != 1
            || !x.consumer.any (fun c => decide (ringAhead k c < size)) then s
        else match s.ringAddr d.die hs (s.f .QUE_CQ_BASE_ADDR cq * 2048 + 32 * (k % size)) .store with
        | (s, .wait) => s
        | (s, .absent) => s.ringFailed (.cq cq)
        | (s, .at a) =>
          if s.hostDead a then s.ringFailed (.cq cq)
          else
            let phase := if k / size % 2 = 0 then 1 else 0
            (s.modCp fun c => { c with cqs := c.cqs.put .reset cq { x with writing := true } }).hostWrite a
              (wordBytes ((r.words.take 7) ++ [nth 0 r.words 7 + phase * 2 ^ 31])) (.cq cq) (some (r.q, r.n, 0))

/-- DESCRIPTOR_FENCE_SIGNAL: after its record, the descriptor signals its fence (R298). -/
def descriptorSignal (s : State) (q n : Nat) : State :=
  match s.desc? q n with
  | some d =>
    if d.stage = .performed then
      let s := s.modCp fun c => { c with descs := c.descs.filter fun e => !(e.q == q && e.n == n) }
      { s with fenceQueue := s.fenceQueue ++ [⟨bits (d.w 2) 31 16, d.q64 6, 1, q, none⟩] }
    else s
  | none => s

/-! ### Error ring and holdoffs (R290, R291, R299) -/

/-- ERROR_RECORD_WRITE: the oldest waiting record goes to the ring; its word 0 follows when the rest is performed. -/
def errorWrite (s : State) (hs : HostMem) : State :=
  let k := s.f .QUE_ERING_NEXT_SEQUENCE
  let size := 2 ^ s.f .QUE_ERING_SETUP_SIZE_LOG2
  match s.cp.errs with
  | [] => s
  | r :: _ =>
    if !s.flag .QUE_ERING_SETUP_ENABLE || s.flag .QUE_ERING_STATUS_RING_FAULT || !s.procRunning 2 || s.cp.errWriting.isSome
        || !s.cp.errConsumer.any (fun c => decide (ringAhead k c < size)) then s
    else match s.ringAddr 0 hs (s.f .QUE_ERING_BASE_ADDR * 4096 + 128 * (k % size)) .store with
    | (s, .wait) => s
    | (s, .absent) => s.ringFailed .ering
    | (s, .at a) =>
      if s.hostDead a then s.ringFailed .ering
      else
        let w1 := r.kind + r.ctx.getD 0 * 2 ^ 8 + b2n r.ctx.isSome * 2 ^ 14 + s.cp.errDropped * 2 ^ 16
        let bs := wordBytes ([w1, r.time % 2 ^ 32, r.time / 2 ^ 32] ++ fitW 28 r.words)
        let w : RingWrite := ⟨a, k, [s.nextId, s.nextId + 1], false, s.cp.errDropped⟩
        let s := (s.setRing .ering (some w)).setF .QUE_ERING_NEXT_SEQUENCE 0 ((k + 1) % 2 ^ 32)
        (s.hostWrite (a + 4) (bs.take 60) .ering none).hostWrite (a + 64) (bs.drop 60) .ering none

/-- ERING_RING_RETRY. -/
def eringRetry (s : State) : State := s.setFlag .QUE_ERING_STATUS_RING_FAULT 0 false

/-- Vector of a source with a holdoff. -/
def irqVector (s : State) : IrqSource → Nat × Nat
  | .cq n => (s.f .QUE_CQ_SETUP_VECTOR n, s.f .QUE_CQ_SETUP_HOLDOFF_LOG2 n)
  | .fring => (s.f .XLT_SETUP_FAULT_VECTOR, s.f .XLT_SETUP_HOLDOFF_LOG2)
  | .ering => (s.f .QUE_ERING_SETUP_VECTOR, s.f .QUE_ERING_SETUP_HOLDOFF_LOG2)
  | .fab => (s.f .FAB_IRQ_VECTOR, s.f .FAB_IRQ_HOLDOFF_LOG2)

/-- INTERRUPT_HOLDOFF_EXPIRY: the period of a source ends; what waited is raised once and starts a new one. -/
def holdoffExpiry (s : State) (src : IrqSource) : State :=
  if src ∈ s.cp.holding then
    let waited := decide (src ∈ s.cp.heldIrqs)
    let s := s.modCp fun c => { c with holding := c.holding.filter (· != src), heldIrqs := c.heldIrqs.filter (· != src) }
    if waited then s.raiseHeld src (s.irqVector src).1 (s.irqVector src).2 else s
  else s

end State

/-! ### Meanings -/

/-- OPEN (R265). -/
def execOpenCtx (c : Nat) (s : State) : Out := .next (s.ctxOpen c)

/-- START (R265). -/
def execStart (c : Nat) (s : State) : Out := .next (s.ctxStart c)

/-- DESTROY (R267). -/
def execDestroy (c : Nat) (s : State) : Out := .next (s.ctxDestroy c)

/-- SQ_ENABLE (R273). -/
def execSqEnable (q : Nat) (s : State) : Out := .next (s.sqEnable q)

/-- SQ_DISABLE (R273). -/
def execSqDisable (q : Nat) (s : State) : Out := .next (s.sqDisable q)

/-- CQ_ENABLE (R275). -/
def execCqEnable (q : Nat) (s : State) : Out := .next (s.cqEnable q)

/-- CQ_DISABLE (R275). -/
def execCqDisable (q : Nat) (s : State) : Out := .next (s.cqDisable q)

/-- HOST_LINE_REREAD (R270). -/
def execHostLineReread (l : HostLine) (hs : HostMem) (s : State) : Out := .next (s.lineReread l hs)

/-- DESCRIPTOR_FETCH (R272). -/
def execDescriptorFetch (q : Nat) (hs : HostMem) (s : State) : Out := .next (s.descriptorFetch q hs)

/-- LAUNCH (R279). -/
def execLaunch (q n : Nat) (hs : HostMem) (s : State) : Out := .next (s.launch q n hs)

/-- COPY (R283). -/
def execCopy (q n : Nat) (hs : HostMem) (s : State) : Out := .next (s.copy q n hs)

/-- FENCE (R285). -/
def execFence (q n : Nat) (s : State) : Out := .next (s.fence q n)

/-- INVALIDATE (R258). -/
def execInvalidate (q n : Nat) (s : State) : Out := .next (s.invalidate q n)

/-- OBJ_REGISTER (R294). -/
def execObjRegister (q n : Nat) (hs : HostMem) (s : State) : Out := .next (s.objRegister q n hs)

/-- OBJ_RELEASE (R295). -/
def execObjRelease (q n : Nat) (s : State) : Out := .next (s.objRelease q n)

/-- ITEM_DISPATCH (R272). -/
def execItemDispatch (d : Nat) (hs : HostMem) (s : State) : Out := .next (s.itemDispatch d)

/-- COMPLETION_RECORD_WRITE (R202). -/
def execCompletionRecordWrite (cq : Nat) (hs : HostMem) (s : State) : Out := .next (s.recordWrite cq hs)

/-- DESCRIPTOR_FENCE_SIGNAL (R298). -/
def execDescriptorFenceSignal (q n : Nat) (s : State) : Out := .next (s.descriptorSignal q n)

/-- ERROR_RECORD_WRITE (R290). -/
def execErrorRecordWrite (hs : HostMem) (s : State) : Out := .next (s.errorWrite hs)

/-- ERING_RING_RETRY (R290). -/
def execEringRingRetry (s : State) : Out := .next (s.eringRetry)

/-- OBJ_TABLE_BASE_WRITE (R293). -/
def execObjTableBaseWrite (value : W64) (s : State) : Out := .next (s.objTableBase value.toNat)

/-- OBJECT_TABLE_READY (R293). -/
def execObjectTableReady (s : State) : Out := .next (s.objTableReady)

/-- INTERRUPT_HOLDOFF_EXPIRY (R299). -/
def execInterruptHoldoffExpiry (src : IrqSource) (s : State) : Out := .next (s.holdoffExpiry src)

end Sys2Proof.Machine
end

