-- ==== Sys2Proof/Machine/Hexist.lean ====
section
/-!
DEFINITION. Hexist encodings (07_hexist_encodings.md): the words of stream and thread instructions, the checks of R188
and R190 on them, and the fields of engine instructions.
-/
namespace Sys2Proof

/-! ### Words of instructions (R163, R164, R181) -/

/-- Stream number (SEQ_HALT_REASON.STREAM). -/
def StreamId.num : StreamId → Nat
  | .thr => 0
  | .mat => 1
  | .gat => 2
  | .syn => 3

/-- Word 0 of a scalar instruction below its format's fields: LEN, CLASS 0, OPCODE. -/
def scalarHead (len op : Nat) : Nat := len + op % 64 * 2 ^ 4

/-- The eight bytes of an S-R instruction, as a number. -/
def ScalarR.word (op : Nat) (f : ScalarR) : Nat :=
  scalarHead f.len.toNat op + f.d.toNat * 2 ^ 10 + f.a.toNat * 2 ^ 14 + f.b.toNat * 2 ^ 18 + f.rsv0.toNat * 2 ^ 22
    + f.rsv1.toNat * 2 ^ 32

/-- The eight bytes of an S-I instruction. -/
def ScalarI.word (op : Nat) (f : ScalarI) : Nat :=
  scalarHead f.len.toNat op + f.d.toNat * 2 ^ 10 + f.a.toNat * 2 ^ 14 + f.rsv0.toNat * 2 ^ 18 + f.imm.toNat * 2 ^ 32

/-- The eight bytes of an S-B instruction. -/
def ScalarB.word (op : Nat) (f : ScalarB) : Nat :=
  scalarHead f.len.toNat op + f.a.toNat * 2 ^ 10 + f.b.toNat * 2 ^ 14 + f.cond.toNat * 2 ^ 18 + f.rsv0.toNat * 2 ^ 21
    + f.offset.toNat * 2 ^ 32

/-- The eight bytes of an S-L instruction. -/
def ScalarL.word (op : Nat) (f : ScalarL) : Nat :=
  scalarHead f.len.toNat op + f.count.toNat * 2 ^ 10 + f.rsv0.toNat * 2 ^ 14 + f.endOff.toNat * 2 ^ 32

/-- The eight bytes of an S-W instruction. -/
def ScalarW.word (op : Nat) (f : ScalarW) : Nat :=
  scalarHead f.len.toNat op + f.cond.toNat * 2 ^ 10 + f.sem.toNat * 2 ^ 12 + f.count.toNat * 2 ^ 17 + f.rsv0.toNat * 2 ^ 21
    + f.rsv1.toNat * 2 ^ 32

/-- The sixteen bytes of an S-X instruction. -/
def ScalarX.word (op : Nat) (f : ScalarX) : Nat :=
  scalarHead f.len.toNat op + f.d.toNat * 2 ^ 10 + f.rsv0.toNat * 2 ^ 14 + f.rsv1.toNat * 2 ^ 32 + f.imm64.toNat * 2 ^ 64

/-- The eight bytes of a thread instruction (R181). -/
def ThreadFields.word (cls op : Nat) (f : ThreadFields) : Nat :=
  cls % 16 + op % 64 * 2 ^ 4 + f.d.toNat * 2 ^ 10 + f.a.toNat * 2 ^ 18 + f.mod.toNat * 2 ^ 26 + f.b.toNat * 2 ^ 32
    + f.c.toNat * 2 ^ 40 + f.imm.toNat * 2 ^ 48

/-- CLASS and OP of a thread word. -/
def threadClass (w : Nat) : Nat := w % 16
def threadOp (w : Nat) : Nat := w / 16 % 64

/-- The fields of a thread word. -/
def ThreadFields.ofWord (w : Nat) : ThreadFields :=
  ⟨BitVec.ofNat 8 (w / 2 ^ 10), BitVec.ofNat 8 (w / 2 ^ 18), BitVec.ofNat 6 (w / 2 ^ 26), BitVec.ofNat 8 (w / 2 ^ 32),
   BitVec.ofNat 8 (w / 2 ^ 40), BitVec.ofNat 16 (w / 2 ^ 48)⟩

/-- OPCODE and LEN of a stream word. -/
def streamOpcode (w : Nat) : Nat := w / 16 % 64
def streamClass (w : Nat) : Nat := w / 2 % 8

/-- The fields of the S-R and S-I words. -/
def ScalarR.ofWord (w : Nat) : ScalarR :=
  ⟨BitVec.ofNat 1 w, BitVec.ofNat 4 (w / 2 ^ 10), BitVec.ofNat 4 (w / 2 ^ 14), BitVec.ofNat 4 (w / 2 ^ 18),
   BitVec.ofNat 10 (w / 2 ^ 22), BitVec.ofNat 32 (w / 2 ^ 32)⟩
def ScalarI.ofWord (w : Nat) : ScalarI :=
  ⟨BitVec.ofNat 1 w, BitVec.ofNat 4 (w / 2 ^ 10), BitVec.ofNat 4 (w / 2 ^ 14), BitVec.ofNat 14 (w / 2 ^ 18),
   BitVec.ofNat 32 (w / 2 ^ 32)⟩

/-- Reserved fields and LEN of the scalar formats are as R164 and R188 ask. -/
def ScalarR.clean (f : ScalarR) : Bool := f.len == 0 && f.rsv0 == 0 && f.rsv1 == 0
def ScalarI.clean (f : ScalarI) : Bool := f.len == 0 && f.rsv0 == 0
def ScalarB.clean (f : ScalarB) : Bool := f.len == 0 && f.rsv0 == 0
def ScalarL.clean (f : ScalarL) : Bool := f.len == 0 && f.rsv0 == 0
def ScalarW.clean (f : ScalarW) : Bool := f.len == 0 && f.rsv0 == 0 && f.rsv1 == 0
def ScalarX.clean (f : ScalarX) : Bool := f.len == 1 && f.rsv0 == 0 && f.rsv1 == 0

/-- A signed number from 32 or 16 bits. -/
def sext32 (x : BitVec 32) : Int := x.toInt
def sext16 (x : BitVec 16) : Int := x.toInt

namespace Machine

/-! ### Engine instructions (R168 to R178) -/

/-- Bits of a 128-bit engine instruction: word `w`, [hi:lo]. -/
def ew (raw w hi lo : Nat) : Nat := bits raw (32 * w + hi) (32 * w + lo)

/-- Every bit of an instruction outside the listed (word, hi, lo) fields is zero. -/
def onlyFields (raw : Nat) (fs : List (Nat × Nat × Nat)) : Bool :=
  raw == (fs.map fun x => ew raw x.1 x.2.1 x.2.2 * 2 ^ (32 * x.1 + x.2.2)).sum

/-- A q-operand whose STRIDE is zero while RR is 0 (R169). -/
def qopOk (x : Nat) : Bool := bit x 4 || bits x 8 5 == 0

/-- A descriptor override that keeps R177. -/
def overrideOk (x : Nat) : Bool := (bit x 5 || bits x 9 6 == 0) && (bit x 0 || bit x 5 || bits x 4 1 == 0)

/-- The operand fields of an engine instruction, by stream and opcode; none where the opcode is not listed. -/
def engineFields (s op : Nat) : Option (List (Nat × Nat × Nat)) :=
  match s, op with
  | 0, 1 => some [(1, 8, 0), (1, 17, 9), (1, 26, 18), (1, 31, 27), (2, 8, 0), (2, 19, 9)]
  | 0, 2 => some [(1, 10, 0)]
  | 0, 3 => some [(1, 8, 0), (1, 12, 9), (1, 20, 13)]
  | 0, 4 => some []
  | 1, 1 => some [(1, 8, 0), (1, 24, 9), (1, 30, 25), (1, 31, 31), (2, 6, 0), (2, 10, 7), (2, 14, 11), (2, 16, 15),
      (2, 17, 17), (2, 21, 18)]
  | 1, 2 => some [(1, 8, 0), (1, 9, 9)]
  | 1, 3 => some []
  | 1, 4 => some [(1, 8, 0), (1, 24, 9), (2, 9, 0), (2, 17, 10), (2, 21, 18), (2, 24, 22), (2, 25, 25), (3, 9, 0),
      (3, 13, 10), (3, 14, 14)]
  | 1, 5 => some [(1, 9, 0), (1, 13, 10), (1, 14, 14), (1, 24, 15), (1, 30, 25), (1, 31, 31), (2, 6, 0), (2, 10, 7),
      (2, 12, 11), (2, 13, 13), (2, 17, 14), (2, 26, 18), (3, 8, 0), (3, 24, 9)]
  | 1, 6 => some [(1, 9, 0), (1, 13, 10), (1, 14, 14), (1, 24, 15)]
  | 1, 7 => some [(1, 15, 0)]
  | 2, 1 => some [(1, 21, 0), (2, 9, 0), (2, 19, 10), (2, 29, 20)]
  | 2, 2 => some [(1, 8, 0), (1, 12, 9), (2, 21, 0)]
  | 2, 3 => some []
  | 3, 1 => some []
  | 3, 2 => some [(1, 4, 0), (1, 31, 16)]
  | 3, 3 => some [(1, 1, 0), (1, 4, 2), (1, 8, 5)]
  | 3, 4 => some [(1, 1, 0)]
  | 3, 5 => some [(1, 3, 0), (1, 7, 4)]
  | 3, 6 => some [(1, 3, 0), (1, 7, 4)]
  | 3, 7 => some [(1, 8, 0), (1, 12, 9), (1, 14, 13)]
  | _, _ => none

/-- The fields of word 0 (R168). -/
def engineHead : List (Nat × Nat × Nat) := [(0, 0, 0), (0, 3, 1), (0, 9, 4), (0, 11, 10), (0, 16, 12), (0, 20, 17),
  (0, 21, 21), (0, 26, 22), (0, 30, 27)]

/-- The q-operands, overrides and conditional register fields of an instruction leave their reserved parts zero (R169,
R174, R177). -/
def engineOperandsOk (s op raw : Nat) : Bool :=
  match s, op with
  | 0, 1 => qopOk (ew raw 1 8 0) && qopOk (ew raw 1 17 9) && qopOk (ew raw 1 26 18)
  | 0, 3 | 1, 1 | 1, 2 | 2, 2 | 3, 7 => qopOk (ew raw 1 8 0)
  | 1, 4 => qopOk (ew raw 1 8 0) && (ew raw 3 14 14 == 1 || ew raw 3 13 10 == 0)
  | 1, 5 => qopOk (ew raw 2 26 18) && (ew raw 2 12 11 == 0 || qopOk (ew raw 3 8 0)) && (ew raw 1 14 14 == 1 || ew raw 1 13 10 == 0)
  | 1, 6 => ew raw 1 14 14 == 1 || ew raw 1 13 10 == 0
  | 2, 1 => overrideOk (ew raw 2 9 0) && overrideOk (ew raw 2 19 10) && overrideOk (ew raw 2 29 20)
  | _, _ => true

/-- An engine instruction that a stream may push (R168, R188). -/
def engineOk (s raw : Nat) : Bool :=
  match engineFields s (streamOpcode raw) with
  | none => false
  | some fs =>
    bit raw 0 && streamClass raw == s + 1 && onlyFields raw (engineHead ++ fs)
    && ew raw 0 11 10 != 3 && (ew raw 0 11 10 != 0 || ew raw 0 20 12 == 0) && (bit raw 21 || ew raw 0 30 22 == 0)
    && engineOperandsOk s (streamOpcode raw) raw

/-- The scalar opcodes of R165. -/
def scalarListed (op : Nat) : Bool :=
  decide (1 ≤ op ∧ op ≤ 0x11) || decide (0x18 ≤ op ∧ op ≤ 0x22) || decide (0x28 ≤ op ∧ op ≤ 0x2C)

/-- The (CLASS, OP) pairs of the thread instructions (R184 to R187). -/
def threadListed (cls op : Nat) : Bool :=
  match cls with
  | 0 => decide (1 ≤ op ∧ op ≤ 0x19)
  | 1 => decide (1 ≤ op ∧ op ≤ 0x0B)
  | 2 => op == 1
  | 3 => op == 1 || op == 2
  | 4 => op == 1
  | 5 => decide (1 ≤ op ∧ op ≤ 7)
  | 6 => decide (1 ≤ op ∧ op ≤ 4)
  | 7 => op == 1
  | 8 => decide (1 ≤ op ∧ op ≤ 0x0B)
  | _ => false

/-! ### Values in a queue entry (R169, R170, R174) -/

/-- The q-register `k` as captured. -/
def Entry.reg (e : Entry) (k : Nat) : Nat := e.q.get 0 k

/-- OPCODE of an entry. -/
def Entry.op (e : Entry) : Nat := streamOpcode e.raw

/-- A field of an entry. -/
def Entry.f (e : Entry) (w hi lo : Nat) : Nat := ew e.raw w hi lo

/-- The value of a q-operand, unreduced. -/
def Entry.qop (e : Entry) (x : Nat) : Nat :=
  e.reg (bits x 3 0) + (if bit x 4 then e.rank * e.reg (bits x 8 5) else 0)

/-- Size of the scratchpad (R133). -/
def spadSize : Nat := 3145728

/-- A scratchpad q-operand, a virtual-address q-operand, and one that is neither: 64 bits. -/
def Entry.qSpad (e : Entry) (x : Nat) : Nat := e.qop x % spadSize
def Entry.qAddr (e : Entry) (x : Nat) : Nat := e.qop x % 2 ^ 56
def Entry.qWord (e : Entry) (x : Nat) : Nat := e.qop x % 2 ^ 64

/-- The semaphore wait of word 0. -/
def Entry.wait (e : Entry) : Option SemWait :=
  if e.f 0 11 10 = 0 then none else some ⟨e.f 0 16 12, e.f 0 20 17 + 1, e.f 0 11 10 == 2⟩

/-- The semaphore signal of word 0. -/
def Entry.signal (e : Entry) : Option (Nat × Nat) :=
  if e.f 0 21 21 = 0 then none else some (e.f 0 26 22, e.f 0 30 27 + 1)

/-- The accumulator base from its three fields (R174). -/
def Entry.accBase (e : Entry) (base reg en : Nat) : Nat :=
  if en = 1 then (base + e.reg reg) % 1024 else base

end Machine
end Sys2Proof
end

