-- ==== Sys2Proof/Machine/Operands.lean ====
section
/-!
DEFINITION. Operand forms of thread instructions (R181 to R187): the registers that an instruction names, the checks of
R190, the second operand, the fields of memory and branch instructions, and reads and writes of a group's registers.
-/
namespace Sys2Proof

/-! ### Fields -/

/-- BKIND (R182), PKIND of BRA, SIZE of LD and ST, the scope of MEMBAR: MOD[27:26]. -/
def ThreadFields.kind (f : ThreadFields) : Nat := f.mod.toNat % 4

/-- MOD[31:28]: a condition, and the reserved part of the other forms. -/
def ThreadFields.modHi (f : ThreadFields) : Nat := f.mod.toNat / 4

/-- Bit `n` of MOD, counted from MOD[26]. -/
def ThreadFields.modBit (f : ThreadFields) (n : Nat) : Bool := f.mod.getLsbD n

/-- The immediate as a 64-bit number, sign-extended. -/
def ThreadFields.simm (f : ThreadFields) : W64 := f.imm.signExtend 64

/-- B and C as one 16-bit offset: BRA's RPC (R187). -/
def ThreadFields.rpc (f : ThreadFields) : BitVec 16 := f.c ++ f.b

/-- An address `offset` 8-byte units away (R187), modulo 2^56. -/
def branchTo (pc : Nat) (offset : BitVec 16) : Nat :=
  (BitVec.ofNat 64 pc + (offset.signExtend 64 <<< (3 : Nat))).toNat % 2 ^ 56

/-- SPACE of LD and ST: 0 cached, 1 bypass, 2 local. -/
def ThreadFields.space (f : ThreadFields) : Nat := f.modHi % 4

/-- Bytes of an LD or ST, of an ATOM. -/
def ThreadFields.size (f : ThreadFields) : Nat := 2 ^ f.kind
def ThreadFields.wide (f : ThreadFields) : Bool := f.modBit 4

/-! ### Registers that an instruction names, and whether its fields are legal (R181 to R187, R190) -/

/-- Vector registers named, even registers of pairs, uniform registers, and whether every reserved field is zero and
no code is reserved. -/
structure Names where
  v : List Nat
  pairs : List Nat
  u : List Nat
  ok : Bool
  deriving DecidableEq, Repr

/-- Every vector register that is read or written. -/
def Names.all (x : Names) : List Nat := x.v ++ x.pairs ++ x.pairs.map (· + 1)

/-- The names of the second operand: as a vector register, as a pair (`wide`), or of class 8. -/
def ThreadFields.second (f : ThreadFields) (wide : Bool) : Names :=
  match f.kind with
  | 0 => ⟨if wide then [] else [f.b.toNat], if wide then [f.b.toNat] else [], [], f.imm == 0⟩
  | 1 => ⟨[], [], [f.b.toNat], f.imm == 0⟩
  | 2 => ⟨[], [], [], f.b == 0⟩
  | _ => ⟨[], [], [], false⟩

/-- Names added to those of a second operand. -/
def Names.with (x : Names) (v pairs u : List Nat) (ok : Bool) : Names :=
  ⟨v ++ x.v, pairs ++ x.pairs, u ++ x.u, ok && x.ok⟩

/-- Registers of a GMMA's left operand: eight for 8-bit formats, sixteen for 16-bit ones (R187). -/
def gmmaLeft (fmt : Nat) : Nat := if fmt = 7 ∨ fmt = 8 then 16 else 8

/-- What a thread instruction names. -/
def ThreadFields.names (cls op : Nat) (f : ThreadFields) : Names :=
  let d := f.d.toNat
  let a := f.a.toNat
  let b := f.b.toNat
  let c := f.c.toNat
  let pure := f.mod == 0 && f.b == 0 && f.c == 0 && f.imm == 0
  match cls, op with
  | 0, 0x01 => (f.second false).with [d] [] [] (f.a == 0 && f.c == 0 && f.modHi == 0)
  | 0, 0x15 => (f.second false).with [d, a] [] [] (f.c == 0 && decide (f.modHi ≤ 5))
  | 0, 0x16 => (f.second false).with [d, a, c] [] [] (f.modHi == 0)
  | 0, 0x17 | 0, 0x18 => (f.second true).with [] [d, a] [] (f.c == 0 && f.modHi == 0)
  | 0, _ => (f.second false).with [d, a] [] [] (f.c == 0 && f.modHi == 0)
  | 1, 0x04 => (f.second false).with [d, a, c] [] [] (f.modHi == 0)
  | 1, 0x07 => (f.second false).with [d, a] [] [] (f.c == 0 && decide (f.modHi ≤ 3))
  | 1, 0x08 | 1, 0x09 | 1, 0x0A | 1, 0x0B => ⟨[d, a], [], [], pure⟩
  | 1, _ => (f.second false).with [d, a] [] [] (f.c == 0 && f.modHi == 0)
  | 2, _ =>
    let src := f.imm.toNat % 16
    let dst := f.imm.toNat / 16 % 16
    ⟨[d, a], [], [], f.b == 0 && f.c == 0 && f.mod == 0 && decide (f.imm.toNat < 256 ∧ 1 ≤ src ∧ src ≤ 10 ∧ 1 ≤ dst ∧ dst ≤ 10 ∧ src ≠ dst)⟩
  | 3, _ =>
    let ld := op == 1
    let data := if ld then d else b
    let zero := if ld then f.b == 0 else f.d == 0 && !f.modBit 4
    ⟨if f.kind = 3 then [a] else [a, data], if f.kind = 3 then [data] else [], if f.space = 2 then [] else [c],
     zero && f.space != 3 && (decide (f.kind < 2) || !f.modBit 4) && (f.space != 2 || (f.c == 0 && !f.modBit 5))⟩
  | 4, _ =>
    let aop := f.mod.toNat % 16
    let regs := if aop = 9 then [d, b, c] else [d, b]
    ⟨if f.wide then [a] else a :: regs, if f.wide then regs else [], if f.modBit 5 then [] else [f.imm.toNat % 64],
     decide (aop ≤ 9) && (aop == 9 || f.c == 0) && (if f.modBit 5 then f.imm == 0 else decide (f.imm.toNat < 64))⟩
  | 5, 0x02 =>
    ⟨if f.kind = 0 then [a] else [], [], if f.kind = 1 then [a] else [],
     f.d == 0 && f.kind != 3 && decide (f.mod.toNat < 8) && (f.kind == 0 || f.rpc == 0)
     && (f.kind != 2 || (f.a == 0 && !f.modBit 2))⟩
  | 5, 0x03 => ⟨[a], [], [b], f.d == 0 && f.c == 0 && f.mod == 0⟩
  | 5, 0x04 => ⟨[d], [], [], pure && f.a == 0⟩
  | 5, 0x05 => ⟨[d, a], [], [], pure⟩
  | 5, 0x07 =>
    ⟨[], [], if f.modBit 0 then [] else [a, b],
     f.d == 0 && f.c == 0 && f.imm == 0 && decide (f.mod.toNat < 2) && (!f.modBit 0 || (f.a == 0 && f.b == 0))⟩
  | 5, _ => ⟨[], [], [], pure && f.d == 0 && f.a == 0⟩
  | 6, 0x02 => ⟨[], [], [], f.d == 0 && f.a == 0 && f.b == 0 && f.c == 0 && f.imm == 0 && f.modHi == 0⟩
  | 6, 0x03 => ⟨[], [], [], f.d == 0 && f.a == 0 && f.b == 0 && f.c == 0 && f.mod == 0 && decide (f.imm.toNat < 1024)⟩
  | 6, 0x04 => ⟨[], [], [], f.d == 0 && f.a == 0 && f.b == 0 && f.c == 0 && f.mod == 0 && decide (f.imm.toNat < 512)⟩
  | 6, _ => ⟨[], [], [], pure && f.d == 0 && f.a == 0⟩
  | 7, _ =>
    ⟨Machine.span a (gmmaLeft (b % 16)) ++ Machine.span d (if f.modBit 2 then 64 else 32), [], [],
     f.c == 0 && f.imm == 0 && decide (b < 16) && decide (f.mod.toNat < 16)⟩
  | _, 0x01 => (f.second false).with [] [] [d] (f.a == 0 && f.c == 0 && f.modHi == 0)
  | _, 0x0A => ⟨[], [], [d, a], f.b == 0 && f.c == 0 && f.mod == 0⟩
  | _, 0x0B => ⟨[], [], [d], f.a == 0 && f.b == 0 && f.c == 0 && f.mod == 0⟩
  | _, _ => (f.second false).with [] [] [d, a] (f.c == 0 && f.modHi == 0)

/-- The instruction is legal in a group of `n` registers (R190). DEDUCED: notes/assumptions/27.md. -/
def ThreadFields.legal (cls op n : Nat) (f : ThreadFields) : Bool :=
  let x := f.names cls op
  x.ok && x.v.all (fun r => decide (r < n)) && x.pairs.all (fun r => r % 2 == 0 && decide (r + 1 < n))
  && x.u.all (fun r => decide (r < 64))

namespace Machine

/-! ### Registers of a group -/

/-- A lane's vector register. -/
def Group.vreg (x : Group) (r l : Nat) : W32 := BitVec.ofNat 32 (x.v.get 0 (32 * r + l))

/-- A pair. -/
def Group.vpair (x : Group) (r l : Nat) : W64 := x.vreg (r + 1) l ++ x.vreg r l

/-- A uniform register. -/
def Group.ureg (x : Group) (r : Nat) : W64 := BitVec.ofNat 64 (x.u.get 0 r)

/-- Write a lane's vector register, a pair, a uniform register. -/
def Group.setV (x : Group) (r l : Nat) (w : W32) : Group := { x with v := x.v.put 0 (32 * r + l) w.toNat }
def Group.setPair (x : Group) (r l : Nat) (w : W64) : Group :=
  (x.setV r l (w.setWidth 32)).setV (r + 1) l ((w >>> (32 : Nat)).setWidth 32)
def Group.setU (x : Group) (r : Nat) (w : W64) : Group := { x with u := x.u.put 0 r w.toNat }

/-- Lanes of a mask, ascending. -/
def lanesOf (mask : Nat) : List Nat := (List.range 32).filter (bit mask)

/-- The second operand of an integer instruction in a lane. -/
def Group.int2 (x : Group) (f : ThreadFields) (l : Nat) : W32 :=
  match f.kind with
  | 0 => x.vreg f.b.toNat l
  | 1 => (x.ureg f.b.toNat).setWidth 32
  | _ => f.imm.signExtend 32

/-- The second operand of an FP32 instruction. -/
def Group.float2 (x : Group) (f : ThreadFields) (l : Nat) : W32 :=
  match f.kind with
  | 0 => x.vreg f.b.toNat l
  | 1 => (x.ureg f.b.toNat).setWidth 32
  | _ => f.imm ++ (0 : BitVec 16)

/-- The second operand of ADD64 and SUB64. -/
def Group.pair2 (x : Group) (f : ThreadFields) (l : Nat) : W64 :=
  match f.kind with
  | 0 => x.vpair f.b.toNat l
  | 1 => x.ureg f.b.toNat
  | _ => f.simm

/-- The second operand of a uniform instruction; a vector register is that of the lowest active lane
(DEDUCED: notes/assumptions/30.md). -/
def Group.uni2 (x : Group) (f : ThreadFields) : W64 :=
  match f.kind with
  | 0 => (x.vreg f.b.toNat ((lanesOf x.mask).headD 0)).setWidth 64
  | 1 => x.ureg f.b.toNat
  | _ => f.simm

/-- The global address of LD and ST in a lane, of ATOM, of ULD; a local address of LD and ST (R186, R187). -/
def Group.globalAddr (x : Group) (f : ThreadFields) (l : Nat) : Nat :=
  (x.ureg f.c.toNat + (x.vreg f.a.toNat l).signExtend 64 + f.simm).toNat % 2 ^ 56
def Group.atomAddr (x : Group) (f : ThreadFields) (l : Nat) : Nat :=
  (x.ureg (f.imm.toNat % 64) + (x.vreg f.a.toNat l).signExtend 64).toNat % 2 ^ 56
def Group.uniAddr (x : Group) (f : ThreadFields) : Nat := (x.ureg f.a.toNat + f.simm).toNat % 2 ^ 56
def Group.localAddr (x : Group) (f : ThreadFields) (l : Nat) : Nat := (x.vreg f.a.toNat l + f.imm.signExtend 32).toNat

end Machine
end Sys2Proof
end

