-- ==== Sys2Proof/Machine/Tiles.lean ====
section
/-!
DEFINITION. Tiles as the sequencer sees them (02_tiles_streams_and_gangs.md): slots, queues, gangs, halts, launch and
kernel end, instruction fetch, the accesses of a tile to memory and to its scratchpad.
-/
namespace Sys2Proof.Machine

/-! ### Halt reasons (R193) -/

def rIllegal := 0x0001
def rMemAlign := 0x0002
def rLoop := 0x0003
def rDiverge := 0x0004
def rLocalRange := 0x0005
def rScratchRange := 0x0006
def rMatInconsistent := 0x0007
def rMatDivergent := 0x0008
def rGatInconsistent := 0x0009
def rGatherRange := 0x000A
def rSynInconsistent := 0x000B
def rUnserviceable := 0x000C
def rInstrPoison := 0x000D
def rMatHazard := 0x000E
def rNoProgress := 0x000F
def rStallLimit := 0x0010
def rGangHalt := 0x00F0
def rDebugHalt := 0x00FF

/-! ### Parts of a tile -/

/-- A slot, a queue of a tile. -/
def Tile.slot (t : Tile) (k : Nat) : Slot := t.seq.slots.get .reset k
def Tile.queue (t : Tile) (k : Nat) : Queue := t.seq.queues.get .reset k

/-- Change a slot, a queue. -/
def Tile.modSlot (t : Tile) (k : Nat) (g : Slot → Slot) : Tile :=
  { t with seq := { t.seq with slots := t.seq.slots.upd .reset k g } }
def Tile.modQueue (t : Tile) (k : Nat) (g : Queue → Queue) : Tile :=
  { t with seq := { t.seq with queues := t.seq.queues.upd .reset k g } }

/-- A resident group, a resident block. -/
def Tile.group? (t : Tile) (g : Nat) : Option Group := t.thr.groups.get none g
def Tile.setGroup (t : Tile) (g : Nat) (x : Option Group) : Tile :=
  { t with thr := { t.thr with groups := t.thr.groups.put none g x } }
def Tile.modGroup (t : Tile) (g : Nat) (h : Group → Group) : Tile :=
  match t.group? g with
  | some x => t.setGroup g (some (h x))
  | none => t
def Tile.block? (t : Tile) (b : Nat) : Option Block := t.thr.blocks.get none b
def Tile.modBlock (t : Tile) (b : Nat) (h : Block → Block) : Tile :=
  { t with thr := { t.thr with blocks := t.thr.blocks.upd none b fun x => x.map h } }

/-- The resident groups, ascending. -/
def Tile.resident (t : Tile) : List Nat := FMap.keys t.thr.groups

/-- The rank of a tile in its gang, and the gang's size. -/
def Tile.rank (t : Tile) : Nat := (t.seq.kernel.map (·.rank)).getD 0
def Tile.gangSize (t : Tile) : Nat := (t.seq.kernel.map fun m => 2 ^ m.gangLog2).getD 1

/-- The tile executes: it runs and is not halted. -/
def Tile.live (t : Tile) : Bool := (t.seq.run == .lead || t.seq.run == .member) && t.seq.halt.isNone

/-- A MAT engine without its instructions (R48, R90). -/
def Mat.discard (m : Mat) : Mat :=
  { m with ops := [], gmmas := [], headOlds := [], loaderFree := 0, streamerFree := 0, drainerFree := 0, earliest := 0 }

/-- A thread engine without its blocks and the entries of its buffers that no memory has accepted (R48, R82, R404). -/
def Thr.discard (x : Thr) : Thr :=
  { x with groups := [], blocks := [], running := [], promo := [], sigs := [], sb := [], wb := [] }

/-- The L1 invalidated, with its locks released (R70). -/
def Thr.flushL1 (x : Thr) : Thr := { x with l1 := [], locked := 0 }

namespace State

/-- Change one slot of a tile. -/
def modSlot (s : State) (p k : Nat) (g : Slot → Slot) : State := s.modTile p (·.modSlot k g)
def modQueue (s : State) (p k : Nat) (g : Queue → Queue) : State := s.modTile p (·.modQueue k g)
def modGroup (s : State) (p g : Nat) (h : Group → Group) : State := s.modTile p (·.modGroup g h)
def modThr (s : State) (p : Nat) (g : Thr → Thr) : State := s.modTile p fun t => { t with thr := g t.thr }
def modMat (s : State) (p : Nat) (g : Mat → Mat) : State := s.modTile p fun t => { t with mat := g t.mat }
def modGat (s : State) (p : Nat) (g : Gat → Gat) : State := s.modTile p fun t => { t with gat := g t.gat }
def modSyn (s : State) (p : Nat) (g : Syn → Syn) : State := s.modTile p fun t => { t with syn := g t.syn }

/-- The tiles of the gang that a tile runs in, by rank; the tile alone where it runs none. -/
def gangTiles (s : State) (p : Nat) : List Nat :=
  match (s.tile p).seq.kernel with
  | some m =>
    let l := (s.localOf m.lead).getD 0
    (List.range (2 ^ m.gangLog2)).map fun r => s.physOf (p / 104) (l + r)
  | none => [p]

/-- The lead of a tile's gang. -/
def leadOf (s : State) (p : Nat) : Nat := ((s.tile p).seq.kernel.map (·.lead)).getD p

/-! ### Halts (R46 to R49, R192, R268) -/

/-- The tiles of a gang that met a reason of their own. -/
def origins (s : State) (tiles : List Nat) : List Nat :=
  tiles.filter fun q => (s.tile q).seq.halt.any fun h => h.reason != rGangHalt

/-- A tile is held by the debugger: every reason of its gang is DEBUG_HALT. -/
def debugHeld (s : State) (p : Nat) : Bool :=
  let os := s.origins (s.gangTiles p)
  (s.tile p).seq.halt.isSome && !os.isEmpty && os.all fun q => (s.tile q).seq.halt.any (·.reason == rDebugHalt)

/-- A tile meets a halt reason of its own; a tile held in DEBUG_HALT takes FAULT_UNSERVICEABLE in its place (R255). -/
def haltTile (s : State) (p reason kind stream group addr : Nat) : State :=
  let t := s.tile p
  let ctx := (t.seq.kernel.map (·.job.ctx)).getD 0
  let h : Halt := ⟨reason, kind, stream, group, s.logicalOf p, ctx, addr % 2 ^ 56⟩
  match t.seq.halt with
  | some _ => if s.debugHeld p && reason == rUnserviceable then
      s.modTile p fun t => { t with seq := { t.seq with halt := some h, final := false } } else s
  | none => s.modTile p fun t => { t with seq := { t.seq with halt := some h, run := .halted, final := false, clearAsked := false } }

/-- A stream's instruction halts its tile. -/
def haltStream (s : State) (p k reason : Nat) : State :=
  s.haltTile p reason 0 k 0 ((s.tile p).slot k).pc

/-- An engine instruction halts its tile: the stream that feeds the engine and the push address (R189). -/
def haltEngine (s : State) (p k reason : Nat) (e : Entry) : State := s.haltTile p reason 0 k 0 e.addr

/-- A group's instruction halts its tile. -/
def haltGroup (s : State) (p g reason : Nat) : State :=
  s.haltTile p reason 1 0 g ((((s.tile p).group? g).map (·.pc)).getD 0)

/-- The pending faults, misses and walks of a tile go (R257). -/
def dropFaults (s : State) (p : Nat) : State :=
  let mine := fun (m : Miss) => tileOf m.who == some p
  let s := s.modTile p fun t => { t with misses := [], sent := [] }
  s.modDie (p / 104) fun x => { x with
    walks := x.walks.filter (fun m => !mine m), queued := x.queued.filter (fun m => !mine m),
    faultQueue := x.faultQueue.filter (fun e => !mine e.1), entries := x.entries.filter fun e => !(e.2.any fun y => mine y.miss) }

/-- The owner is a reader of tile `p`. -/
def readerOf (p : Nat) : Owner → Bool
  | .group q _ | .stream q _ | .groupFetch q _ | .gather q | .sync q => q == p
  | _ => false

/-- The replies to a tile's reads go nowhere. -/
def orphan (s : State) (p : Nat) : State :=
  let keep := fun (o : Owner) (st : ReqStatus) => !(readerOf p o && st != .waiting)
  let own := fun (o : Owner) => if readerOf p o then Owner.nobody else o
  let hr := (s.chl.reqs.filter fun r => keep r.owner r.status).map fun r => { r with owner := own r.owner }
  let fr := (s.fab.reqs.filter fun r => keep r.owner r.status).map fun r => { r with owner := own r.owner }
  { s with chl := { s.chl with reqs := hr }, fab := { s.fab with reqs := fr } }

/-- A tile is left idle with its queues and engine state discarded (R48). -/
def discardTile (s : State) (p : Nat) : State :=
  let s := (s.dropFaults p).orphan p
  let s := s.forEach (List.range 4) fun s k =>
    s.modTile p (·.modSlot k fun x => { x with stall := .none, read := none, ended := true, enabled := false })
  s.modTile p fun t => { t with
    seq := { t.seq with run := .idle, inbox := none, kernel := none, halt := none, final := false, clearAsked := false,
                        queues := [], fetches := [] },
    thr := t.thr.discard.flushL1, mat := t.mat.discard, gat := { t.gat with ops := [], copied := 0, copyReq := none },
    syn := { t.syn with cur := none, waits := [], signals := [] } }

/-- Clear a gang: its item fails with `code` unless a halt fails it with TILE_HALTED, and its tiles are idle (R48). -/
def clearGang (s : State) (p : Nat) (code : Nat) : State :=
  let tiles := s.gangTiles p
  let it := s.itemOf p
  let ids := s.owned fun o => match o with
    | .store q _ => tiles.contains q
    | _ => false
  let s := (s.failAt it code).forEach tiles fun s q => s.discardTile q
  match it with
  | some (q, n, i) => s.drainItem q n i ids
  | none => s

/-- A gang may be cleared: CLEAR_HALT was written to a member, or every member does not hold its fault halts (R48). -/
def mayClear (s : State) (tiles : List Nat) : Bool :=
  tiles.any (fun q => (s.tile q).seq.clearAsked)
  || (tiles.all (fun q => !s.flag .SEQ_SETUP_HALT_HOLD q)
      && tiles.any fun q => (s.tile q).seq.halt.any fun h => h.reason != rGangHalt && h.reason != rDebugHalt)

/-- The context's fault state after a tile of it has halted (R268). -/
def ctxHalted (s : State) (h : Halt) : State :=
  if s.flag .CTX_FAULT_HALT h.ctx then s
  else ((s.setFlag .CTX_FAULT_HALT h.ctx true).setF .CTX_FAULT_HALT_TILE h.ctx h.origin).setF .CTX_FAULT_HALT_REASON h.ctx h.reason

/-- HALT_RECORDS_FINAL: every record of the gang stands; its originating tiles are reported, lowest logical ID first,
and the gang is cleared where nothing holds it (R46, R47, R48). A gang may be one tile.
DEDUCED: notes/assumptions/24.md. -/
def recordsFinal (s : State) (p : Nat) : State :=
  let tiles := s.gangTiles p
  if !(tiles.all fun q => (s.tile q).seq.halt.isSome) || tiles.all (fun q => (s.tile q).seq.final) then s
  else
    let os := s.origins tiles
    let first := ((os.head?).map fun q => s.logicalOf q).getD 0
    let s := s.forEach tiles fun s q => s.modTile q fun t => { t with seq := { t.seq with
      final := true, halt := t.seq.halt.map fun h => if h.reason = rGangHalt then { h with origin := first } else h } }
    let s := s.forEach os fun s q =>
      match (s.tile q).seq.halt with
      | some h =>
        if h.reason = rDebugHalt ∨ (s.tile q).seq.kernel.isNone then s
        else
          let it := (s.itemOf q).getD (0, 0, 0)
          (s.ctxHalted h).errRec 1 (some h.ctx) [h.reason + h.kind * 2 ^ 16 + h.stream * 2 ^ 18 + h.group * 2 ^ 20, h.origin,
            h.addr % 2 ^ 32, h.addr / 2 ^ 32, it.1, it.2.1, it.2.2]
      | none => s
    if s.mayClear tiles then s.clearGang p stTileHalted else s

/-- GANG_HALT: the halt of its gang reaches a member (R47). -/
def gangHalt (s : State) (p : Nat) : State :=
  let tiles := s.gangTiles p
  if !(s.tile p).live then s
  else match (s.origins tiles).head? with
    | some q =>
      let s := s.haltTile p rGangHalt 2 0 0 0
      s.modTile p fun t => { t with seq := { t.seq with halt := t.seq.halt.map fun h => { h with origin := s.logicalOf q } } }
    | none => s

/-- The stream or group that executes at a debug halt, and its next address: the lowest live stream, else the lowest
group (notes/assumptions/21.md). -/
def executing (s : State) (p : Nat) : Nat × Nat × Nat × Nat :=
  let t := s.tile p
  match (List.range 4).find? fun k => t.seq.run == .lead && !(t.slot k).ended with
  | some k => (0, k, 0, (t.slot k).pc)
  | none => match t.resident.head? with
    | some g => (1, 0, g, ((t.group? g).map (·.pc)).getD 0)
    | none => (0, 0, 0, 0)

/-- A physical tile of the population (R1, R9). -/
def tilePresent (s : State) (p : Nat) : Bool := s.variant.hasDie (p / 104)

/-- HALT_REQ (R49). DEDUCED: notes/assumptions/21.md. -/
def haltReq (s : State) (p : Nat) : State :=
  if !s.tilePresent p || (s.tile p).seq.halt.isSome then s
  else
    let (kind, k, g, a) := s.executing p
    s.haltTile p rDebugHalt kind k g a

/-- SEQ_CTRL_RESUME: a gang whose origin halted with DEBUG_HALT goes on where it stopped (R49). -/
def resume (s : State) (p : Nat) : State :=
  let tiles := s.gangTiles p
  if !s.debugHeld p then s
  else s.forEach tiles fun s q => s.modTile q fun t => { t with seq := { t.seq with
    halt := none, final := false, clearAsked := false,
    run := match t.seq.kernel with
      | some m => if m.rank = 0 then .lead else .member
      | none => .idle } }

/-- CLEAR_HALT: clears the whole gang once its records are final (R48). -/
def clearHalt (s : State) (p : Nat) : State :=
  if (s.tile p).seq.halt.isNone then s
  else if (s.tile p).seq.final then s.clearGang p stTileHalted
  else s.modTile p fun t => { t with seq := { t.seq with clearAsked := true } }

/-- A write of HALT_HOLD clears a halt that it no longer holds, once the gang's records are final (R48). -/
def holdChanged (s : State) (p : Nat) : State :=
  let tiles := s.gangTiles p
  if tiles.all (fun q => (s.tile q).seq.halt.isSome && (s.tile q).seq.final) && s.mayClear tiles then s.clearGang p stTileHalted
  else s

/-! ### The scratchpad (R133, R136) -/

end State

/-- Scratchpad bytes from an address on; what lies beyond its end is not reached (R136). -/
def Tile.spadBytes (t : Tile) (a n : Nat) : List Byte := FMap.getList 0 t.spad a n

/-- A cell's 32 bytes. -/
def Tile.cell (t : Tile) (c : Nat) : List Byte := t.spadBytes (32 * c) 32

/-- Cells of a run of bytes. -/
def spadCells (a n : Nat) : List Nat := if n = 0 then [] else span (a / 32) ((a + n - 1) / 32 + 1 - a / 32)

/-- Remember the contents of a cell that is about to be rewritten. -/
def noteOld (m : FMap (List (List Byte))) (c : Nat) (old : List Byte) : FMap (List (List Byte)) :=
  m.upd [] c (· ++ [old])

/-- The instruction may still read the scratchpad. -/
def MatOp.reader (o : MatOp) : Bool :=
  match o.work with
  | .mldp .. | .mstr .. | .mdrn .. => !o.done
  | _ => false

/-- The head of MATQ may already be read for: it has no wait, or its wait has been granted (R89, R95). -/
def Tile.matReady (t : Tile) : Bool :=
  match (t.queue 1).held.head? with
  | some e => (t.queue 1).granted || e.wait.isNone
  | none => false

/-- A scratchpad write: MAT instructions that may still read a cell keep its earlier versions (R89, R95, R101). -/
def Tile.spadPut (t : Tile) (a : Nat) (bs : List Byte) : Tile :=
  let ready := t.matReady
  let mat := (spadCells a bs.length).foldl (fun m c =>
    let old := t.cell c
    { m with headOlds := if ready then noteOld m.headOlds c old else m.headOlds,
             ops := m.ops.map fun o => if o.reader then { o with olds := noteOld o.olds c old } else o }) t.mat
  { t with spad := FMap.putList 0 t.spad a bs, mat := mat }

namespace State

/-- Count the bank accesses of a run of bytes (R134). -/
def spadCount (s : State) (p a n : Nat) : State := s.bump .SPAD_ACCESS_COUNT p (spadCells a n).length

/-- Read a run of scratchpad bytes. -/
def spadRead (s : State) (p a n : Nat) : State × List Byte := (s.spadCount p a n, (s.tile p).spadBytes a n)

/-- Write a run of scratchpad bytes. -/
def spadWrite (s : State) (p a : Nat) (bs : List Byte) : State :=
  (s.spadCount p a bs.length).modTile p (·.spadPut a bs)

/-! ### A tile's accesses to memory -/

end State

/-- What a read of memory gives a tile: the bytes, a wait, or a request that has left the part. -/
inductive RdRes where
  | data (bytes : List Byte) (poison : Bool)
  | wait
  | req (id : Nat)
  deriving DecidableEq, Repr

namespace State

/-- Read `n` bytes within a line at its home (R195); an unmapped address gives zeros and fails the item (R225). -/
def memRead (s : State) (p target pa endpoint n : Nat) (owner : Owner) : State × RdRes :=
  if target = 0 then
    match s.mustWait pa n false with
    | some s => (s, .wait)
    | none =>
      let g := s.physRead (some (p / 104)) pa n
      let s := if g.absent then g.s.failAt (g.s.itemOf p) stMemAbsent else g.s
      (s, .data g.bytes g.poison)
  else if target = 1 then (s.hostReq .rdnc pa n [] 0 false owner (s.itemOf p), .req s.nextId)
  else (s.fabReq 2 pa n [] 0 false endpoint owner (s.itemOf p) (s.ctxOf p), .req s.nextId)

/-- The outcome of a request that has ended: its bytes, whether its line carried an eyespot. -/
def reqDone (s : State) (id : Nat) : Option (List Byte × Bool) :=
  match s.chl.reqs.find? (·.id == id) with
  | some r => if r.status = .waiting then none else some (r.reply, r.poison)
  | none => match s.fab.reqs.find? (·.id == id) with
    | some r => if r.status = .waiting then none else some (r.reply, r.poison)
    | none => some ([], false)

/-- A request that has ended has failed: its bytes are zero (R315, R342). -/
def reqFailed (s : State) (id : Nat) : Bool :=
  s.chl.reqs.any (fun r => r.id == id && r.status == .failed) || s.fab.reqs.any fun r => r.id == id && r.status == .failed

/-- Forget a request that has ended. -/
def dropReq (s : State) (id : Nat) : State :=
  { s with chl := { s.chl with reqs := s.chl.reqs.filter (·.id != id) }, fab := { s.fab with reqs := s.fab.reqs.filter (·.id != id) } }

/-- Take the bytes of a request that has ended, zero where the line carried an eyespot; the item of tile `p` then fails
with MEM_POISON (R75, R151, R167). -/
def takeReq (s : State) (p n id : Nat) : Option (State × List Byte) :=
  (s.reqDone id).map fun x =>
    let s := s.dropReq id
    if x.2 then (s.failAt (s.itemOf p) stMemPoison, rep n 0) else (s, fit n x.1)

/-- Write bytes within a line of memory on behalf of a tile's stores `who`; false where it must wait. -/
def memWrite (s : State) (p target pa endpoint : Nat) (bs : List Byte) (who : List (Nat × Nat)) : State × Bool :=
  if target = 0 then
    match s.mustWait pa bs.length true with
    | some s => (s, false)
    | none =>
      let (s, a) := s.physWrite (some (p / 104)) pa bs
      let s := if a then s.failAt (s.itemOf p) stMemAbsent else s
      (s.snoopShared pa bs.length (.store p who), true)
  else if target = 1 then (s.hostWrite pa bs (.store p who) (s.itemOf p), true)
  else (s.fabReq 1 pa bs.length bs 0 false endpoint (.store p who) (s.itemOf p) (s.ctxOf p), true)

/-- A miss of a tile's requester. -/
def missOf (s : State) (p : Nat) (who : Requester) (va : Nat) (acc : Access) (instr : Nat) : Miss :=
  let k := (s.tile p).seq.kernel
  ⟨who, p / 104, (k.map (·.job.ctx)).getD 0, va, acc, instr, (k.map (·.job.copy)).getD false⟩

/-! ### Semaphores (R206, R207) -/

/-- Value of a semaphore. -/
def sem (s : State) (p k : Nat) : Nat := (s.tile p).syn.sems.get 0 k

/-- Grant a wait whose condition holds. -/
def tryGrant (s : State) (p : Nat) (w : SemWait) : Option State :=
  let v := s.sem p w.sem
  if v < w.count then none
  else some (if w.consume then s.modSyn p fun y => { y with sems := y.sems.put 0 w.sem (v - w.count) } else s)

/-- Raise a signal: it arrives at the semaphore with SEMAPHORE_SIGNAL (R208). -/
def raiseSem (s : State) (p k n : Nat) : State :=
  (s.bump .SYN_SIGNALS_COUNT p).modSyn p fun y => { y with signals := y.signals ++ [(k, n)] }

/-- Raise the signal of a completed engine instruction. -/
def raiseEntry (s : State) (p : Nat) (e : Entry) : State :=
  match e.signal with
  | some (k, n) => s.raiseSem p k n
  | none => s

/-! ### Engine queues (R31 to R34) -/

/-- The head of an engine's queue. DESIGN CHOICE: notes/assumptions/8.md. -/
def head (s : State) (p k : Nat) : Option Entry := ((s.tile p).queue k).held.head?

/-- The wait of the head holds: granted before, absent, or granted now (R34). -/
def headReady (s : State) (p k : Nat) (e : Entry) : Option State :=
  if ((s.tile p).queue k).granted then some s
  else match e.wait with
    | none => some s
    | some w => (s.tryGrant p w).map fun s => s.modQueue p k fun q => { q with granted := true }

/-- The engine begins the head: it leaves the queue (R31). -/
def dequeue (s : State) (p k : Nat) : State :=
  let alone := (s.tile p).gangSize == 1
  s.modQueue p k fun q => { q with held := q.held.drop 1, granted := false, taken := q.taken + 1,
                                   freed := if alone then q.freed + 1 else q.freed }

/-! ### Launch and kernel end (R36, R37) -/

/-- The message that a launch leaves in a slot: its counter, its enable. -/
def launchSlot (m : LaunchMsg) (logicalLead k : Nat) : Slot :=
  let on := m.rank == 0 && !m.job.copy && bit m.enables k
  let q : FMap Nat := (([m.args % 2 ^ 64, m.job.item, 2 ^ m.gangLog2, logicalLead].zip (List.range 4)).foldl (fun q x => q.put 0 x.2 x.1) [])
  { Slot.reset with enabled := on, ended := !on, pc := if on then nth 0 m.pcs k else 0, q := if m.rank = 0 then q else [] }

/-- Sense bits of a tile at launch: TILE and GANG clear, PART and SYSTEM the inverse of the published sense of the
context's roots (R212). -/
def launchSense (s : State) (ctx : Nat) : Nat :=
  ((List.range 8).map fun k => b2n (!(s.roots.get .reset (rootKey 2 ctx k)).sense) * 2 ^ (16 + k)
    + b2n (!(s.roots.get .reset (rootKey 3 ctx k)).sense) * 2 ^ (24 + k)).sum

/-- LAUNCH_MESSAGE: a tile takes its launch; a lead once every other member has, so that every semaphore of the gang is
clear before a stream starts (R36, R206). A COPY item launches no kernel (R283). DEDUCED: notes/assumptions/24.md. -/
def launchMessage (s : State) (p : Nat) : State :=
  let t := s.tile p
  match t.seq.inbox with
  | none => s
  | some m =>
    let others := (List.range (2 ^ m.gangLog2)).filterMap fun r =>
      if r = 0 then none else some (s.physOf (p / 104) ((s.localOf m.lead).getD 0 + r))
    if t.seq.run != .idle || t.seq.halt.isSome
        || (m.rank == 0 && !(others.all fun q => (s.tile q).seq.run == .member)) then s
    else if m.job.copy then
      s.modTile p fun t => { t with seq := { t.seq with inbox := none, kernel := some m, run := .lead },
                                    gat := { t.gat with ops := [], copied := 0, copyReq := none } }
    else
      let slots := (List.range 4).foldl (fun f k => FMap.put Slot.reset f k (launchSlot m (s.logicalOf m.lead) k)) ([] : FMap Slot)
      let sense := s.launchSense m.job.ctx
      let roots := (List.range 8).foldl (fun r k =>
        let r := FMap.put BarRoot.reset r (rootKey 0 p k) .reset
        if m.rank = 0 then FMap.put BarRoot.reset r (rootKey 1 p k) .reset else r) s.roots
      let s := { s with roots := roots }
      s.modTile p fun t => { t with
        seq := { t.seq with inbox := none, kernel := some m, run := if m.rank = 0 then .lead else .member, slots := slots,
                            queues := [], icache := [], tcache := [], fetches := [] },
        thr := { t.thr.discard.flushL1 with carve := 0 },
        mat := { t.mat.discard with tags := [], swaps := [], activeB := false },
        gat := { t.gat with ops := [], copied := 0, copyReq := none },
        syn := { t.syn with sems := [], signals := [], sense := sense, cur := none, waits := [], dead := [] } }

/-- Bytes that a COPY item moves. -/
def copyBytes (s : State) (p : Nat) : Nat :=
  match (s.itemOf p).bind fun it => s.desc? it.1 it.2.1 with
  | some d => d.itemBytes
  | none => 0

/-- Nothing of a tile's kernel is left but its reads in the caches: queues, engines and store buffers are empty (R37). -/
def drained (s : State) (p : Nat) : Bool :=
  let t := s.tile p
  (List.range 4).all (fun k => (t.slot k).ended && (t.queue k).held.isEmpty && (t.queue k).transit.isEmpty)
  && t.thr.running.isEmpty && t.thr.sigs.isEmpty && t.thr.sb.isEmpty && t.thr.wb.isEmpty && t.mat.ops.isEmpty && t.mat.gmmas.isEmpty
  && t.gat.ops.isEmpty && t.syn.cur.isNone

/-- KERNEL_END: the lead reports the end of its gang's kernel, or a tile that of its COPY item (R37, R283).
DEDUCED: notes/assumptions/24.md. -/
def kernelEnd (s : State) (p : Nat) : State :=
  let t := s.tile p
  match t.seq.kernel with
  | none => s
  | some m =>
    let tiles := s.gangTiles p
    let done := if m.job.copy then t.gat.copied == s.copyBytes p && t.gat.copyReq.isNone else tiles.all s.drained
    if t.seq.run != .lead || t.seq.halt.isSome || !done || !(tiles.all fun q => (s.tile q).seq.halt.isNone) then s
    else
      let ids := s.owned fun o => match o with
        | .store q _ => tiles.contains q
        | _ => false
      let s := s.forEach tiles fun s q => (s.orphan q).modTile q fun t => { t with
        seq := { t.seq with run := .idle, kernel := none, queues := [], fetches := [] }, thr := t.thr.flushL1,
        gat := { t.gat with copied := 0 } }
      s.drainItem m.job.q m.job.n m.job.item ids

/-! ### Instruction fetch (R28, R191) -/

end State

/-- Bytes held by an instruction cache. DEDUCED: notes/assumptions/22.md. -/
def cacheBytes (c : List (Nat × List Byte)) (a n : Nat) : Option (List Byte) :=
  (c.find? (·.1 == a / 64)).map fun x => (x.2.drop (a % 64)).take n

/-- Keep a line in an instruction cache of `cap` lines. -/
def keepLine (c : List (Nat × List Byte)) (cap line : Nat) (bs : List Byte) : List (Nat × List Byte) :=
  let c := c.filter (·.1 != line) ++ [(line, bs)]
  if cap < c.length then c.drop 1 else c

/-- The loops after the instruction at `pc` has run: where execution goes on, and the levels still active (R30). -/
def loopNext (pc next : Nat) : List LoopLevel → Nat × List LoopLevel
  | [] => (next, [])
  | l :: ls =>
    if l.last = pc then
      if 0 < l.left then (l.first, { l with left := l.left - 1 } :: ls) else loopNext pc next ls
    else (next, l :: ls)

namespace State

/-- The address whose line a stream still needs: its next instruction's, or, for a loop that is skipped or left, that
of the loop's last instruction, whose length says where execution goes on (R30). -/
def streamNeed (s : State) (p k : Nat) : Option Nat :=
  let t := s.tile p
  let x := t.slot k
  match cacheBytes t.seq.icache x.pc 8 with
  | none => some x.pc
  | some bs =>
    let w := fromLE bs
    let last := if streamClass w = 0 ∧ streamOpcode w = 0x29 then some ((x.pc + bits w 63 32) % 2 ^ 56)
      else if streamClass w = 0 ∧ streamOpcode w = 0x2A then (x.loops.head?).map (·.last) else none
    match last with
    | some a => if (cacheBytes t.seq.icache a 8).isNone then some a else none
    | none => none

/-- Length of the instruction at an address of the cache. -/
def lengthAt (s : State) (p a : Nat) : Nat :=
  match cacheBytes (s.tile p).seq.icache a 8 with
  | some bs => if fromLE bs % 2 = 1 then 16 else 8
  | none => 8

/-- Who asks a translation for a fetch. -/
def fetchWho (p : Nat) : Fetcher → Requester
  | .stream k => .stream p k
  | .group g => .group p g

/-- What a fetcher needs next, and at which instruction. -/
def fetchNeed (s : State) (p : Nat) : Fetcher → Option (Nat × Nat)
  | .stream k =>
    let x := (s.tile p).slot k.num
    if (s.tile p).seq.run = .lead ∧ x.enabled ∧ !x.ended then (s.streamNeed p k.num).map fun a => (a, x.pc) else none
  | .group g =>
    match (s.tile p).group? g with
    | some x => if (cacheBytes (s.tile p).seq.tcache x.pc 8).isNone then some (x.pc, x.pc) else none
    | none => none

/-- The key of a fetcher's outstanding fetch. -/
def fetchKey : Fetcher → Nat
  | .stream k => k.num
  | .group g => 4 + g

/-- A fetched line reaches its cache, or halts the tile when it carries an eyespot (R191).
DESIGN CHOICE: notes/assumptions/23.md. -/
def fetchFill (s : State) (p : Nat) (who : Fetcher) (a instr : Nat) (bs : List Byte) (poison : Bool) : State :=
  if poison then
    match who with
    | .stream k => s.haltTile p rInstrPoison 0 k.num 0 instr
    | .group g => s.haltTile p rInstrPoison 1 0 g instr
  else match who with
    | .stream _ => s.modTile p fun t => { t with seq := { t.seq with icache := keepLine t.seq.icache 512 (a / 64) (fit 64 bs) } }
    | .group _ => s.modTile p fun t => { t with seq := { t.seq with tcache := keepLine t.seq.tcache 1024 (a / 64) (fit 64 bs) } }

/-- INSTRUCTION_FETCH_FILL: the line that a stream or group needs is translated, read and filled, as far as it can be
now; a fetch of a line that another one has filled meanwhile is dropped. -/
def instructionFill (s : State) (p : Nat) (who : Fetcher) : State :=
  if !(s.tile p).live then s
  else match s.fetchNeed p who with
  | none => s
  | some (a, instr) =>
    match (s.tile p).seq.fetches.get none (fetchKey who) with
    | some (line, id) =>
      match s.reqDone id with
      | none => s
      | some (bs, poison) =>
        let s := (s.dropReq id).modTile p fun t => { t with seq := { t.seq with fetches := t.seq.fetches.put none (fetchKey who) none } }
        if line = a / 64 then s.fetchFill p who a instr bs poison else s
    | none =>
      if s.xlWaiting (fetchWho p who) (p / 104) (some p) then s
      else match s.translate p (s.missOf p (fetchWho p who) a .fetch instr) with
      | (s, .ok target pa ep) =>
        let owner := match who with
          | .stream k => Owner.stream p k
          | .group g => Owner.groupFetch p g
        match s.memRead p target (pa / 64 * 64) ep 64 owner with
        | (s, .data bs poison) => s.fetchFill p who a instr bs poison
        | (s, .wait) => s
        | (s, .req id) => s.modTile p fun t => { t with seq := { t.seq with fetches := t.seq.fetches.put none (fetchKey who) (some (a / 64, id)) } }
      | (s, _) =>
        match who with
        | .group g => s.modGroup p g fun x => { x with active := false, wait := .xlat }
        | .stream _ => s

/-! ### Streams (R28, R33, R40 to R44) -/

/-- A stream can execute its next instruction: the tile leads and is not halted, the slot is live and not stalled, and
no fetch or read of it is outstanding. -/
def streamLive (s : State) (p k : Nat) (who : StreamId) : Bool :=
  let t := s.tile p
  t.seq.run == .lead && t.seq.halt.isNone && (t.slot k).enabled && !(t.slot k).ended && (t.slot k).stall == .none
  && !s.xlWaiting (.stream p who) (p / 104) (some p)

/-- The instruction at a stream's program counter, as its cache holds it, has these bytes.
DEDUCED: notes/assumptions/22.md. -/
def streamFetched (s : State) (p k n word : Nat) : Bool :=
  match cacheBytes (s.tile p).seq.icache ((s.tile p).slot k).pc n with
  | some bs => bs == toLE n word
  | none => false

/-- A stream goes on behind an instruction of `len` bytes (R30, R163). -/
def advance (s : State) (p k len : Nat) : State :=
  s.modSlot p k fun x =>
    let r := loopNext x.pc ((x.pc + len) % 2 ^ 56) x.loops
    { x with pc := r.1, loops := r.2 }

/-- A stream executes a scalar instruction of `n` bytes: it is illegal where R163 or R188 is broken, else `body` runs.
DESIGN CHOICE: notes/assumptions/8.md. -/
def scalar (s : State) (p : Nat) (who : StreamId) (n word : Nat) (ok : Bool) (body : State → State) : State :=
  if !s.streamLive p who.num who || !s.streamFetched p who.num n word then s
  else if !ok || ((s.tile p).slot who.num).pc % n != 0 then s.haltStream p who.num rIllegal
  else body s

/-- Put an engine instruction into the queue of the tile, or broadcast it to the gang (R31, R40, R41). -/
def pushNow (s : State) (p k raw : Nat) : State :=
  let x := (s.tile p).slot k
  let tiles := s.gangTiles p
  let s := if tiles.length = 1 then
      s.modQueue p k fun q => { q with held := q.held ++ [⟨raw, x.pc, x.q, 0⟩] }
    else
      let s := s.forEach (tiles.zip (List.range tiles.length)) fun s y =>
        s.modQueue y.1 k fun q => { q with transit := q.transit ++ [⟨raw, x.pc, x.q, y.2⟩] }
      s.modSlot p k fun x => { x with pushed := x.pushed + 1 }
  ((s.bump .SEQ_ISSUE_COUNT (4 * p + k)).modSlot p k fun x => { x with stall := .none }).advance p k 16

/-- The queue shows a free entry, or the lead has a credit (R33, R43). -/
def pushRoom (s : State) (p k : Nat) : Bool :=
  let t := s.tile p
  if t.gangSize = 1 then decide ((t.queue k).held.length + (t.queue k).freed < 64)
  else decide ((t.slot k).pushed < (t.slot k).returned + 64)

/-- ENGINE_INSTRUCTION_PUSH: a stream reaches an instruction that is no scalar one; it is illegal, pushed, or stalls. -/
def enginePush (s : State) (p : Nat) (who : StreamId) (raw : Nat) : State :=
  let k := who.num
  let pc := ((s.tile p).slot k).pc
  let n := if bit raw 0 && pc % 16 == 0 then 16 else 8
  if !s.streamLive p k who || !s.streamFetched p k n raw || (streamClass raw == 0 && scalarListed (streamOpcode raw)) then s
  else if !engineOk k raw || pc % 16 != 0 then s.haltStream p k rIllegal
  else if s.pushRoom p k then s.pushNow p k raw
  else s.modSlot p k fun x => { x with stall := .full raw }

/-- A stalled stream that finds room pushes its instruction; its stall is counted (R33, R50). -/
def unstall (s : State) (p k stall : Nat) : State :=
  match ((s.tile p).slot k).stall with
  | .full raw =>
    let s := s.bump .SEQ_STALL_CYCLES_COUNT (4 * p + k) stall
    if (s.tile p).live && s.pushRoom p k then s.pushNow p k raw else s
  | _ => s

/-- QUEUE_ENTRY_FREED: a dequeue becomes visible to the stream. -/
def entryFreed (s : State) (p : Nat) (who : StreamId) (stall : Nat) : State :=
  if ((s.tile p).queue who.num).freed = 0 then s
  else (s.modQueue p who.num fun q => { q with freed := q.freed - 1 }).unstall p who.num stall

/-- BROADCAST_RECEIVE: a member receives the next instruction of a stream of its lead (R42). -/
def broadcastReceive (s : State) (p : Nat) (who : StreamId) : State :=
  s.modQueue p who.num fun q => { q with held := q.held ++ q.transit.take 1, transit := q.transit.drop 1 }

/-- BROADCAST_CREDIT_RETURN: every member has dequeued one more entry, and the lead regains a credit (R43). -/
def creditReturn (s : State) (p : Nat) (who : StreamId) (stall : Nat) : State :=
  let x := (s.tile p).slot who.num
  if (s.tile p).gangSize = 1 ∨ (s.tile p).rank ≠ 0
      ∨ !((s.gangTiles p).all fun q => decide (x.returned < ((s.tile q).queue who.num).taken)) then s
  else (s.modSlot p who.num fun x => { x with returned := x.returned + 1 }).unstall p who.num stall

/-- A member's grant of its lead's stream-level wait reaches the lead's record of grants (R44). -/
def grantStream (s : State) (p k : Nat) : State :=
  let lead := s.leadOf p
  let r := (s.tile p).rank
  let s := s.modSyn p fun y => { y with waits := y.waits.put none k none }
  match ((s.tile lead).slot k).stall with
  | .wait w l =>
    if (s.tile lead).gangSize = 1 then (s.modSlot lead k fun x => { x with stall := .none }).advance lead k 8
    else s.modSlot lead k fun x => { x with stall := .wait w (l ++ [r]) }
  | _ => s

/-- GANG_WAIT_COMPLETE: the lead sees that every member has granted its wait (R44). -/
def gangWait (s : State) (p : Nat) (who : StreamId) : State :=
  match ((s.tile p).slot who.num).stall with
  | .wait _ l =>
    if (s.tile p).gangSize ≠ 1 ∧ (s.tile p).live ∧ (List.range (s.tile p).gangSize).all l.contains then
      (s.modSlot p who.num fun x => { x with stall := .none }).advance p who.num 8
    else s
  | _ => s

end State

end Sys2Proof.Machine
end

