-- ==== Sys2Proof/Machine/Streams.lean ====
section
/-!
DEFINITION. Scalar instructions of the streams (07_hexist_encodings.md, R164 to R167; 02, R29, R30), and the
commands of the sequencer, queues and gangs (02).
-/
namespace Sys2Proof.Machine

namespace State

/-- A q-register of a stream. -/
def qreg (s : State) (p k r : Nat) : Nat := ((s.tile p).slot k).q.get 0 r

/-- Write a q-register, modulo 2^64 (R27). -/
def setQ (s : State) (p k r v : Nat) : State := s.modSlot p k fun x => { x with q := x.q.put 0 r (v % 2 ^ 64) }

/-- D = A op B (S-R). -/
def scalarOp (s : State) (p : Nat) (who : StreamId) (op : Nat) (f : ScalarR) (g : W64 → W64 → W64) : State :=
  s.scalar p who 8 (f.word op) f.clean fun s =>
    let a := BitVec.ofNat 64 (s.qreg p who.num f.a.toNat)
    let b := BitVec.ofNat 64 (s.qreg p who.num f.b.toNat)
    (s.setQ p who.num f.d.toNat (g a b).toNat).advance p who.num 8

/-- D = A op IMM (S-I), IMM sign-extended. -/
def scalarImm (s : State) (p : Nat) (who : StreamId) (op : Nat) (f : ScalarI) (g : W64 → W64 → W64) : State :=
  s.scalar p who 8 (f.word op) f.clean fun s =>
    let a := BitVec.ofNat 64 (s.qreg p who.num f.a.toNat)
    (s.setQ p who.num f.d.toNat (g a (f.imm.signExtend 64)).toNat).advance p who.num 8

/-- The fields of an S-R instruction that takes no operand are zero. -/
def noOperands (f : ScalarR) : Bool := f.clean && f.d == 0 && f.a == 0 && f.b == 0

/-- QNOP. -/
def qnop (s : State) (p : Nat) (who : StreamId) (f : ScalarR) : State :=
  s.scalar p who 8 (f.word 0x01) (noOperands f) fun s => s.advance p who.num 8

/-- QEND: the stream ends; it executes nothing after it (R37). -/
def qend (s : State) (p : Nat) (who : StreamId) (f : ScalarR) : State :=
  s.scalar p who 8 (f.word 0x02) (noOperands f) fun s =>
    (s.advance p who.num 8).modSlot p who.num fun x => { x with ended := true }

/-- QMOVI: D = IMM. -/
def qmovi (s : State) (p : Nat) (who : StreamId) (f : ScalarI) : State :=
  s.scalar p who 8 (f.word 0x1F) (f.clean && f.a == 0) fun s =>
    (s.setQ p who.num f.d.toNat (f.imm.signExtend 64).toNat).advance p who.num 8

/-- QMOVI64: D = IMM64. -/
def qmovi64 (s : State) (p : Nat) (who : StreamId) (f : ScalarX) : State :=
  s.scalar p who 16 (f.word 0x20) f.clean fun s => (s.setQ p who.num f.d.toNat f.imm64.toNat).advance p who.num 16

/-- The virtual address A + IMM (R27). -/
def qAddr (s : State) (p k : Nat) (f : ScalarI) : Nat :=
  (BitVec.ofNat 64 (s.qreg p k f.a.toNat) + f.imm.signExtend 64).toNat % 2 ^ 56

/-- The data of a QLD reaches its register. -/
def qldDone (s : State) (p k d : Nat) (bs : List Byte) : State :=
  ((s.setQ p k d (fromLE bs)).modSlot p k fun x => { x with read := none }).advance p k 8

/-- QLD reads memory directly; the command is given again until the read has returned (R167).
DESIGN CHOICE: notes/assumptions/23.md. -/
def qld (s : State) (p : Nat) (who : StreamId) (f : ScalarI) : State :=
  s.scalar p who 8 (f.word 0x21) f.clean fun s =>
    let k := who.num
    let va := s.qAddr p k f
    if va % 8 ≠ 0 then s.haltStream p k rMemAlign
    else match ((s.tile p).slot k).read with
    | some id =>
      match s.takeReq p 8 id with
      | some (s, bs) => s.qldDone p k f.d.toNat bs
      | none => s
    | none =>
      match s.translate p (s.missOf p (.stream p who) va .read ((s.tile p).slot k).pc) with
      | (s, .ok target pa ep) =>
        match s.memRead p target pa ep 8 (.stream p who) with
        | (s, .data bs poison) =>
          if poison then (s.failAt (s.itemOf p) stMemPoison).qldDone p k f.d.toNat (rep 8 0)
          else s.qldDone p k f.d.toNat bs
        | (s, .req id) => s.modSlot p k fun x => { x with read := some id }
        | (s, .wait) => s
      | (s, _) => s

/-- QLDSP reads the scratchpad (R167). -/
def qldsp (s : State) (p : Nat) (who : StreamId) (f : ScalarI) : State :=
  s.scalar p who 8 (f.word 0x22) f.clean fun s =>
    let k := who.num
    let a := (BitVec.ofNat 64 (s.qreg p k f.a.toNat) + f.imm.signExtend 64).toNat % spadSize
    if a % 8 ≠ 0 then s.haltStream p k rMemAlign
    else
      let (s, bs) := s.spadRead p a 8
      (s.setQ p k f.d.toNat (fromLE bs)).advance p k 8

end State

/-- The condition of QBR holds (R164). -/
def branchHolds (cond : Nat) (a b : W64) : Bool :=
  match cond with
  | 0 => true
  | 1 => a == b
  | 2 => a != b
  | 3 => a.slt b
  | 4 => !a.slt b
  | 5 => a.ult b
  | _ => !a.ult b

namespace State

/-- QBR: a taken branch stays within the innermost active body (R30, R166). -/
def qbr (s : State) (p : Nat) (who : StreamId) (f : ScalarB) : State :=
  let ok := f.clean && f.cond != 7 && (f.cond != 0 || (f.a == 0 && f.b == 0)) && f.offset.toNat % 8 == 0
  s.scalar p who 8 (f.word 0x28) ok fun s =>
    let k := who.num
    let x := (s.tile p).slot k
    let a := BitVec.ofNat 64 (s.qreg p k f.a.toNat)
    let b := BitVec.ofNat 64 (s.qreg p k f.b.toNat)
    if branchHolds f.cond.toNat a b then
      let target := (x.pc + (f.offset.signExtend 64).toNat) % 2 ^ 56
      match x.loops with
      | l :: _ =>
        if l.first ≤ target ∧ target ≤ l.last then s.modSlot p k fun x => { x with pc := target }
        else s.haltStream p k rLoop
      | [] => s.modSlot p k fun x => { x with pc := target }
    else s.advance p k 8

/-- Whether the cache holds the last instruction of a body, whose length a skipped or left loop needs. -/
def lastKnown (s : State) (p a : Nat) : Bool := (cacheBytes (s.tile p).seq.icache a 8).isSome

/-- QLOOP: a hardware loop is entered, or skipped with a count of zero (R29, R30). -/
def qloop (s : State) (p : Nat) (who : StreamId) (f : ScalarL) : State :=
  let off := f.endOff.toInt
  let ok := f.clean && off % 8 == 0 && decide (8 ≤ off)
  s.scalar p who 8 (f.word 0x29) ok fun s =>
    let k := who.num
    let x := (s.tile p).slot k
    let count := s.qreg p k f.count.toNat % 2 ^ 32
    let last := (x.pc + f.endOff.toNat) % 2 ^ 56
    let beyond := match x.loops with
      | l :: _ => decide (l.last < last)
      | [] => false
    if beyond || (count != 0 && x.loops.length == 4) then s.haltStream p k rLoop
    else if count = 0 then
      if s.lastKnown p last then
        let r := loopNext last ((last + s.lengthAt p last) % 2 ^ 56) x.loops
        s.modSlot p k fun x => { x with pc := r.1, loops := r.2 }
      else s
    else s.modSlot p k fun x => { x with pc := (x.pc + 8) % 2 ^ 56, loops := ⟨(x.pc + 8) % 2 ^ 56, last, count - 1⟩ :: x.loops }

/-- QLOOPX: the innermost loop is left at once (R30, R166). -/
def qloopx (s : State) (p : Nat) (who : StreamId) (f : ScalarR) : State :=
  s.scalar p who 8 (f.word 0x2A) (noOperands f) fun s =>
    let k := who.num
    match ((s.tile p).slot k).loops with
    | [] => s.haltStream p k rLoop
    | l :: ls =>
      if s.lastKnown p l.last then
        let r := loopNext l.last ((l.last + s.lengthAt p l.last) % 2 ^ 56) ls
        s.modSlot p k fun x => { x with pc := r.1, loops := r.2 }
      else s

/-- QLOOPN: D = the remaining count of a level (R166). -/
def qloopn (s : State) (p : Nat) (who : StreamId) (f : ScalarI) : State :=
  s.scalar p who 8 (f.word 0x2B) (f.clean && f.a == 0) fun s =>
    let k := who.num
    let left := ((((s.tile p).slot k).loops[f.imm.toNat % 4]?).map (·.left)).getD 0
    (s.setQ p k f.d.toNat left).advance p k 8

/-- QWAIT: a stream-level wait, evaluated by the sync engine of the tile, or of every member of its gang (R34, R44). -/
def qwait (s : State) (p : Nat) (who : StreamId) (f : ScalarW) : State :=
  s.scalar p who 8 (f.word 0x2C) (f.clean && (f.cond == 1 || f.cond == 2)) fun s =>
    let k := who.num
    let w : SemWait := ⟨f.sem.toNat, f.count.toNat + 1, f.cond == 2⟩
    let s := s.modSlot p k fun x => { x with stall := .wait w [] }
    s.forEach (s.gangTiles p) fun s q =>
      let s := s.modSyn q fun y => { y with waits := y.waits.put none k (some w) }
      if !(s.tile q).live then s
      else match s.tryGrant q w with
        | some s => s.grantStream q k
        | none => s

end State

/-! ### Meanings: scalar instructions (R165) -/

/-- QADD (R165). -/
def execQadd (p : Nat) (k : StreamId) (f : ScalarR) (s : State) : Out := .next (s.scalarOp p k 0x03 f (fun a b => a + b))

/-- QSUB (R165). -/
def execQsub (p : Nat) (k : StreamId) (f : ScalarR) (s : State) : Out := .next (s.scalarOp p k 0x04 f (fun a b => a - b))

/-- QMUL (R165). -/
def execQmul (p : Nat) (k : StreamId) (f : ScalarR) (s : State) : Out := .next (s.scalarOp p k 0x05 f (fun a b => a * b))

/-- QAND (R165). -/
def execQand (p : Nat) (k : StreamId) (f : ScalarR) (s : State) : Out := .next (s.scalarOp p k 0x06 f (fun a b => a &&& b))

/-- QOR (R165). -/
def execQor (p : Nat) (k : StreamId) (f : ScalarR) (s : State) : Out := .next (s.scalarOp p k 0x07 f (fun a b => a ||| b))

/-- QXOR (R165). -/
def execQxor (p : Nat) (k : StreamId) (f : ScalarR) (s : State) : Out := .next (s.scalarOp p k 0x08 f (fun a b => a ^^^ b))

/-- QSHL (R165). -/
def execQshl (p : Nat) (k : StreamId) (f : ScalarR) (s : State) : Out := .next (s.scalarOp p k 0x09 f (fun a b => a <<< (b.toNat % 64)))

/-- QSHR (R165). -/
def execQshr (p : Nat) (k : StreamId) (f : ScalarR) (s : State) : Out := .next (s.scalarOp p k 0x0A f (fun a b => a >>> (b.toNat % 64)))

/-- QSRA (R165). -/
def execQsra (p : Nat) (k : StreamId) (f : ScalarR) (s : State) : Out := .next (s.scalarOp p k 0x0B f (fun a b => a.sshiftRight (b.toNat % 64)))

/-- QMIN (R165). -/
def execQmin (p : Nat) (k : StreamId) (f : ScalarR) (s : State) : Out := .next (s.scalarOp p k 0x0C f (fun a b => if b.slt a then b else a))

/-- QMAX (R165). -/
def execQmax (p : Nat) (k : StreamId) (f : ScalarR) (s : State) : Out := .next (s.scalarOp p k 0x0D f (fun a b => if a.slt b then b else a))

/-- QMINU (R165). -/
def execQminu (p : Nat) (k : StreamId) (f : ScalarR) (s : State) : Out := .next (s.scalarOp p k 0x0E f (fun a b => if b.ult a then b else a))

/-- QMAXU (R165). -/
def execQmaxu (p : Nat) (k : StreamId) (f : ScalarR) (s : State) : Out := .next (s.scalarOp p k 0x0F f (fun a b => if a.ult b then b else a))

/-- QSLT (R165). -/
def execQslt (p : Nat) (k : StreamId) (f : ScalarR) (s : State) : Out := .next (s.scalarOp p k 0x10 f (fun a b => if a.slt b then 1 else 0))

/-- QSLTU (R165). -/
def execQsltu (p : Nat) (k : StreamId) (f : ScalarR) (s : State) : Out := .next (s.scalarOp p k 0x11 f (fun a b => if a.ult b then 1 else 0))

/-- QADDI (R165). -/
def execQaddi (p : Nat) (k : StreamId) (f : ScalarI) (s : State) : Out := .next (s.scalarImm p k 0x18 f (fun a b => a + b))

/-- QANDI (R165). -/
def execQandi (p : Nat) (k : StreamId) (f : ScalarI) (s : State) : Out := .next (s.scalarImm p k 0x19 f (fun a b => a &&& b))

/-- QORI (R165). -/
def execQori (p : Nat) (k : StreamId) (f : ScalarI) (s : State) : Out := .next (s.scalarImm p k 0x1A f (fun a b => a ||| b))

/-- QXORI (R165). -/
def execQxori (p : Nat) (k : StreamId) (f : ScalarI) (s : State) : Out := .next (s.scalarImm p k 0x1B f (fun a b => a ^^^ b))

/-- QSHLI (R165). -/
def execQshli (p : Nat) (k : StreamId) (f : ScalarI) (s : State) : Out := .next (s.scalarImm p k 0x1C f (fun a b => a <<< (b.toNat % 64)))

/-- QSHRI (R165). -/
def execQshri (p : Nat) (k : StreamId) (f : ScalarI) (s : State) : Out := .next (s.scalarImm p k 0x1D f (fun a b => a >>> (b.toNat % 64)))

/-- QMULI (R165). -/
def execQmuli (p : Nat) (k : StreamId) (f : ScalarI) (s : State) : Out := .next (s.scalarImm p k 0x1E f (fun a b => a * b))

/-- QNOP (R165). -/
def execQnop (p : Nat) (k : StreamId) (f : ScalarR) (s : State) : Out := .next (s.qnop p k f)

/-- QEND (R165). -/
def execQend (p : Nat) (k : StreamId) (f : ScalarR) (s : State) : Out := .next (s.qend p k f)

/-- QMOVI (R165). -/
def execQmovi (p : Nat) (k : StreamId) (f : ScalarI) (s : State) : Out := .next (s.qmovi p k f)

/-- QMOVI64 (R165). -/
def execQmovi64 (p : Nat) (k : StreamId) (f : ScalarX) (s : State) : Out := .next (s.qmovi64 p k f)

/-- QLD (R165). -/
def execQld (p : Nat) (k : StreamId) (f : ScalarI) (s : State) : Out := .next (s.qld p k f)

/-- QLDSP (R165). -/
def execQldsp (p : Nat) (k : StreamId) (f : ScalarI) (s : State) : Out := .next (s.qldsp p k f)

/-- QBR (R165). -/
def execQbr (p : Nat) (k : StreamId) (f : ScalarB) (s : State) : Out := .next (s.qbr p k f)

/-- QLOOP (R165). -/
def execQloop (p : Nat) (k : StreamId) (f : ScalarL) (s : State) : Out := .next (s.qloop p k f)

/-- QLOOPX (R165). -/
def execQloopx (p : Nat) (k : StreamId) (f : ScalarR) (s : State) : Out := .next (s.qloopx p k f)

/-- QLOOPN (R165). -/
def execQloopn (p : Nat) (k : StreamId) (f : ScalarI) (s : State) : Out := .next (s.qloopn p k f)

/-- QWAIT (R165). -/
def execQwait (p : Nat) (k : StreamId) (f : ScalarW) (s : State) : Out := .next (s.qwait p k f)

/-! ### Meanings: sequencer, queues, gangs (02) -/

/-- LAUNCH_MESSAGE (R36). -/
def execLaunchMessage (p : Nat) (s : State) : Out := .next (s.launchMessage p)

/-- KERNEL_END (R37). -/
def execKernelEnd (p : Nat) (s : State) : Out := .next (s.kernelEnd p)

/-- INSTRUCTION_FETCH_FILL (R28). -/
def execInstructionFetchFill (p : Nat) (who : Fetcher) (s : State) : Out := .next (s.instructionFill p who)

/-- ENGINE_INSTRUCTION_PUSH (R31). -/
def execEngineInstructionPush (p : Nat) (k : StreamId) (raw : BitVec 128) (s : State) : Out := .next (s.enginePush p k raw.toNat)

/-- QUEUE_ENTRY_FREED (R33). -/
def execQueueEntryFreed (p : Nat) (k : StreamId) (stall : Nat) (s : State) : Out := .next (s.entryFreed p k stall)

/-- BROADCAST_RECEIVE (R42). -/
def execBroadcastReceive (p : Nat) (k : StreamId) (s : State) : Out := .next (s.broadcastReceive p k)

/-- BROADCAST_CREDIT_RETURN (R43). -/
def execBroadcastCreditReturn (p : Nat) (k : StreamId) (stall : Nat) (s : State) : Out := .next (s.creditReturn p k stall)

/-- GANG_WAIT_COMPLETE (R44). -/
def execGangWaitComplete (p : Nat) (k : StreamId) (s : State) : Out := .next (s.gangWait p k)

/-- GANG_HALT (R47). -/
def execGangHalt (p : Nat) (s : State) : Out := .next (s.gangHalt p)

/-- HALT_RECORDS_FINAL (R47). -/
def execHaltRecordsFinal (p : Nat) (s : State) : Out := .next (s.recordsFinal p)

/-- HALT_REQ (R49). -/
def execHaltReq (p : Nat) (s : State) : Out := .next (s.haltReq p)

/-- CLEAR_HALT (R48). -/
def execClearHalt (p : Nat) (s : State) : Out := .next (s.clearHalt p)

end Sys2Proof.Machine
end

