-- ==== Sys2Proof/Machine/Threads.lean ====
section
/-!
DEFINITION. The thread engine (03_thread_groups.md): groups and their waits, issue, divergence, blocks, barriers, the
debugger's halt of one group.
-/
namespace Sys2Proof.Machine

/-! ### Paths (R62, R63) -/

/-- A path that has reached its reconvergence address, or that no lane follows, gives way to the one below it. -/
def Group.reconverge : Nat → Group → Group
  | 0, x => x
  | n + 1, x =>
    if x.mask = 0 ∨ x.rpc = some x.pc then
      match x.stack with
      | [] => x
      | e :: st => Group.reconverge n { x with pc := e.addr, mask := e.mask, rpc := e.rpc, stack := st }
    else x

/-- Entries of the reconvergence stack (R62). -/
def stackDepth : Nat := 32

/-- A branch of some active lanes to `target`, the others going on at `next` (R62); none where the stack overflows. -/
def Group.branch (x : Group) (taken target next rpc : Nat) : Option Group :=
  if taken = 0 then some { x with pc := next }
  else if taken = x.mask then some { x with pc := target }
  else if stackDepth < x.stack.length + 2 then none
  else
    let st : List Path := ⟨target, taken, some rpc⟩ :: ⟨rpc, x.mask, x.rpc⟩ :: x.stack
    some { x with pc := next, mask := x.mask - taken, rpc := some rpc, stack := st }

/-- The lanes of a mask that satisfy `q`, as a mask. -/
def maskOf (l : List Nat) : Nat := (l.map (2 ^ ·)).sum

/-- A list without repeats, in the order of first members. -/
def distinct {α : Type} [BEq α] : List α → List α
  | [] => []
  | a :: as => a :: (distinct as).filter (· != a)

/-- An indirect branch (R63): `paths` are the targets in ascending order, each with its lanes. -/
def Group.branchMany (x : Group) (paths : List (Nat × Nat)) (rpc : Nat) : Option Group :=
  match paths with
  | [] => some x
  | [(a, _)] => some { x with pc := a }
  | (a, m) :: rest =>
    if stackDepth < x.stack.length + 1 + rest.length then none
    else
      let st : List Path := (rest.map fun y => (⟨y.1, y.2, some rpc⟩ : Path)) ++ ⟨rpc, x.mask, x.rpc⟩ :: x.stack
      some { x with pc := a, mask := m, rpc := some rpc, stack := st }

/-- Insert into an ascending list, once. -/
def insertAsc (a : Nat) : List Nat → List Nat
  | [] => [a]
  | b :: l => if a < b then a :: b :: l else if a = b then b :: l else b :: insertAsc a l

/-! ### Stores of a group in the buffers (R65, R68) -/

/-- Stores of a group slot with numbers in a range, in the store buffer, in the write buffer. -/
def Thr.inSb (x : Thr) (g first limit : Nat) : Bool :=
  x.sb.any fun e => e.group == g && decide (first ≤ e.id ∧ e.id < limit)
def Thr.inWb (x : Thr) (g first limit : Nat) : Bool :=
  x.wb.any fun e => e.stores.any fun y => y.1 == g && decide (first ≤ y.2.1 ∧ y.2.1 < limit)

/-- Number of groups in the active set. -/
def Tile.activeCount (t : Tile) : Nat := (t.resident.filter fun g => (t.group? g).any (·.active)).length

namespace State

/-! ### Waits and promotion (R59, R61) -/

/-- The wait of a group has ended: it is ready in promotion order, or stops for the debugger (R78, R80). -/
def wake (s : State) (p g : Nat) : State :=
  match (s.tile p).group? g with
  | none => s
  | some x =>
    let issued := match x.wait with
      | .data _ _ | .full => false
      | _ => true
    if x.haltPending || (x.stepping && issued) then
      s.modGroup p g fun x => { x with wait := .none, active := false, haltPending := false, stepping := false, dbgHalted := true }
    else
      (s.modGroup p g fun x => { x with wait := .none, active := false }).modThr p fun y => { y with promo := y.promo ++ [g] }

/-- Stores of a group that left the tile and are not performed at SYSTEM scope (R196, R197). -/
def storesOut (s : State) (p g first limit : Nat) : List Nat :=
  s.owned fun o => match o with
    | .store q who => q == p && who.any fun y => y.1 == g && decide (first ≤ y.2 ∧ y.2 < limit)
    | _ => false

/-- The wait of a group, other than one that its own event ends, holds no longer. -/
def waitOver (s : State) (p g : Nat) (x : Group) : Bool :=
  let y := (s.tile p).thr
  match x.wait with
  | .data ls es => x.loads.all (fun l => !ls.contains l.id) && y.sb.all fun e => !es.contains e.id
  | .xlat => !s.xlWaiting (.group p g) (p / 104) (some p)
  | .full => decide (y.sb.length < 32)
  | .membar scope limit =>
    x.loads.isEmpty && !y.inSb g x.firstStore limit && (scope == 0 || !y.inWb g x.firstStore limit)
    && (scope != 3 || (s.storesOut p g x.firstStore limit).isEmpty)
  | _ => false

/-- A group that waits in a BARB arrives once its stores have left the store buffer and its loads are performed (R210). -/
def arrive (s : State) (p g : Nat) : State :=
  match (s.tile p).group? g with
  | some x =>
    if x.wait = .barb false ∧ x.loads = [] ∧ !(s.tile p).thr.inSb g x.firstStore (s.tile p).thr.nextStore then
      (s.modGroup p g fun x => { x with wait := .barb true }).modTile p
        (·.modBlock x.block fun b => { b with arrived := b.arrived ++ [g] })
    else s
  | none => s

/-- The SEMSIGs whose stores have left both buffers are raised (R187). -/
def raiseSigs (s : State) (p : Nat) : State :=
  let y := (s.tile p).thr
  let due := y.sigs.filter fun z => !y.inSb z.group z.first z.limit && !y.inWb z.group z.first z.limit
  (s.modThr p fun y => { y with sigs := y.sigs.filter fun z => !due.contains z }).forEach due fun s z => s.raiseSem p z.sem z.count

/-- Bring the waits of a tile's groups up to date, lowest slot first (R61). -/
def settle (s : State) (p : Nat) : State :=
  let s := s.raiseSigs p
  s.forEach (s.tile p).resident fun s g =>
    let s := s.arrive p g
    match (s.tile p).group? g with
    | some x => if s.waitOver p g x then s.wake p g else s
    | none => s

/-- GROUP_PROMOTION: the first ready group enters the active set of eight (R59, R61). -/
def promote (s : State) (p : Nat) : State :=
  let s := s.settle p
  let t := s.tile p
  match t.thr.promo with
  | [] => s
  | g :: rest =>
    if !t.live || decide (8 ≤ t.activeCount) then s
    else (s.modThr p fun y => { y with promo := rest }).modGroup p g fun x => { x with active := true }

/-! ### Issue (R59, R60, R190) -/

/-- A group leaves the active set before its next instruction. -/
def hold (s : State) (p g : Nat) (w : GWait) : State := s.modGroup p g fun x => { x with active := false, wait := w }

/-- An instruction of a group has issued: `h` is its effect on the group, whose program counter already stands behind
it. A stepping group then stops (R80). DEDUCED: notes/assumptions/26.md. -/
def retire (s : State) (p g : Nat) (h : Group → Group) : State :=
  (s.bump .THR_ISSUE_COUNT p).modGroup p g fun x =>
    let x := Group.reconverge 34 (h { x with pc := (x.pc + 8) % 2 ^ 56 })
    if x.stepping ∧ x.wait = .none then { x with stepping := false, dbgHalted := true, active := false } else x

/-- The progress monitor allows another instruction (R64). -/
def mayProgress (s : State) (p : Nat) (x : Group) : Bool :=
  let n := s.f .THR_SETUP_PROGRESS_LIMIT_LOG2 p
  n == 0 || decide (x.progress < 2 ^ n)

/-- A group can issue. -/
def canIssue (s : State) (p g : Nat) (x : Group) : Bool :=
  (s.tile p).live && x.active && x.wait == .none && !x.dbgHalted && s.mayProgress p x
  && !s.xlWaiting (.group p g) (p / 104) (some p)

end State

/-- Loads that write a register which an instruction names. -/
def Group.needs (x : Group) (n : Names) : List Nat :=
  (x.loads.filter fun l =>
    if l.dest.uni then n.u.contains l.dest.reg
    else n.all.contains l.dest.reg || (l.dest.size == 8 && n.all.contains (l.dest.reg + 1))).map (·.id)

namespace State

/-- A group issues an instruction: it must be the one that the instruction cache holds at the group's program counter,
its registers must not await a load, and it must be legal. -/
def threadWord (s : State) (p g word : Nat) (n : Names) (legal : Nat → Bool) (body : State → Group → State) : State :=
  match (s.tile p).group? g with
  | none => s
  | some x =>
    if !s.canIssue p g x then s
    else if x.pc % 8 ≠ 0 then s.haltGroup p g rIllegal
    else if cacheBytes (s.tile p).seq.tcache x.pc 8 ≠ some (toLE 8 word) then s
    else if x.needs n ≠ [] then s.hold p g (.data (x.needs n) [])
    else if !legal x.n then s.haltGroup p g rIllegal
    else body s x

/-- A thread instruction given by its fields.
DESIGN CHOICE: notes/assumptions/8.md; DESIGN CHOICE: notes/assumptions/25.md. -/
def thread (s : State) (p g cls op : Nat) (f : ThreadFields) (body : State → Group → State) : State :=
  s.threadWord p g (f.word cls op) (f.names cls op) (fun n => f.legal cls op n) body

/-- An instruction that only changes its group. -/
def threadPure (s : State) (p g cls op : Nat) (f : ThreadFields) (h : Group → Group) : State :=
  s.thread p g cls op f fun s _ => s.retire p g h

end State

/-- Write D in every active lane with a function of the group as it was and the lane. -/
def Group.eachLane (x : Group) (d : Nat) (h : Nat → W32) : Group := (lanesOf x.mask).foldl (fun y l => y.setV d l (h l)) x
def Group.eachPair (x : Group) (d : Nat) (h : Nat → W64) : Group := (lanesOf x.mask).foldl (fun y l => y.setPair d l (h l)) x

namespace State

/-- An integer instruction on A and the second operand (R184). -/
def intOp (s : State) (p g op : Nat) (f : ThreadFields) (h : W32 → W32 → W32) : State :=
  s.threadPure p g 0 op f fun x => x.eachLane f.d.toNat fun l => h (x.vreg f.a.toNat l) (x.int2 f l)

/-- An FP32 instruction on A and the second operand (R184). -/
def floatOp (s : State) (p g op : Nat) (f : ThreadFields) (h : Nat → Nat → Nat) : State :=
  s.threadPure p g 1 op f fun x => x.eachLane f.d.toNat fun l =>
    BitVec.ofNat 32 (h (x.vreg f.a.toNat l).toNat (x.float2 f l).toNat)

/-- FEXP2, FLOG2, FRCP, FRSQRT. -/
def approxInstr (s : State) (p g op k : Nat) (f : ThreadFields) : State :=
  s.threadPure p g 1 op f fun x => x.eachLane f.d.toNat fun l => BitVec.ofNat 32 (approxOp k (x.vreg f.a.toNat l).toNat)

/-- A uniform instruction on u[A] and the second operand (R187). -/
def uniOp (s : State) (p g op : Nat) (f : ThreadFields) (h : W64 → W64 → W64) : State :=
  s.threadPure p g 8 op f fun x => x.setU f.d.toNat (h (x.ureg f.a.toNat) (x.uni2 f))

/-! ### Branches (R62 to R64) -/

/-- A backward branch counts once. -/
def branched (p g at_ : Nat) (back : Bool) (y : Option Group) (s : State) : State :=
  match y with
  | none => s.haltGroup p g rDiverge
  | some y => s.retire p g fun _ =>
    if back then { y with progress := (y.progress + 1) % 2 ^ 48, lastBranch := at_ } else y

/-- BRA. -/
def bra (s : State) (p g : Nat) (f : ThreadFields) : State :=
  s.thread p g 5 0x02 f fun s x =>
    let inv := f.modBit 2
    let taken := match f.kind with
      | 0 => maskOf ((lanesOf x.mask).filter fun l => (x.vreg f.a.toNat l != 0) != inv)
      | 1 => if (x.ureg f.a.toNat != 0) != inv then x.mask else 0
      | _ => x.mask
    branched p g x.pc (decide (taken ≠ 0) && decide (f.imm.toInt ≤ 0))
      (x.branch taken (branchTo x.pc f.imm) ((x.pc + 8) % 2 ^ 56) (branchTo x.pc f.rpc)) s

/-- BRX: the targets in ascending order, each with the lanes that name it. -/
def brx (s : State) (p g : Nat) (f : ThreadFields) : State :=
  s.thread p g 5 0x03 f fun s x =>
    let lanes := lanesOf x.mask
    let target := fun l => (x.ureg f.b.toNat + (x.vreg f.a.toNat l).setWidth 64).toNat % 2 ^ 56
    if lanes.any fun l => target l % 8 != 0 then s.haltGroup p g rMemAlign
    else
      let targets := lanes.foldl (fun ts l => insertAsc (target l) ts) []
      let paths := targets.map fun a => (a, maskOf (lanes.filter fun l => target l == a))
      branched p g x.pc (targets.any fun a => decide (a ≤ x.pc)) (x.branchMany paths (branchTo x.pc f.imm)) s

/-- GROUP_NO_PROGRESS (R64). -/
def noProgress (s : State) (p g : Nat) : State :=
  match (s.tile p).group? g with
  | some x => if (s.tile p).live && !s.mayProgress p x then s.haltTile p rNoProgress 1 0 g x.lastBranch else s
  | none => s

/-! ### End of a group (R52, R58) -/

/-- A group leaves its slot, and a block without groups its own. -/
def endGroup (s : State) (p g : Nat) (b : Nat) : State :=
  let s := (s.modTile p (·.setGroup g none)).modTile p
    (·.modBlock b fun y => { y with groups := y.groups.filter (· != g), arrived := y.arrived.filter (· != g) })
  if (((s.tile p).block? b).map (·.groups)) = some [] then
    s.modThr p fun y => { y with blocks := y.blocks.put none b none }
  else s

/-- END: the active lanes end; the last of them end the group once its loads have returned.
DEDUCED: notes/assumptions/28.md. -/
def thrEnd (s : State) (p g : Nat) (f : ThreadFields) : State :=
  s.thread p g 5 0x06 f fun s x =>
    let keep := fun m => maskOf ((lanesOf m).filter fun l => !bit x.mask l)
    if keep x.alive = 0 then
      if x.loads ≠ [] then s.hold p g (.data (x.loads.map (·.id)) [])
      else (s.bump .THR_ISSUE_COUNT p).endGroup p g x.block
    else s.retire p g fun x =>
      { x with alive := keep x.alive, mask := 0, stack := x.stack.map fun e => { e with mask := keep e.mask } }

/-! ### Waits that an instruction asks for (R187, R200, R206, R210) -/

/-- BARB. -/
def barb (s : State) (p g : Nat) (f : ThreadFields) : State :=
  s.thread p g 6 0x01 f fun s _ => (s.retire p g fun x => { x with active := false, wait := .barb false }).settle p

/-- MEMBAR. -/
def membar (s : State) (p g : Nat) (f : ThreadFields) : State :=
  s.thread p g 6 0x02 f fun s _ =>
    let limit := (s.tile p).thr.nextStore
    (s.retire p g fun x => { x with active := false, wait := .membar f.kind limit }).settle p

/-- SEMWAIT: granted at once where its condition holds. -/
def semwait (s : State) (p g : Nat) (f : ThreadFields) : State :=
  s.thread p g 6 0x03 f fun s _ =>
    let i := f.imm.toNat
    let w : SemWait := ⟨bits i 4 0, bits i 8 5 + 1, bit i 9⟩
    let s := s.retire p g fun x => { x with active := false, wait := .sem w }
    match s.tryGrant p w with
    | some s => s.wake p g
    | none => s

/-- SEMSIG: raised when the group's earlier stores have left both buffers. -/
def semsig (s : State) (p g : Nat) (f : ThreadFields) : State :=
  s.thread p g 6 0x04 f fun s x =>
    let i := f.imm.toNat
    let s := (s.retire p g id).modThr p fun y =>
      { y with sigs := y.sigs ++ [⟨g, x.firstStore, y.nextStore, bits i 4 0, bits i 8 5 + 1⟩] }
    s.settle p

/-- The publication of a BARB generation, all of whose groups have arrived, releases them (R210, R212). -/
def barbReceive (s : State) (p b : Nat) : State :=
  match (s.tile p).block? b with
  | some y =>
    if y.groups ≠ [] ∧ y.groups.all y.arrived.contains then
      (s.modTile p (·.modBlock b fun y => { y with arrived := [] })).forEach y.groups fun s g => s.wake p g
    else s
  | none => s

/-! ### The debugger's halt of one group (R78 to R82) -/

/-- GRP_DBG_HALT. DEDUCED: notes/assumptions/36.md. -/
def grpHalt (s : State) (p : Nat) : State :=
  let g := s.f .GRP_DBG_SEL_GROUP p
  match (s.tile p).group? g with
  | none => s
  | some x =>
    let now := match x.wait with
      | .none | .data _ _ | .full => true
      | _ => false
    if x.dbgHalted then s
    else if now then
      (s.modGroup p g fun x => { x with wait := .none, active := false, stepping := false, dbgHalted := true }).modThr p
        fun y => { y with promo := y.promo.filter (· != g) }
    else s.modGroup p g fun x => { x with haltPending := true }

/-- GRP_DBG_RESUME, and GRP_DBG_STEP with `step`. -/
def grpResume (s : State) (p : Nat) (step : Bool) : State :=
  let g := s.f .GRP_DBG_SEL_GROUP p
  match (s.tile p).group? g with
  | none => s
  | some x =>
    if x.dbgHalted then
      (s.modGroup p g fun x => { x with dbgHalted := false, stepping := step }).modThr p fun y => { y with promo := y.promo ++ [g] }
    else if step then s
    else s.modGroup p g fun x => { x with haltPending := false }

/-! ### Blocks (R52 to R58) -/

end State

/-- Group-registers allocated to a group of n registers (R56). -/
def granted (n : Nat) : Nat := 8 * ((n + 7) / 8)

/-- The lowest row of the carve-out from which `rows` rows are free (R57). -/
def firstFit (used : List (Nat × Nat)) (carve rows : Nat) : Option Nat :=
  (List.range (carve + 1)).find? fun f => decide (f + rows ≤ carve)
    && used.all fun u => decide (f + rows ≤ u.1) || decide (u.1 + u.2 ≤ f) || rows == 0 || u.2 == 0

/-- Fields of a TLAUNCH. -/
def Entry.thrEntry (e : Entry) : Nat := e.qAddr (e.f 1 8 0)
def Entry.thrGroups (e : Entry) : Nat := e.f 1 31 27
def Entry.thrRegs (e : Entry) : Nat := e.f 2 8 0
def Entry.thrRows (e : Entry) : Nat := e.f 2 19 9

/-- A group as its block starts (R53). -/
def Group.start (e : Entry) (block launch first index : Nat) : Group :=
  let v := (List.range 32).foldl (fun v l => FMap.put 0 v l l) ([] : FMap Nat)
  let u := (([e.qWord (e.f 1 26 18), e.qWord (e.f 1 17 9), index, e.thrGroups].zip (List.range 4)).foldl
    (fun u y => FMap.put 0 u y.2 y.1) ([] : FMap Nat))
  ⟨block, index, e.thrRegs, launch, first, e.thrEntry, 2 ^ 32 - 1, 2 ^ 32 - 1, none, [], 0, v, u, false, .none, [], 0, false,
    false, false⟩

namespace State

/-- Begin the head of an engine's queue when it has the opcode asked for and its wait holds. -/
def beginHead (s : State) (p k op : Nat) (body : State → Entry → State) : State :=
  match s.head p k with
  | none => s
  | some e =>
    if !(s.tile p).live || e.op ≠ op then s
    else match s.headReady p k e with
    | none => s
    | some s => body s e

/-- TLAUNCH: the block becomes resident when a block slot, group slots, group-registers and local rows are free at once
(R55, R58). -/
def tlaunch (s : State) (p : Nat) : State :=
  s.beginHead p 0 1 fun s e =>
    let t := s.tile p
    let n := e.thrGroups
    if e.thrRegs = 0 ∨ 255 < e.thrRegs ∨ n = 0 ∨ 16 < n ∨ t.thr.carve < e.thrRows ∨ e.thrEntry % 8 ≠ 0 then s.haltEngine p 0 rIllegal e
    else
      let free := (List.range 64).filter fun g => (t.group? g).isNone
      let used := (t.resident.map fun g => ((t.group? g).map fun x => granted x.n).getD 0).sum
      let blocks := (FMap.keys t.thr.blocks).filterMap t.block?
      let slot := (List.range 16).find? fun b => (t.block? b).isNone
      match slot, firstFit (blocks.map fun b => (b.rowFirst, b.rows)) t.thr.carve e.thrRows with
      | some b, some f =>
        if free.length < n ∨ 4096 < used + n * granted e.thrRegs then s
        else
          let gs := free.take n
          let l := t.thr.nextStore
          let s := s.dequeue p 0
          let s := s.modThr p fun y => { y with
            nextStore := l + 1, running := y.running ++ [(e, some l)],
            blocks := y.blocks.put none b (some ⟨e, l, gs, f, e.thrRows, []⟩), promo := y.promo ++ gs }
          s.forEach (gs.zip (List.range n)) fun s x => s.modTile p (·.setGroup x.1 (some (Group.start e b l (l + 1) x.2)))
      | _, _ => s

/-- TCARVE: waits until no block is resident, then sets the carve-out and completes (R139, R172). -/
def tcarve (s : State) (p : Nat) : State :=
  s.beginHead p 0 2 fun s e =>
    if (s.tile p).thr.blocks ≠ [] then s
    else if 1024 < e.f 1 10 0 then s.haltEngine p 0 rIllegal e
    else ((s.dequeue p 0).modThr p fun y => { y with carve := e.f 1 10 0 }).raiseEntry p e

/-- TNOP begins in queue order (R172). -/
def tnop (s : State) (p : Nat) : State :=
  s.beginHead p 0 4 fun s e => (s.dequeue p 0).modThr p fun y => { y with running := y.running ++ [(e, none)] }

/-- A THR instruction begun can complete: a block whose groups have ended and whose stores have left the buffers (R54),
a TNOP that no earlier one precedes (R172). -/
def thrDone (s : State) (p : Nat) (i : Nat) (l : Option Nat) : Bool :=
  let y := (s.tile p).thr
  match l with
  | none => i == 0
  | some l => !(y.blocks.any fun b => b.2.any (·.launch == l)) && y.sb.all (fun e => e.launch != l)
      && y.wb.all fun e => e.stores.all fun z => z.2.2 != l

/-- The oldest THR instruction that can complete does, and raises its signal. -/
def thrComplete (s : State) (p : Nat) : State :=
  let y := (s.tile p).thr
  match (y.running.zip (List.range y.running.length)).find? fun z => s.thrDone p z.2 z.1.2 with
  | some (z, i) => (s.modThr p fun y => { y with running := y.running.eraseIdx i }).raiseEntry p z.1
  | none => s

end State

end Sys2Proof.Machine
end

