-- ==== Sys2Proof/Machine/ThreadMemory.lean ====
section
/-!
DEFINITION. Memory accesses of thread groups (03_thread_groups.md, R65 to R75; 07, R186; 08, R198, R199): lanes, the
store buffer, the write buffer, the L1 data cache and its errors, preload.
-/
namespace Sys2Proof.Machine

/-! ### The L1 data cache (R68 to R72) -/

/-- Key of a set and way. -/
def l1Key (va w : Nat) : Nat := bits va 14 7 * 8 + w

/-- The line of an address in a way. -/
def Tile.l1At (t : Tile) (va w : Nat) : Option (List Byte) :=
  (t.thr.l1.get none (l1Key va w)).bind fun x => if x.1 = va / 128 then some x.2 else none

/-- The line of an address leaves the L1. -/
def Tile.l1Drop (t : Tile) (va : Nat) : Tile :=
  { t with thr := (List.range 8).foldl (fun y w =>
      if (t.l1At va w).isSome then { y with l1 := y.l1.put none (l1Key va w) none } else y) t.thr }

/-- Put a line into a way. -/
def Tile.l1Put (t : Tile) (va w : Nat) (bs : List Byte) : Tile :=
  let t := t.l1Drop va
  { t with thr := { t.thr with l1 := t.thr.l1.put none (l1Key va w) (some (va / 128, bs)) } }

/-- Bytes of a list replaced from an index on. -/
def overlay (bs : List Byte) (i : Nat) (new : List Byte) : List Byte :=
  bs.take i ++ new ++ bs.drop (i + new.length)

namespace State

/-- A way is enabled. -/
def wayOn (s : State) (p w : Nat) : Bool := !s.mgt.repair.ways.get false (8 * p + w)

/-- The enabled ways, ascending. -/
def enabledWays (s : State) (p : Nat) : List Nat := (List.range 8).filter (s.wayOn p)

/-- A way that replacement may take. DEDUCED: notes/assumptions/29.md. -/
def wayFree (s : State) (p w : Nat) : Bool := decide (w < 8) && s.wayOn p w && !bit (s.tile p).thr.locked w

/-- The way that holds the line of an address. -/
def l1Way (s : State) (p va : Nat) : Option Nat :=
  (s.enabledWays p).find? fun w => ((s.tile p).l1At va w).isSome

/-- Count an access to a way (R72). -/
def wayAccess (s : State) (p w : Nat) : State :=
  s.modThr p fun y => { y with ways := y.ways.upd ⟨0, 0⟩ w fun e => { e with accesses := e.accesses + 1 } }

/-- An error in an L1 line: counted as corrected; an uncorrectable one drops the line (R72).
DEDUCED: notes/assumptions/33.md. -/
def l1Error (s : State) (p va : Nat) (err : TileErr) : State :=
  match err with
  | .l1 w unc =>
    if ((s.tile p).l1At va w).isSome then
      let s := (s.bump .THR_L1_CE_WAY_COUNT (8 * p + w)).modThr p fun y =>
        { y with ways := y.ways.upd ⟨0, 0⟩ w fun e => { e with errors := e.errors + 1 } }
      s.when unc fun s => s.modTile p (·.l1Drop va)
    else s
  | _ => s

/-- WAY_DISABLE: a way with 16 errors in its window is disabled, or the tile nominated when fewer than four would remain
(R72). DEDUCED: notes/assumptions/33.md. -/
def wayDisable (s : State) (p w : Nat) : State :=
  let e := (s.tile p).thr.ways.get ⟨0, 0⟩ w
  if e.errors < 16 ∨ !s.wayOn p w ∨ 8 ≤ w then s
  else
    let s := s.modThr p fun y => { y with ways := y.ways.put ⟨0, 0⟩ w { e with errors := 0 } }
    if (s.enabledWays p).length ≤ 4 then
      s.nominate p 3
    else
      let s := s.modThr p fun y => { y with
        l1 := (List.range 256).foldl (fun m i => m.put none (8 * i + w) none) y.l1, locked := clearBit y.locked w }
      let s := s.modMgt fun m => { m with repair := { m.repair with ways := m.repair.ways.put false (8 * p + w) true } }
      (s.orBit .THR_L1_WAYS_DISABLED_EVENT p w).log 0x0B true (dcIx (p / 104)) [p + w * 2 ^ 10]

/-- L1_ERROR_WINDOW_END (R72). -/
def windowEnd (s : State) (p w : Nat) : State :=
  if ((s.tile p).thr.ways.get ⟨0, 0⟩ w).accesses < 2 ^ 20 then s
  else s.modThr p fun y => { y with ways := y.ways.put ⟨0, 0⟩ w ⟨0, 0⟩ }

/-! ### Lanes of an access (R73, R186) -/

/-- Translate the lanes in order; the first that misses or faults leaves the group waiting (R73). -/
def xlLanes (p g pc : Nat) (acc : Access) : List LaneAcc → State → State × Option (List LaneAcc)
  | [], s => (s, some [])
  | l :: ls, s =>
    match s.translate p (s.missOf p (.group p g) l.va acc pc) with
    | (s, .ok t a e) =>
      match xlLanes p g pc acc ls s with
      | (s, some r) => (s, some ({ l with target := t, pa := a, endpoint := e } :: r))
      | (s, none) => (s, none)
    | (s, _) => (s, none)

/-- The lanes of an access of `size` bytes, aligned, within the block's local rows or translated. -/
def withLanes (s : State) (p g : Nat) (x : Group) (loc : Bool) (size : Nat) (acc : Access) (ls : List LaneAcc)
    (k : State → List LaneAcc → State) : State :=
  if ls.any fun l => l.va % size != 0 then s.haltGroup p g rMemAlign
  else if loc then
    match (s.tile p).block? x.block with
    | none => s
    | some b =>
      if ls.any fun l => decide (b.rows * 1024 < l.va + size) then s.haltGroup p g rLocalRange
      else
        let base := (3072 - (s.tile p).thr.carve + b.rowFirst) * 1024
        k s (ls.map fun l => { l with target := 3, pa := base + l.va })
  else match xlLanes p g x.pc acc ls s with
    | (s, some ls) => k s ls
    | (s, none) => s.hold p g .xlat

end State

/-- The loads that hold back every later access: acquires (R199). -/
def Group.acquires (x : Group) : List Nat := (x.loads.filter (·.acquire)).map (·.id)

/-- Two accesses touch a byte in common. -/
def LaneAcc.meets (a : LaneAcc) (n : Nat) (b : LaneAcc) (m : Nat) : Bool :=
  a.target == b.target && a.endpoint == b.endpoint && decide (a.pa < b.pa + m) && decide (b.pa < a.pa + n)

/-- Entries of the store buffer that belong to a group. -/
def Tile.sbOf (t : Tile) (g : Nat) (x : Group) : List SbEntry :=
  t.thr.sb.filter fun e => e.group == g && decide (x.firstStore ≤ e.id)

/-- The youngest buffered byte at byte `i` of a lane's access (R66). -/
def sbByte (es : List SbEntry) (l : LaneAcc) (i : Nat) : Option Byte :=
  (es.reverse.findSome? fun e => e.lanes.findSome? fun z =>
    if z.target = l.target ∧ z.endpoint = l.endpoint ∧ z.pa ≤ l.pa + i ∧ l.pa + i < z.pa + e.size then
      some ((toLE e.size z.a).getD (l.pa + i - z.pa) 0)
    else none)

/-- A loaded value as its destination takes it (R186). -/
def LoadDest.value (d : LoadDest) (v : Nat) : W32 :=
  if d.size = 1 then (if d.signed then (BitVec.ofNat 8 v).signExtend 32 else BitVec.ofNat 32 (v % 256))
  else if d.size = 2 then (if d.signed then (BitVec.ofNat 16 v).signExtend 32 else BitVec.ofNat 32 (v % 65536))
  else BitVec.ofNat 32 v

/-- Write a loaded value. -/
def Group.putLoad (x : Group) (d : LoadDest) (l v : Nat) : Group :=
  if d.uni then x.setU d.reg (BitVec.ofNat 64 v)
  else if d.size = 8 then x.setPair d.reg l (BitVec.ofNat 64 v)
  else x.setV d.reg l (d.value v)

/-- Write the values of lanes. -/
def Group.putLoads (x : Group) (d : LoadDest) (vs : List (Nat × Nat)) : Group := vs.foldl (fun x y => x.putLoad d y.1 y.2) x

/-! ### Reads that leave the L1 (R59, R67 to R69) -/

/-- A 64-byte line of memory that a load reads. -/
structure LineRef where
  target : Nat
  line : Nat
  endpoint : Nat
  deriving DecidableEq, Repr

/-- The chunk of a lane. -/
def LaneAcc.chunk (l : LaneAcc) : LineRef := ⟨l.target, l.pa / 64, l.endpoint⟩

/-- The lines that a load reads: those of its lanes without a value, and for a cached load both halves of their L1
lines. -/
def LoadOp.chunks (o : LoadOp) : List LineRef :=
  let ls := (o.lanes.filter fun l => !(FMap.keys o.got).contains l.lane).map (·.chunk)
  distinct (if o.cached then ls.flatMap fun c => [{ c with line := c.line / 2 * 2 }, { c with line := c.line / 2 * 2 + 1 }] else ls)

/-- Bytes waiting in the write buffer take the place of those that memory holds (R68). -/
def wbMerge (wb : List WbEntry) (c : LineRef) (bs : List Byte) : List Byte :=
  wb.foldl (fun bs e =>
    if e.target = c.target ∧ e.line = c.line / 2 ∧ e.endpoint = c.endpoint then
      (bs.zip (List.range 64)).map fun y => (e.bytes.get none (c.line % 2 * 64 + y.2)).getD y.1
    else bs) bs

namespace State

/-- Requests for the chunks that lie outside the part, by their place in the list. -/
def sendChunks (s : State) (p g : Nat) (cs : List LineRef) : State × List (Nat × Nat) :=
  ((cs.zip (List.range cs.length)).foldl (fun (y : State × List (Nat × Nat)) c =>
    if c.1.target = 0 then y
    else match y.1.memRead p c.1.target (c.1.line * 64) c.1.endpoint 64 (.group p g) with
      | (s, .req id) => (s, y.2 ++ [(c.2, id)])
      | (s, _) => (s, y.2)) (s, []))

/-- A load begins to read memory: its group goes on until an instruction needs its data (R59). -/
def startLoad (s : State) (p g : Nat) (cached acquire : Bool) (d : LoadDest) (ls : List LaneAcc) (got : FMap Nat) : State :=
  let id := (s.tile p).thr.nextStore
  let o : LoadOp := ⟨id, false, cached, acquire, d, ls, true, false, got, []⟩
  let (s, reqs) := s.sendChunks p g o.chunks
  let s := s.modThr p fun y => { y with nextStore := id + 1 }
  s.retire p g fun x => { x with loads := x.loads ++ [{ o with reqs := reqs }] }

/-- Cells of the scratchpad that a lane access touches, each once. -/
def laneCells (ls : List LaneAcc) (size : Nat) : List Nat := distinct (ls.flatMap fun l => spadCells l.pa size)

/-- The value a lane reads in the scratchpad. -/
def spadLane (s : State) (p size : Nat) (l : LaneAcc) : Nat := fromLE ((s.tile p).spadBytes l.pa size)

/-- An error in a word of a tile's memories: corrected, or detected, and the word then reads zero (R381). -/
def tileErr (s : State) (p : Nat) (err : TileErr) : State :=
  match err with
  | .corrected => s.tileCorrected p
  | .detected => s.tileDetected p
  | _ => s

/-- A value with its lowest word zero where that word showed a detected error. -/
def errValue (err : TileErr) (v : Nat) : Nat := if err = .detected then v / 2 ^ 32 * 2 ^ 32 else v

/-- A load of lanes that are translated (R66, R69, R199). DEDUCED: notes/assumptions/34.md. -/
def loadLanes (s : State) (p g : Nat) (x : Group) (cached acquire : Bool) (d : LoadDest) (err : TileErr) (ls : List LaneAcc) : State :=
  let t := s.tile p
  let mine := t.sbOf g x
  let touching := mine.filter fun e => e.lanes.any fun z => ls.any fun l => l.meets d.size z e.size
  if touching.any (·.atomic.isSome) then s.hold p g (.data [] ((touching.filter (·.atomic.isSome)).map (·.id)))
  else
    let bytes := ls.map fun l => (List.range d.size).map fun i => sbByte touching l i
    if touching ≠ [] ∧ bytes.all (·.all (·.isSome)) then
      s.retire p g fun x => x.putLoads d ((ls.zip bytes).map fun y => (y.1.lane, fromLE (y.2.map (·.getD 0))))
    else if touching ≠ [] then s.hold p g (.data [] (touching.map (·.id)))
    else if ls.any (·.target == 3) then
      let vs := (ls.map fun l => (l.lane, s.spadLane p d.size l))
      let vs := match vs with
        | y :: rest => (y.1, errValue err y.2) :: rest
        | [] => []
      ((s.bump .SPAD_ACCESS_COUNT p (laneCells ls d.size).length).tileErr p err).retire p g fun x => x.putLoads d vs
    else if cached then
      let vas := distinct (ls.map fun l => l.va / 128)
      let s := s.forEach vas fun s a => s.l1Error p (a * 128) err
      let hits := vas.filter fun a => (s.l1Way p (a * 128)).isSome
      let s := s.forEach hits fun s a => s.wayAccess p ((s.l1Way p (a * 128)).getD 0)
      let s := (s.bump .THR_L1_HIT_COUNT p hits.length).bump .THR_L1_MISS_COUNT p (vas.length - hits.length)
      let got := (ls.filter fun l => hits.contains (l.va / 128)).foldl (fun m l =>
        let line := ((s.l1Way p l.va).bind fun w => (s.tile p).l1At l.va w).getD []
        m ++ [(l.lane, fromLE ((line.drop (l.va % 128)).take d.size))]) ([] : FMap Nat)
      if got.length = ls.length then s.retire p g fun x => x.putLoads d got
      else s.startLoad p g true acquire d ls got
    else s.startLoad p g false acquire d ls []

end State

/-- A lane's access before translation. -/
def laneAt (l va a b : Nat) : LaneAcc := ⟨l, va, 0, 0, 0, a, b⟩

/-- The bits of a lane's register or pair. -/
def Group.data (x : Group) (wide : Bool) (r l : Nat) : Nat := if wide then (x.vpair r l).toNat else (x.vreg r l).toNat

namespace State

/-- LD. -/
def ld (s : State) (p g : Nat) (f : ThreadFields) (err : TileErr) : State :=
  s.thread p g 3 1 f fun s x =>
    let loc := f.space == 2
    if x.acquires ≠ [] then s.hold p g (.data x.acquires [])
    else
      let ls := (lanesOf x.mask).map fun l => laneAt l (if loc then x.localAddr f l else x.globalAddr f l) 0 0
      s.withLanes p g x loc f.size .read ls fun s ls =>
        s.loadLanes p g x (f.space == 0) (f.modBit 5) ⟨false, f.d.toNat, f.size, f.modBit 4⟩ err ls

/-- ULD: eight bytes once for the group, as a bypass load. -/
def uld (s : State) (p g : Nat) (f : ThreadFields) : State :=
  s.thread p g 8 0x0A f fun s x =>
    if x.acquires ≠ [] then s.hold p g (.data x.acquires [])
    else s.withLanes p g x false 8 .read [laneAt 0 (x.uniAddr f) 0 0] fun s ls =>
      s.loadLanes p g x false false ⟨true, f.d.toNat, 8, false⟩ .none ls

/-- Lanes of one store that name one place: which of them is stored last is open (DESIGN CHOICE: notes/assumptions/31.md). -/
def pickLanes : List LaneAcc → State → State × List LaneAcc
  | [], s => (s, [])
  | l :: ls, s =>
    let (s, r) := pickLanes ls s
    if r.any fun z => z.target == l.target && z.endpoint == l.endpoint && z.pa == l.pa then
      let (c, s) := s.choose
      if c then (s, r) else (s, l :: r.filter fun z => !(z.target == l.target && z.endpoint == l.endpoint && z.pa == l.pa))
    else (s, l :: r)

/-- A store or atomic takes an entry of the store buffer (R65). -/
def takeEntry (s : State) (p g : Nat) (x : Group) (atomic : Option Nat) (release : Bool) (size : Nat) (ls : List LaneAcc) : State :=
  s.modThr p fun y => { y with nextStore := y.nextStore + 1,
                               sb := y.sb ++ [⟨y.nextStore, g, x.launch, atomic, release, size, ls⟩] }

/-- ST: a full store buffer holds the group back; a release waits for the group's loads (R65, R199). -/
def st (s : State) (p g : Nat) (f : ThreadFields) : State :=
  s.thread p g 3 2 f fun s x =>
    let loc := f.space == 2
    let release := f.modBit 5
    let first := if release then x.loads.map (·.id) else x.acquires
    if first ≠ [] then s.hold p g (.data first [])
    else
      let ls := (lanesOf x.mask).map fun l =>
        laneAt l (if loc then x.localAddr f l else x.globalAddr f l) (x.data (f.kind == 3) f.b.toNat l % 2 ^ (8 * f.size)) 0
      s.withLanes p g x loc f.size .store ls fun s ls =>
        if 32 ≤ (s.tile p).thr.sb.length then s.hold p g .full
        else
          let (s, ls) := pickLanes ls s
          (s.takeEntry p g x none release f.size ls).retire p g fun x => { x with progress := 0 }

/-- ATOM: its old values return as those of a load (R59, R67). -/
def atom (s : State) (p g : Nat) (f : ThreadFields) : State :=
  s.thread p g 4 1 f fun s x =>
    let loc := f.modBit 5
    let size := if f.wide then 8 else 4
    if x.acquires ≠ [] then s.hold p g (.data x.acquires [])
    else
      let ls := (lanesOf x.mask).map fun l =>
        laneAt l (if loc then (x.vreg f.a.toNat l).toNat else x.atomAddr f l) (x.data f.wide f.b.toNat l) (x.data f.wide f.c.toNat l)
      s.withLanes p g x loc size .atomic ls fun s ls =>
        if 32 ≤ (s.tile p).thr.sb.length then s.hold p g .full
        else
          let o : LoadOp := ⟨(s.tile p).thr.nextStore, true, false, false, ⟨false, f.d.toNat, size, false⟩, ls, false,
            f.mod.toNat % 16 == 9, [], []⟩
          (s.takeEntry p g x (some (f.mod.toNat % 16)) false size ls).retire p g fun x => { x with loads := x.loads ++ [o] }

/-- CINV: lines in unlocked ways leave the L1, all or those of a range (R69). -/
def cinv (s : State) (p g : Nat) (f : ThreadFields) : State :=
  s.thread p g 5 0x07 f fun s x =>
    let a := (x.ureg f.a.toNat).toNat % 2 ^ 56
    let n := (x.ureg f.b.toNat).toNat
    let covered := fun (line : Nat) => f.modBit 0 || (decide (0 < n) && decide (line * 128 < a + n) && decide (a < line * 128 + 128))
    let s := s.modThr p fun y => { y with l1 := y.l1.filter fun e => bit y.locked (e.1 % 8) || !(e.2.any fun z => covered z.1) }
    s.retire p g id

/-! ### LOAD_RETURN -/

/-- A chunk's bytes, its eyespot, and whether it lacks data to keep (an eyespot, no memory, a read that failed): from part
memory now, or as its request brought them. -/
def chunkData (s : State) (p : Nat) (reqs : List (Nat × Nat)) (c : LineRef) (i : Nat) : State × List Byte × Bool × Bool :=
  match reqs.find? (·.1 == i) with
  | some (_, id) =>
    let r := (s.reqDone id).getD ([], false)
    (s.dropReq id, fit 64 r.1, r.2, r.2 || s.reqFailed id)
  | none =>
    match s.memRead p 0 (c.line * 64) 0 64 .nobody with
    | (s, .data bs e) => (s, bs, e, e || (s.cellOf (c.line * 64)).isNone)
    | (s, _) => (s, rep 64 0, false, false)

/-- The first chunk in part memory that must wait, if any. -/
def chunkWait (s : State) (cs : List LineRef) : Option State :=
  cs.findSome? fun c => if c.target = 0 then s.mustWait (c.line * 64) 64 false else none

/-- The data of a load reaches its registers; a cached one fills the L1 lines that it missed (R59, R69, R70, R75, R225). -/
def loadDone (s : State) (p g k way : Nat) (x : Group) (o : LoadOp) : State :=
  let cs := o.chunks
  match s.chunkWait cs with
  | some s => s
  | none =>
    let (s, got) := (cs.zip (List.range cs.length)).foldl (fun (y : State × List (LineRef × List Byte × Bool × Bool)) c =>
      let r := y.1.chunkData p o.reqs c.1 c.2
      (r.1, y.2 ++ [(c.1, wbMerge (s.tile p).thr.wb c.1 r.2.1, r.2.2)])) (s, [])
    let find := fun (c : LineRef) => ((got.find? fun y => y.1 == c).map (·.2)).getD (rep 64 0, false, false)
    let value := fun (l : LaneAcc) =>
      if (FMap.keys o.got).contains l.lane then FMap.get 0 o.got l.lane
      else
        let c := find l.chunk
        if c.2.1 then 0 else fromLE ((c.1.drop (l.pa % 64)).take o.dest.size)
    let s := if got.any (·.2.2.1) && o.lanes.any (fun l => !(FMap.keys o.got).contains l.lane && (find l.chunk).2.1)
      then s.failAt (s.itemOf p) stMemPoison else s
    let s := if !o.cached then s
      else s.forEach o.lanes fun s l =>
        let lo := find { l.chunk with line := l.pa / 128 * 2 }
        let hi := find { l.chunk with line := l.pa / 128 * 2 + 1 }
        if (FMap.keys o.got).contains l.lane || lo.2.2 || hi.2.2 || (s.l1Way p l.va).isSome then s
        else (s.modTile p (·.l1Put l.va way (lo.1 ++ hi.1))).wayAccess p way
    (s.modGroup p g fun y =>
      { y.putLoads o.dest (o.lanes.map fun l => (l.lane, value l)) with loads := x.loads.eraseIdx k }).settle p

/-- The old values of an atomic reach its registers; a compare-and-swap outside the part that wrote in some lane clears the
progress count, one that did not leaves it (R64). -/
def atomDone (s : State) (p g k : Nat) (x : Group) (o : LoadOp) : State :=
  let (s, got, wrote) := o.reqs.foldl (fun (y : State × FMap Nat × Bool) r =>
    match y.1.takeReq p o.dest.size r.2 with
    | some (s, bs) => (s, y.2.1.put 0 r.1 (fromLE bs),
        y.2.2 || (o.swap && !y.1.reqFailed r.2 && o.lanes.any fun l => l.lane == r.1 && l.a == fromLE bs))
    | none => y) (s, o.got, false)
  (s.modGroup p g fun y =>
    { y.putLoads o.dest (o.lanes.map fun l => (l.lane, FMap.get 0 got l.lane)) with
      loads := x.loads.eraseIdx k, progress := if wrote then 0 else y.progress }).settle p

/-- LOAD_RETURN: load `k` of a group returns, no earlier one of the group that reads the same bytes being outstanding
(R195); a line that it fills goes to way `way`, which must be one that replacement may take.
DEDUCED: notes/assumptions/34.md. -/
def loadReturn (s : State) (p g k way : Nat) : State :=
  match (s.tile p).group? g with
  | none => s
  | some x =>
    match x.loads[k]? with
    | none => s
    | some o =>
      let older := (x.loads.take k).any fun e => e.lanes.any fun a => o.lanes.any fun b => a.meets e.dest.size b o.dest.size
      if older || !o.issued || o.reqs.any (fun r => (s.reqDone r.2).isNone) || (o.cached && !s.wayFree p way) then s
      else if o.atomic then s.atomDone p g k x o
      else s.loadDone p g k way x o

/-! ### STORE_BUFFER_DRAIN -/

/-- Bytes of a lane's store enter the write buffer: the youngest entry when it is for the same line, else a new one while
fewer than 16 are held (R68). -/
def wbEnter (y : Thr) (e : SbEntry) (l : LaneAcc) : Option Thr :=
  let put := fun (m : FMap (Option Byte)) =>
    (((toLE e.size l.a).zip (List.range e.size)).foldl (fun m z => FMap.put none m (l.pa % 128 + z.2) (some z.1)) m)
  let tag := (e.group, e.id, e.launch)
  match y.wb.reverse with
  | w :: rest =>
    if w.target = l.target ∧ w.line = l.pa / 128 ∧ w.endpoint = l.endpoint then
      some { y with wb := rest.reverse ++ [{ w with bytes := put w.bytes,
                                                    stores := if w.stores.contains tag then w.stores else w.stores ++ [tag] }] }
    else if 16 ≤ y.wb.length then none
    else some { y with wb := y.wb ++ [⟨l.pa / 128, l.target, l.pa / 128 * 128, l.endpoint, put [], [tag]⟩] }
  | [] => some { y with wb := [⟨l.pa / 128, l.target, l.pa / 128 * 128, l.endpoint, put [], [tag]⟩] }

/-- A store updates the tile's L1 line when it is present (R67). -/
def l1Store (s : State) (p : Nat) (e : SbEntry) (l : LaneAcc) : State :=
  match s.l1Way p l.va with
  | some w =>
    let line := ((s.tile p).l1At l.va w).getD []
    (s.modTile p (·.l1Put l.va w (overlay line (l.va % 128) (toLE e.size l.a)))).wayAccess p w
  | none => s

/-- Lanes of a store drain line by line while the write buffer has room; those left remain. -/
def drainLanes (p : Nat) (e : SbEntry) : List LaneAcc → State → State × List LaneAcc
  | [], s => (s, [])
  | l :: ls, s =>
    match wbEnter (s.tile p).thr e l with
    | some y => drainLanes p e ls ((s.modThr p fun _ => y).l1Store p e l)
    | none => (s, l :: ls)

/-- The lanes of an entry, those of one line together. -/
def byLine (ls : List LaneAcc) : List LaneAcc :=
  (distinct (ls.map fun l => (l.target, l.pa / 128, l.endpoint))).flatMap fun k =>
    ls.filter fun l => (l.target, l.pa / 128, l.endpoint) == k

/-- A store at the head of the buffer drains (R67). -/
def drainStore (s : State) (p : Nat) (e : SbEntry) (err : TileErr) : State :=
  if e.lanes.any (·.target == 3) then
    let s := (s.bump .SPAD_ACCESS_COUNT p (laneCells e.lanes e.size).length).tileErr p err
    let s := s.forEach e.lanes fun s l => s.modTile p (·.spadPut l.pa (toLE e.size l.a))
    s.modThr p fun y => { y with sb := y.sb.drop 1 }
  else
    let (s, left) := drainLanes p e (byLine e.lanes) s
    s.modThr p fun y => { y with sb := if left = [] then y.sb.drop 1 else { e with lanes := left } :: y.sb.drop 1 }

/-- One lane of an atomic at the memory that holds it: its old value, or a request that left the part.
DEDUCED: notes/assumptions/32.md. -/
def atomLane (s : State) (p g : Nat) (e : SbEntry) (op : Nat) (err : TileErr) (l : LaneAcc) : State × Option Nat × Option Nat :=
  let w := 8 * e.size
  let wide := e.size == 8
  let s := s.modTile p (·.l1Drop l.va)
  let who := Owner.store p [(e.group, e.id)]
  if l.target = 3 then
    let old := errValue err (s.spadLane p e.size l)
    let s := (s.bump .SPAD_ACCESS_COUNT p).tileErr p err
    (s.modTile p (·.spadPut l.pa (toLE e.size (atomicOp op w old l.a l.b))), some old, none)
  else if l.target = 0 then
    match s.cellOf l.pa with
    | none => ((s.countAbsent (some (p / 104))).failAt (s.itemOf p) stMemAbsent, some 0, none)
    | some c =>
      let (s, old, poison) := s.atomicAt c op wide l.a l.b .none
      let s := if poison then s.failAt (s.itemOf p) stMemPoison else s
      (s.snoopShared l.pa e.size who, some old, none)
  else
    let data := toLE 8 l.a ++ toLE 8 l.b
    let id := s.nextId
    if l.target = 1 then (s.hostReq .atom l.pa e.size data op wide (.group p g) (s.itemOf p), none, some id)
    else (s.fabReq 3 l.pa e.size data op wide l.endpoint (.group p g) (s.itemOf p) (s.ctxOf p), none, some id)

/-- An atomic at the head of the buffer is performed, its lanes ascending (R67, R186), once the group's earlier stores
have left the write buffer (DEDUCED: notes/assumptions/32.md). -/
def drainAtomic (s : State) (p : Nat) (e : SbEntry) (op : Nat) (err : TileErr) : State :=
  let t := s.tile p
  let busy := t.thr.wb.any fun w => w.stores.any (·.1 == e.group)
    || e.lanes.any fun l => w.target == l.target && w.line == l.pa / 128 && w.endpoint == l.endpoint
  if busy then s
  else match e.lanes.findSome? fun l => if l.target = 0 then s.mustWait l.pa e.size true else none with
    | some s => s
    | none =>
      let (s, got, reqs, wrote) := e.lanes.foldl (fun (y : State × FMap Nat × List (Nat × Nat) × Bool) l =>
        match y.1.atomLane p e.group e op err l with
        | (s, some old, _) => (s, FMap.put 0 y.2.1 l.lane old, y.2.2.1, y.2.2.2 || op != 9 || old == l.a)
        | (s, none, id) => (s, y.2.1, y.2.2.1 ++ [(l.lane, id.getD 0)], y.2.2.2 || op != 9)) (s, [], [], false)
      let s := s.modThr p fun y => { y with sb := y.sb.drop 1 }
      s.modGroup p e.group fun x => if e.id < x.firstStore then x else
        { x with progress := if wrote then 0 else x.progress,
                 loads := x.loads.map fun o => if o.id = e.id then { o with issued := true, got := got, reqs := reqs } else o }

/-- STORE_BUFFER_DRAIN: the oldest entry drains (R65). It waits for an older load of its group that reads a byte it
writes (R198), a release for its group's stores in the write buffer (R199). -/
def storeDrain (s : State) (p full : Nat) (err : TileErr) : State :=
  let t := s.tile p
  match t.thr.sb with
  | [] => s
  | e :: _ =>
    let older := (t.group? e.group).any fun x => decide (x.firstStore ≤ e.id) && x.loads.any fun o =>
      decide (o.id < e.id) && o.lanes.any fun a => e.lanes.any fun b => a.meets o.dest.size b e.size
    if older || (e.release && t.thr.wb.any fun w => w.stores.any fun y => y.1 == e.group && decide (y.2.1 < e.id)) then s
    else
      let s := if t.resident.any fun g => (t.group? g).any (·.wait == .full) then s.bump .THR_SB_FULL_CYCLES_COUNT p full else s
      (match e.atomic with
        | none => s.drainStore p e err
        | some op => s.drainAtomic p e op err).settle p

/-! ### WRITE_BUFFER_DRAIN -/

/-- The byte mask of a half of a write-buffer entry, and its bytes. -/
def wbHalf (e : WbEntry) (h : Nat) : Nat × List Byte :=
  (((List.range 64).map fun i => if (e.bytes.get none (64 * h + i)).isSome then 2 ^ i else 0).sum,
   (List.range 64).map fun i => (e.bytes.get none (64 * h + i)).getD 0)

/-- A half of an entry reaches its memory. -/
def drainHalf (s : State) (p : Nat) (e : WbEntry) (h : Nat) : State :=
  let (mask, bs) := wbHalf e h
  let pa := e.pa + 64 * h
  let who := e.stores.map fun y => (y.1, y.2.1)
  if mask = 0 then s
  else if e.target = 0 then
    match s.cellOf pa with
    | none => (s.countAbsent (some (p / 104))).failAt (s.itemOf p) stMemAbsent
    | some c => (s.writeMasked (c / 64) mask bs .none).snoopShared pa 64 (.store p who)
  else s.forEach (maskRuns 64 0 mask) fun s y => (s.memWrite p e.target (pa + y.1) e.endpoint ((bs.drop y.1).take y.2) who).1

/-- A write of the tile's write buffer to host memory that another port than `k` serves has not completed (R307). -/
def otherPort (s : State) (p k : Nat) : Bool :=
  s.chl.reqs.any fun r => r.port != k && r.status == .waiting && (match r.owner with
    | .store q who => q == p && who.any fun y => decide (y.1 < 64)
    | _ => false)

/-- WRITE_BUFFER_DRAIN: the oldest entry is accepted by its memory, or taken by the fabric transport (R54, R68). One for
memory outside the part waits for the tile's outstanding loads of its line, and one for host memory for the earlier writes
of the buffer that the other port serves (R307). DEDUCED: notes/assumptions/35.md. -/
def writeDrain (s : State) (p : Nat) : State :=
  let t := s.tile p
  match t.thr.wb with
  | [] => s
  | e :: rest =>
    let wait := if e.target = 0 then
        [0, 1].findSome? fun h => if (wbHalf e h).1 = 0 then none else s.mustWait (e.pa + 64 * h) 64 true
      else if t.resident.any fun g => (t.group? g).any fun x => x.loads.any fun o => !o.atomic && o.chunks.any fun c =>
          c.target == e.target && c.line / 2 == e.line && c.endpoint == e.endpoint then some s
      else if e.target = 1 ∧ s.otherPort p (s.homePort e.pa) then some s
      else none
    match wait with
    | some s => s
    | none => (((s.drainHalf p e 0).drainHalf p e 1).modThr p fun y => { y with wb := rest }).settle p

/-! ### TPRELOAD (R71) -/

/-- The enabled ways that a preload may lock: all that its mask names, or, ascending, as far as leaves two enabled ways
unlocked. DEDUCED: notes/assumptions/29.md. -/
def preloadWays (s : State) (p mask : Nat) : List Nat :=
  let on := s.enabledWays p
  let unlocked := fun (l : List Nat) => (on.filter fun w => !bit (s.tile p).thr.locked w && !l.contains w).length
  let named := on.filter (bit mask)
  if 2 ≤ unlocked named then named
  else named.foldl (fun l w => if 2 ≤ unlocked (l ++ [w]) then l ++ [w] else l) []

/-- Where a line of a preload lies: a fault skips it and writes no record (`some none`). None while the walk waits. -/
def preloadAddr (s : State) (p va : Nat) (hs : HostMem) : State × Option (Option (Nat × Nat × Nat)) :=
  let ctx := (s.ctxOf p).getD 0
  let s := s.bump .XLTC_LOOKUPS_COUNT p
  match s.look p ctx va .read with
  | .ok t a e => (s, some (some (t, a, e)))
  | .fault _ => (s, some none)
  | .miss =>
    let s := (s.bump .XLTC_MISSES_COUNT p).bump .XLT_WALKS_COUNT
    match s.walk (p / 104) hs ctx va .read with
    | (s, .ok e) =>
      match e.use va .read with
      | .ok t a ep => (s.fillTile p e, some (some (t, a, ep)))
      | _ => (s, some none)
    | (s, .error f) => (s, if f = walkWait then none else some none)

/-- The 128 bytes of a line of a preload; none where it must wait; an eyespot or a failed read is said by `false`. -/
def preloadRead (s : State) (p t a : Nat) (hs : HostMem) : State × Option (List Byte × Bool) :=
  if t = 0 then
    match s.mustWait a 128 false with
    | some s => (s, none)
    | none =>
      match s.memRead p 0 a 0 64 .nobody with
      | (s, .data b0 e0) =>
        match s.memRead p 0 (a + 64) 0 64 .nobody with
        | (s, .data b1 e1) => (s, some (b0 ++ b1, !e0 && !e1 && (s.cellOf a).isSome && (s.cellOf (a + 64)).isSome))
        | (s, _) => (s, none)
      | (s, _) => (s, none)
  else match hs.find? (·.1 == a) with
    | some (_, .data bs) => (s, some (fit 128 bs, true))
    | _ => (s, some ([], false))

/-- Load the lines of a preload from `va` on. `filled` holds the keys of the sets and ways it has filled. None where a
line must wait: the preload is then given again. DEDUCED: notes/assumptions/29.md. -/
def preloadLines (p : Nat) (ways : List Nat) (hs : HostMem) : Nat → Nat → List Nat → State → State × Bool
  | 0, _, _, s => (s, true)
  | n + 1, line, filled, s =>
    let va := line * 128 % 2 ^ 56
    let skip := fun (s : State) => preloadLines p ways hs n (line + 1) filled (s.bump .THR_PRELOAD_SKIP_COUNT p)
    match ways.find? fun w => !filled.contains (l1Key va w) with
    | none => skip s
    | some w =>
      match s.preloadAddr p va hs with
      | (s, none) => (s, false)
      | (s, some none) => skip s
      | (s, some (some (t, a, ep))) =>
        match s.preloadRead p t a hs with
        | (s, none) => (s, false)
        | (s, some (bs, ok)) =>
          if !ok then skip s
          else
            let wb := (s.tile p).thr.wb
            let bs := wbMerge wb ⟨t, a / 64, ep⟩ (bs.take 64) ++ wbMerge wb ⟨t, a / 64 + 1, ep⟩ (bs.drop 64)
            preloadLines p ways hs n (line + 1) (l1Key va w :: filled) ((s.modTile p (·.l1Put va w bs)).wayAccess p w)

/-- Bits set in a mask of eight ways. -/
def wayCount (m : Nat) : Nat := ((List.range 8).filter (bit m)).length

/-- TPRELOAD (R71, R172). DEDUCED: notes/assumptions/29.md. -/
def tpreload (s : State) (p : Nat) (hs : HostMem) : State :=
  s.beginHead p 0 3 fun s e =>
    let mask := e.f 1 20 13
    let start := e.qAddr (e.f 1 8 0)
    let n := e.reg (e.f 1 12 9) % 2 ^ 32
    if 6 < wayCount (mask ||| (s.tile p).thr.locked) then s.haltEngine p 0 rIllegal e
    else
      let ways := s.preloadWays p mask
      let lines := if n = 0 then 0 else (start + n - 1) / 128 + 1 - start / 128
      match preloadLines p ways hs lines (start / 128) [] s with
      | (s, false) => s
      | (s, true) =>
        ((s.dequeue p 0).modThr p fun y => { y with locked := ways.foldl setBit y.locked }).raiseEntry p e

end State

end Sys2Proof.Machine
end

