-- ==== Sys2Proof/Machine/ThreadInstrs.lean ====
section
/-!
DEFINITION. Meanings of the thread instructions (07_hexist_encodings.md, R181 to R187) and of the events of the thread
engine (03_thread_groups.md). GMMA is in Machine/Matrix.lean.
-/
namespace Sys2Proof.Machine

/-- A result that saturates to the signed or the unsigned 32-bit range. -/
def satSigned (v : Int) : W32 := BitVec.ofInt 32 (clampInt (-2 ^ 31) (2 ^ 31 - 1) v)
def satUnsigned (v : Int) : W32 := BitVec.ofInt 32 (clampInt 0 (2 ^ 32 - 1) v)

/-- NOP has no effect; a word that names no instruction is illegal (R190). Another instruction's word is not this
command. -/
def State.threadNop (s : State) (p g raw : Nat) : State :=
  let c := threadClass raw
  let o := threadOp raw
  let f := ThreadFields.ofWord raw
  if threadListed c o && !(c == 5 && o == 1) then s
  else if c == 5 && o == 1 then s.threadWord p g raw (f.names c o) (fun n => f.legal c o n) fun s _ => s.retire p g id
  else s.threadWord p g raw ⟨[], [], [], true⟩ (fun _ => false) fun s _ => s

/-- MOV (R184). -/
def execMov (p g : Nat) (f : ThreadFields) (s : State) : Out := .next (s.intOp p g 0x1 f (fun _ b => b))

/-- ADD (R184). -/
def execAdd (p g : Nat) (f : ThreadFields) (s : State) : Out := .next (s.intOp p g 0x2 f (fun a b => a + b))

/-- SUB (R184). -/
def execSub (p g : Nat) (f : ThreadFields) (s : State) : Out := .next (s.intOp p g 0x3 f (fun a b => a - b))

/-- MUL (R184). -/
def execMul (p g : Nat) (f : ThreadFields) (s : State) : Out := .next (s.intOp p g 0x4 f (fun a b => a * b))

/-- MULHI (R184). -/
def execMulhi (p g : Nat) (f : ThreadFields) (s : State) : Out :=
  .next (s.intOp p g 0x5 f (fun a b => ((a.signExtend 64 * b.signExtend 64) >>> (32 : Nat)).setWidth 32))

/-- MULHIU (R184). -/
def execMulhiu (p g : Nat) (f : ThreadFields) (s : State) : Out :=
  .next (s.intOp p g 0x6 f (fun a b => ((a.setWidth 64 * b.setWidth 64) >>> (32 : Nat)).setWidth 32))

/-- AND (R184). -/
def execAnd (p g : Nat) (f : ThreadFields) (s : State) : Out := .next (s.intOp p g 0x7 f (fun a b => a &&& b))

/-- OR (R184). -/
def execOr (p g : Nat) (f : ThreadFields) (s : State) : Out := .next (s.intOp p g 0x8 f (fun a b => a ||| b))

/-- XOR (R184). -/
def execXor (p g : Nat) (f : ThreadFields) (s : State) : Out := .next (s.intOp p g 0x9 f (fun a b => a ^^^ b))

/-- SHL (R184). -/
def execShl (p g : Nat) (f : ThreadFields) (s : State) : Out := .next (s.intOp p g 0xa f (fun a b => a <<< (b.toNat % 32)))

/-- SHR (R184). -/
def execShr (p g : Nat) (f : ThreadFields) (s : State) : Out := .next (s.intOp p g 0xb f (fun a b => a >>> (b.toNat % 32)))

/-- SRA (R184). -/
def execSra (p g : Nat) (f : ThreadFields) (s : State) : Out :=
  .next (s.intOp p g 0xc f (fun a b => a.sshiftRight (b.toNat % 32)))

/-- MIN (R184). -/
def execMin (p g : Nat) (f : ThreadFields) (s : State) : Out :=
  .next (s.intOp p g 0xd f (fun a b => if b.slt a then b else a))

/-- MAX (R184). -/
def execMax (p g : Nat) (f : ThreadFields) (s : State) : Out :=
  .next (s.intOp p g 0xe f (fun a b => if a.slt b then b else a))

/-- MINU (R184). -/
def execMinu (p g : Nat) (f : ThreadFields) (s : State) : Out :=
  .next (s.intOp p g 0xf f (fun a b => if b.ult a then b else a))

/-- MAXU (R184). -/
def execMaxu (p g : Nat) (f : ThreadFields) (s : State) : Out :=
  .next (s.intOp p g 0x10 f (fun a b => if a.ult b then b else a))

/-- ADDS (R184). -/
def execAdds (p g : Nat) (f : ThreadFields) (s : State) : Out :=
  .next (s.intOp p g 0x11 f (fun a b => satSigned (a.toInt + b.toInt)))

/-- SUBS (R184). -/
def execSubs (p g : Nat) (f : ThreadFields) (s : State) : Out :=
  .next (s.intOp p g 0x12 f (fun a b => satSigned (a.toInt - b.toInt)))

/-- ADDSU (R184). -/
def execAddsu (p g : Nat) (f : ThreadFields) (s : State) : Out :=
  .next (s.intOp p g 0x13 f (fun a b => satUnsigned ((a.toNat : Int) + b.toNat)))

/-- SUBSU (R184). -/
def execSubsu (p g : Nat) (f : ThreadFields) (s : State) : Out :=
  .next (s.intOp p g 0x14 f (fun a b => satUnsigned ((a.toNat : Int) - b.toNat)))

/-- CMP (R184). -/
def execCmp (p g : Nat) (f : ThreadFields) (s : State) : Out :=
  .next (s.intOp p g 0x15 f (fun a b => if cmpHolds f.modHi a b then 1 else 0))

/-- SEL (R184). -/
def execSel (p g : Nat) (f : ThreadFields) (s : State) : Out :=
  .next (s.threadPure p g 0 0x16 f fun x =>
    x.eachLane f.d.toNat fun l => if x.vreg f.c.toNat l ≠ 0 then x.vreg f.a.toNat l else x.int2 f l)

/-- ADD64 (R184). -/
def execAdd64 (p g : Nat) (f : ThreadFields) (s : State) : Out :=
  .next (s.threadPure p g 0 0x17 f fun x => x.eachPair f.d.toNat fun l =>
    (fun a b : W64 => a + b) (x.vpair f.a.toNat l) (x.pair2 f l))

/-- SUB64 (R184). -/
def execSub64 (p g : Nat) (f : ThreadFields) (s : State) : Out :=
  .next (s.threadPure p g 0 0x18 f fun x => x.eachPair f.d.toNat fun l =>
    (fun a b : W64 => a - b) (x.vpair f.a.toNat l) (x.pair2 f l))

/-- SHFL (R184). -/
def execShfl (p g : Nat) (f : ThreadFields) (s : State) : Out :=
  .next (s.threadPure p g 0 0x19 f fun x =>
    x.eachLane f.d.toNat fun l => x.vreg f.a.toNat ((x.int2 f l).toNat % 32))

/-- FADD (R184). -/
def execFadd (p g : Nat) (f : ThreadFields) (s : State) : Out :=
  .next (s.floatOp p g 0x1 f (fun a b => f32Round ((f32 a).add (f32 b))))

/-- FSUB (R184). -/
def execFsub (p g : Nat) (f : ThreadFields) (s : State) : Out :=
  .next (s.floatOp p g 0x2 f (fun a b => f32Round ((f32 a).add (f32 b).neg)))

/-- FMUL (R184). -/
def execFmul (p g : Nat) (f : ThreadFields) (s : State) : Out :=
  .next (s.floatOp p g 0x3 f (fun a b => f32Round ((f32 a).mul (f32 b))))

/-- FFMA (R184). -/
def execFfma (p g : Nat) (f : ThreadFields) (s : State) : Out :=
  .next (s.threadPure p g 1 4 f fun x => x.eachLane f.d.toNat fun l =>
    BitVec.ofNat 32 (f32Round (((f32 (x.vreg f.a.toNat l).toNat).mul (f32 (x.float2 f l).toNat)).add (f32 (x.vreg f.c.toNat l).toNat))))

/-- FMIN (R184). -/
def execFmin (p g : Nat) (f : ThreadFields) (s : State) : Out := .next (s.floatOp p g 0x5 f fmin)

/-- FMAX (R184). -/
def execFmax (p g : Nat) (f : ThreadFields) (s : State) : Out := .next (s.floatOp p g 0x6 f fmax)

/-- FCMP (R184). -/
def execFcmp (p g : Nat) (f : ThreadFields) (s : State) : Out :=
  .next (s.floatOp p g 0x7 f (fun a b => if fcmpHolds f.modHi a b then 1 else 0))

/-- FEXP2 (R184). -/
def execFexp2 (p g : Nat) (f : ThreadFields) (s : State) : Out := .next (s.approxInstr p g 0x8 0 f)

/-- FLOG2 (R184). -/
def execFlog2 (p g : Nat) (f : ThreadFields) (s : State) : Out := .next (s.approxInstr p g 0x9 1 f)

/-- FRCP (R184). -/
def execFrcp (p g : Nat) (f : ThreadFields) (s : State) : Out := .next (s.approxInstr p g 0xa 2 f)

/-- FRSQRT (R184). -/
def execFrsqrt (p g : Nat) (f : ThreadFields) (s : State) : Out := .next (s.approxInstr p g 0xb 3 f)

/-- CVT (R185). -/
def execCvt (p g : Nat) (f : ThreadFields) (s : State) : Out :=
  .next (s.threadPure p g 2 1 f fun x => x.eachLane f.d.toNat fun l =>
    BitVec.ofNat 32 (cvtBits (f.imm.toNat % 16) (f.imm.toNat / 16 % 16) (x.vreg f.a.toNat l).toNat))

/-- LD (R186). -/
def execLd (p g : Nat) (f : ThreadFields) (err : TileErr) (s : State) : Out := .next (s.ld p g f err)

/-- ST (R186). -/
def execSt (p g : Nat) (f : ThreadFields) (s : State) : Out := .next (s.st p g f)

/-- ATOM (R186). -/
def execAtom (p g : Nat) (f : ThreadFields) (s : State) : Out := .next (s.atom p g f)

/-- NOP (R187). -/
def execNop (p g : Nat) (raw : W64) (s : State) : Out := .next (s.threadNop p g raw.toNat)

/-- BRA (R187). -/
def execBra (p g : Nat) (f : ThreadFields) (s : State) : Out := .next (s.bra p g f)

/-- BRX (R187). -/
def execBrx (p g : Nat) (f : ThreadFields) (s : State) : Out := .next (s.brx p g f)

/-- ELECT (R187). -/
def execElect (p g : Nat) (f : ThreadFields) (s : State) : Out :=
  .next (s.threadPure p g 5 4 f fun x => x.eachLane f.d.toNat fun _ => BitVec.ofNat 32 ((lanesOf x.mask).headD 0))

/-- VOTE (R187). -/
def execVote (p g : Nat) (f : ThreadFields) (s : State) : Out :=
  .next (s.threadPure p g 5 5 f fun x => x.eachLane f.d.toNat fun _ =>
    BitVec.ofNat 32 (maskOf ((lanesOf x.mask).filter fun l => x.vreg f.a.toNat l != 0)))

/-- END (R187). -/
def execThrEnd (p g : Nat) (f : ThreadFields) (s : State) : Out := .next (s.thrEnd p g f)

/-- CINV (R187). -/
def execCinv (p g : Nat) (f : ThreadFields) (s : State) : Out := .next (s.cinv p g f)

/-- BARB (R187). -/
def execBarb (p g : Nat) (f : ThreadFields) (s : State) : Out := .next (s.barb p g f)

/-- MEMBAR (R187). -/
def execMembar (p g : Nat) (f : ThreadFields) (s : State) : Out := .next (s.membar p g f)

/-- SEMWAIT (R187). -/
def execSemwait (p g : Nat) (f : ThreadFields) (s : State) : Out := .next (s.semwait p g f)

/-- SEMSIG (R187). -/
def execSemsig (p g : Nat) (f : ThreadFields) (s : State) : Out := .next (s.semsig p g f)

/-- UMOV (R187). -/
def execUmov (p g : Nat) (f : ThreadFields) (s : State) : Out := .next (s.uniOp p g 0x1 f (fun _ b => b))

/-- UADD (R187). -/
def execUadd (p g : Nat) (f : ThreadFields) (s : State) : Out := .next (s.uniOp p g 0x2 f (fun a b => a + b))

/-- USUB (R187). -/
def execUsub (p g : Nat) (f : ThreadFields) (s : State) : Out := .next (s.uniOp p g 0x3 f (fun a b => a - b))

/-- UMUL (R187). -/
def execUmul (p g : Nat) (f : ThreadFields) (s : State) : Out := .next (s.uniOp p g 0x4 f (fun a b => a * b))

/-- UAND (R187). -/
def execUand (p g : Nat) (f : ThreadFields) (s : State) : Out := .next (s.uniOp p g 0x5 f (fun a b => a &&& b))

/-- UOR (R187). -/
def execUor (p g : Nat) (f : ThreadFields) (s : State) : Out := .next (s.uniOp p g 0x6 f (fun a b => a ||| b))

/-- UXOR (R187). -/
def execUxor (p g : Nat) (f : ThreadFields) (s : State) : Out := .next (s.uniOp p g 0x7 f (fun a b => a ^^^ b))

/-- USHL (R187). -/
def execUshl (p g : Nat) (f : ThreadFields) (s : State) : Out := .next (s.uniOp p g 0x8 f (fun a b => a <<< (b.toNat % 64)))

/-- USHR (R187). -/
def execUshr (p g : Nat) (f : ThreadFields) (s : State) : Out := .next (s.uniOp p g 0x9 f (fun a b => a >>> (b.toNat % 64)))

/-- ULD (R187). -/
def execUld (p g : Nat) (f : ThreadFields) (s : State) : Out := .next (s.uld p g f)

/-- UINS16 (R187). -/
def execUins16 (p g : Nat) (f : ThreadFields) (s : State) : Out :=
  .next (s.threadPure p g 8 0xB f fun x =>
    x.setU f.d.toNat ((x.ureg f.d.toNat <<< (16 : Nat)) ||| f.imm.setWidth 64))

/-! ### Events of the thread engine -/

/-- TLAUNCH (R58, R171). -/
def execTlaunch (p : Nat) (s : State) : Out := .next (s.tlaunch p)

/-- TCARVE (R139). -/
def execTcarve (p : Nat) (s : State) : Out := .next (s.tcarve p)

/-- TPRELOAD (R71). -/
def execTpreload (p : Nat) (ext : HostMem) (s : State) : Out := .next (s.tpreload p ext)

/-- TNOP (R172). -/
def execTnop (p : Nat) (s : State) : Out := .next (s.tnop p)

/-- GROUP_PROMOTION (R61). -/
def execGroupPromotion (p : Nat) (s : State) : Out := .next (s.promote p)

/-- LOAD_RETURN (R59). -/
def execLoadReturn (p g k way : Nat) (s : State) : Out := .next (s.loadReturn p g k way)

/-- STORE_BUFFER_DRAIN (R65). -/
def execStoreBufferDrain (p full : Nat) (err : TileErr) (s : State) : Out := .next (s.storeDrain p full err)

/-- WRITE_BUFFER_DRAIN (R68). -/
def execWriteBufferDrain (p : Nat) (s : State) : Out := .next (s.writeDrain p)

/-- GROUP_NO_PROGRESS (R64). -/
def execGroupNoProgress (p g : Nat) (s : State) : Out := .next (s.noProgress p g)

/-- WAY_DISABLE (R72). -/
def execWayDisable (p w : Nat) (s : State) : Out := .next (s.wayDisable p w)

/-- L1_ERROR_WINDOW_END (R72). -/
def execL1ErrorWindowEnd (p w : Nat) (s : State) : Out := .next (s.windowEnd p w)

/-- GRP_DBG_HALT (R78). -/
def execGrpDbgHalt (p : Nat) (s : State) : Out := .next (s.grpHalt p)

/-- GRP_DBG_RESUME (R80). -/
def execGrpDbgResume (p : Nat) (s : State) : Out := .next (s.grpResume p false)

/-- GRP_DBG_STEP (R80). -/
def execGrpDbgStep (p : Nat) (s : State) : Out := .next (s.grpResume p true)

end Sys2Proof.Machine
end

