-- ==== Sys2Proof/Machine/Matrix.lean ====
section
/-!
DEFINITION. The matrix engine (04_matrix_array.md, 05_number_formats.md), simulated cycle by cycle: `Mat.now` counts
unfrozen MCLK cycles (R87). A command names the cycles that pass before its event; the effects of every cycle that has
passed are then done, those of the present cycle not yet.
-/
namespace Sys2Proof.Machine

/-! ### Tags, active plane, plane cells (R90 to R93) -/

/-- Plane active in a cycle: a swap counts from the cycle it begins in. -/
def Mat.activeAt (m : Mat) (x : Nat) : Nat :=
  b2n (m.activeB != ((m.swaps.filter fun c => decide (x < c)).length % 2 == 1))

/-- Tag and paired flag of a plane in a cycle; 0 is unloaded. -/
def Mat.tagAt (m : Mat) (plane x : Nat) : Nat × Bool :=
  match m.tags.find? fun e => e.2.1 == plane && decide (e.1 ≤ x) with
  | some e => e.2.2
  | none => (0, false)

/-- A plane's tag is set in a cycle; of each plane the last four stay known. -/
def Mat.setTag (m : Mat) (plane fmt : Nat) (paired : Bool) : Mat :=
  let l := (m.now, plane, fmt, paired) :: m.tags
  { m with tags := (l.filter (·.2.1 == 0)).take 4 ++ (l.filter (·.2.1 == 1)).take 4 }

/-- The 64 cells of a plane row. -/
def Mat.planeRow (m : Mat) (plane row : Nat) : List Nat := FMap.getList 0 m.plane (plane * 4096 + row * 64) 64

/-- Rows written in the last 300 cycles stay known as they were. -/
def Mat.setPlaneRow (m : Mat) (plane row : Nat) (cells : List Nat) : Mat :=
  { m with plane := FMap.putList 0 m.plane (plane * 4096 + row * 64) cells,
           planeLog := (m.planeLog.filter fun e => decide (m.now < e.1 + 300)) ++ [(m.now, plane * 64 + row, m.planeRow plane row)] }

/-- A cell as a wavefront that reaches it in cycle `x` sees it: writes of earlier cycles only (R93). -/
def Mat.cellAt (m : Mat) (plane row col x : Nat) : Nat :=
  match m.planeLog.find? fun e => e.2.1 == plane * 64 + row && decide (x ≤ e.1) with
  | some e => nth 0 e.2.2 col
  | none => m.plane.get 0 (plane * 4096 + row * 64 + col)

/-! ### Accumulators (R97, R98) -/

/-- Key of an accumulator element. -/
def accKey (row col : Nat) : Nat := row % 1024 * 64 + col

/-- An element as a read in cycle `x` returns it: the last write at or before x − 6. -/
def Mat.accRead (m : Mat) (k x : Nat) : Nat :=
  match ((m.accLog.get [] k).filter fun w => decide (w.cycle + 6 ≤ x)).getLast? with
  | some w => w.value
  | none => m.acc.get 0 k

/-- Insert a write in order of cycles. -/
def insertWrite (w : AccWrite) : List AccWrite → List AccWrite
  | [] => [w]
  | y :: l => if w.cycle < y.cycle then w :: y :: l else y :: insertWrite w l

/-- A write that every later read sees, and that no instruction begun earlier can still meet. -/
def Mat.settled (m : Mat) (w : AccWrite) : Bool :=
  decide (w.cycle + 6 ≤ m.now) && m.ops.all fun o => o.done || decide (w.num ≤ o.num)

/-- Settled writes at the front of an element's list move into the accumulator memory. -/
def Mat.settleAcc (m : Mat) (k : Nat) : Mat :=
  let l := m.accLog.get [] k
  match (l.takeWhile m.settled).getLast? with
  | some w => { m with acc := m.acc.put 0 k w.value, accLog := m.accLog.put [] k (l.dropWhile m.settled) }
  | none => m

/-- A write of an element. Of two in one cycle the streamer's is kept; the number of the other one's instruction is
answered (R98). -/
def Mat.accWrite (m : Mat) (k : Nat) (w : AccWrite) : Mat × Option Nat :=
  let m := m.settleAcc k
  let l := m.accLog.get [] k
  match l.find? fun y => y.cycle == w.cycle with
  | some y =>
    if y.streamer then (m, some y.num)
    else ({ m with accLog := m.accLog.put [] k ((l.filter fun y => y.cycle != w.cycle) |> insertWrite w) }, some y.num)
  | none => ({ m with accLog := m.accLog.put [] k (insertWrite w l) }, none)

namespace State

/-! ### The hazard checker (R110, R111) -/

/-- Instruction `num` of a tile commits a hazard: it is counted once for the instruction, the first recorded, and halts
the tile in mode 2. -/
def matHazard (s : State) (p num kind accRow planeRow plane : Nat) : State :=
  let mode := s.f .MAT_SETUP_HAZARD_MODE p
  match (s.tile p).mat.ops.find? (·.num == num) with
  | none => s
  | some o =>
    if mode = 0 ∨ o.hazard then s
    else
      let s := (s.bump .MAT_HAZARD_COUNT_COUNT p).modMat p fun m =>
        { m with ops := m.ops.map fun o => if o.num = num then { o with hazard := true } else o }
      if s.flag .MAT_HAZARD_FIRST_VALID p then s
      else
        let g := match o.work with
          | .gmma g .. => some g
          | _ => none
        let s := (((s.setFlag .MAT_HAZARD_FIRST_VALID p true).setF .MAT_HAZARD_FIRST_KIND p kind).setF .MAT_HAZARD_FIRST_ACC_ROW p accRow).setF
          .MAT_HAZARD_FIRST_PLANE_ROW p planeRow
        let s := (((s.setF .MAT_HAZARD_FIRST_PLANE p plane).setFlag .MAT_HAZARD_FIRST_SOURCE p g.isSome).setF .MAT_HAZARD_FIRST_GROUP p
          (g.getD 0)).setF .MAT_HAZARD_ADDR_ADDR p o.entry.addr
        if mode = 1 then s
        else match g with
          | some g => s.haltTile p rMatHazard 1 0 g o.entry.addr
          | none => s.haltEngine p 1 rMatHazard o.entry

/-- Hazards of a read of an element by instruction `num` in the present cycle. -/
def accReadHazards (s : State) (p num row col : Nat) : State :=
  let m := (s.tile p).mat
  let l := (m.accLog.get [] (accKey row col)).filter fun w => decide (w.cycle ≤ m.now)
  let s := if l.any fun w => decide (m.now < w.cycle + 6 ∧ w.num < num) then s.matHazard p num 1 (row % 1024) 0 0 else s
  match l.find? fun w => decide (num < w.num) with
  | some w => s.matHazard p w.num 2 (row % 1024) 0 0
  | none => s

/-- A write of an element, its hazard counted for the instruction of the two that began later. -/
def accPut (s : State) (p row col : Nat) (w : AccWrite) : State :=
  let (m, other) := (s.tile p).mat.accWrite (accKey row col) w
  let s := s.modMat p fun _ => m
  match other with
  | some n => s.matHazard p (if n < w.num then w.num else n) 5 (row % 1024) 0 0
  | none => s

/-! ### Reads of the scratchpad that may meet a write (R89, R95, R101, R137) -/

/-- A cell as an instruction reads it: any of its versions since the instruction could read it. -/
def chooseCell (s : State) (p c : Nat) (olds : List (List Byte)) : State × List Byte :=
  olds.foldl (fun (y : State × List Byte) old =>
    let (b, s) := y.1.choose
    (s, if b then old else y.2)) (s, (s.tile p).cell c)

/-- Read a run of bytes for an instruction. DEDUCED: notes/assumptions/39.md. -/
def matBytes (s : State) (p : Nat) (olds : FMap (List (List Byte))) (a n : Nat) : State × List Byte :=
  let (s, bs) := (spadCells a n).foldl (fun (y : State × List Byte) c =>
    let (s, b) := y.1.chooseCell p c (olds.get [] c)
    (s, y.2 ++ b)) (s.spadCount p a n, [])
  (s, (bs.drop (a % 32)).take n)

end State

/-! ### Fields of MAT instructions (R173, R174) -/

/-- MLDP. -/
def Entry.ldSrc (e : Entry) : Nat := e.qSpad (e.f 1 8 0)
def Entry.ldStride (e : Entry) : Nat := e.f 1 24 9
def Entry.ldFirst (e : Entry) : Nat := e.f 1 30 25
def Entry.ldPaired (e : Entry) : Bool := e.f 1 31 31 == 1
def Entry.ldRows (e : Entry) : Nat := e.f 2 6 0
def Entry.ldStored (e : Entry) : Nat := e.f 2 10 7
def Entry.ldFmt (e : Entry) : Nat := e.f 2 14 11
def Entry.ldKind (e : Entry) : Nat := e.f 2 16 15
def Entry.ldPlane (e : Entry) : Nat := e.f 2 17 17
def Entry.ldSz (e : Entry) : Nat := e.reg (e.f 2 21 18)

/-- MSTR. -/
def Entry.strSrc (e : Entry) : Nat := e.qSpad (e.f 1 8 0)
def Entry.strStride (e : Entry) : Nat := e.f 1 24 9
def Entry.strM (e : Entry) : Nat := e.f 2 9 0 + 1
def Entry.strK (e : Entry) : Nat := e.f 2 17 10
def Entry.strFmt (e : Entry) : Nat := e.f 2 21 18
def Entry.strMode (e : Entry) : Nat := e.f 2 24 22
def Entry.strAcc (e : Entry) : Bool := e.f 2 25 25 == 1
def Entry.strBase (e : Entry) : Nat := e.accBase (e.f 3 9 0) (e.f 3 13 10) (e.f 3 14 14)

/-- MDRN; its base and row count are also those of MZERO. -/
def Entry.drnBase (e : Entry) : Nat := e.accBase (e.f 1 9 0) (e.f 1 13 10) (e.f 1 14 14)
def Entry.drnN (e : Entry) : Nat := e.f 1 24 15 + 1
def Entry.drnCol (e : Entry) : Nat := e.f 1 30 25
def Entry.drnFloat (e : Entry) : Bool := e.f 1 31 31 == 1
def Entry.drnCount (e : Entry) : Nat := e.f 2 6 0
def Entry.drnFmt (e : Entry) : Nat := e.f 2 10 7
def Entry.drnVec (e : Entry) : Nat := e.f 2 12 11
def Entry.drnClear (e : Entry) : Bool := e.f 2 13 13 == 1
def Entry.drnScale (e : Entry) : Nat := e.reg (e.f 2 17 14) % 2 ^ 32
def Entry.drnDest (e : Entry) : Nat := e.qSpad (e.f 2 26 18)
def Entry.drnSvec (e : Entry) : Nat := e.qSpad (e.f 3 8 0)
def Entry.drnStride (e : Entry) : Nat := e.f 3 24 9

/-- Bytes of a row of 64 values. -/
def rowBytes (fmt : Nat) : Nat := 8 * fmtBits fmt

/-- Bytes of an element at the left edge (R94, R116). -/
def edgeBytes (fmt : Nat) : Nat := if fmtBits fmt = 16 then 2 else 1

/-- Array rows in use (R174). -/
def arrayRows (k : Nat) (paired : Bool) : Nat := if paired then (k + 1) / 2 else k

/-- Value `i` of packed or wider values of a format (R116). -/
def packedValue (fmt : Nat) (bs : List Byte) (i : Nat) : Nat :=
  match fmtBits fmt with
  | 4 => (nth 0 bs (i / 2)).toNat / 16 ^ (i % 2) % 16
  | n => fromLE ((bs.drop (i * (n / 8))).take (n / 8))

/-! ### Loading a plane (R89, R120 to R122) -/

/-- A stored value expanded to the plane format. -/
def expand (kind stored fmt : Nat) (table : List Nat) (sz v : Nat) : Nat :=
  match kind with
  | 0 => v
  | 1 => nth 0 table (v % 16) % 2 ^ fmtBits fmt
  | _ =>
    match floatFmt fmt, f32 (sz % 2 ^ 32) with
    | some f, .fin a m e =>
      let q := intValue stored v - signedOf 16 (sz / 2 ^ 32)
      let x := (f.round true ((Num.ofInt q).mul (.fin a m e))).1
      if x % 2 ^ (f.width - 1) = 0 then 0 else x
    | some f, _ => f.nan
    | none, _ => 0

/-- A combination of Table Expansion kinds. -/
def expandOk (kind stored fmt : Nat) (paired : Bool) : Bool :=
  let int4 := fun c => c == 1 || c == 2
  let float := decide (5 ≤ fmt ∧ fmt ≤ 8)
  match kind with
  | 0 => decide (1 ≤ stored ∧ stored ≤ 8) && stored == fmt && (!paired || int4 stored)
  | 1 => int4 stored && float && !paired
  | 2 => decide (1 ≤ stored ∧ stored ≤ 4) && float && !paired
  | _ => false

/-- The checks of an MLDP, of an MSTR bound to a plane, of an MDRN (R175). -/
def mldpOk (e : Entry) : Bool :=
  decide (1 ≤ e.ldRows ∧ e.ldFirst + e.ldRows ≤ 64) && expandOk e.ldKind e.ldStored e.ldFmt e.ldPaired
def mstrOk (e : Entry) (fmt : Nat) (paired : Bool) : Bool :=
  let k := e.strK
  fmt != 0 && decide (1 ≤ k ∧ k ≤ if paired then 128 else 64) && e.strStride % 32 == 0
  && decide ((if edgeBytes e.strFmt = 2 then 128 else 64) ≤ e.strStride) && pairingOk fmt paired e.strFmt
  && decide (e.strMode ≤ 5) && (e.strMode == 0 || decide (fmt ≤ 4 ∧ e.strFmt ≤ 4))
def mdrnOk (e : Entry) : Bool :=
  let four := fmtBits e.drnFmt == 4
  decide (1 ≤ e.drnCount ∧ e.drnCol + e.drnCount ≤ 64 ∧ 1 ≤ e.drnFmt ∧ e.drnFmt ≤ 10) && e.drnVec != 3
  && (e.drnFloat || e.drnFmt != 9 || (e.drnScale == 0x3F800000 && e.drnVec == 0))
  && (!four || (e.drnCol % 2 == 0 && e.drnCount % 2 == 0)) && (e.drnVec == 0 || e.drnSvec % 4 == 0)

/-- The last byte that each reads or writes lies within the scratchpad (R136). -/
def mldpFits (e : Entry) : Bool :=
  let rows := if e.ldPaired then 2 * e.ldRows else e.ldRows
  rows == 0 || decide (e.ldSrc + (rows - 1) * e.ldStride + rowBytes e.ldStored ≤ spadSize)
def mstrFits (e : Entry) (paired : Bool) : Bool :=
  let k := arrayRows e.strK paired
  k == 0 || decide (e.strSrc + (e.strM + k - 2) * e.strStride + k * edgeBytes e.strFmt ≤ spadSize)
def mdrnFits (e : Entry) : Bool :=
  let row := (e.drnCount * fmtBits e.drnFmt + 7) / 8
  let vec := if e.drnVec = 1 then 4 * e.drnN else if e.drnVec = 2 then 4 * e.drnCount else 0
  decide (e.drnDest + (e.drnN - 1) * e.drnStride + row ≤ spadSize) && (vec == 0 || decide (e.drnSvec + vec ≤ spadSize))

/-! ### A pass (R85, R94 to R96) -/

/-- Cycle, counted from the begin, by which wavefront `k` has been read: the first in which one of its elements enters
the left edge. -/
def waveDue (w rows k : Nat) : Nat :=
  let r := if k < rows then k else rows - 1
  r + w * (k - r)

/-- The streaming element of reduction row `r` in a wavefront's bytes. -/
def waveValue (fmt : Nat) (paired : Bool) (bs : List Byte) (r : Nat) : Nat :=
  if paired then (nth 0 bs (r / 2)).toNat / 16 ^ (r % 2) % 16
  else if edgeBytes fmt = 2 then fromLE ((bs.drop (2 * r)).take 2)
  else (nth 0 bs r).toNat % 2 ^ fmtBits fmt

/-- The stationary value of reduction row `r` in a cell. -/
def cellValue (fmt : Nat) (paired : Bool) (cell r : Nat) : Nat :=
  if paired then cell / 16 ^ (r % 2) % 16 else cell % 2 ^ fmtBits fmt

/-- Element (row `m`, column `c`) of a pass: its terms from row 0 on, combined and accumulated. -/
def passElement (mode fmtW fmtX : Nat) (accumulate : Bool) (old : Nat) (xs ws : List Nat) : Nat × Bool :=
  if pairingInt fmtW fmtX then columnInt mode accumulate old ((xs.zip ws).map fun y => (intValue fmtX y.1, intValue fmtW y.2))
  else accumulateFloat accumulate old (columnFloat (precision fmtW) (precision fmtX)
    ((xs.zip ws).map fun y => (fmtValue fmtX y.1).mul (fmtValue fmtW y.2)))

/-- The reduction rows of an MSTR's element: streaming and stationary values as they meet (R93, R96). -/
def Mat.terms (m : Mat) (o : MatOp) (plane fmt : Nat) (paired : Bool) (k v i c : Nat) : List Nat × List Nat :=
  let rows := List.range k
  let row := fun r => if paired then r / 2 else r
  (rows.map fun r => waveValue o.entry.strFmt paired (o.reads.get [] (i + row r)) r,
   rows.map fun r => cellValue fmt paired (m.cellAt plane (row r) c (v + row r + c)) r)

namespace State

/-- Change an instruction in flight. -/
def modMatOp (s : State) (p num : Nat) (g : MatOp → MatOp) : State :=
  s.modMat p fun m => { m with ops := m.ops.map fun o => if o.num = num then g o else o }

/-- The loader's part of a cycle: one plane row. -/
def tickLoad (s : State) (p : Nat) (o : MatOp) : State :=
  match o.work with
  | .mldp plane first n paired table =>
    let m := (s.tile p).mat
    let j := m.now - o.start
    if n ≤ j then s
    else
      let e := o.entry
      let len := rowBytes e.ldStored
      let row := first + j
      let s := s.forEach (m.ops.filter fun x => decide (x.num < o.num) && !x.done) fun s x =>
        let late := fun (q v lo hi : Nat) => q = plane ∧ lo ≤ row ∧ row < hi ∧ m.now < v + row + 63
        match x.work with
        | .mstr q _ pr mm k w => if late q (x.start + (mm - 1) * w) 0 (arrayRows k pr) then s.matHazard p o.num 4 0 row plane else s
        | .gmma _ q _ h _ w .. => if late q (x.start + 31 * w) (32 * h) (32 * h + 32) then s.matHazard p o.num 4 0 row plane else s
        | _ => s
      let (s, cells) := if paired then
          let (s, a) := s.matBytes p o.olds (e.ldSrc + 2 * j * e.ldStride) len
          let (s, b) := s.matBytes p o.olds (e.ldSrc + (2 * j + 1) * e.ldStride) len
          (s, (List.range 64).map fun c => packedValue e.ldStored a c + 16 * packedValue e.ldStored b c)
        else
          let (s, a) := s.matBytes p o.olds (e.ldSrc + j * e.ldStride) len
          (s, (List.range 64).map fun c => expand e.ldKind e.ldStored e.ldFmt table e.ldSz (packedValue e.ldStored a c))
      s.modMat p fun m => m.setPlaneRow plane row cells
  | _ => s

end State

/-- A drained element: to FP32, scaled, converted; the copy path leaves INT32 as it is (R101, R127, R128). -/
def drainElement (e : Entry) (vec : Option Nat) (x : Nat) : Nat :=
  if !e.drnFloat && e.drnFmt == 9 then x
  else
    let v := if e.drnFloat then x else f32Round (Num.ofInt (signedOf 32 x))
    let v := drainMul v e.drnScale
    let v := match vec with
      | some y => drainMul v y
      | none => v
    convert e.drnFmt (f32 v)

/-- The bytes of a drained row (R129). -/
def drainBytes (fmt : Nat) (vs : List Nat) : List Byte :=
  if fmtBits fmt = 4 then (List.range (vs.length / 2)).map fun j => BitVec.ofNat 8 (nth 0 vs (2 * j) + 16 * nth 0 vs (2 * j + 1))
  else vs.flatMap (toLE (fmtBits fmt / 8))

namespace State

/-- Zeros in all 64 columns of an accumulator row. -/
def zeroRow (s : State) (p row num : Nat) : State :=
  s.forEach (List.range 64) fun s c => s.accPut p row c ⟨(s.tile p).mat.now, num, false, 0⟩

/-- The drainer's part of a cycle: one row read, converted and cleared, or zeroed; a row read eight cycles ago is
written to the scratchpad. -/
def tickDrain (s : State) (p : Nat) (o : MatOp) : State :=
  let now := (s.tile p).mat.now
  let i := now - o.start
  match o.work with
  | .mzero base n => if i < n then s.zeroRow p (base + i) o.num else s
  | .mdrn base n cols =>
    let s := if n ≤ i then s
      else
        let e := o.entry
        let s := s.forEach (List.range 64) fun s c => s.accReadHazards p o.num (base + i) c
        let (s, row) := if e.drnVec = 1 then
            let (s, b) := s.matBytes p o.olds (e.drnSvec + 4 * i) 4
            (s, some (fromLE b))
          else (s, none)
        let m := (s.tile p).mat
        let vs := (List.range e.drnCount).map fun j =>
          drainElement e (if e.drnVec = 2 then some (nth 0 cols j) else row) (m.accRead (accKey (base + i) (e.drnCol + j)) now)
        let out := (now + 8, [(e.drnDest + i * e.drnStride, drainBytes e.drnFmt vs)])
        let s := s.modMatOp p o.num fun o => { o with writes := o.writes ++ [out] }
        if e.drnClear then s.zeroRow p (base + i) o.num else s
    let due := o.writes.filter (·.1 == now)
    (s.forEach due fun s w => s.forEach w.2 fun s x => s.spadWrite p x.1 x.2).modMatOp p o.num fun o =>
      { o with writes := o.writes.filter (·.1 != now) }
  | _ => s

/-- The streamer's part of a cycle for one pass: the wavefronts due are read, and the elements that leave the array are
combined; they are written two cycles later (R96). -/
def tickStream (s : State) (p : Nat) (o : MatOp) : State :=
  match o.work with
  | .mstr plane fmt paired mm k w =>
    let e := o.entry
    let now := (s.tile p).mat.now
    let rows := arrayRows k paired
    let waves := (List.range (mm + rows - 1)).filter fun i => waveDue w rows i == now - o.start && (o.reads.get [] i).isEmpty
    let s := s.forEach waves fun s i =>
      let (s, bs) := s.matBytes p o.olds (e.strSrc + i * e.strStride) (rows * edgeBytes e.strFmt)
      s.modMatOp p o.num fun o => { o with reads := o.reads.put [] i bs }
    s.forEach (List.range 64) fun s c =>
      let x := now - o.start - 64 - c
      if now < o.start + 64 + c ∨ x % w ≠ 0 ∨ mm ≤ x / w then s
      else
        let i := x / w
        let row := e.strBase + i
        let s := if e.strAcc then s.accReadHazards p o.num row c else s
        let m := (s.tile p).mat
        let cur := (m.ops.find? (·.num == o.num)).getD o
        let t := m.terms cur plane fmt paired k (o.start + i * w) i c
        let r := passElement e.strMode fmt e.strFmt e.strAcc (m.accRead (accKey row c) now) t.1 t.2
        let s := if r.2 then s.bump .MAT_SAT_COUNT_COUNT p else s
        s.accPut p row c ⟨now + 2, o.num, true, r.1⟩
  | _ => s

/-- One unfrozen MCLK cycle. -/
def matTick (s : State) (p : Nat) : State :=
  let m := (s.tile p).mat
  let nums := (m.ops.filter (!·.done)).map (·.num)
  let each := fun (g : State → MatOp → State) (s : State) => nums.foldl (fun s n =>
    match (s.tile p).mat.ops.find? (·.num == n) with
    | some o => g s o
    | none => s) s
  let s := each (fun s o => s.tickLoad p o) (each (fun s o => s.tickStream p o) (each (fun s o => s.tickDrain p o) s))
  let s := if m.now < m.streamerFree then s.bump (if m.streamerGmma then .MAT_GMMA_CYCLES_COUNT else .MAT_STREAM_CYCLES_COUNT) p else s
  s.modMat p fun m => { m with now := m.now + 1 }

/-- Unfrozen cycles pass. -/
def matAdvance (p : Nat) : Nat → State → State
  | 0, s => s
  | n + 1, s => matAdvance p n (s.matTick p)

/-- The cycles that a command names pass (R87). DEDUCED: notes/assumptions/38.md. -/
def matTime (s : State) (p : Nat) (t : MatTime) : State :=
  (matAdvance p t.cycles s).bump .MAT_FREEZE_CYCLES_COUNT p t.frozen

/-! ### Begin (R86, R103) -/

end State

/-- The units of the matrix engine. -/
inductive MatUnit where
  | none | loader | streamer | drainer
  deriving DecidableEq, Repr

/-- Cycle from which a unit is free. -/
def Mat.free (m : Mat) : MatUnit → Nat
  | .none => 0
  | .loader => m.loaderFree
  | .streamer => m.streamerFree
  | .drainer => m.drainerFree

/-- A unit is occupied for `n` cycles from now. -/
def Mat.occupy (m : Mat) (u : MatUnit) (n : Nat) (gmma : Bool) : Mat :=
  match u with
  | .none => m
  | .loader => { m with loaderFree := m.now + n }
  | .streamer => { m with streamerFree := m.now + n, streamerGmma := gmma }
  | .drainer => { m with drainerFree := m.now + n }

namespace State

/-- The head of MATQ begins, after the cycles named, if it has opcode `op`, its unit is free and no instruction has
begun in the same cycle; otherwise nothing has come about. -/
def beginMat (s : State) (p op : Nat) (u : MatUnit) (t : MatTime) (body : State → Entry → State) : State :=
  let s1 := s.matTime p t
  let m := (s1.tile p).mat
  match s1.head p 1 with
  | none => s
  | some e =>
    if !(s1.tile p).live || e.op ≠ op || m.now < m.earliest || m.lastBegin = some m.now || m.now < m.free u then s
    else match s1.headReady p 1 e with
    | none => s
    | some s1 => body s1 e

/-- An instruction has begun: it leaves the queue, takes its unit, and is in flight until cycle now + `len`. -/
def matBegun (s : State) (p : Nat) (e : Entry) (u : MatUnit) (busy len : Nat) (work : MatWork) (reads : FMap (List Byte))
    (olds : FMap (List (List Byte))) : State :=
  (s.dequeue p 1).modMat p fun m =>
    let o : MatOp := ⟨m.nums, m.now, m.now + len, e, work, reads, olds, [], false, false⟩
    { (m.occupy u busy false) with nums := m.nums + 1, lastBegin := some m.now, headOlds := [], ops := m.ops ++ [o] }

/-- MLDP (R89, R90). DEDUCED: notes/assumptions/37.md. -/
def mldp (s : State) (p : Nat) (t : MatTime) : State :=
  s.beginMat p 1 .loader t fun s e =>
    if !mldpFits e then s.haltEngine p 1 rScratchRange e
    else if !mldpOk e then s.haltEngine p 1 rMatInconsistent e
    else
      let m := (s.tile p).mat
      let table := FMap.getList 0 m.tables (16 * e.ldPlane) 16
      (s.matBegun p e .loader e.ldRows e.ldRows (.mldp e.ldPlane e.ldFirst e.ldRows e.ldPaired table) [] m.headOlds).modMat p
        fun m => m.setTag e.ldPlane e.ldFmt e.ldPaired

/-- MLUT: the table is written in the cycle it begins (R91). -/
def mlut (s : State) (p : Nat) (t : MatTime) : State :=
  s.beginMat p 2 .loader t fun s e =>
    let src := e.qSpad (e.f 1 8 0)
    if spadSize < src + 32 then s.haltEngine p 1 rScratchRange e
    else if src % 32 ≠ 0 then s.haltEngine p 1 rMatInconsistent e
    else
      let (s, bs) := s.spadRead p src 32
      (s.matBegun p e .loader 1 1 .mlut [] []).modMat p fun m =>
        { m with tables := FMap.putList 0 m.tables (16 * e.f 1 9 9) ((List.range 16).map fun i => fromLE ((bs.drop (2 * i)).take 2)) }

/-- MSWAP (R92). DEDUCED: notes/assumptions/37.md. -/
def mswap (s : State) (p : Nat) (t : MatTime) : State :=
  s.beginMat p 3 .none t fun s e =>
    (s.matBegun p e .none 0 2 .mswap [] []).modMat p fun m => { m with activeB := !m.activeB, swaps := (m.now :: m.swaps).take 4 }

/-- Versions of the cells of an operand's first 16 wavefronts, which may be read before the begin (R95). -/
def earlyWaves (m : Mat) (e : Entry) (rows : Nat) : FMap (List (List Byte)) :=
  let cells := (List.range 16).flatMap fun i => spadCells (e.strSrc + i * e.strStride) (rows * edgeBytes e.strFmt)
  m.headOlds.filter fun y => cells.contains y.1

/-- MSTR, bound to the plane that was active two cycles before (R85, R90, R92). A detected error makes the first word of
its operand read zero (R381). DEDUCED: notes/assumptions/37.md. -/
def mstr (s : State) (p : Nat) (t : MatTime) (err : TileErr) : State :=
  s.beginMat p 4 .streamer t fun s e =>
    let m := (s.tile p).mat
    let plane := m.activeAt (m.now - 2)
    let (fmt, paired) := m.tagAt plane (m.now - 2)
    if !mstrFits e paired then s.haltEngine p 1 rScratchRange e
    else if !mstrOk e fmt paired then s.haltEngine p 1 rMatInconsistent e
    else
      let w := passWidth fmt e.strFmt
      let rows := arrayRows e.strK paired
      let olds := earlyWaves m e rows
      let s := s.tileErr p err
      let (s, reads) := if err = .detected then
          let (s, bs) := s.matBytes p olds e.strSrc (rows * edgeBytes e.strFmt)
          (s, ([(0, overlay bs 0 (rep (if bs.length < 4 then bs.length else 4) 0))] : FMap (List Byte)))
        else (s, [])
      let short := m.swaps.any fun c => c + 1 == m.now
      let s := s.matBegun p e .streamer (e.strM * w) ((e.strM - 1) * w + 135) (.mstr plane fmt paired e.strM e.strK w) reads olds
      if short then s.matHazard p m.nums 3 0 0 plane else s

/-- MDRN: the entries of a per-column scale vector are read in the cycle it begins (R101). -/
def mdrn (s : State) (p : Nat) (t : MatTime) : State :=
  s.beginMat p 5 .drainer t fun s e =>
    if !mdrnFits e then s.haltEngine p 1 rScratchRange e
    else if !mdrnOk e then s.haltEngine p 1 rMatInconsistent e
    else
      let (s, cols) := if e.drnVec = 2 then
          let (s, bs) := s.spadRead p e.drnSvec (4 * e.drnCount)
          (s, bytesWords e.drnCount bs)
        else (s, [])
      s.matBegun p e .drainer e.drnN (e.drnN + 8) (.mdrn e.drnBase e.drnN cols) [] []

/-- MZERO (R102). -/
def mzero (s : State) (p : Nat) (t : MatTime) : State :=
  s.beginMat p 6 .drainer t fun s e => s.matBegun p e .drainer e.drnN (e.drnN + 5) (.mzero e.drnBase e.drnN) [] []

/-- MDLY: the next instruction begins no earlier than `n` cycles on (R103). -/
def mdly (s : State) (p : Nat) (t : MatTime) : State :=
  s.beginMat p 7 .none t fun s e =>
    let n := if e.f 1 15 0 = 0 then 1 else e.f 1 15 0
    (s.matBegun p e .none 0 n .mdly [] []).modMat p fun m => { m with earliest := m.now + n }

/-! ### Completion (R104) -/

end State

/-- Completed instructions stay only while one begun before them is in flight. -/
def Mat.prune (m : Mat) : Mat :=
  { m with ops := m.ops.filter fun o => !o.done || m.ops.any fun x => !x.done && decide (x.num < o.num) }

/-- The instruction in flight that is due first, among those that `q` selects. -/
def Mat.firstDue (m : Mat) (q : MatOp → Bool) : Option MatOp :=
  (m.ops.filter fun o => !o.done && q o).foldl (fun b o => match b with
    | some x => if o.due < x.due then some o else b
    | none => some o) none

/-- The operation is a GMMA. -/
def MatOp.isGmma (o : MatOp) : Bool :=
  match o.work with
  | .gmma .. => true
  | _ => false

namespace State

/-- Take the first instruction that is due after the cycles named; none where none is. -/
def matDue (s : State) (p : Nat) (t : MatTime) (q : MatOp → Bool) : Option (State × MatOp) :=
  let s1 := s.matTime p t
  match (s1.tile p).mat.firstDue q with
  | some o => if o.due ≤ (s1.tile p).mat.now then some (s1, o) else none
  | none => none

/-- An instruction in flight is complete. -/
def matDone (s : State) (p num : Nat) : State := (s.modMatOp p num fun o => { o with done := true }).modMat p Mat.prune

/-- A MAT instruction completes and raises its signal. -/
def matComplete (s : State) (p : Nat) (t : MatTime) : State :=
  match s.matDue p t (!·.isGmma) with
  | some (s, o) => (s.matDone p o.num).raiseEntry p o.entry
  | none => s

/-! ### Group-wide matrix instructions (R76, R77, R107 to R109) -/

/-- GMMA issues: all 32 lanes must be active, and the left format one that a GMMA takes. -/
def gmma (s : State) (p g : Nat) (f : ThreadFields) : State :=
  s.thread p g 7 1 f fun s x =>
    let fmt := f.b.toNat % 16
    if fmt < 3 ∨ 8 < fmt then s.haltGroup p g rMatInconsistent
    else if x.mask ≠ 2 ^ 32 - 1 then s.haltGroup p g rMatDivergent
    else
      let n := gmmaLeft fmt
      let left := (List.range 32).flatMap fun l => (List.range n).map fun r => (x.vreg (f.a.toNat + r) l).toNat
      let w : GmmaWait := ⟨g, x.pc, b2n (f.modBit 0), b2n (f.modBit 1), if f.modBit 2 then 64 else 32, left, fmt, f.d.toNat, f.modBit 3⟩
      (s.modMat p fun m => { m with gmmas := m.gmmas ++ [w] }).retire p g fun x => { x with active := false, wait := .array }

/-- An MSTR at the head of MATQ can begin in this cycle: it goes before a GMMA (R109). -/
def mstrFirst (s : State) (p : Nat) : Bool :=
  let m := (s.tile p).mat
  match s.head p 1 with
  | some e => e.op == 4 && decide (m.earliest ≤ m.now) && m.lastBegin != some m.now && (s.headReady p 1 e).isSome
  | none => false

/-- GMMA_BEGIN: the oldest waiting GMMA takes the streamer (R109); it halts the tile where its plane does not suit it
(R107). -/
def gmmaBegin (s : State) (p : Nat) (t : MatTime) : State :=
  let s1 := s.matTime p t
  let m := (s1.tile p).mat
  match m.gmmas with
  | [] => s
  | w :: rest =>
    if !(s1.tile p).live || m.now < m.streamerFree || s1.mstrFirst p then s
    else
      let (fmt, paired) := m.tagAt w.plane m.now
      if fmt = 0 ∨ paired ∨ !pairingOk fmt false w.leftFmt then s1.haltTile p rMatInconsistent 1 0 w.group w.addr
      else
        let width := passWidth fmt w.leftFmt
        s1.modMat p fun m =>
          let o : MatOp := ⟨m.nums, m.now, m.now + 31 * width + 129, ⟨0, w.addr, [], 0⟩,
            .gmma w.group w.plane fmt w.half w.k width w.left w.leftFmt w.dest w.accumulate, [], [], [], false, false⟩
          { (m.occupy .streamer (32 * width) true) with nums := m.nums + 1, gmmas := rest, ops := m.ops ++ [o] }

end State

/-- Element `k` of lane `i` of a left operand held in registers. -/
def leftValue (fmt : Nat) (left : List Nat) (i k : Nat) : Nat :=
  let n := gmmaLeft fmt
  if n = 16 then nth 0 left (i * 16 + k / 2) / 2 ^ (16 * (k % 2)) % 2 ^ 16
  else nth 0 left (i * 8 + k / 4) / 2 ^ (8 * (k % 4)) % 2 ^ 8

/-- Result of lane `i`, column `c` of a GMMA that began in cycle `g`. -/
def Mat.gmmaElement (m : Mat) (g plane fmt half w : Nat) (left : List Nat) (leftFmt : Nat) (accumulate : Bool) (old i c : Nat) : Nat :=
  let xs := (List.range 32).map fun k => leftValue leftFmt left i k
  let ws := (List.range 32).map fun k => m.cellAt plane (32 * half + k) c (g + i * w + 32 * half + k + c) % 2 ^ fmtBits fmt
  (passElement 0 fmt leftFmt accumulate old xs ws).1

namespace State

/-- GMMA_RESULT: a GMMA's results are in the group's registers, and its wait ends (R108). -/
def gmmaResult (s : State) (p : Nat) (t : MatTime) : State :=
  match s.matDue p t (·.isGmma) with
  | none => s
  | some (s, o) =>
    match o.work with
    | .gmma g plane fmt half k w left leftFmt dest accumulate =>
      let m := (s.tile p).mat
      let s := s.modGroup p g fun x =>
        (List.range 32).foldl (fun x i => (List.range k).foldl (fun x c =>
          x.setV (dest + c) i (BitVec.ofNat 32
            (m.gmmaElement o.start plane fmt half w left leftFmt accumulate (x.vreg (dest + c) i).toNat i c))) x) x
      (s.matDone p o.num).wake p g
    | _ => s

end State

/-! ### Meanings -/

/-- MLDP (R89). -/
def execMldp (p : Nat) (t : MatTime) (s : State) : Out := .next (s.mldp p t)
/-- MLUT (R91). -/
def execMlut (p : Nat) (t : MatTime) (s : State) : Out := .next (s.mlut p t)
/-- MSWAP (R92). -/
def execMswap (p : Nat) (t : MatTime) (s : State) : Out := .next (s.mswap p t)
/-- MSTR (R85). -/
def execMstr (p : Nat) (t : MatTime) (err : TileErr) (s : State) : Out := .next (s.mstr p t err)
/-- MDRN (R101). -/
def execMdrn (p : Nat) (t : MatTime) (s : State) : Out := .next (s.mdrn p t)
/-- MZERO (R102). -/
def execMzero (p : Nat) (t : MatTime) (s : State) : Out := .next (s.mzero p t)
/-- MDLY (R103). -/
def execMdly (p : Nat) (t : MatTime) (s : State) : Out := .next (s.mdly p t)
/-- GMMA (R76, R107). -/
def execGmma (p g : Nat) (f : ThreadFields) (s : State) : Out := .next (s.gmma p g f)
/-- GMMA_BEGIN (R109). -/
def execGmmaBegin (p : Nat) (t : MatTime) (s : State) : Out := .next (s.gmmaBegin p t)
/-- GMMA_RESULT (R108). -/
def execGmmaResult (p : Nat) (t : MatTime) (s : State) : Out := .next (s.gmmaResult p t)

end Sys2Proof.Machine
end

