-- ==== Sys2Proof/Machine/Gather.lean ====
section
/-!
DEFINITION. The gather engine (06_scratchpad_and_gather.md, R141 to R155; 07, R176, R177) and the copies of R283. A
transfer goes on by one access to memory, or one entry, for each GATHER_READ_RETURN.
-/
namespace Sys2Proof.Machine

/-! ### The transfer descriptor (R142 to R144) -/

/-- Operands of GXFER and GFILL. -/
def Entry.gatDesc (e : Entry) : Nat := e.f 1 21 0
def Entry.fillDest (e : Entry) : Nat := e.qSpad (e.f 1 8 0)
def Entry.fillPattern (e : Entry) : Nat := e.reg (e.f 1 12 9) % 2 ^ 32
def Entry.fillCount (e : Entry) : Nat := e.f 2 21 0

/-- A descriptor field after its override `x` (R177), modulo `m` where an override or a rank offset applies. -/
def Entry.override (e : Entry) (x own m : Nat) : Nat :=
  let v := if bit x 0 then e.reg (bits x 4 1) % m else own
  if bit x 5 then (v + e.rank * e.reg (bits x 9 6)) % m else v

/-- The transfer of a descriptor's sixteen words as a GXFER uses it. -/
def Xfer.make (e : Entry) (w : Nat → Nat) : Xfer :=
  let q := fun i => w i + w (i + 1) * 2 ^ 32
  let mode := bits (w 0) 3 0
  let base := if mode = 3 then e.override (e.f 2 9 0) (bits (w 8) 21 0) spadSize
    else e.override (e.f 2 9 0) (q 8 % 2 ^ 56) (2 ^ 56)
  ⟨mode, bit (w 0) 4, bits (w 0) 6 5, bit (w 0) 7, bits (w 0) 11 8, bit (w 0) 12, bits (w 0) 14 13, bits (w 1) 15 0,
   bits (w 1) 31 16, bits (w 2) 15 0, bits (w 2) 31 16, bits (w 3) 23 0, w 4, w 5, w 6, w 7, base,
   e.override (e.f 2 19 10) (q 10) (2 ^ 64), w 12, e.override (e.f 2 29 20) (bits (w 13) 21 0) spadSize, bits (w 14) 15 0⟩

namespace Xfer

/-- Two values to a byte. -/
def packed (x : Xfer) : Bool := fmtBits x.fmt == 4 && !x.spread
/-- Bytes of a placed value that is not packed. -/
def size (x : Xfer) : Nat := if fmtBits x.fmt = 4 then 1 else fmtBits x.fmt / 8
/-- Rows of an element; gathered rows in all; bytes of a row at the source. -/
def perElement (x : Xfer) : Nat := x.n1 * x.n2 * x.n3
def total (x : Xfer) : Nat := x.count * x.perElement
def rowBytes (x : Xfer) : Nat := (x.n0 * fmtBits x.fmt + 7) / 8
/-- Vectors and positions of a skewed transfer. -/
def vectors (x : Xfer) : Nat := if x.axis then x.n0 else x.total
def positions (x : Xfer) : Nat := if x.axis then x.total else if x.packed then x.n0 / 2 else x.n0
/-- Bytes of `n` values in a row of the destination. -/
def span (x : Xfer) (n : Nat) : Nat := if x.packed then (n + 1) / 2 else n * x.size

/-- The descriptor's reserved fields are zero, its codes listed, its ranges kept (R144). `w` are its words as read. -/
def fieldsOk (x : Xfer) (w : Nat → Nat) : Bool :=
  let list := x.mode == 2
  decide (x.mode ≤ 3 ∧ x.layout ≤ 2 ∧ 1 ≤ x.fmt ∧ x.fmt ≤ 10 ∧ x.policy ≤ 2) && bits (w 0) 31 15 == 0 && bits (w 3) 31 24 == 0
  && decide (1 ≤ x.n0 ∧ 1 ≤ x.n1 ∧ 1 ≤ x.n2 ∧ 1 ≤ x.n3 ∧ 1 ≤ x.count ∧ 1 ≤ x.dpitch)
  && (!list || (x.n1 == 1 && x.n2 == 1 && x.n3 == 1 && bits x.stride3 31 22 == 0 && bits x.scale 31 22 == 0
                && x.stride3 % 4 == 0 && x.scale % 4 == 0 && decide (1 ≤ x.bound)))
  && (if x.mode = 1 then x.index % 4 == 0 else w 10 == 0 && w 11 == 0 && x.index == 0)
  && (x.mode == 1 || list || w 12 == 0) && bits (w 13) 31 22 == 0 && bits (w 14) 31 16 == 0 && w 15 == 0

/-- The combinations of R144 are kept. -/
def formOk (x : Xfer) : Bool :=
  let four := fmtBits x.fmt == 4
  !(x.out && (decide (2 ≤ x.mode) || x.layout == 1)) && !(x.layout == 1 && (x.fmt == 9 || x.fmt == 10)) && (!x.spread || four)
  && (!x.packed || x.n0 % 2 == 0) && !(x.axis && x.packed) && decide (x.total ≤ 16777215)
  && (match x.layout with
      | 0 => decide (x.span x.n0 ≤ x.dpitch)
      | 2 => decide (x.span x.total ≤ x.dpitch)
      | _ => decide (x.positions ≤ 128) && x.dpitch % 32 == 0 && decide (x.positions * x.size ≤ x.dpitch))

/-- Every byte of the scratchpad that the transfer reads or writes exists (R136). -/
def fits (x : Xfer) : Bool :=
  let rows := match x.layout with
    | 0 => (x.total - 1) * x.dpitch + x.span x.n0
    | 2 => (x.n0 - 1) * x.dpitch + x.span x.total
    | _ => (x.vectors + x.positions - 2) * x.dpitch + x.positions * x.size
  decide (x.spad + rows ≤ spadSize)
  && (x.mode != 2 || (decide (x.stride3 + 4 * x.count ≤ spadSize) && decide (x.scale + 4 ≤ spadSize)))
  && (x.mode != 3 || decide (x.base + (x.count - 1) * x.scale + (x.n1 - 1) * x.stride1 + (x.n2 - 1) * x.stride2
        + (x.n3 - 1) * x.stride3 + x.rowBytes ≤ spadSize))

/-! ### Placement (R145, R147, R148) -/

/-- Address of a row of an element at `src`. -/
def rowAddr (x : Xfer) (src rho : Nat) : Nat :=
  (src + rho % x.n1 * x.stride1 + rho / x.n1 % x.n2 * x.stride2 + rho / (x.n1 * x.n2) * x.stride3) % 2 ^ 56

/-- Where value (g, k) lies: its byte, and its nibble when packed. -/
def place (x : Xfer) (g k : Nat) : Nat × Nat :=
  if x.packed then
    match x.layout with
    | 0 => (x.spad + g * x.dpitch + k / 2, k % 2)
    | 2 => (x.spad + k * x.dpitch + g / 2, g % 2)
    | _ => (x.spad + (g + k / 2) * x.dpitch + k / 2, k % 2)
  else
    match x.layout with
    | 0 => (x.spad + g * x.dpitch + k * x.size, 0)
    | 2 => (x.spad + k * x.dpitch + g * x.size, 0)
    | _ => if x.axis then (x.spad + (k + g) * x.dpitch + g * x.size, 0) else (x.spad + (g + k) * x.dpitch + k * x.size, 0)

/-- Stage a value at its place; a byte of which one nibble is placed has zero in the other. -/
def stage (x : Xfer) (m : FMap (Option Byte)) (g k v : Nat) : FMap (Option Byte) :=
  let (a, nib) := x.place g k
  if x.packed then
    let old := ((m.get none a).getD 0).toNat
    let keep := if nib = 0 then old / 16 * 16 else old % 16
    m.put none a (some (BitVec.ofNat 8 (keep + v % 16 * 16 ^ nib)))
  else ((toLE x.size v).zip (List.range x.size)).foldl (fun m y => FMap.put none m (a + y.2) (some y.1)) m

/-- Stage the values of row g, given as the source's bytes. -/
def stageRow (x : Xfer) (m : FMap (Option Byte)) (g : Nat) (bs : List Byte) : FMap (Option Byte) :=
  (List.range x.n0).foldl (fun m k => x.stage m g k (packedValue x.fmt bs k)) m

/-- Stage zeros for rows `g` to `g + n - 1`. -/
def stageZeros (x : Xfer) (m : FMap (Option Byte)) (g n : Nat) : FMap (Option Byte) :=
  (Machine.span g n).foldl (fun m g => x.stageRow m g []) m

/-- Positions of a skewed transfer that no vector reaches receive zero (R148). -/
def stageEdges (x : Xfer) (m : FMap (Option Byte)) : FMap (Option Byte) :=
  if x.layout ≠ 1 then m
  else (List.range (x.vectors + x.positions - 1)).foldl (fun m w => (List.range x.positions).foldl (fun m r =>
    if r ≤ w ∧ w - r < x.vectors then m
    else (List.range x.size).foldl (fun m b => FMap.put none m (x.spad + w * x.dpitch + r * x.size + b) (some 0)) m) m) m

end Xfer

namespace State

/-- Bytes of row g as the scratchpad holds them (DIR 1); `pad` fills the last nibble of an odd 4-bit row. -/
def scatterRow (s : State) (p : Nat) (x : Xfer) (g pad : Nat) : List Byte :=
  let t := s.tile p
  let value := fun k =>
    let (a, nib) := x.place g k
    if x.packed then (t.spad.get 0 a).toNat / 16 ^ nib % 16 else fromLE (t.spadBytes a x.size) % 2 ^ fmtBits x.fmt
  if fmtBits x.fmt = 4 then
    (List.range ((x.n0 + 1) / 2)).map fun j =>
      BitVec.ofNat 8 (value (2 * j) + 16 * (if 2 * j + 1 < x.n0 then value (2 * j + 1) else pad % 16))
  else (List.range x.n0).flatMap fun k => toLE x.size (value k)

/-- Write the staged bytes, each cell once (R148). -/
def commit (s : State) (p : Nat) (m : FMap (Option Byte)) : State :=
  let cells := distinct ((FMap.keys m).map (· / 32))
  s.forEach cells fun s c =>
    let bs := ((s.tile p).cell c).zip (List.range 32) |>.map fun y => (FMap.get none m (32 * c + y.2)).getD y.1
    s.spadWrite p (32 * c) bs

/-! ### Begin and completion (R149) -/

/-- A gather instruction may begin: the earlier ones have issued their last reads and, but for a GNOP, fewer than four
are in progress. -/
def gatRoom (s : State) (p : Nat) (nop : Bool) : Bool :=
  let l := (s.tile p).gat.ops
  l.all (·.phase == .done) && (nop || decide ((l.filter fun o => o.entry.op != 3).length < 4))

/-- A gather instruction has begun. -/
def gatBegun (s : State) (p : Nat) (e : Entry) (x : Option Xfer) (ph : GatPhase) (staged : FMap (Option Byte)) : State :=
  (s.dequeue p 2).modGat p fun y =>
    { y with nums := y.nums + 1, ops := y.ops ++ [⟨y.nums, e, x, ph, staged, 0, false, [], 0, none, none⟩] }

/-- Where a transfer's next element is found. -/
def nextElement (x : Xfer) (j : Nat) : GatPhase :=
  if x.mode = 1 then .index j else .rows j 0 (x.base + j * x.scale)

/-- The rows of a scratchpad transfer, staged at once (mode 3). -/
def spadRows (s : State) (p : Nat) (x : Xfer) : State × FMap (Option Byte) :=
  (List.range x.total).foldl (fun (y : State × FMap (Option Byte)) g =>
    let src := x.base + g / x.perElement * x.scale
    let r := y.1.spadRead p (x.rowAddr src (g % x.perElement)) x.rowBytes
    (r.1, x.stageRow y.2 g r.2)) (s, [])

/-- GXFER. -/
def gxfer (s : State) (p : Nat) : State :=
  s.beginHead p 2 1 fun s e =>
    if !s.gatRoom p false then s
    else if spadSize < e.gatDesc + 64 then s.haltEngine p 2 rScratchRange e
    else
      let (s1, bs) := s.spadRead p e.gatDesc 64
      let w := nth 0 (bytesWords 16 bs)
      let x := Xfer.make e w
      if e.gatDesc % 64 ≠ 0 then s.haltEngine p 2 rGatInconsistent e
      else if !x.fieldsOk w then s1.haltEngine p 2 rGatInconsistent e
      else if !x.fits then s1.haltEngine p 2 rScratchRange e
      else if !x.formOk then s1.haltEngine p 2 rGatInconsistent e
      else match x.mode with
        | 2 => s1.gatBegun p e (some x) (.list 0) []
        | 3 =>
          let (s, m) := s1.spadRows p x
          (s.commit p (x.stageEdges m)).gatBegun p e (some x) .done []
        | _ => s1.gatBegun p e (some x) (nextElement x 0) []

/-- GFILL (R141). -/
def gfill (s : State) (p : Nat) : State :=
  s.beginHead p 2 2 fun s e =>
    let n := e.fillCount
    if !s.gatRoom p false then s
    else if spadSize < e.fillDest + n then s.haltEngine p 2 rScratchRange e
    else if e.fillDest % 32 ≠ 0 ∨ n % 32 ≠ 0 ∨ n = 0 then s.haltEngine p 2 rGatInconsistent e
    else (s.spadWrite p e.fillDest ((List.range (n / 4)).flatMap fun _ => toLE 4 e.fillPattern)).gatBegun p e none .done []

/-- GNOP begins in queue order (R176). -/
def gnop (s : State) (p : Nat) : State :=
  s.beginHead p 2 3 fun s e => if s.gatRoom p true then s.gatBegun p e none .done [] else s

/-- Writes of a transfer to another part that are not acknowledged. -/
def gatUnacked (s : State) (p num : Nat) : Bool :=
  s.fab.reqs.any fun r => r.status == .waiting && r.owner == .store p [(64, num)]

/-- The oldest gather instruction completes and raises its signal, once all it does is done (R149). -/
def gatComplete (s : State) (p : Nat) : State :=
  match (s.tile p).gat.ops with
  | [] => s
  | o :: rest =>
    if o.phase ≠ .done ∨ s.gatUnacked p o.num then s
    else
      let s := s.modGat p fun y => { y with ops := rest }
      let s := if o.entry.op = 3 then s else s.bump .GAT_TRANSFERS_COUNT p
      s.raiseEntry p o.entry

/-! ### Accesses (R150, R151) -/

/-- Change the transfer that is reading: the last one begun. -/
def modLast (s : State) (p : Nat) (g : GatOp → GatOp) : State :=
  s.modGat p fun y => { y with ops := y.ops.modify (y.ops.length - 1) g }

/-- Read the 64-byte unit at `a`: its bytes and whether it carried an eyespot; none while it waits. -/
def gatUnit (s : State) (p a instr : Nat) (req : Option Nat) : State × Option (List Byte × Bool) :=
  match req with
  | some id =>
    match s.reqDone id with
    | none => (s, none)
    | some (bs, poison) =>
      let s := ((s.dropReq id).modLast p fun o => { o with req := none }).bump .GAT_BYTES_READ_COUNT p 64
      (s, some (fit 64 bs, poison))
  | none =>
    if s.xlWaiting (.gather p) (p / 104) (some p) then (s, none)
    else match s.translate p (s.missOf p (.gather p) a .read instr) with
    | (s, .ok target pa ep) =>
      match s.memRead p target pa ep 64 (.gather p) with
      | (s, .data bs poison) => (s.bump .GAT_BYTES_READ_COUNT p 64, some (bs, poison))
      | (s, .wait) => (s, none)
      | (s, .req id) => (s.modLast p fun o => { o with req := some id }, none)
    | (s, _) => (s, none)

/-- The bytes of a unit, zero where it carried an eyespot; the item then fails (R151). -/
def unpoison (s : State) (p : Nat) (u : List Byte × Bool) : State × List Byte :=
  if u.2 then (s.failAt (s.itemOf p) stMemPoison, rep 64 0) else (s, u.1)

/-- Collect `n` bytes at `va`, one unit for each event; `keep` says that units are those of a list or index tensor, of
which one read serves every entry. None until all are read. -/
def collect (s : State) (p va n : Nat) (keep : Bool) (o : GatOp) : State × Option (List Byte) :=
  let a := (va + o.row.length) % 2 ^ 56
  let u := a / 64 * 64
  let held := match o.unit with
    | some (b, bs) => if keep ∧ b = u then some bs else none
    | none => none
  let (s, got) := match held with
    | some bs => (s, some bs)
    | none =>
      match s.gatUnit p u o.entry.addr o.req with
      | (s, some x) =>
        let (s, bs) := s.unpoison p x
        (s.modLast p fun o => { o with unit := if keep then some (u, bs) else o.unit }, some bs)
      | (s, none) => (s, none)
  match got with
  | none => (s, none)
  | some bs =>
    let row := o.row ++ (bs.drop (a % 64)).take (n - o.row.length)
    if row.length < n then (s.modLast p fun o => { o with row := row }, none)
    else (s.modLast p fun o => { o with row := [] }, some row)

/-! ### The walk of a transfer -/

/-- The transfer has made its last read: what is staged, the zeros of a skewed edge and the words of a page list are
written. -/
def finish (s : State) (p : Nat) (x : Xfer) (o : GatOp) : State :=
  let rest := x.count - o.delivered
  let m := if x.mode = 2 then
      let m := x.stageZeros o.staged o.delivered rest
      let words := ((span o.delivered rest).map fun i => (x.stride3 + 4 * i, x.stride2))
        ++ [(x.scale, o.delivered + b2n o.truncated * 2 ^ 31)]
      words.foldl (fun m y => ((toLE 4 y.2).zip (List.range 4)).foldl (fun m z => FMap.put none m (y.1 + z.2) (some z.1)) m) m
    else o.staged
  let s := if x.out then s else s.commit p (x.stageEdges m)
  s.modLast p fun o => { o with phase := .done, staged := [], unit := none }

/-- Go on behind element `j`. -/
def elementDone (s : State) (p : Nat) (x : Xfer) (j : Nat) (o : GatOp) : State :=
  if j + 1 < x.count then s.modLast p fun _ => { o with phase := nextElement x (j + 1) } else s.finish p x o

/-- The index of element `j` has been read (R146). -/
def indexRead (s : State) (p : Nat) (x : Xfer) (j : Nat) (bs : List Byte) (o : GatOp) : State :=
  let o := { o with row := [], unit := ((s.tile p).gat.ops.getLast?).bind (·.unit) }
  let i := signedOf 32 (fromLE bs)
  if 0 ≤ i ∧ i < x.bound then
    s.modLast p fun _ => { o with phase := .rows j 0 (x.base + i.toNat * x.scale) }
  else if x.policy = 2 then
    let s := if x.out then s else s.commit p o.staged
    (s.modGat p fun y => { y with ops := y.ops.dropLast }).haltEngine p 2 rGatherRange o.entry
  else
    let s := s.bump .GAT_OOR_COUNT_COUNT p
    let staged := if x.policy = 0 ∧ !x.out then x.stageZeros o.staged (j * x.perElement) x.perElement else o.staged
    s.elementDone p x j { o with staged := staged }

/-- A row has been read into the staging buffer, or written to memory. -/
def rowDone (s : State) (p : Nat) (x : Xfer) (j rho src : Nat) (o : GatOp) : State :=
  if rho + 1 < x.perElement then s.modLast p fun _ => { o with phase := .rows j (rho + 1) src, offset := 0 }
  else s.elementDone p x j { o with offset := 0 }

/-- Write the next part of a scattered row: the bytes that lie in one line. -/
def scatter (s : State) (p : Nat) (x : Xfer) (j rho src : Nat) (o : GatOp) : State :=
  let (pad, s) := if x.n0 % 2 = 1 ∧ fmtBits x.fmt = 4 then s.free else (0, s)
  let row := s.scatterRow p x (j * x.perElement + rho) pad
  let a := (x.rowAddr src rho + o.offset) % 2 ^ 56
  let n := if 64 - a % 64 < row.length - o.offset then 64 - a % 64 else row.length - o.offset
  if s.xlWaiting (.gather p) (p / 104) (some p) then s
  else match s.translate p (s.missOf p (.gather p) a .store o.entry.addr) with
  | (s, .ok target pa ep) =>
    match s.memWrite p target pa ep ((row.drop o.offset).take n) [(64, o.num)] with
    | (s, false) => s
    | (s, true) =>
      let s := s.bump .GAT_BYTES_WRITTEN_COUNT p n
      if o.offset + n < row.length then s.modLast p fun o => { o with offset := o.offset + n }
      else s.rowDone p x j rho src o
  | (s, _) => s

end State

/-- A page header that breaks R154, for rows of `n` bytes from ROW_OFFSET on. -/
def pageBad (x : Xfer) (w : Nat → Nat) : Bool :=
  let fill := bits (w 1) 15 0
  let cap := bits (w 1) 31 16
  let rb := bits (w 2) 15 0
  bits (w 2) 31 20 != 0 || w 3 != 0 || cap == 0 || decide (cap < fill) || rb % 32 != 0 || decide (rb < 32)
  || bits (w 2) 19 16 != x.fmt || decide (rb < x.stride1 + x.rowBytes)

namespace State

/-- A page entry of the list has been read (R153, R154). -/
def entryRead (s : State) (p : Nat) (x : Xfer) (i page : Nat) (o : GatOp) : State :=
  let o := { o with row := [], unit := ((s.tile p).gat.ops.getLast?).bind (·.unit) }
  if x.count ≤ o.delivered then
    s.modLast p fun _ => { o with phase := .list (i + 1), truncated := o.truncated || page != 0 }
  else if page = 0 then s.modLast p fun _ => { o with phase := .list (i + 1) }
  else if page % 64 ≠ 0 then
    ((s.failAt (s.itemOf p) stPageMalformed).bump .GAT_PAGE_FAIL_COUNT p).modLast p fun _ => { o with phase := .list (i + 1) }
  else s.modLast p fun _ => { o with phase := .header i page }

/-- A page's header has been read: once for the page (R153 to R155). -/
def headerRead (s : State) (p : Nat) (x : Xfer) (i page : Nat) (u : List Byte × Bool) : State :=
  let s := s.bump .GAT_PAGES_COUNT p
  let w := nth 0 (bytesWords 16 u.1)
  if u.2 ∨ pageBad x w then
    let s := s.failAt (s.itemOf p) (if u.2 then stMemPoison else stPageMalformed)
    (s.bump .GAT_PAGE_FAIL_COUNT p).modLast p fun o => { o with phase := .list (i + 1) }
  else if bits (w 1) 15 0 = 0 then s.modLast p fun o => { o with phase := .list (i + 1) }
  else s.modLast p fun o => { o with phase := .token i page 0 (bits (w 1) 15 0) (bits (w 2) 15 0) (w 0) }

/-- A token row has been read: it becomes the next vector, with its page's scale. -/
def tokenRead (s : State) (p : Nat) (x : Xfer) (i page t fill rb scale : Nat) (bs : List Byte) (o : GatOp) : State :=
  let m := x.stageRow o.staged o.delivered bs
  let m := ((toLE 4 scale).zip (List.range 4)).foldl (fun m z => FMap.put none m (x.stride3 + 4 * o.delivered + z.2) (some z.1)) m
  let n := o.delivered + 1
  let last := x.count ≤ n
  s.modLast p fun o => { o with
    staged := m, delivered := n, truncated := o.truncated || (decide last && decide (t + 1 < fill)),
    phase := if last ∨ fill ≤ t + 1 then .list (i + 1) else .token i page (t + 1) fill rb scale }

/-- The transfer that is reading goes on by one access or entry. -/
def gatStep (s : State) (p : Nat) (x : Xfer) (o : GatOp) : State :=
  match o.phase with
  | .done => s
  | .index j =>
    match s.collect p (x.index + 4 * j) 4 true o with
    | (s, some bs) => s.indexRead p x j bs { o with req := none }
    | (s, none) => s
  | .rows j rho src =>
    if x.out then s.scatter p x j rho src o
    else match s.collect p (x.rowAddr src rho) x.rowBytes false o with
      | (s, some bs) => s.rowDone p x j rho src { o with row := [], req := none, staged := x.stageRow o.staged (j * x.perElement + rho) bs }
      | (s, none) => s
  | .list i =>
    if x.bound ≤ i then s.finish p x o
    else match s.collect p (x.base + 8 * i) 8 true o with
      | (s, some bs) => s.entryRead p x i (fromLE bs % 2 ^ 56) { o with req := none }
      | (s, none) => s
  | .header i page =>
    match s.gatUnit p page o.entry.addr o.req with
    | (s, some u) => s.headerRead p x i page u
    | (s, none) => s
  | .token i page t fill rb scale =>
    match s.collect p (page + 64 + t * rb + x.stride1) x.rowBytes false o with
    | (s, some bs) => s.tokenRead p x i page t fill rb scale bs { o with row := [], req := none }
    | (s, none) => s

/-! ### COPY (R283) -/

end State

/-- Two runs of `n` bytes have a byte in common. -/
def runsMeet (a b n : Nat) : Bool := decide (a < b + n) && decide (b < a + n)

namespace State

/-- The bytes that item `i` writes lie where some item of its descriptor reads or writes, or it reads where another
writes: they are then unspecified. -/
def copyOverlaps (d : Desc) (i n : Nat) : Bool :=
  match d.items[i]? with
  | none => false
  | some x => (d.items.zip (List.range d.items.length)).any fun y =>
      runsMeet y.1.src x.dst n || (y.2 != i && (runsMeet y.1.dst x.dst n || runsMeet x.src y.1.dst n))

/-- Eight free words. -/
def freeLine (s : State) : State × List Byte :=
  (List.range 8).foldl (fun (y : State × List Byte) _ =>
    let (w, s) := y.1.free
    (s, y.2 ++ toLE 8 w)) (s, [])

/-- The next 64 bytes of a copy are written. -/
def copyWrite (s : State) (p : Nat) (d : Desc) (i : Nat) (va : Nat) (u : List Byte × Bool) : State :=
  match s.translate p (s.missOf p (.gather p) va .store 0) with
  | (s, .ok target pa ep) =>
    let (s, bs) := if copyOverlaps d i d.itemBytes then s.freeLine else s.unpoison p u
    match s.memWrite p target pa ep bs [(64, 0)] with
    | (s, false) => s
    | (s, true) => ((s.bump .GAT_BYTES_READ_COUNT p 64).bump .GAT_BYTES_WRITTEN_COUNT p 64).modGat p fun y =>
        { y with copied := y.copied + 64, copyReq := none }
  | (s, _) => s

/-- A COPY item goes on by 64 bytes. -/
def copyStep (s : State) (p : Nat) : State :=
  match (s.itemOf p).bind fun it => (s.desc? it.1 it.2.1).map fun d => (d, it.2.2) with
  | none => s
  | some (d, i) =>
    let it := d.items[i]?
    let src := (it.map (·.src)).getD 0
    let dst := (it.map (·.dst)).getD 0
    let c := (s.tile p).gat.copied
    if d.itemBytes ≤ c ∨ s.xlWaiting (.gather p) (p / 104) (some p) then s
    else match (s.tile p).gat.copyReq with
    | some id =>
      match s.reqDone id with
      | none => s
      | some (bs, poison) => s.copyWrite p d i ((dst + c) % 2 ^ 56) (fit 64 bs, poison)
    | none =>
      match s.translate p (s.missOf p (.gather p) ((src + c) % 2 ^ 56) .read 0) with
      | (s, .ok target pa ep) =>
        match s.memRead p target pa ep 64 (.gather p) with
        | (s, .data bs poison) => s.copyWrite p d i ((dst + c) % 2 ^ 56) (bs, poison)
        | (s, .wait) => s
        | (s, .req id) => s.modGat p fun y => { y with copyReq := some id }
      | (s, _) => s

/-- GATHER_READ_RETURN: the tile's transfer, or its copy, goes on; `stall` are the PCLK cycles of a fault stall before
(R151). Work begun goes on while the tile is halted.
DESIGN CHOICE: notes/assumptions/23.md; DEDUCED: notes/assumptions/42.md. -/
def gatherReturn (s : State) (p stall : Nat) : State :=
  let t := s.tile p
  let copy := t.seq.run == .lead && (t.seq.kernel.map (·.job.copy)).getD false
  match t.gat.ops.getLast? with
  | some o =>
    match o.xfer with
    | some x => if o.phase = .done then s else (s.bump .GAT_FAULT_STALL_CYCLES_COUNT p stall).gatStep p x o
    | none => s
  | none => if copy then (s.bump .GAT_FAULT_STALL_CYCLES_COUNT p stall).copyStep p else s

end State

/-! ### Meanings -/

/-- GXFER (R142). -/
def execGxfer (p : Nat) (s : State) : Out := .next (s.gxfer p)
/-- GFILL (R141). -/
def execGfill (p : Nat) (s : State) : Out := .next (s.gfill p)
/-- GNOP (R176). -/
def execGnop (p : Nat) (s : State) : Out := .next (s.gnop p)
/-- GATHER_READ_RETURN (R149, R151). -/
def execGatherReadReturn (p stall : Nat) (s : State) : Out := .next (s.gatherReturn p stall)

end Sys2Proof.Machine
end

