-- ==== Sys2Proof/Machine/Sync.lean ====
section
/-!
DEFINITION. The sync engine, semaphores, barriers and fences (08_ordering_and_synchronisation.md, R206 to R219; 07, R178
to R180), the completion of engine instructions (R34) and the stall limit (R35).
-/
namespace Sys2Proof.Machine

namespace State

/-! ### Semaphores (R206, R207) -/

/-- A semaphore wait of the tile is unsatisfied (SYN_WAIT_CYCLES). -/
def semWaiting (s : State) (p : Nat) : Bool :=
  let t := s.tile p
  (List.range 4).any (fun k => !(t.queue k).granted && (s.head p k).any fun e => e.wait.isSome)
  || (List.range 4).any (fun k => (t.syn.waits.get none k).isSome)
  || t.resident.any fun g => (t.group? g).any fun x => match x.wait with
      | .sem _ => true
      | _ => false

/-- Grant the waits that hold, in the order of R207: engines, streams, groups. -/
def grantWaits (s : State) (p : Nat) : State :=
  if !(s.tile p).live then s
  else
    let s := s.forEach (List.range 4) fun s k =>
      match s.head p k with
      | some e => if ((s.tile p).queue k).granted then s
        else match e.wait.bind (s.tryGrant p ·) with
          | some s => s.modQueue p k fun q => { q with granted := true }
          | none => s
      | none => s
    let s := s.forEach (List.range 4) fun s k =>
      match ((s.tile p).syn.waits.get none k).bind (s.tryGrant p ·) with
      | some s => s.grantStream p k
      | none => s
    s.forEach (s.tile p).resident fun s g =>
      match (s.tile p).group? g with
      | some x => match x.wait with
        | .sem w => match s.tryGrant p w with
          | some s => s.wake p g
          | none => s
        | _ => s
      | none => s

/-- SEMAPHORE_SIGNAL: the oldest signal under way is added, with saturation, and the waits are evaluated. `wait` counts
the NCLK cycles before it in which a wait was unsatisfied. -/
def semaphoreSignal (s : State) (p wait : Nat) : State :=
  match (s.tile p).syn.signals with
  | [] => s
  | (k, n) :: rest =>
    let s := s.when (s.semWaiting p) (·.bump .SYN_WAIT_CYCLES_COUNT p wait)
    let v := s.sem p k + n
    let s := s.modSyn p fun y => { y with signals := rest, sems := y.sems.put 0 k (satAt 65535 v) }
    let s := s.when (decide (65535 < v)) fun s => (s.bump .SYN_SEM_SATURATE_COUNT p).setFlag .SYN_STATUS_SEM_SATURATED p true
    s.grantWaits p

/-! ### SYN instructions (R178 to R180, R201, R211, R218) -/

/-- Begin the head of SYNQ when it has the opcode asked for and no SYN instruction is in progress. -/
def beginSyn (s : State) (p op : Nat) (body : State → Entry → State) : State :=
  if (s.tile p).syn.cur.isSome then s else s.beginHead p 3 op body

/-- A SYN instruction has begun. -/
def synBegun (s : State) (p : Nat) (e : Entry) (w : SynWork) : State :=
  (s.dequeue p 3).modSyn p fun y => { y with cur := some (e, w) }

/-- The store is not one of a gather instruction in progress (R201). -/
def settledStore (s : State) (p : Nat) (who : List (Nat × Nat)) : Bool :=
  who.any fun y => y.1 != 64 || !((s.tile p).gat.ops.any fun o => o.num == y.2)

/-- The stores that a YMEMBAR of a scope covers and still waits for (R201). -/
def covered (s : State) (p scope : Nat) : List Nat :=
  if scope = 3 then s.owned fun o => match o with
    | .store q who => q == p && s.settledStore p who
    | _ => false
  else []

/-- YNOP. -/
def ynop (s : State) (p : Nat) : State := s.beginSyn p 1 fun s e => s.synBegun p e .done

/-- YSET writes its value when it begins. -/
def yset (s : State) (p : Nat) : State :=
  s.beginSyn p 2 fun s e =>
    ((s.synBegun p e .done).modSyn p fun y => { y with sems := y.sems.put 0 (e.f 1 4 0) (e.f 1 31 16) }).grantWaits p

/-- YBAR begins; a SYSTEM barrier whose tile has already lost a covered store to a dead destination carries that error
(R216). DEDUCED: notes/assumptions/51.md. -/
def ybar (s : State) (p : Nat) : State :=
  s.beginSyn p 3 fun s e =>
    let scope := e.f 1 1 0
    let count := e.reg (e.f 1 8 5) % 2 ^ 32
    if 2 ≤ scope ∧ count = 0 then s.haltEngine p 3 rSynInconsistent e
    else
      let dead := (s.tile p).syn.dead.find? fun y => scope == 3 && s.settledStore p y.2
      let ids := s.covered p scope
      let s := s.synBegun p e (.bar scope (e.f 1 4 2) count ids false none dead.isSome)
      match dead with
      | some y => s.ctxDestDead (s.ctxOf p) y.1
      | none => s

/-- YMEMBAR. -/
def ymembar (s : State) (p : Nat) : State :=
  s.beginSyn p 4 fun s e => s.synBegun p e (.membar (s.covered p (e.f 1 1 0)))

/-- YFSIGNAL: a SYSTEM release, then its signal. -/
def yfsignal (s : State) (p : Nat) : State :=
  s.beginSyn p 5 fun s e =>
    s.synBegun p e (.fsignal (e.reg (e.f 1 3 0) % 65536) (e.reg (e.f 1 7 4) % 2 ^ 64) (s.covered p 3))

/-- YFWAIT. -/
def yfwait (s : State) (p : Nat) : State :=
  s.beginSyn p 6 fun s e => s.synBegun p e (.fwait (e.reg (e.f 1 3 0) % 65536) (e.reg (e.f 1 7 4) % 2 ^ 64))

/-- A read of YPOLL's word has returned: the poll ends where COND holds, on an eyespot, which fails the item, or where the
read failed or met no memory (R179, R225, R342). DEDUCED: notes/assumptions/51.md. -/
def pollDone (s : State) (p : Nat) (e : Entry) (va value cond : Nat) (bs : List Byte) (poison failed : Bool) : State :=
  let holds := poison || failed || pollHolds cond (fromLE bs) value
  let s := if poison then s.failAt (s.itemOf p) stMemPoison else s
  s.modSyn p fun y => { y with cur := some (e, .poll va value cond holds none) }

/-- YPOLL reads its word, or takes the read that has returned. -/
def pollRead (s : State) (p : Nat) : State :=
  match (s.tile p).syn.cur with
  | some (e, .poll va value cond false req) =>
    match req with
    | some id =>
      match s.reqDone id with
      | some (bs, poison) => (s.dropReq id).pollDone p e va value cond bs poison (s.reqFailed id)
      | none => s
    | none =>
      if s.xlWaiting (.sync p) (p / 104) (some p) then s
      else match s.translate p (s.missOf p (.sync p) va .read e.addr) with
      | (s, .ok target pa ep) =>
        match s.memRead p target pa ep 8 (.sync p) with
        | (s, .data bs poison) => s.pollDone p e va value cond bs poison (s.cellOf pa).isNone
        | (s, .req id) => s.modSyn p fun y => { y with cur := some (e, .poll va value cond false (some id)) }
        | (s, .wait) => s
      | (s, _) => s
  | _ => s

/-- YPOLL begins with its first read. DESIGN CHOICE: notes/assumptions/23.md; DEDUCED: notes/assumptions/51.md. -/
def ypoll (s : State) (p : Nat) : State :=
  s.beginSyn p 7 fun s e =>
    let va := e.qAddr (e.f 1 8 0)
    if va % 8 ≠ 0 then s.haltEngine p 3 rMemAlign e
    else if e.f 1 14 13 = 3 then s.haltEngine p 3 rSynInconsistent e
    else (s.synBegun p e (.poll va (e.reg (e.f 1 12 9) % 2 ^ 64) (e.f 1 14 13) false none)).pollRead p

/-- The SYN instruction in progress can complete. -/
def synDone (s : State) (p : Nat) : SynWork → Bool
  | .done => true
  | .bar .. => false
  | .membar ids | .fsignal _ _ ids => (s.outstanding ids).isEmpty
  | .fwait slot value => decide (value ≤ s.fences.get 0 slot)
  | .poll _ _ _ holds _ => holds

/-- The SYN instruction in progress completes and raises its signal; a YFSIGNAL sends its fence signal (R218). -/
def synComplete (s : State) (p : Nat) : State :=
  match (s.tile p).syn.cur with
  | none => s
  | some (e, w) =>
    if !s.synDone p w then s
    else
      let s := match w with
        | .fsignal slot value _ => { s with fenceQueue := s.fenceQueue ++ [(⟨slot, value, 0, s.logicalOf p, none⟩ : FenceSig)] }
        | _ => s
      (s.modSyn p fun y => { y with cur := none }).raiseEntry p e

/-- ENGINE_INSTRUCTION_COMPLETE (R34). -/
def engineComplete (s : State) (p : Nat) (k : StreamId) (t : MatTime) : State :=
  match k with
  | .thr => (s.settle p).thrComplete p
  | .mat => s.matComplete p t
  | .gat => s.gatComplete p
  | .syn => s.synComplete p

/-! ### Barriers (R211 to R216) -/

/-- The root of a tile's barrier: TILE at the tile, GANG at the lead, PART and SYSTEM at the context. -/
def rootOf (s : State) (p scope slot : Nat) : Nat :=
  rootKey scope (if scope = 0 then p else if scope = 1 then s.leadOf p else (s.ctxOf p).getD 0) slot

/-- A root publishes the completion of a generation to its participants. -/
def publish (s : State) (key scope slot : Nat) (who : List Nat) (code : Nat) : State :=
  let fresh : BarRoot := ⟨!(s.roots.get .reset key).sense, [], 0, 0⟩
  let s := { s with roots := s.roots.put .reset key fresh }
  s.forEach who fun s p =>
    match (s.tile p).syn.cur with
    | some (e, .bar sc sl count ids true none dead) =>
      if sc = scope ∧ sl = slot ∧ s.rootOf p sc sl = key then
        s.modSyn p fun y => { y with cur := some (e, .bar sc sl count ids true (some code) dead) }
      else s
    | _ => s

/-- BARRIER_ARRIVAL: a tile whose covered stores are settled arrives; the root counts the arrival, and at the count of the
generation's first arrival completes it (R211 to R213). -/
def barrierArrival (s : State) (p : Nat) : State :=
  match (s.tile p).syn.cur with
  | some (e, .bar scope slot count ids false none dead) =>
    if s.outstanding ids ≠ [] then s
    else
      let key := s.rootOf p scope slot
      let r := s.roots.get .reset key
      let s := s.modSyn p fun y => { y with cur := some (e, .bar scope slot count ids true none dead) }
      if bit (s.tile p).syn.sense (8 * scope + slot) = r.sense then s
      else
        let want := if scope = 0 then 1 else if scope = 1 then (s.tile p).gangSize else if r.arrived = [] then count else r.count
        let code := if r.error ≠ 0 then r.error
          else if dead then stDestDead
          else if 2 ≤ scope ∧ count ≠ want then stSyncMismatch else 0
        let who := r.arrived ++ [p]
        if who.length = want then s.publish key scope slot who code
        else { s with roots := s.roots.put .reset key ⟨r.sense, who, want, code⟩ }
  | _ => s

/-- BARRIER_PUBLICATION_RECEIVE: a participant sees the published sense. Its YBAR completes and its own sense is inverted;
an error flag is recorded and fails its item (R212, R215). Or a BARB's groups go on. -/
def publicationReceive (s : State) (p : Nat) : BarrierKind → State
  | .barb b => s.barbReceive p b
  | .ybar =>
    match (s.tile p).syn.cur with
    | some (e, .bar scope slot _ _ true (some code) _) =>
      let flip := fun (x : Nat) => if bit x (8 * scope + slot) then clearBit x (8 * scope + slot) else setBit x (8 * scope + slot)
      let s := (s.modSyn p fun y => { y with cur := some (e, .done), sense := flip y.sense }).bump .SYN_BARRIERS_COUNT p
      if code = 0 then s
      else ((s.setFlag .SYN_STATUS_BAR_ERROR p true).bump .SYN_BAR_ERRORS_COUNT p).failAt (s.itemOf p) code
    | _ => s

/-- The PART and SYSTEM generations of an aborted context are discarded and their roots reset (R212). -/
def resetRoots (s : State) (ctx : Nat) : State :=
  s.forEach (List.range 8) fun s k =>
    { s with roots := (s.roots.put .reset (rootKey 2 ctx k) .reset).put .reset (rootKey 3 ctx k) .reset }

/-! ### Fences (R217 to R219) -/

/-- One signal reaches a slot: it raises the slot's value, or is a regression, which is counted and, where asked for,
recorded. A host's store is then answered. -/
def applyFence (s : State) (x : FenceSig) : State :=
  let v := s.fences.get 0 x.slot
  let s := if v < x.value then
      { s with fences := s.fences.put 0 x.slot x.value }.bump .FEN_SIGNALS_COUNT
    else
      (s.bump .FEN_REGRESS_COUNT).when (s.flag .FEN_SETUP_LOG_REGRESS) fun s =>
        s.errRec 2 none [x.slot + x.source * 2 ^ 16, x.unit, v % 2 ^ 32, v / 2 ^ 32, x.value % 2 ^ 32, x.value / 2 ^ 32]
  match x.reply with
  | some (port, tag) => s.sendMsg port .rsp (Msg.header 0x20 tag 0)
  | none => s

end State

/-- Insert a signal before those of greater value. -/
def insertSig (x : FenceSig) : List FenceSig → List FenceSig
  | [] => [x]
  | y :: l => if x.value < y.value then x :: y :: l else y :: insertSig x l

namespace State

/-- FENCE_SIGNAL: the `n` oldest signals reach the fence unit in one ICLK cycle and are applied in ascending order of
value (R217). DEDUCED: notes/assumptions/51.md. -/
def fenceSignal (s : State) (n : Nat) : State :=
  let now := (s.fenceQueue.take n).foldl (fun l x => insertSig x l) []
  ({ s with fenceQueue := s.fenceQueue.drop n }).forEach now applyFence

/-- FENCE_WAIT_SATISFIED: a YFWAIT or a descriptor sees that its fence has reached its value (R219, R298). -/
def fenceSatisfied (s : State) : FenceWaiter → State
  | .tile p =>
    match (s.tile p).syn.cur with
    | some (e, .fwait slot value) =>
      if value ≤ s.fences.get 0 slot then s.modSyn p fun y => { y with cur := some (e, .done) } else s
    | _ => s
  | .descriptor q n =>
    match s.desc? q n with
    | some d => if d.waitEn && !d.malformed && !d.poisoned && decide (d.q64 4 ≤ s.fences.get 0 (bits (d.w 2) 15 0)) then
        s.modDesc q n fun d => { d with waitDone := true } else s
    | none => s

/-! ### The stall limit (R35) -/

/-- A requester stands stalled on a translation fault. -/
def xlFault (s : State) (who : Requester) (d : Nat) : Bool :=
  (s.die d).faultQueue.any (·.1.who == who) || (s.die d).entries.any (fun e => e.2.any (·.miss.who == who))

/-- The entry of the instruction for which an engine waits, where it waits in a way that the limit counts. -/
def engineWaits (s : State) (p : Nat) (k : StreamId) : Option Entry :=
  let t := s.tile p
  let cur := match k with
    | .syn => match t.syn.cur with
      | some (e, .bar ..) | some (e, .membar _) | some (e, .fsignal ..) | some (e, .fwait ..) | some (e, .poll ..) => some e
      | _ => none
    | .gat => if s.xlFault (.gather p) (p / 104) then (t.gat.ops.getLast?).map (·.entry) else none
    | _ => none
  match cur with
  | some e => some e
  | none => (s.head p k.num).filter fun (e : Entry) => !(t.queue k.num).granted && e.wait.any fun (w : SemWait) => decide (s.sem p w.sem < w.count)

/-- STREAM_STALL_LIMIT: a wait has lasted `cycles` QCLK cycles. -/
def stallLimit (s : State) (p : Nat) (w : Waiter) (cycles : Nat) : State :=
  let t := s.tile p
  let n := s.f .SEQ_SETUP_STALL_LIMIT_LOG2 p
  if n = 0 ∨ cycles < 2 ^ n ∨ !t.live ∨ t.resident.any (fun g => (t.group? g).any (·.dbgHalted)) then s
  else match w with
    | .stream k =>
      if t.seq.run == .lead && !(t.slot k.num).ended && ((t.slot k.num).stall != .none || s.xlFault (.stream p k) (p / 104)) then
        s.haltStream p k.num rStallLimit
      else s
    | .engine k =>
      match s.engineWaits p k with
      | some e => s.haltEngine p k.num rStallLimit e
      | none => s
    | .group g => if s.xlFault (.group p g) (p / 104) then s.haltGroup p g rStallLimit else s

end State

/-! ### Meanings -/

/-- YNOP (R178). -/
def execYnop (p : Nat) (s : State) : Out := .next (s.ynop p)

/-- YSET (R206). -/
def execYset (p : Nat) (s : State) : Out := .next (s.yset p)

/-- YBAR (R211). -/
def execYbar (p : Nat) (s : State) : Out := .next (s.ybar p)

/-- YMEMBAR (R201). -/
def execYmembar (p : Nat) (s : State) : Out := .next (s.ymembar p)

/-- YFSIGNAL (R218). -/
def execYfsignal (p : Nat) (s : State) : Out := .next (s.yfsignal p)

/-- YFWAIT (R218). -/
def execYfwait (p : Nat) (s : State) : Out := .next (s.yfwait p)

/-- YPOLL (R179). -/
def execYpoll (p : Nat) (s : State) : Out := .next (s.ypoll p)

/-- YPOLL_REREAD (R179). -/
def execYpollReread (p : Nat) (s : State) : Out := .next (if (s.tile p).live then s.pollRead p else s)

/-- SEMAPHORE_SIGNAL (R207). -/
def execSemaphoreSignal (p wait : Nat) (s : State) : Out := .next (s.semaphoreSignal p wait)

/-- BARRIER_ARRIVAL (R211). -/
def execBarrierArrival (p : Nat) (s : State) : Out := .next (s.barrierArrival p)

/-- BARRIER_PUBLICATION_RECEIVE (R212). -/
def execBarrierPublicationReceive (p : Nat) (k : BarrierKind) (s : State) : Out := .next (s.publicationReceive p k)

/-- FENCE_SIGNAL (R217). -/
def execFenceSignal (n : Nat) (s : State) : Out := .next (s.fenceSignal n)

/-- FENCE_WAIT_SATISFIED (R219). -/
def execFenceWaitSatisfied (w : FenceWaiter) (s : State) : Out := .next (s.fenceSatisfied w)

/-- ENGINE_INSTRUCTION_COMPLETE (R34). -/
def execEngineInstructionComplete (p : Nat) (e : StreamId) (t : MatTime) (s : State) : Out := .next (s.engineComplete p e t)

/-- STREAM_STALL_LIMIT (R35). -/
def execStreamStallLimit (p : Nat) (w : Waiter) (cycles : Nat) (s : State) : Out := .next (s.stallLimit p w cycles)

end Sys2Proof.Machine
end

