-- ==== Sys2Proof/Machine/Codec.lean ====
section
/-!
DEFINITION. The codec engines (06_scratchpad_and_gather.md, R156 to R160; 11, R284): frames, and the item at the front of
an engine.
-/
namespace Sys2Proof.Machine

/-! ### Blocks (R158) -/

/-- The values of a block: nibbles, the low one of a byte first, or bytes. -/
def codecValues (width : Nat) (bs : List Byte) : List Nat :=
  if width = 4 then bs.flatMap fun b => [b.toNat % 16, b.toNat / 16] else bs.map (·.toNat)

/-- Nibbles as bytes, the low one of a byte first. -/
def nibbleBytes : List Nat → List Byte
  | [] => []
  | [v] => [BitVec.ofNat 8 v]
  | v :: w :: vs => BitVec.ofNat 8 (v + 16 * w) :: nibbleBytes vs

/-- The bytes of values. -/
def codecBytes (width : Nat) (vs : List Nat) : List Byte :=
  if width = 4 then nibbleBytes vs else vs.map (BitVec.ofNat 8)

/-- The fewest bits that hold a number. -/
def bitsFor (n : Nat) : Nat := if n = 0 then 0 else Nat.log2 n + 1

/-- Values as `k`-bit fields, the first in the lowest bits. -/
def packFields (k : Nat) : List Nat → Nat
  | [] => 0
  | v :: vs => v + 2 ^ k * packFields k vs

/-- A value with the format's top bit inverted where `f` is set. -/
def codecFlip (width : Nat) (f : Bool) (v : Nat) : Nat := if f then v ^^^ 2 ^ (width - 1) else v

/-- Base and field width of a block under a flip. -/
def codecFit (width : Nat) (f : Bool) (vs : List Nat) : Nat × Nat :=
  let ws := vs.map (codecFlip width f)
  let b := ws.foldl Nat.min (2 ^ width)
  (b, bitsFor (ws.foldl Nat.max 0 - b))

/-- A coded block. -/
def codeBlock (width : Nat) (bs : List Byte) : List Byte :=
  let vs := codecValues width bs
  let f := decide ((codecFit width true vs).2 < (codecFit width false vs).2)
  let (b, k) := codecFit width f vs
  let tag := if width = 4 then toLE 1 (b + k * 2 ^ 4 + b2n f * 2 ^ 7) else toLE 2 (b + k * 2 ^ 8 + b2n f * 2 ^ 12)
  tag ++ toLE (vs.length * k / 8) (packFields k (vs.map fun v => codecFlip width f v - b))

/-- The blocks of `n` × 64 bytes. -/
def codeBlocks (width : Nat) : Nat → List Byte → List Byte
  | 0, _ => []
  | n + 1, bs => codeBlock width (bs.take 64) ++ codeBlocks width n (bs.drop 64)

/-- A coded block at the front of a list: its bytes and the rest; none where R159 finds it corrupt. -/
def decodeBlock (width : Nat) (bs : List Byte) : Option (List Byte × List Byte) :=
  let t := if width = 4 then 1 else 2
  let x := fromLE (bs.take t)
  let b := if width = 4 then bits x 3 0 else bits x 7 0
  let k := if width = 4 then bits x 6 4 else bits x 11 8
  let f := if width = 4 then bit x 7 else bit x 12
  let n := 512 / width
  let body := n * k / 8
  let fields := fromLE ((bs.drop t).take body)
  let vs := (List.range n).map fun i => b + fields / 2 ^ (k * i) % 2 ^ k
  if bs.length < t + body ∨ width < k ∨ (width = 8 ∧ bits x 15 13 ≠ 0) ∨ vs.any (fun v => decide (2 ^ width ≤ v)) then none
  else some (codecBytes width (vs.map (codecFlip width f)), bs.drop (t + body))

/-- `n` coded blocks that end with the list. -/
def decodeBlocks (width : Nat) : Nat → List Byte → Option (List Byte)
  | 0, bs => if bs = [] then some [] else none
  | n + 1, bs =>
    match decodeBlock width bs with
    | some (out, rest) => (decodeBlocks width n rest).map (out ++ ·)
    | none => none

/-! ### Frames (R157, R159) -/

/-- A frame of `bs` with the tag words given. -/
def codeFrame (width : Nat) (bs : List Byte) (tag : List Nat) : List Byte :=
  let body := codeBlocks width (bs.length / 64) bs
  wordBytes ([0xDC01 + 2 ^ 16 + width * 2 ^ 20, bs.length, body.length % 2 ^ 32, body.length / 2 ^ 32, crc32c bs, 0, 0, 0]
    ++ fitW 4 tag ++ [0, 0, 0, 0]) ++ body

/-- Original length and coded length of a frame's header; none where the header is wrong. -/
def frameHeader (bs : List Byte) : Option (Nat × Nat × Nat × Nat) :=
  let ws := bytesWords 16 bs
  let w := fun k => nth 0 ws k
  let width := bits (w 0) 23 20
  if bits (w 0) 15 0 ≠ 0xDC01 ∨ bits (w 0) 19 16 ≠ 1 ∨ (width ≠ 4 ∧ width ≠ 8) ∨ bits (w 0) 31 24 ≠ 0
      ∨ [5, 6, 7, 12, 13, 14, 15].any (fun k => w k != 0) ∨ w 1 % 64 ≠ 0 then none
  else some (width, w 1, w 2 + 2 ^ 32 * w 3, w 4)

/-! ### Accesses of a codec engine (R156, R244) -/

/-- The runs of bytes of [va, va + n) within 64-byte lines, at most `k` of them. -/
def lineRuns : Nat → Nat → Nat → List (Nat × Nat)
  | 0, _, _ => []
  | k + 1, va, n => if n = 0 then [] else
    let m := Nat.min n (64 - va % 64)
    (va, m) :: lineRuns k ((va + m) % 2 ^ 64) (n - m)

/-- All runs. -/
def runsOf (va n : Nat) : List (Nat × Nat) := lineRuns (n / 64 + 2) va n

namespace State

/-- Read runs of a context's virtual memory; none where a read waits. -/
def vReadRuns (who : Requester) (d ctx : Nat) (hs : HostMem) : List (Nat × Nat) → State → State × Option (List Byte × Nat × Bool)
  | [], s => (s, some ([], 0, false))
  | (va, n) :: rest, s =>
    match s.vRead who d ctx va n hs with
    | (s, .wait) => (s, none)
    | (s, .got bs code poison) =>
      match vReadRuns who d ctx hs rest s with
      | (s, some (more, c, p)) => (s, some (bs ++ more, if code = 0 then c else code, poison || p))
      | (s, none) => (s, none)

/-- Write runs; false where a write waits. An unmapped address gives its code. -/
def vWriteRuns (who : Requester) (d ctx : Nat) (hs : HostMem) (it : Nat × Nat × Nat) :
    List (Nat × Nat) → List Byte → State → State × Bool
  | [], _, s => (s, true)
  | (va, n) :: rest, bs, s =>
    match s.vWrite who d ctx va (bs.take n) hs (.item it.1 it.2.1 it.2.2) (some it) with
    | (s, false, _) => (s, false)
    | (s, true, a) =>
      let s := if a then s.failAt (some it) stMemAbsent else s
      vWriteRuns who d ctx hs it rest (bs.drop n) s

/-- `n` free bytes. -/
def freeBytes : Nat → State → State × List Byte
  | 0, s => (s, [])
  | n + 1, s =>
    let (x, s) := s.free
    let (s, bs) := freeBytes n s
    (s, BitVec.ofNat 8 x :: bs)

/-- A destination whose content is not defined (R159, R255, R266): each line of it in part memory is left or holds free
bytes. Lines elsewhere are not the model's. DEDUCED: notes/assumptions/55.md. -/
def spoil (s : State) (d ctx va n : Nat) : State :=
  s.forEach (runsOf va n) fun s r =>
    match s.walk d [] ctx r.1 .store with
    | (s, .ok x) =>
      if x.target = 0 then
        let (c, s) := s.choose
        let (s, bs) := freeBytes r.2 s
        if c then (s.physWrite (some d) (x.pa + r.1 % 2 ^ x.bits) bs).1 else s
      else s
    | (s, .error _) => s

/-! ### Items (R284) -/

/-- The codec's item ends once its stores have settled. -/
def codecEnd (s : State) (d q n i : Nat) : State :=
  let s := s.modDie d fun x => { x with codec := x.codec.drop 1 }
  s.drainItem q n i (s.owned fun o => o == .item q n i)

/-- Write a coded or decoded result, then end the item. -/
def codecWrite (s : State) (d ctx q n i dst : Nat) (bs : List Byte) (hs : HostMem) : State :=
  match vWriteRuns (.codec d) d ctx hs (q, n, i) (runsOf dst bs.length) bs s with
  | (s, true) => s.codecEnd d q n i
  | (s, false) => s

/-- A failure met before or while a frame is coded. -/
def codecFail (s : State) (d q n i code : Nat) : State := (s.failItem q n i code).codecEnd d q n i

/-- Compress `len` bytes at `src`. -/
def codecCompress (s : State) (d ctx q n i src dst len cap width : Nat) (tag : List Nat) (hs : HostMem) : State :=
  if len % 64 ≠ 0 ∨ len < 64 ∨ 2 ^ 32 - 64 < len then s.codecFail d q n i stCodecCorrupt
  else if cap < 64 + 66 * (len / 64) then s.codecFail d q n i stCodecOverflow
  else match vReadRuns (.codec d) d ctx hs (runsOf src len) s with
  | (s, none) => s
  | (s, some (bs, code, poison)) =>
    if poison then (s.spoil d ctx dst (64 + 66 * (len / 64))).codecFail d q n i stMemPoison
    else
      let s := if code = 0 then s else s.failItem q n i code
      s.codecWrite d ctx q n i dst (codeFrame width bs tag) hs

/-- Decompress the frame at `src`, of which `len` bytes are available. -/
def codecDecompress (s : State) (d ctx q n i src dst len cap : Nat) (hs : HostMem) : State :=
  if len < 64 then s.codecFail d q n i stCodecCorrupt
  else match vReadRuns (.codec d) d ctx hs (runsOf src 64) s with
  | (s, none) => s
  | (s, some (hd, code, poison)) =>
    if poison then s.codecFail d q n i stMemPoison
    else
      let s := if code = 0 then s else s.failItem q n i code
      match frameHeader hd with
      | none => s.codecFail d q n i stCodecCorrupt
      | some (width, orig, coded, crc) =>
        if cap < orig then s.codecFail d q n i stCodecOverflow
        else if len < 64 + coded then s.codecFail d q n i stCodecCorrupt
        else match vReadRuns (.codec d) d ctx hs (runsOf ((src + 64) % 2 ^ 64) coded) s with
        | (s, none) => s
        | (s, some (bs, code, poison)) =>
          if poison then (s.spoil d ctx dst orig).codecFail d q n i stMemPoison
          else
            let s := if code = 0 then s else s.failItem q n i code
            match decodeBlocks width (orig / 64) bs with
            | some out =>
              if crc32c out = crc then s.codecWrite d ctx q n i dst out hs
              else (s.spoil d ctx dst orig).codecFail d q n i stCodecCorrupt
            | none => (s.spoil d ctx dst orig).codecFail d q n i stCodecCorrupt

/-- The item that a die's codec engine takes: descriptor, item, the words of its entry. -/
def codecItem (s : State) (d : Nat) : Option (Desc × Nat × List Nat) :=
  match (s.die d).codec with
  | [] => none
  | (q, n, i) :: _ => (s.desc? q n).map fun x => (x, i, ((x.items[i]?).map (·.entry)).getD [])

/-- CODEC_FRAME_COMPLETE: the item at the front of a die's codec engine has its frame coded and written, or fails; a fault
of one of its accesses leaves it in front, to be replayed. DEDUCED: notes/assumptions/55.md. -/
def codecFrame (s : State) (d : Nat) (hs : HostMem) : State :=
  match s.codecItem d with
  | none => s
  | some (x, i, ws) =>
    let q := fun k => nth 0 ws k + 2 ^ 32 * nth 0 ws (k + 1)
    let s := s.modDesc x.q x.n fun y => y.modItem i fun it => { it with stage := .running }
    if x.opcode = 3 then
      s.codecCompress d x.ctx x.q x.n i (q 0) (q 2) (q 4) (q 6) (bits (x.w 13) 11 8) ((ws.drop 8).take 4) hs
    else s.codecDecompress d x.ctx x.q x.n i (q 0) (q 2) (q 4) (q 6) hs

end State

/-! ### Meanings -/

/-- COMPRESS (R284). -/
def execCompress (q n : Nat) (hs : HostMem) (s : State) : Out := .next (s.codecStart 3 q n hs)

/-- DECOMPRESS (R284). -/
def execDecompress (q n : Nat) (hs : HostMem) (s : State) : Out := .next (s.codecStart 4 q n hs)

/-- CODEC_FRAME_COMPLETE (R156, R284). -/
def execCodecFrameComplete (d : Nat) (hs : HostMem) (s : State) : Out := .next (s.codecFrame d hs)

end Sys2Proof.Machine
end

