-- ==== Sys2Proof/Machine/Faults.lean ====
section
/-!
DEFINITION. Walks that end, the fault ring and its responses, invalidations (10_translation_and_faults.md, R249 to R260),
and the abort of a context (11, R266).
-/
namespace Sys2Proof.Machine

namespace State

/-! ### Walks (R248, R249) -/

/-- A miss whose walk has ended: its translation fills its tile's cache, or its fault waits for an entry. -/
def walkEnd (s : State) (hs : HostMem) (m : Miss) : State :=
  match tileOf m.who with
  | none => s
  | some p =>
    if !(s.tile p).sent.contains m then s
    else
      let done := fun (s : State) => s.modTile p fun t => { t with sent := t.sent.erase m }
      match s.walk m.die hs m.ctx m.va m.acc with
      | (s, .ok e) => ((done s).fillTile p e).settle p
      | (s, .error f) => if f = walkWait then s.modDie m.die fun x => { x with queued := x.queued ++ [m] }
        else (done s).raiseFault m f

/-- WALK_COMPLETE: walk `k` of a die ends, for its miss and for those that have joined it; a queued miss then starts its
own. A walk that must wait for a line of part memory has not ended. -/
def walkComplete (s : State) (d k : Nat) (hs : HostMem) : State :=
  match (s.die d).walks[k]? with
  | none => s
  | some m =>
    let first := s.walk m.die hs m.ctx m.va m.acc
    if (match first.2 with
        | .error f => f == walkWait
        | .ok _ => false) then first.1
    else
    let joins := fun (w : Miss) => w.ctx == m.ctx && w.va / 65536 == m.va / 65536
    let all := m :: (s.die d).queued.filter joins
    let s := s.modDie d fun x => { x with walks := x.walks.eraseIdx k, queued := x.queued.filter fun w => !joins w }
    (s.forEach all (·.walkEnd hs)).startWalk d

/-! ### The fault ring (R251, R252) -/

/-- The entries of all dies with no record yet, as (order, die, index, entry). -/
def unreported (s : State) : List (Nat × Nat × Nat × FaultEntry) :=
  (List.range 8).flatMap fun d => (s.die d).entries.filterMap fun x =>
    match x.2 with
    | some e => if e.seq.isNone then some (e.order, d, x.1, e) else none
    | none => none

/-- The oldest of them. -/
def nextReport (s : State) : Option (Nat × Nat × Nat × FaultEntry) :=
  s.unreported.foldl (fun b x => match b with
    | some y => if x.1 < y.1 then some x else b
    | none => some x) none

/-- REQUESTER and word 2 of a fault record. -/
def requesterWord (s : State) (d : Nat) : Requester → Nat
  | .group p g => 0 + s.logicalOf p * 2 ^ 3 + g * 2 ^ 13 + d * 2 ^ 21
  | .stream p k => 1 + s.logicalOf p * 2 ^ 3 + k.num * 2 ^ 19 + d * 2 ^ 21
  | .gather p => 2 + s.logicalOf p * 2 ^ 3 + d * 2 ^ 21
  | .sync p => 3 + s.logicalOf p * 2 ^ 3 + d * 2 ^ 21
  | .codec _ => 4 + d * 2 ^ 21
  | .cp _ _ _ => 5 + d * 2 ^ 21

/-- Code of an access in a fault record. -/
def accessCode : Access → Nat
  | .read => 0
  | .store => 1
  | .atomic => 2
  | .fetch => 3

/-- Words 1 to 15 of a fault record. -/
def faultWords (s : State) (d i : Nat) (e : FaultEntry) : List Nat :=
  let m := e.miss
  let f := e.fault
  [f.kind + f.stage * 2 ^ 4 + f.level * 2 ^ 5 + accessCode m.acc * 2 ^ 7 + m.ctx * 2 ^ 9 + (d * 512 + i) * 2 ^ 16,
   s.requesterWord d m.who, 0, m.va % 2 ^ 32, m.va % 2 ^ 56 / 2 ^ 32, f.ipa % 2 ^ 32, f.ipa % 2 ^ 52 / 2 ^ 32,
   m.instr % 2 ^ 32, m.instr % 2 ^ 56 / 2 ^ 32, 0, 0, 0, 0, 0, 0]

/-- Change a pending-fault entry. -/
def modEntry (s : State) (d i : Nat) (g : FaultEntry → Option FaultEntry) : State :=
  s.modDie d fun x => { x with entries := x.entries.upd none i fun y => y.bind g }

/-- The fault ring has room for another record. -/
def fringRoom (s : State) : Bool :=
  s.cp.fringConsumer.any fun c => decide (ringAhead (s.f .XLT_FRING_NEXT_SEQUENCE) c < 2 ^ s.f .XLT_SETUP_FRING_LOG2)

/-- FAULT_RECORD_WRITE: command processor 0 writes the oldest record; its word 0 follows when the rest is performed. -/
def faultWrite (s : State) (hs : HostMem) : State :=
  match s.nextReport with
  | none => s
  | some (_, d, i, e) =>
    let n := s.f .XLT_FRING_NEXT_SEQUENCE
    let size := 2 ^ s.f .XLT_SETUP_FRING_LOG2
    if s.flag .XLT_STATUS_RING_FAULT || !s.fringRoom || !s.procRunning 2 || s.cp.faultWriting.isSome then s
    else match s.ringAddr 0 hs (s.f .XLT_FRING_BASE_ADDR * 4096 + 64 * (n % size)) .store with
    | (s, .wait) => s
    | (s, .absent) => s.ringFault
    | (s, .at a) =>
      if s.hostDead a then s.ringFault
      else
        let s := (s.modEntry d i fun e => some { e with seq := some n }).setF .XLT_FRING_NEXT_SEQUENCE 0 ((n + 1) % 2 ^ 32)
        (s.setRing .fring (some ⟨a, n, [s.nextId], false, 0⟩)).hostWrite (a + 4) (wordBytes (s.faultWords d i e)) .fring none

/-! ### Responses (R253 to R257) -/

/-- The requester's tile is halted, which holds an answer back (R257). -/
def heldBack (s : State) (m : Miss) : Bool := (tileOf m.who).any fun p => (s.tile p).seq.halt.isSome

/-- An entry answered RETRY frees and its requester replays afresh (R254). -/
def retryEntry (s : State) (d i : Nat) (m : Miss) : State :=
  let s := (s.modEntry d i fun _ => none).dropPage m
  match tileOf m.who with
  | some p => s.settle p
  | none => s

/-- The entries of a tile that were answered RETRY while it was halted free, and their requesters replay (R257). -/
def retryHeld (s : State) (p : Nat) : State :=
  s.forEach ((s.die (p / 104)).entries) fun s x =>
    match x.2 with
    | some e => if e.answered && tileOf e.miss.who == some p then s.retryEntry (p / 104) x.1 e.miss else s
    | none => s

/-- The record of an item that failed with XLT_UNSERVICEABLE (R291). -/
def unservRec (s : State) (m : Miss) (fid : Nat) (it : Nat × Nat × Nat) : State :=
  s.errRec 5 (some m.ctx) [it.1, it.2.1, it.2.2 + fid * 2 ^ 16, 0, m.va % 2 ^ 32, m.va % 2 ^ 56 / 2 ^ 32]

/-- Bytes of a COPY item and its destination. -/
def copyDest (s : State) (p : Nat) : Nat × Nat × Nat :=
  match (s.itemOf p).bind fun it => (s.desc? it.1 it.2.1).map fun d => (d, it.2.2) with
  | some (d, i) => (d.ctx, ((d.items[i]?).map (·.dst)).getD 0, d.itemBytes)
  | none => (0, 0, 0)

/-- A COPY item fails alone: it stops, and its destination is not defined (R255). -/
def copyFail (s : State) (p code : Nat) : State :=
  let (ctx, dst, n) := s.copyDest p
  (((s.failAt (s.itemOf p) code).orphan p).spoil (p / 104) ctx dst n).modGat p fun g => { g with copied := n, copyReq := none }

/-- What an UNSERVICEABLE answer does to a requester (R255, R286). -/
def unserviced (s : State) (fid : Nat) (m : Miss) : State :=
  match m.who with
  | .group p g => s.haltTile p rUnserviceable 1 0 g m.instr
  | .stream p k => s.haltTile p rUnserviceable 0 k.num 0 m.instr
  | .sync p => s.haltTile p rUnserviceable 0 3 0 m.instr
  | .gather p =>
    if m.copy then (s.unservRec m fid ((s.itemOf p).getD (0, 0, 0))).copyFail p stXltUnserviceable
    else s.haltTile p rUnserviceable 0 2 0 m.instr
  | .codec d =>
    match s.codecItem d with
    | some (x, i, ws) =>
      let s := s.unservRec m fid (x.q, x.n, i)
      let n := if x.opcode = 3 then 64 + 66 * (nth 0 ws 4 / 64) else nth 0 ws 6 + 2 ^ 32 * nth 0 ws 7
      (s.spoil d x.ctx (nth 0 ws 2 + 2 ^ 32 * nth 0 ws 3) n).codecFail d x.q x.n i stXltUnserviceable
    | none => s
  | .cp q n i =>
    let s := s.unservRec m fid (q, n, if i = 64 then 0 else i)
    match s.desc? q n with
    | some d =>
      if d.stage = .complete then s.modDesc q n fun d => d.modItem i fun it => { it with statusDone := true }
      else if i = 64 then (s.failAll q n stXltUnserviceable).endFailed q n
      else (s.failItem q n i stXltUnserviceable).endFailed q n
    | none => s

/-- The entry that a response answers: reported, not yet answered, with its sequence (R253). -/
def answered? (s : State) (resp : Nat) : Option (Nat × Nat × FaultEntry) :=
  let fid := bits resp 47 32
  let d := fid / 512
  match (s.die d).entries.get none (fid % 512) with
  | some e =>
    if e.seq = some (bits resp 31 0) ∧ !e.answered ∧ (bits resp 49 48 = 1 ∨ bits resp 49 48 = 2) ∧ bits resp 127 50 = 0 then
      some (d, fid % 512, e) else none
  | none => none

/-- A response is applied, or ignored and counted. -/
def applyResponse (s : State) (resp : Nat) : State :=
  match s.answered? resp with
  | none => s.bump .XLT_RESP_IGNORED_COUNT
  | some (d, i, e) =>
    let hold := fun (s : State) => s.modEntry d i fun e => some { e with answered := true }
    let debug := (tileOf e.miss.who).any s.debugHeld
    if bits resp 49 48 = 1 then if s.heldBack e.miss then hold s else s.retryEntry d i e.miss
    else
      let s := s.setFlag .CTX_FAULT_UNSERVICEABLE e.miss.ctx true
      if s.heldBack e.miss && !debug then hold s
      else (s.modEntry d i fun _ => none).unserviced (d * 512 + i) e.miss

/-- The next response of the ring is read (R253, R256). -/
def ringResponse (s : State) (resp : Nat) (hs : HostMem) : State :=
  let r := s.f .XLT_RRING_NEXT_COUNT
  if s.flag .XLT_STATUS_RING_FAULT || !s.procRunning 2 || s.cp.rringProducer == r then s
  else match s.ringAddr 0 hs (s.f .XLT_RRING_BASE_ADDR * 4096 + 16 * (r % 2 ^ s.f .XLT_SETUP_RRING_LOG2)) .read with
  | (s, .wait) => s
  | (s, .absent) => s.ringFault
  | (s, .at _) => (s.setF .XLT_RRING_NEXT_COUNT 0 ((r + 1) % 2 ^ 32)).applyResponse resp

/-- RETRY: a response that does not answer UNSERVICEABLE. DEDUCED: notes/assumptions/53.md. -/
def retry (s : State) (resp : Nat) (hs : HostMem) : State := if bits resp 49 48 = 2 then s else s.ringResponse resp hs

/-- UNSERVICEABLE. DEDUCED: notes/assumptions/53.md. -/
def unserviceable (s : State) (resp : Nat) (hs : HostMem) : State := if bits resp 49 48 = 2 then s.ringResponse resp hs else s

/-- XLT_RING_RETRY. -/
def xltRingRetry (s : State) : State := s.setFlag .XLT_STATUS_RING_FAULT 0 false

/-- SEQ_CTRL_RESUME, after which the waits of the gang's tiles are evaluated again and answers held back take effect
(R49, R257). -/
def resumeGang (s : State) (p : Nat) : State :=
  if !s.debugHeld p then s
  else
    let tiles := s.gangTiles p
    ((s.resume p).forEach tiles grantWaits).forEach tiles retryHeld

/-! ### Acknowledgements of an invalidation (R259) -/

/-- An access of a tile goes to a page that the invalidation removed. -/
def oldPage (i : Inval) (p target a ep : Nat) : Bool :=
  i.pages.any fun g => g.tile == p && g.target == target && a / 2 ^ g.bits == g.pa / 2 ^ g.bits && (target != 2 || g.endpoint == ep)

/-- A tile has an old access that is not settled. -/
def tileOld (s : State) (i : Inval) (p : Nat) : Bool :=
  let t := s.tile p
  let limit := ((i.pages.find? (·.tile == p)).map (·.limit)).getD 0
  let mine := fun (o : Owner) => match o with
    | .store q _ => q == p
    | o => readerOf p o
  let lanes := fun (l : List LaneAcc) => l.any fun x => oldPage i p x.target x.pa x.endpoint
  s.chl.reqs.any (fun r => r.status == .waiting && decide (r.id < i.before) && mine r.owner && oldPage i p 1 r.addr 0)
  || s.fab.reqs.any (fun r => r.status == .waiting && decide (r.id < i.before) && mine r.owner
      && oldPage i p 2 (Pk.addr r.pk.hdr.toNat) r.dest)
  || s.chl.snoops.any (fun x => decide (x.id < i.before) && mine x.owner)
  || t.thr.sb.any (fun e => decide (e.id < limit) && lanes e.lanes)
  || t.thr.wb.any (fun e => e.stores.any (fun z => decide (z.2.1 < limit)) && oldPage i p e.target e.pa e.endpoint)
  || t.resident.any fun g => (t.group? g).any fun x => x.loads.any fun l => decide (l.id < limit) && lanes l.lanes

/-- A command processor or codec engine of a die has an old access that is not settled: one of a descriptor that it serves,
and, under a kind that removes stage-2 entries, one of a ring. -/
def cpOld (s : State) (i : Inval) (d : Nat) (codec : Bool) : Bool :=
  let desc := fun q n => (s.desc? q n).any fun x =>
    (x.opcode == 3 || x.opcode == 4) == codec && (i.kind == 1 || i.kind == 3 || x.ctx == i.ctx)
      && (if codec then bits (x.w 13) 2 0 == d else x.die == d)
  let mine := fun (o : Owner) (it : Option (Nat × Nat × Nat)) => match o with
    | .item q n _ => desc q n
    | .cq _ => !codec && (i.kind == 1 || i.kind == 3) && it.any fun y => (s.desc? y.1 y.2.1).any (·.die == d)
    | .fring | .ering => !codec && (i.kind == 1 || i.kind == 3) && d == 0
    | _ => false
  s.chl.reqs.any (fun r => r.status == .waiting && decide (r.id < i.before) && mine r.owner r.item)
  || s.fab.reqs.any (fun r => r.status == .waiting && decide (r.id < i.before) && mine r.owner r.item)
  || s.chl.snoops.any fun x => decide (x.id < i.before) && mine x.owner none

/-- A participant's condition does not hold yet. -/
def invalBusy (s : State) (i : Inval) : InvParticipant → Bool
  | .tile p => s.tileOld i p
  | .walker _ => false
  | .cp d => s.cpOld i d false
  | .codec d => s.cpOld i d true

/-- An invalidation has completed: its item ends, or the context that a DESTROY names is freed. -/
def invalDone (s : State) (i : Inval) : State :=
  let s := { s with invals := s.invals.filter (·.id != i.id) }.bump .XLT_INVALIDATIONS_COUNT
  let s := match i.desc with
    | some (q, n) => s.endItem q n 0
    | none => s
  match i.destroys with
  | some c => s.destroyed c
  | none => s

/-- INVALIDATION_ACK: a participant acknowledges, in arrival order, once its condition holds (R259, R260).
DEDUCED: notes/assumptions/52.md. -/
def invalAck (s : State) (id : Nat) (who : InvParticipant) : State :=
  match s.invals.find? (·.waitingFor.contains who) with
  | none => s
  | some i =>
    if i.id ≠ id ∨ s.invalBusy i who then s
    else
      let i := { i with waitingFor := i.waitingFor.erase who }
      if i.waitingFor = [] then s.invalDone i
      else { s with invals := s.invals.map fun x => if x.id = id then i else x }

/-! ### Abort (R266) -/

/-- Step 1: the producer index of an enabled queue is latched from its doorbell line read again.
DEDUCED: notes/assumptions/54.md. -/
def abortLatch (s : State) (bells : List (Nat × BitVec 32)) (q : Nat) : State :=
  match bells.find? (·.1 == q) with
  | none => (s.sqStop q 1).sqDisable q
  | some (_, v) =>
    if s.f .QUE_SQ_STATUS_STATE q = 3 then s.sqDisable q
    else if 2 ^ s.f .QUE_SQ_SETUP_SIZE_LOG2 q < ringAhead v.toNat (s.f .QUE_SQ_CONSUMER_INDEX q) then (s.sqStop q 2).sqDisable q
    else
      (s.modCp fun c => { c with sqs := c.sqs.upd ⟨0, false, none⟩ q fun x => { x with latched := some v.toNat } }).latchedDone q

/-- Step 2: the items of a descriptor that are not yet dispatched fail; one that a codec engine stands stalled in has
begun. An invalidation already sent goes on. -/
def abortItems (s : State) (q n : Nat) : State :=
  match s.desc? q n with
  | none => s
  | some d =>
    if d.stage ≠ .fetched ∧ d.stage ≠ .started then s
    else
      let s := s.modDesc q n fun d => { d with stage := .started, aborted := true }
      s.forEach (List.range d.items.length) fun s i =>
        match d.items[i]? with
        | some it =>
          let die := bits (d.w 13) 2 0
          if it.stage = .fresh then (s.failItem q n i stCtxAborted).endItem q n i
          else if it.stage = .waiting then
            let s := s.forEach (List.range 8) fun s k => s.modDie k fun x => { x with
              waiting := x.waiting.filter (fun y => y.2 != (q, n, i)), codec := x.codec.filter (· != (q, n, i)) }
            (s.failItem q n i stCtxAborted).endItem q n i
          else if it.stage = .running ∧ (d.opcode = 3 ∨ d.opcode = 4) then
            let w := it.entry
            let size := if d.opcode = 3 then 64 + 66 * (nth 0 w 4 / 64) else nth 0 w 6 + 2 ^ 32 * nth 0 w 7
            (s.spoil die d.ctx (nth 0 w 2 + 2 ^ 32 * nth 0 w 3) size).codecFail die q n i stCtxAborted
          else s
        | none => s

/-- Step 3: a gang that runs an item of the context is cleared; a fault halt of it gives TILE_HALTED. -/
def abortGang (s : State) (p : Nat) : State :=
  let tiles := s.gangTiles p
  if (s.tile p).seq.kernel.any (·.job.copy) then (s.copyFail p stCtxAborted).clearGang p stCtxAborted
  else if (s.origins tiles).any (fun q => (s.tile q).seq.halt.any (·.reason != rDebugHalt)) then
    ((s.forEach tiles gangHalt).forEach tiles fun s q => s.modTile q fun t => { t with seq := { t.seq with clearAsked := true } })
      |> fun s => if tiles.all (fun q => (s.tile q).seq.final) then s.clearGang p stTileHalted else s.recordsFinal p
  else s.clearGang p stCtxAborted

/-- A launch of the context that its lead has not yet taken is dropped, with the tiles that wait for it. -/
def abortInbox (s : State) (c : Nat) : State :=
  let job := fun (s : State) p => ((s.tile p).seq.inbox.or (s.tile p).seq.kernel).map (·.job)
  s.forEach (List.range (104 * s.variant.dies)) fun s p =>
    match job s p with
    | some j => if j.ctx = c then ((s.discardTile p).failItem j.q j.n j.item stCtxAborted).endItem j.q j.n j.item else s
    | none => s

/-- ABORT (R266, steps 1 to 4). DEDUCED: notes/assumptions/54.md. -/
def ctxAbort (s : State) (c : Nat) (bells : List (Nat × BitVec 32)) : State :=
  if 64 ≤ c ∨ s.ctxState c ≠ 2 then s
  else
    let s := (s.setF .CTX_STATUS_STATE c 3).modCp fun x => { x with aborted := x.aborted.put 0 c 0 }
    let s := s.forEach (s.sqsOf c) fun s q => s.abortLatch bells q
    let s := s.forEach ((s.cp.descs.filter fun d => d.ctx == c).map fun d => (d.q, d.n)) fun s x => s.abortItems x.1 x.2
    let leads := (List.range (104 * s.variant.dies)).filter fun p =>
      (s.tile p).seq.kernel.any fun m => m.job.ctx == c && m.rank == 0
    let s := (s.forEach leads abortGang).abortInbox c
    let keep := fun (m : Miss) => m.ctx != c
    let s := s.forEach (List.range 8) fun s d => s.modDie d fun x => { x with
      faultQueue := x.faultQueue.filter (fun e => keep e.1),
      entries := x.entries.filter fun e => e.2.any fun y => keep y.miss }
    s.resetRoots c

/-- CONTEXT_STOPPED (R266, steps 5 to 7): the stores of the context are settled, its queues are disabled and every
descriptor of it has its record and its signal. -/
def ctxStopped (s : State) (c : Nat) : State :=
  let s := s.settleItems
  if s.ctxState c ≠ 3 ∨ s.sqsOf c ≠ [] ∨ s.cp.descs.any (fun d => d.ctx == c)
      ∨ s.fab.reqs.any (fun r => r.ctx == some c && r.status == .waiting) then s
  else
    (s.setF .CTX_STATUS_STATE c 4).errRec 6 (some c) [s.cp.aborted.get 0 c]

end State

/-! ### Meanings -/

/-- WALK_COMPLETE (R247, R249). -/
def execWalkComplete (d k : Nat) (hs : HostMem) (s : State) : Out := .next (s.walkComplete d k hs)

/-- FAULT_RECORD_WRITE (R252). -/
def execFaultRecordWrite (hs : HostMem) (s : State) : Out := .next (s.faultWrite hs)

/-- RETRY (R254). -/
def execRetry (resp : BitVec 128) (hs : HostMem) (s : State) : Out := .next (s.retry resp.toNat hs)

/-- UNSERVICEABLE (R255). -/
def execUnserviceable (resp : BitVec 128) (hs : HostMem) (s : State) : Out := .next (s.unserviceable resp.toNat hs)

/-- XLT_RING_RETRY (R256). -/
def execXltRingRetry (s : State) : Out := .next s.xltRingRetry

/-- INVALIDATION_ACK (R259). -/
def execInvalidationAck (id : Nat) (who : InvParticipant) (s : State) : Out := .next (s.invalAck id who)

/-- ABORT (R266). -/
def execAbort (c : Nat) (bells : List (Nat × BitVec 32)) (s : State) : Out := .next (s.ctxAbort c bells)

/-- CONTEXT_STOPPED (R266). -/
def execContextStopped (c : Nat) (s : State) : Out := .next (s.ctxStopped c)

/-- SEQ_CTRL_RESUME (R49). -/
def execSeqCtrlResume (p : Nat) (s : State) : Out := .next (s.resumeGang p)

end Sys2Proof.Machine
end

