-- ==== Sys2Proof/Machine/Collective.lean ====
section
/-!
DEFINITION. Collective groups (13_kyolor_fabric.md, R344 to R348).
-/
namespace Sys2Proof.Machine

/-! ### The operation on one element (R346) -/

/-- MIN and MAX of FP32, −0 below +0, any NaN giving the canonical NaN. -/
def fpExtreme (max : Bool) (a b : Nat) : Nat :=
  if f32 a = .nan ∨ f32 b = .nan then 0x7FC00000
  else
    let key := fun (x : Nat) => if bit x 31 then (2 ^ 32 - 1 - x : Int) else (x + 2 ^ 31 : Int)
    if (decide (key a < key b)) != max then a else b

/-- Combine two elements; none where OP is reserved. -/
def collOp (op fmt : Nat) (a b : Nat) : Nat :=
  let smaller := decide (signedOf 32 a < signedOf 32 b)
  match op, fmt with
  | 0, 0 => (a + b) % 2 ^ 32
  | 0, _ => f32Round ((f32 a).add (f32 b))
  | o, 0 => if smaller != (o == 2) then a else b
  | o, _ => fpExtreme (o == 2) a b

/-- A single element as the operation leaves it: a NaN under MIN or MAX is canonical. -/
def collOne (op fmt : Nat) (a : Nat) : Nat := if op ≠ 0 ∧ fmt = 1 ∧ f32 a = .nan then 0x7FC00000 else a

namespace State

/-- Combine elements pairwise in a free order (R346, R132). DESIGN CHOICE: notes/assumptions/58.md. -/
def combineFree (op fmt : Nat) : Nat → List Nat → State → State × Nat
  | 0, l, s => (s, collOne op fmt (nth 0 l 0))
  | k + 1, l, s =>
    match l with
    | [] => (s, 0)
    | [a] => (s, collOne op fmt a)
    | l =>
      let (x, s) := s.free
      let (y, s) := s.free
      let i := x % l.length
      let rest := l.eraseIdx i
      let j := y % rest.length
      combineFree op fmt k (collOp op fmt (nth 0 l i) (nth 0 rest j) :: rest.eraseIdx j) s

/-- The 64 bytes of the 16 combined elements of chunks. DESIGN CHOICE: notes/assumptions/58.md. -/
def combineChunks (s : State) (op fmt : Nat) (ds : List (List Byte)) : State × List Byte :=
  (List.range 16).foldl (fun (x : State × List Byte) e =>
    let (s, v) := combineFree op fmt ds.length (ds.map fun d => fromLE ((d.drop (4 * e)).take 4)) x.1
    (s, x.2 ++ toLE 4 v)) (s, [])

/-! ### Groups (R344) -/

/-- Endpoints of the children of a group. -/
def collChildren (s : State) (g : Nat) : List Nat :=
  (List.range (s.f .FAB_COLL_SETUP_CHILDREN g)).map fun i =>
    s.f (if i % 3 = 0 then .FAB_COLL_CHILD_CHILD0 else if i % 3 = 1 then .FAB_COLL_CHILD_CHILD1 else .FAB_COLL_CHILD_CHILD2)
      (4 * g + i / 3)

/-- Bytes of buffers that a group needs. -/
def collBytes (s : State) (g : Nat) : Nat := 128 * s.f .FAB_COLL_SETUP_CHUNKS g

/-- The round of a parity. -/
def round (s : State) (g : Nat) (parity : Bool) : Round := (if parity then s.fab.odd else s.fab.even).get .reset g

/-- FAB_COLL_ENABLE: a group is enabled with nothing received, or SETUP_ERROR is set. -/
def collEnable (s : State) (g : Nat) : State :=
  if 64 ≤ g ∨ s.flag .FAB_COLL_SETUP_ENABLE g then s
  else
    let io := s.f .FAB_COLL_SETUP_IO_DIE g
    let chunks := s.f .FAB_COLL_SETUP_CHUNKS g
    let children := s.f .FAB_COLL_SETUP_CHILDREN g
    let used := (((List.range 64).filter fun k => s.flag .FAB_COLL_SETUP_ENABLE k && s.f .FAB_COLL_SETUP_IO_DIE k == io).map s.collBytes).sum
    if !s.variant.hasIo io || chunks == 0 || decide (16384 < chunks) || s.f .FAB_COLL_SETUP_LOCAL g + children == 0
        || decide (12 < children) || (!s.flag .FAB_COLL_SETUP_ROOT g && decide (s.partsN ≤ s.f .FAB_COLL_SETUP_PARENT g))
        || decide (2 ^ 23 < used + s.collBytes g) then s.setFlag .FAB_COLL_STATUS_SETUP_ERROR g true
    else (((s.setFlag .FAB_COLL_SETUP_ENABLE g true).modRound g false fun _ => .reset).modRound g true fun _ => .reset)

/-- ENABLE is written to 0: what the engine holds for the group goes. -/
def collDisable (s : State) (g : Nat) : State :=
  ((s.setFlag .FAB_COLL_SETUP_ENABLE g false).modRound g false fun _ => .reset).modRound g true fun _ => .reset

/-! ### Chunks (R345, R346) -/

/-- A chunk holds LOCAL contributions and a partial of each child. -/
def chunkFull (s : State) (g : Nat) (c : Chunk) : Bool :=
  decide (s.f .FAB_COLL_SETUP_LOCAL g ≤ (c.parts.filter (·.source.isNone)).length)
  && (s.collChildren g).all fun e => c.parts.any fun x => x.source == some e

/-- Change a chunk. -/
def modChunk (s : State) (g : Nat) (parity : Bool) (c : Nat) (h : Chunk → Chunk) : State :=
  s.modRound g parity fun r => { r with chunks := r.chunks.upd .reset c h }

/-- An engine-to-engine packet: a partial (CODE 0) or a result (CODE 1). -/
def sendCput (s : State) (g : Nat) (parity : Bool) (c dest code : Nat) (data : List Byte) : State :=
  let r := s.openRound g parity
  s.fabReq 4 (64 * c + b2n parity * 2 ^ 20 + r % 2 ^ 20 * 2 ^ 21) 64 data 0 false dest (.coll g parity r) none none g code

/-- Write one line of the result area for a group; none where it must wait, else whether it was unmapped. -/
def collWrite (s : State) (g : Nat) (parity : Bool) (off : Nat) (data : List Byte) : State × Option Bool :=
  let pa := s.f .FAB_COLL_RESULT_RESULT g * 64 + off
  match s.mustWait pa 64 true with
  | some s => (s, none)
  | none =>
    let (s, absent) := s.physWrite none pa data
    (if absent then s else s.snoopShared pa 64 (.coll g parity (s.openRound g parity)), some absent)

/-- Write a result chunk that is held and not yet written, unless the round has failed (R348). -/
def writeResult (s : State) (g : Nat) (parity : Bool) (c : Nat) : State :=
  let r := s.round g parity
  let x := r.chunks.get .reset c
  match x.result with
  | some data =>
    if x.written || r.cause != 0 then s
    else match s.collWrite g parity (b2n parity * s.f .FAB_COLL_SETUP_CHUNKS g * 64 + 64 * c) data with
    | (s, none) => s
    | (s, some true) => s.roundFail g parity 4
    | (s, some false) => s.modChunk g parity c fun x => { x with written := true }
  | none => s

/-- A part holds a result chunk: it is written and sent to each child. -/
def takeResult (s : State) (g : Nat) (parity : Bool) (c : Nat) (data : List Byte) : State :=
  let s := (s.modRound g parity fun r => { r with opened := true }).modChunk g parity c fun x => { x with result := some data }
  (s.forEach (s.collChildren g) fun s e => s.sendCput g parity c e 1 data).writeResult g parity c

/-- A chunk is complete on this part: combined, and the result or sent to the parent. -/
def chunkDone (s : State) (g : Nat) (parity : Bool) (c : Nat) : State :=
  let r := s.round g parity
  let op := s.f .FAB_COLL_SETUP_OP g
  let (s, data) := if r.spoil ≠ 0 ∨ op = 3 then freeBytes 64 s
    else s.combineChunks op (s.f .FAB_COLL_SETUP_FORMAT g) ((r.chunks.get .reset c).parts.map (·.data))
  if s.flag .FAB_COLL_SETUP_ROOT g then s.takeResult g parity c data
  else s.sendCput g parity c (s.f .FAB_COLL_SETUP_PARENT g) 0 data

/-- A contribution or partial counts toward its chunk, or is held for the next round where the chunk has completed. An
agent that contributes to a chunk once more leaves this round's and the next one's results unspecified (R345).
DESIGN CHOICE: notes/assumptions/58.md. -/
def takePart (s : State) (g : Nat) (parity : Bool) (x : Contribution) : State :=
  let c := (s.round g parity).chunks.get .reset x.chunk
  let again := x.agent.isSome && c.parts.any fun y => y.agent == x.agent
  let s := s.when again fun s => s.modRound g parity fun r => { r with spoil := 2 }
  if s.chunkFull g c then s.modRound g parity fun r => { r with held := r.held ++ [x] }
  else
    let s := (s.modRound g parity fun r => { r with opened := true }).modChunk g parity x.chunk fun c => { c with parts := c.parts ++ [x] }
    if s.chunkFull g ((s.round g parity).chunks.get .reset x.chunk) then s.chunkDone g parity x.chunk else s

/-- The agent of a contribution: a group slot or gather engine of a tile, or another unit. -/
def agentOf : Owner → Option (Nat × Nat)
  | .store p who => some (p, (who.head?.map (·.1)).getD 0)
  | .item q n i => some (832 + q, n * 64 + i)
  | _ => none

/-- COLLECTIVE_CONTRIBUTION: the oldest waiting request of the part with this address and data reaches the engine of group
`g`, which accepts or refuses it (R345). DESIGN CHOICE: notes/assumptions/58.md. -/
def contribution (s : State) (g addr : Nat) (data : List Byte) : State :=
  match s.fab.reqs.find? fun r => r.dest == 0x3FFC0 + g && r.status == .waiting && Pk.addr r.pk.hdr.toNat == addr && r.pk.data == data with
  | none => s
  | some r =>
    let off := addr % 2 ^ 20
    let n := data.length
    let ok := decide (g < 64) && s.flag .FAB_COLL_SETUP_ENABLE g && Pk.type r.pk.hdr.toNat == 1 && addr / 2 ^ 21 == 0 && off % 64 == 0
      && n % 64 == 0 && decide (off / 64 + n / 64 ≤ s.f .FAB_COLL_SETUP_CHUNKS g)
    if !ok then s.failFab r stSyncMismatch
    else ((s.dropFab r).bump .FAB_PUTS_COUNT).forEach (List.range (n / 64)) fun s i =>
      s.takePart g (bit addr 20) ⟨off / 64 + i, none, agentOf r.owner, (data.drop (64 * i)).take 64⟩

/-- CPUT: a partial or a result arrives; one that is not of the open round, or is held for the next, is refused.
DEDUCED: notes/assumptions/47.md; DESIGN CHOICE: notes/assumptions/58.md. -/
def cput (s : State) (p : Packet) : State :=
  let h := p.hdr.toNat
  let refuse := fun (s : State) code =>
    ((s.bump .FAB_RX_REQUESTS_COUNT).bump .FAB_RX_FAILED_COUNT).answer (Pk.make (Pk.header 10 (Pk.source h) (Pk.dest h) (Pk.tag h) 0 (code := code)))
  if (!s.fabOn && Pk.source h != s.endpoint) || Pk.type h != 4 then s.bump .FAB_UNROUTABLE_COUNT
  else if !Pk.requestOk h then refuse s 2
  else
    let g := Pk.coll h
    let a := Pk.addr h
    let parity := bit a 20
    let c := bits a 19 0 / 64
    let open_ := s.openRound g parity
    let full := s.chunkFull g ((s.round g parity).chunks.get .reset c)
    let known := if Pk.code h = 0 then (s.collChildren g).contains (Pk.source h)
      else Pk.code h == 1 && !s.flag .FAB_COLL_SETUP_ROOT g && Pk.source h == s.f .FAB_COLL_SETUP_PARENT g
    let now := bits a 40 21 == open_ % 2 ^ 20 || (Pk.code h == 0 && full && bits a 40 21 == (open_ + 2) % 2 ^ 20)
    if !(s.flag .FAB_COLL_SETUP_ENABLE g && known && now && Pk.len h == 64 && a % 64 == 0
        && decide (c < s.f .FAB_COLL_SETUP_CHUNKS g)) then refuse s 3
    else
      let s := (s.bump .FAB_RX_REQUESTS_COUNT).answer (Pk.make (Pk.header 8 (Pk.source h) (Pk.dest h) (Pk.tag h) 0))
      if Pk.code h = 0 then s.takePart g parity ⟨c, some (Pk.source h), none, fit 64 p.data⟩
      else s.takeResult g parity c (fit 64 p.data)

/-! ### Rounds (R347, R348) -/

/-- Every result chunk of a round is written. -/
def roundWritten (s : State) (g : Nat) (parity : Bool) : Bool :=
  (List.range (s.f .FAB_COLL_SETUP_CHUNKS g)).all fun c => ((s.round g parity).chunks.get .reset c).written

/-- The writes of a round are performed at SYSTEM scope. -/
def roundPerformed (s : State) (g : Nat) (parity : Bool) (n : Nat) : Bool :=
  !(s.chl.snoops.any fun x => x.owner == .coll g parity n)

/-- The status line of a round (R347). -/
def statusLine (n cause : Nat) : List Byte := toLE 8 n ++ toLE 4 (b2n (cause != 0) + cause * 2) ++ rep 52 0

/-- A round ends: ROUND rises, the fence is signalled, an error is shown and raised, and what was held for the next round
of the parity counts toward it. DEDUCED: notes/assumptions/48.md. -/
def roundEnd (s : State) (g : Nat) (parity : Bool) : State :=
  let r := s.round g parity
  let n := s.openRound g parity
  let s := s.setF .FAB_COLL_ROUND_ROUND g (n + 1)
  let s := if s.flag .FAB_COLL_FENCE_SIGNAL_EN g then
      { s with fenceQueue := s.fenceQueue ++ [(⟨s.f .FAB_COLL_FENCE_SLOT g, (n + 1) % 2 ^ 64, 3, g, none⟩ : FenceSig)] }
    else s
  let s := if r.cause = 0 then s
    else (s.setFlag .FAB_COLL_STATUS_ERROR g true).when (s.flag .FAB_IRQ_COLL_IRQ_EN) (·.raiseFab)
  let s := s.modRound g parity fun _ => { Round.reset with spoil := r.spoil - 1 }
  s.forEach r.held fun s x => s.takePart g parity x

/-- COLLECTIVE_ROUND_COMPLETE: a round whose turn it is, all of whose results are performed or which has failed, has its
status line written, and ends once that is performed. -/
def roundComplete (s : State) (g : Nat) (parity : Bool) : State :=
  let n := s.f .FAB_COLL_ROUND_ROUND g
  if 64 ≤ g ∨ !s.flag .FAB_COLL_SETUP_ENABLE g ∨ n % 2 ≠ b2n parity then s
  else
    let s := s.forEach (FMap.keys (s.round g parity).chunks) fun s c => s.writeResult g parity c
    let r := s.round g parity
    if (r.cause = 0 ∧ !s.roundWritten g parity) ∨ !s.roundPerformed g parity n then s
    else if r.status then s.roundEnd g parity
    else match s.collWrite g parity (2 * s.f .FAB_COLL_SETUP_CHUNKS g * 64 + 64 * b2n parity) (statusLine n r.cause) with
    | (s, none) => s
    | (s, some absent) =>
      let s := (s.when absent fun s => s.roundFail g parity 4).modRound g parity fun r => { r with status := true }
      if s.roundPerformed g parity n then s.roundEnd g parity else s

/-- COLLECTIVE_ROUND_TIMEOUT: a round that holds a contribution or partial fails with CAUSE 1. -/
def roundTimeout (s : State) (g : Nat) (parity : Bool) : State :=
  if (s.round g parity).opened then s.roundFail g parity 1 else s

end State

/-! ### Meanings -/

/-- FAB_COLL_ENABLE (R344). -/
def execFabCollEnable (g : Nat) (s : State) : Out := .next (s.collEnable g)

/-- COLLECTIVE_CONTRIBUTION (R345). -/
def execCollectiveContribution (g addr : Nat) (data : List Byte) (s : State) : Out := .next (s.contribution g addr data)

/-- CPUT (R346). -/
def execCput (pk : Packet) (s : State) : Out := .next (s.cput pk)

/-- COLLECTIVE_ROUND_COMPLETE (R347). -/
def execCollectiveRoundComplete (g : Nat) (parity : Bool) (s : State) : Out := .next (s.roundComplete g parity)

/-- COLLECTIVE_ROUND_TIMEOUT (R348). -/
def execCollectiveRoundTimeout (g : Nat) (parity : Bool) (s : State) : Out := .next (s.roundTimeout g parity)

end Sys2Proof.Machine
end

