-- ==== Sys2Proof/Machine/Moult.lean ====
section
/-!
DEFINITION. Moult (15_health_and_wear.md R381 to R383), the rest of the health events (R377, R381, R391), and the opening
of a die's stacks (16_clocks_reset_and_time.md R407, with R237, R238, R382 and R384).
-/
namespace Sys2Proof.Machine

/-- The numbers below `n` whose free value of `w` bits from counter `ix` on is not 0, with that value: a map of free
values in canonical form. -/
def freeMap (w n ix : Nat) : FMap Nat :=
  (List.range n).filterMap fun k =>
    let v := (Config.freeBits (ix + k)).toNat % 2 ^ w
    if v = 0 then none else some (k, v)

/-- The same for bytes. -/
def freeByteMap (n ix : Nat) : FMap Byte :=
  (List.range n).filterMap fun k =>
    let v := BitVec.ofNat 8 (Config.freeBits (ix + k)).toNat
    if v = 0 then none else some (k, v)

namespace State

/-! ### Moult (R383) -/

/-- A tile neither runs a kernel nor holds a halt or a debug halt. -/
def tileQuiet (s : State) (p : Nat) : Bool :=
  let q := (s.tile p).seq
  q.run == .idle && q.inbox.isNone && q.kernel.isNone && q.halt.isNone

/-- The quiesce of a die: no tile of it runs a kernel, holds a halt or holds a debug halt. -/
def dieQuiet (s : State) (d : Nat) : Bool := (span (104 * d) 104).all s.tileQuiet

/-- The nominations of a die. -/
def nomineesOf (s : State) (d : Nat) : List Nominee := s.mgt.nominees.filter fun x => x.p / 104 == d

/-- Set bit `d` of QUIESCE; the hardware clears it at once where the die has no moult pending. -/
def quiesce (s : State) (d : Nat) : State :=
  if s.running && s.variant.hasDie d then
    let q := s.f .MGT_MOULT_CTRL_QUIESCE
    s.setF .MGT_MOULT_CTRL_QUIESCE 0 (if (s.nomineesOf d).isEmpty then clearBit q d else setBit q d)
  else s

/-- A tile that takes over a logical ID: the sense bits of the old tile, unspecified contents (free values), no
translation (R383). DEDUCED: notes/assumptions/59.md. -/
def freshTile (s : State) (t : Tile) (sense : Nat) : Tile × State :=
  let ix := s.freeIx
  ({ t with syn := { t.syn with sense := sense }, spad := freeByteMap 3145728 ix, xc := [],
            mat := { t.mat with plane := freeMap 16 8192 (ix + 3145728), acc := freeMap 32 65536 (ix + 3153920) } },
   { s with freeIx := ix + 3219456 })

/-- One moult, in the order of R383's steps; without a reserve tile the nomination is refused (R382).
DEDUCED: notes/assumptions/59.md. -/
def moultOne (s : State) (x : Nominee) : State :=
  let d := x.p / 104
  match s.localOf x.p, s.reserve d with
  | some l, new :: _ =>
    let s := (s.discardTile x.p).discardTile new
    let (t, s) := s.freshTile (s.tile new) (s.tile x.p).syn.sense
    let s := s.setTile new t
    let s := s.modMgt fun m =>
      { m with repair := { m.repair with phys := m.repair.phys.put l (104 * d + l) (new % 104),
                                         retired := m.repair.retired.put false x.p true } }
    ((s.log 0x0D true (dcIx d) [d + l * 2 ^ 3 + x.p * 2 ^ 10, new]).bump .MGT_MOULTS_COUNT).raiseMgt .MGT_IRQ_MOULT_IRQ_EN
  | some _, [] => s.log 0x0E false (dcIx d) [s.nomineeWord x.p x.cause]
  | none, _ => s

/-- MOULT: the die controller performs every pending moult of its die at the quiesce. -/
def moult (s : State) (d : Nat) : State :=
  let asked := bit (s.f .MGT_MOULT_CTRL_QUIESCE) d || s.flag .MGT_SETUP_MOULT_AUTO
  if s.variant.hasDie d && s.procRunning (dcIx d) && asked && s.dieQuiet d then
    let s := s.forEach (s.nomineesOf d) moultOne
    let s := s.modMgt fun m => { m with nominees := m.nominees.filter fun x => x.p / 104 != d }
    s.setF .MGT_MOULT_CTRL_QUIESCE 0 (clearBit (s.f .MGT_MOULT_CTRL_QUIESCE) d)
  else s

/-! ### Stacks open (R407) -/

/-- The tile repairs that a current record gives to its die controller (R384). DEDUCED: notes/assumptions/59.md. -/
def takeRepair (s : State) (d : Nat) (r : LogRec) : State :=
  let w := nth 0 r.body 0
  if r.kind = 0x0B ∧ bits w 9 0 / 104 = d then
    s.modMgt fun m =>
      { m with repair := { m.repair with ways := m.repair.ways.put false (8 * bits w 9 0 + bits w 12 10) true } }
  else if r.kind = 0x0C ∧ bits w 19 10 / 104 = d ∧ !(s.mgt.nominees.any (·.p == bits w 19 10)) then
    s.modMgt fun m => { m with nominees := m.nominees ++ [⟨bits w 19 10, bits w 23 20⟩] }
  else if r.kind = 0x0D ∧ bits w 19 10 / 104 = d then
    let l := bits w 9 3
    s.modMgt fun m =>
      { m with repair := { m.repair with phys := m.repair.phys.put l (104 * d + l) (nth 1 r.body 0 % 104),
                                         retired := m.repair.retired.put false (bits w 19 10) true } }
  else s

/-- A row that the log records as remapped: its hard repair frees the entry, or, without resource, leaves the row
remapped and permanent (R237, R238). `done` rows of the log are permanent already.
DEDUCED: notes/assumptions/60.md. -/
def takeRow (s : State) (d : Nat) (noResource : List Nat) (r : LogRec) : State :=
  let w := nth 0 r.body 0
  let k := bits w 3 0
  let e := bits w 14 4
  let data := nth 1 r.body 0 + nth 2 r.body 0 * 2 ^ 32
  if k / 2 = d ∧ s.stackPresent k ∧ (r.kind = 0x08 ∨ r.kind = 0x09) then
    let x : Spare := ⟨bits data 6 1, bits data 12 7, bits data 31 13, 2, true⟩
    let keep := fun (s : State) => s.modStack k fun st => { st with spares := st.spares.put none e (some x) }
    if r.kind = 0x09 then keep s
    else if noResource.contains (k * 2048 + e) then
      let w' := spareWord (some x)
      (keep s).log 0x09 true (dcIx d) [w, w' % 2 ^ 32, w' / 2 ^ 32]
    else
      let w' := spareWord (some { x with permanent := false })
      s.log 0x09 true (dcIx d) [w, w' % 2 ^ 32, w' / 2 ^ 32]
  else s

/-- STACKS_OPEN: die controller `d` takes its repair records, makes the hard repairs, tests its reserve tiles, of which
`badReserve` fail, and opens its stacks. DEDUCED: notes/assumptions/60.md. -/
def openStacks (s : State) (d : Nat) (noResource badReserve : List Nat) : State :=
  if s.logReady && s.procRunning (dcIx d) && s.variant.hasDie d && !s.stacksOpen d then
    let cur := s.repairs
    let s := s.forEach cur fun s r => s.takeRepair d r
    let s := s.forEach cur fun s r => s.takeRow d noResource r
    let bad := (s.reserve d).filter badReserve.contains
    let s := s.modMgt fun m =>
      { m with repair := { m.repair with retired := bad.foldl (fun x p => FMap.put false x p true) m.repair.retired } }
    let s := s.forEach [2 * d, 2 * d + 1] fun s k =>
      s.when ((s.stack k).spares.length == 2048) (·.setFlag .HBM_STATUS_REPAIR_EXHAUSTED k true)
    s.orBit .CLK_STATUS_STACKS_OPEN 0 d
  else s

/-! ### The rest of the health events -/

/-- FAST_LIMIT_RELEASE (R377). -/
def fastRelease (s : State) : State := s.setFlag .MGT_STATUS_FAST_LIMIT 0 false

/-- TILE_ERROR_PERIOD_END: the error counts of the tiles restart (R381). -/
def errorPeriod (s : State) : State := s.modMgt fun m => { m with ce := [] }

/-- POWER_WARNING_CLEAR: the input rises above 60 V (R391). -/
def warningClear (s : State) : State := s.setFlag .MGT_STATUS_POWER_WARN 0 false

end State

/-! ### Meanings -/

/-- QUIESCE (R383). -/
def execQuiesce (d : Nat) (s : State) : Out := .next (s.quiesce d)

/-- MOULT (R383). -/
def execMoult (d : Nat) (s : State) : Out := .next (s.moult d)

/-- STACKS_OPEN (R407). -/
def execStacksOpen (d : Nat) (noResource badReserve : List Nat) (s : State) : Out := .next (s.openStacks d noResource badReserve)

/-- FAST_LIMIT_RELEASE (R377). -/
def execFastLimitRelease (s : State) : Out := .next s.fastRelease

/-- TILE_ERROR_PERIOD_END (R381). -/
def execTileErrorPeriodEnd (s : State) : Out := .next s.errorPeriod

/-- POWER_WARNING_CLEAR (R391). -/
def execPowerWarningClear (s : State) : Out := .next s.warningClear

end Sys2Proof.Machine
end

