-- ==== Sys2Proof/Machine/Trust.lean ====
section
/-!
DEFINITION. Firmware, measurement and the SEC mailbox (14_firmware_and_trust.md R350 to R362, R365 to R371). Digests and
signatures are named, not computed (notes/assumptions/17.md).
-/
namespace Sys2Proof.Machine

/-- The 64 octets of a digest. -/
def digestBytes (d : BitVec 512) : List Byte := toLE 64 d.toNat

/-- KIND of the image that processor `i` takes, which is also the number of its measurement register (R350, R351). -/
def procKind (i : Nat) : Nat :=
  if i = 0 then 1 else if i = 1 then 2 else if i < 10 then 3 else if i < 18 then 4 else 5

/-- Instruction memory in bytes, by KIND. -/
def kindMemory (k : Nat) : Nat :=
  if k = 2 then 1048576 else if k = 1 ∨ k = 3 then 524288 else 262144

/-- Word `w` of an image or other little-endian bytes. -/
def wordAt (bs : List Byte) (w : Nat) : Nat := fromLE ((bs.drop (4 * w)).take 4)

/-- An image is malformed for a processor (R352); its length is the LENGTH given. -/
def imageMalformed (i : Nat) (img : List Byte) : Bool :=
  let w := wordAt img
  let code := w 4
  let signed := bit (w 3) 0
  img.length < 640 || bits (w 0) 15 0 != 0xD1F7 || bits (w 0) 23 16 != 1 || bits (w 0) 31 24 != procKind i || w 1 == 0
    || w 3 / 2 != 0 || (span 6 10).any (fun j => w j != 0) || (span 145 15).any (fun j => w j != 0)
    || code % 64 != 0 || code < 64 || kindMemory (procKind i) < code || w 5 % 4 != 0 || code ≤ w 5
    || (signed && w 144 != 65537) || img.length != 640 + code + (if signed then 512 else 0)

/-- KEY_MODULUS of an image. -/
def imageKey (img : List Byte) : List Byte := (img.drop 64).take 512

/-- The bytes under the image digest. -/
def imageBody (img : List Byte) : List Byte := img.take (640 + wordAt img 4)

/-- A measurement log entry (R357). -/
def mrEntry (index mr event proc verdict : Nat) (extended : Bool) (abi version time : Nat) (digest key : List Byte) : List Byte :=
  toLE 4 index ++ toLE 4 (mr + event * 2 ^ 4 + proc * 2 ^ 8 + verdict * 2 ^ 13 + b2n extended * 2 ^ 16) ++ toLE 4 abi
    ++ toLE 4 version ++ toLE 8 time ++ toLE 8 0 ++ fit 64 digest ++ fit 32 key

/-- The fuse block of R359. -/
def Fuses.block (f : Fuses) : List Byte :=
  (BitVec.ofNat 8 (b2n f.signedBlown)) :: rep 7 0 ++ toLE 8 f.deviceId ++ fit 64 f.ownerDigest ++ rep 48 0

namespace State

/-- Change the security processor's state. -/
def modSec (s : State) (g : Sec → Sec) : State := { s with sec := g s.sec }

/-- A measurement register. -/
def mr (s : State) (k : Nat) : BitVec 512 := s.sec.mrs.get 0 k

/-- MR := SHA-512(MR || digest) (R356). -/
def extendMr (s : State) (k : Nat) (d : List Byte) : State :=
  s.modSec fun x => { x with mrs := x.mrs.put 0 k (Config.sha512 (digestBytes (x.mrs.get 0 k) ++ d)) }

/-- Write an entry of the measurement log: the first 1,024 since the ROM started are kept (R357). -/
def logEvent (s : State) (e : Nat → List Byte) : State :=
  let n := s.f .SEC_LOG_COUNT_COUNT
  let s := s.bumpSat .SEC_LOG_COUNT_COUNT
  if s.sec.log.length < 1024 then s.modSec fun x => { x with log := x.log ++ [e n] }
  else s.setFlag .SEC_STATUS_LOG_FULL 0 true

/-- The ROM's measurements at its start: its own code, then the fuse block (R356). -/
def romMeasure (s : State) : State :=
  let one := fun (s : State) (event : Nat) (d : List Byte) =>
    (s.extendMr 0 d).logEvent fun n => mrEntry n 0 event 0 0 true 0 0 s.time d []
  one (one s 1 (digestBytes Config.romDigest)) 2 (digestBytes (Config.sha512 s.fuses.block))

/-! ### The mailbox (R369) -/

/-- Argument word of the SEC mailbox. -/
def secArg (s : State) (w : Nat) : Nat := s.f .SEC_MBX_DATA_DATA w

/-- Sixteen argument words from `w` on as 64 bytes. -/
def secDigest (s : State) (w : Nat) : List Byte := wordBytes ((span w 16).map s.secArg)

/-- The command in progress ends with a status and results from byte 0 of the data.
DEDUCED: notes/assumptions/65.md. -/
def secDone (s : State) (status : Nat) (results : List Nat) : State :=
  let (results, status, s) := s.mailboxResults s.sec.dirty results status
  let s := s.forEach (results.zipIdx) fun s x => s.setF .SEC_MBX_DATA_DATA x.2 x.1
  (((s.modSec fun x => { x with busy := none, dirty := false, staging := none }).setFlag .SEC_MBX_STATUS_BUSY 0 false).setFlag
    .SEC_MBX_STATUS_DONE 0 true).setF .SEC_MBX_STATUS_STATUS 0 status

/-- A command of the mailbox runs. -/
def secCommand (s : State) (op : Nat) (body : State → State) : State :=
  if s.sec.busy = some op ∧ s.running then body s else s

/-! ### Loading (R353 to R355) -/

/-- Every die controller of a present die runs. -/
def dcsRun (s : State) : Bool := (List.range s.variant.dies).all fun d => s.procRunning (dcIx d)

/-- The ports of the image's lines take requests (R353, R318). -/
def fetchable (s : State) (addr len : Nat) : Bool :=
  (List.range ((len + 63) / 64)).all fun i =>
    let k := s.homePort (addr + 64 * i)
    s.portUp k && (s.port k).reqEn

/-- LOAD: the ROM fetches an image into its staging memory; `none` is a read that failed under R315.
DEDUCED: notes/assumptions/65.md. -/
def loadImage (s : State) (image : Option (List Byte)) : State :=
  s.secCommand 1 fun s =>
    let i := s.secArg 0 % 32
    let addr := s.secArg 2 + s.secArg 3 * 2 ^ 32
    let len := s.secArg 4
    if s.sec.staging.isSome then s
    else if 21 < i ∨ addr % 64 ≠ 0 then s.secDone 1 []
    else if !s.procPresent i then s.secDone 2 []
    else if procKind i = 3 ∧ !s.dcsRun then s.secDone 6 []
    else match image with
      | none => s.secDone 3 []
      | some bs =>
        if s.fetchable addr (Nat.min len 2097152) then
          s.modSec fun x => { x with staging := some (fit (Nat.min len 2097152) bs) }
        else s

/-- The verdict of an image (R354). -/
def verdictOf (s : State) (i : Nat) (img : List Byte) : Nat :=
  let key := imageKey img
  let good := Config.signatureValid img key
  if imageMalformed i img then 6
  else if !bit (wordAt img 3) 0 then 3
  else if Config.sha512 key = Config.vendorDigest then (if good then 1 else 4)
  else if s.fuses.ownerWritten && digestBytes (Config.sha512 key) == s.fuses.ownerDigest then (if good then 2 else 4)
  else 5

/-- An image of a verdict is started (R354). -/
def startsImage (s : State) (v : Nat) : Bool :=
  if s.fuses.signedBlown then v == 1 || v == 2 else decide (v ≠ 0) && decide (v < 6)

/-- The SPDM connection state is lost: a cocoon of the SEP firmware, or GET_VERSION (R364, R366). -/
def spdmReset (s : State) : State :=
  s.modSec fun x => { x with spdmVersion := false, spdmCaps := false, spdmAlgs := false, transcript := [], measured := [] }

/-- The population words W7 to W14 of a START record: the GLB population registers (R22, R386). -/
def popWords (s : State) : List Nat :=
  let v := s.variant
  let st := s.presentStacks
  let links := 2 ^ v.links - 1
  let procs := ((List.range 22).filter s.procPresent).foldl (fun n i => n + 2 ^ i) 0
  [2 ^ v.dies - 1 + (2 ^ v.codecs - 1) * 2 ^ 8, 2 ^ v.ioDies - 1,
   st.foldl (fun n k => n + 2 ^ k) 0 + (((List.range 16).filter v.fitted).foldl (fun n k => n + 2 ^ k) 0) * 2 ^ 16,
   links % 2 ^ 32, links / 2 ^ 32 + (2 ^ v.connectors - 1) * 2 ^ 4, procs, 96 * v.dies, 64 * st.length]

/-- What a processor does first when it starts: a command processor reads its doorbell lines again (R367), the management
processor scans the log (R388), the SEP firmware begins without an SPDM exchange. -/
def procStarts (s : State) (i : Nat) : State :=
  if i = 0 then s.spdmReset
  else if i = 1 then s.logStart s.popWords
  else if i < 10 then
    let qs := (List.range 1024).filter fun q => s.flag .QUE_SQ_CTRL_ENABLE q && s.f .QUE_SQ_SETUP_SERVE_DIE q == i - 2
    s.modCp fun c => { c with stale := c.stale ++ (qs.map HostLine.doorbell).filter fun l => !c.stale.contains l }
  else s

/-- IMAGE_CHECK: digests, verdict, and the steps of R355 for an image that is started.
DEDUCED: notes/assumptions/56.md. -/
def imageCheck (s : State) : State :=
  match s.sec.busy, s.sec.staging with
  | some 1, some img =>
    let i := s.secArg 0 % 32
    let k := procKind i
    let v := s.verdictOf i img
    let d := if v = 6 then rep 64 0 else digestBytes (Config.sha512 (imageBody img))
    let key := if v ≠ 6 ∧ bit (wordAt img 3) 0 then digestBytes (Config.sha512 (imageKey img)) else []
    let first := s.f .SEC_PROC_STATUS_STATE i == 1
    let starts := s.startsImage v
    let s := if starts then s.extendMr k d else s
    let s := s.logEvent fun n =>
      mrEntry n k (if first then 3 else 4) i v starts (wordAt img 1) (wordAt img 2) s.time d key
    let s := s.setF .SEC_MBX_STATUS_VERDICT 0 v
    if starts then
      let s := if s.procRunning i then s.setFlag .SEC_PROC_STATUS_WATCHDOG i false else s
      let code := (img.drop 640).take (wordAt img 4)
      let s := s.modSec fun x => { x with procs := x.procs.put ⟨[], 0⟩ i ⟨code, wordAt img 5⟩ }
      let s := ((s.setF .SEC_PROC_STATUS_STATE i 2).setF .SEC_PROC_STATUS_VERDICT i v).setF .SEC_PROC_ABI_ABI_ID i (wordAt img 1)
      ((s.bump .SEC_LOADS_COUNT).procStarts i).secDone 0 []
    else (s.bump .SEC_REJECTS_COUNT).secDone (if v = 6 then 4 else 5) []
  | _, _ => s

/-- WATCHDOG_EXPIRY: the processor is held in cocoon (R365). DEDUCED: notes/assumptions/64.md. -/
def watchdog (s : State) (i : Nat) : State :=
  if decide (i < 22) && s.procRunning i && s.f .SEC_SETUP_WDOG_LOG2 != 0 then
    let s := (s.setF .SEC_PROC_STATUS_STATE i 3).setFlag .SEC_PROC_STATUS_WATCHDOG i true
    let s := (s.setFlag .SEC_STATUS_COCOON_EVENT 0 true).bump .SEC_WATCHDOGS_COUNT
    let s := if i = 0 then s.spdmReset else s
    let s := s.log 0x13 false 1 [i]
    s.when (s.flag .SEC_SETUP_IRQ_EN) (·.raise (s.f .SEC_SETUP_VECTOR))
  else s

/-! ### ABI (R368) -/

/-- ABI_ID of each running processor. -/
def runningAbis (s : State) : List Nat := ((List.range 22).filter s.procRunning).map fun i => s.f .SEC_PROC_ABI_ABI_ID i

/-- GLB_FW_ABI. -/
def fwAbi (s : State) : Nat :=
  match s.runningAbis with
  | [] => 0
  | a :: as => if as.all (· == a) then a else 0

/-- SEC_STATUS.ABI_MIXED. -/
def abiMixed (s : State) : Bool := !s.runningAbis.isEmpty && s.fwAbi == 0

/-! ### The other commands -/

/-- A report without its signature, for the registers of a mask (R361). -/
def reportBody (s : State) (mask : Nat) (nonce : List Byte) : List Byte :=
  let flags := b2n s.fuses.signedBlown + b2n s.fuses.ownerWritten * 2 + s.f .SEC_STATUS_LOG_FULL * 4 + b2n s.abiMixed * 8
    + s.f .SEC_STATUS_CHAIN_VALID * 16
  toLE 4 (0xD1A7 + 2 ^ 16) ++ toLE 4 flags ++ toLE 8 s.fuses.deviceId ++ toLE 8 s.time ++ toLE 4 (s.f .SEC_LOG_COUNT_COUNT)
    ++ toLE 4 (mask % 2 ^ 16) ++ fit 32 nonce ++ rep 64 0
    ++ (List.range 16).flatMap fun k => if bit mask k then digestBytes (s.mr k) else rep 64 0

/-- A signature under the identity key. -/
def sign (s : State) (bs : List Byte) : List Byte := fit 512 (Config.signReport s.fuses.deviceId bs)

/-- REPORT. -/
def report (s : State) : State :=
  s.secCommand 2 fun s =>
    let b := s.reportBody (s.secArg 0 % 2 ^ 16) (wordBytes ((span 8 8).map s.secArg))
    let words := bytesWords 416 (b ++ s.sign b)
    (s.bump .SEC_REPORTS_COUNT).secDone 0 words

/-- READ_LOG: a count outside 1 to 32 is a bad argument. DEDUCED: notes/assumptions/65.md. -/
def readLog (s : State) : State :=
  s.secCommand 3 fun s =>
    let a := s.secArg 0
    let n := s.secArg 1
    if n = 0 ∨ 32 < n then s.secDone 1 []
    else if s.sec.log.length < a + n then s.secDone 9 []
    else s.secDone 0 (((s.sec.log.drop a).take n).flatMap (bytesWords 32))

/-- READ_CHAIN: a length outside 1 to 4,096 is a bad argument. The last word of results is filled with zeros.
DEDUCED: notes/assumptions/65.md. -/
def readChain (s : State) : State :=
  s.secCommand 4 fun s =>
    let a := s.secArg 0
    let n := s.secArg 1
    if !s.flag .SEC_STATUS_CHAIN_VALID then s.secDone 8 []
    else if n = 0 ∨ 4096 < n then s.secDone 1 []
    else if s.sec.chain.length < a + n then s.secDone 9 []
    else s.secDone 0 (bytesWords ((n + 3) / 4) ((s.sec.chain.drop a).take n))

/-- EXTEND. -/
def extendMrCommand (s : State) : State :=
  s.secCommand 5 fun s =>
    let k := s.secArg 0 % 16
    if k < 8 then s.secDone 9 []
    else
      let d := s.secDigest 16
      ((s.extendMr k d).logEvent fun n => mrEntry n k 5 0 0 true 0 0 s.time d []).secDone 0 []

/-- PROGRAM_FUSE. -/
def programFuse (s : State) : State :=
  s.secCommand 6 fun s =>
    if s.secArg 1 ≠ 0x5EC0F05E then s.secDone 1 []
    else match s.secArg 0 with
      | 1 =>
        if s.fuses.signedBlown then s.secDone 7 []
        else ({ s with fuses := { s.fuses with signedBlown := true } } : State).secDone 0 []
      | 2 =>
        if s.fuses.ownerWritten then s.secDone 7 []
        else
          let f : Fuses := { s.fuses with ownerDigest := s.secDigest 16, ownerWritten := true }
          ({ s with fuses := f } : State).secDone 0 []
      | _ => s.secDone 1 []

end State

/-! ### Meanings -/

/-- LOAD (R353). -/
def execLoad (image : Option (List Byte)) (s : State) : Out := .next (s.loadImage image)

/-- REPORT (R361). -/
def execReport (s : State) : Out := .next s.report

/-- READ_LOG (R369). -/
def execReadLog (s : State) : Out := .next s.readLog

/-- READ_CHAIN (R369). -/
def execReadChain (s : State) : Out := .next s.readChain

/-- EXTEND (R356). -/
def execExtend (s : State) : Out := .next s.extendMrCommand

/-- PROGRAM_FUSE (R358). -/
def execProgramFuse (s : State) : Out := .next s.programFuse

/-- WATCHDOG_EXPIRY (R365). -/
def execWatchdogExpiry (i : Nat) (s : State) : Out := .next (s.watchdog i)

end Sys2Proof.Machine
end

