-- ==== Sys2Proof/Machine/Sideband.lean ====
section
/-!
DEFINITION. The sideband: MCTP control (14 R363), SPDM (14 R364), PLDM (15 R389), the I3C dynamic address (17 R427). The
spec names the messages and leaves their bytes to the DMTF standards DSP0236, DSP0274, DSP0240 and DSP0248; a byte that
neither gives is a free value (notes/assumptions/12.md).
-/
namespace Sys2Proof.Machine

/-- Byte `i` of a request. -/
def byteAt (bs : List Byte) (i : Nat) : Nat := (nth 0 bs i).toNat

/-- `n` bytes from byte `i` on, as a number. -/
def fieldAt (bs : List Byte) (i n : Nat) : Nat := fromLE (fit n (bs.drop i))

/-- Bytes from numbers. -/
def bytesOf (l : List Nat) : List Byte := l.map (BitVec.ofNat 8)

/-- The CRC-32 that ends PLDM transfers (DSP0240). -/
def crc32Bit (c : Nat) : Nat := if c % 2 = 1 then (c / 2) ^^^ 0xEDB88320 else c / 2
def crc32Byte (c : Nat) (b : Byte) : Nat :=
  crc32Bit (crc32Bit (crc32Bit (crc32Bit (crc32Bit (crc32Bit (crc32Bit (crc32Bit (c ^^^ b.toNat))))))))
def crc32 (bs : List Byte) : Nat := (bs.foldl crc32Byte 0xFFFFFFFF) ^^^ 0xFFFFFFFF

namespace State

/-- `n` free bytes. -/
def freeOctets (n : Nat) (s : State) : List Byte × State :=
  let (vs, s) := freeList 8 n s
  (bytesOf vs, s)

/-! ### SPDM (R363, R364) -/

/-- Send an answer of the SEP firmware. -/
def answerSec (s : State) (bs : List Byte) : State := s.modSec fun x => { x with responses := x.responses ++ [bs] }

/-- ERROR with a code and its data byte. -/
def spdmError (s : State) (code data : Nat) : State := s.answerSec (bytesOf [0x12, 0x7F, code, data])

/-- An SPDM request is taken: the part is started, the SEP firmware runs. -/
def spdmRequest (s : State) (code : Nat) (req : List Byte) (body : State → State) : State :=
  if s.running && s.procRunning 0 && byteAt req 1 == code then body s else s

/-- A request of version 1.2 in the connection's order: InvalidRequest for another version, UnexpectedRequest before
its predecessors. -/
def spdm12 (s : State) (req : List Byte) (ready : Bool) (body : State → State) : State :=
  if byteAt req 0 ≠ 0x12 then s.spdmError 0x01 0 else if ready then body s else s.spdmError 0x04 0

/-- Answer and take both messages into the transcript. -/
def spdmAnswer (s : State) (req resp : List Byte) : State :=
  (s.answerSec resp).modSec fun x => { x with transcript := x.transcript ++ req ++ resp }

/-- GET_VERSION: version 1.2 only; the connection state is reset. -/
def spdmGetVersion (s : State) (req : List Byte) : State :=
  s.spdmRequest 0x84 req fun s =>
    if byteAt req 0 ≠ 0x10 then s.spdmError 0x01 0
    else
      let s := s.spdmReset.spdmAnswer req (bytesOf [0x10, 0x04, 0, 0, 0, 1, 0, 0x12])
      s.modSec fun x => { x with spdmVersion := true }

/-- GET_CAPABILITIES: CERT_CAP, CHAL_CAP, MEAS_CAP with signature; CTExponent 20; the transfer sizes are open. -/
def spdmCapabilities (s : State) (req : List Byte) : State :=
  s.spdmRequest 0xE1 req fun s => s.spdm12 req s.sec.spdmVersion fun s =>
    let (sizes, s) := freeOctets 8 s
    let s := s.spdmAnswer req (bytesOf [0x12, 0x61, 0, 0, 0, 20, 0, 0] ++ toLE 4 0x16 ++ sizes)
    s.modSec fun x => { x with spdmCaps := true }

/-- NEGOTIATE_ALGORITHMS: RSASSA-4096 (bit 5), SHA-512 (bit 2), DMTF measurements (bit 0); a request that offers
none of them is invalid. -/
def spdmAlgorithms (s : State) (req : List Byte) : State :=
  s.spdmRequest 0xE3 req fun s => s.spdm12 req s.sec.spdmCaps fun s =>
    if !(bit (byteAt req 6) 0 && bit (fieldAt req 8 4) 5 && bit (fieldAt req 12 4) 2) then s.spdmError 0x01 0
    else
      let resp := bytesOf [0x12, 0x63, 0, 0] ++ toLE 2 36 ++ bytesOf [1, 0] ++ toLE 4 8 ++ toLE 4 0x20 ++ toLE 4 4 ++ rep 16 0
      (s.spdmAnswer req resp).modSec fun x => { x with spdmAlgs := true }

/-- The chain, none while CHAIN_VALID is 0 (R360). -/
def spdmChain (s : State) : List Byte := if s.flag .SEC_STATUS_CHAIN_VALID then s.sec.chain else []

/-- The digest of the chain. -/
def chainHash (s : State) : List Byte := digestBytes (Config.sha512 s.spdmChain)

/-- GET_DIGESTS: slot 0 only. -/
def spdmDigests (s : State) (req : List Byte) : State :=
  s.spdmRequest 0x81 req fun s => s.spdm12 req s.sec.spdmAlgs fun s =>
    if s.spdmChain = [] then s.spdmAnswer req (bytesOf [0x12, 0x01, 0, 0])
    else s.spdmAnswer req (bytesOf [0x12, 0x01, 0, 1] ++ s.chainHash)

/-- GET_CERTIFICATE: a portion of the chain of slot 0, from an offset; the part answers the whole length asked for. -/
def spdmCertificate (s : State) (req : List Byte) : State :=
  s.spdmRequest 0x82 req fun s => s.spdm12 req s.sec.spdmAlgs fun s =>
    let off := fieldAt req 4 2
    let chain := s.spdmChain
    if byteAt req 2 % 16 ≠ 0 ∨ (chain ≠ [] ∧ chain.length ≤ off) then s.spdmError 0x01 0
    else
      let part := (chain.drop off).take (fieldAt req 6 2)
      s.spdmAnswer req (bytesOf [0x12, 0x02, 0, 0] ++ toLE 2 part.length ++ toLE 2 (chain.length - off - part.length) ++ part)

/-- Measurement block `b`, 1 to 16: MR(b - 1) as a digest; immutable ROM, mutable firmware or firmware configuration. -/
def measurementBlock (s : State) (b : Nat) : List Byte :=
  let kind := if b = 1 then 0 else if b < 9 then 1 else 3
  bytesOf [b, 1] ++ toLE 2 67 ++ bytesOf [kind] ++ toLE 2 64 ++ digestBytes (s.mr (b - 1))

/-- Blocks 1 to 16. -/
def measurementBlocks (s : State) : List Byte := (span 1 16).flatMap s.measurementBlock

/-- CHALLENGE: slot 0; the summary hash covers every block; signed with the identity key. -/
def spdmChallenge (s : State) (req : List Byte) : State :=
  s.spdmRequest 0x83 req fun s => s.spdm12 req s.sec.spdmAlgs fun s =>
    if byteAt req 2 ≠ 0 ∨ !([0, 1, 0xFF].contains (byteAt req 3)) then s.spdmError 0x01 0
    else
      let (nonce, s) := freeOctets 32 s
      let summary := if byteAt req 3 = 0 then [] else digestBytes (Config.sha512 s.measurementBlocks)
      let body := bytesOf [0x12, 0x03, 0, 1] ++ s.chainHash ++ nonce ++ summary ++ toLE 2 0
      let s := s.answerSec (body ++ s.sign (s.sec.transcript ++ req ++ body))
      (s.modSec fun x => { x with transcript := [] }).bump .SEC_REPORTS_COUNT

/-- GET_MEASUREMENTS: the count (0), every block (0xFF) or one of them, signed when asked. -/
def spdmMeasurements (s : State) (req : List Byte) : State :=
  s.spdmRequest 0xE0 req fun s => s.spdm12 req s.sec.spdmAlgs fun s =>
    let op := byteAt req 3
    let signed := bit (byteAt req 2) 0
    if 16 < op ∧ op ≠ 0xFF then s.spdmError 0x01 0
    else
      let record := if op = 0 then [] else if op = 0xFF then s.measurementBlocks else s.measurementBlock op
      let count := if op = 0 then 0 else if op = 0xFF then 16 else 1
      let (nonce, s) := freeOctets 32 s
      let body := bytesOf [0x12, 0x60, if op = 0 then 16 else 0, 0, count] ++ toLE 3 record.length ++ record ++ nonce ++ toLE 2 0
      if signed then
        let s := s.answerSec (body ++ s.sign (s.sec.transcript ++ s.sec.measured ++ req ++ body))
        (s.modSec fun x => { x with measured := [] }).bump .SEC_REPORTS_COUNT
      else (s.answerSec body).modSec fun x => { x with measured := x.measured ++ req ++ body }

/-- The request codes of Table SPDM requests supported. -/
def spdmCodes : List Nat := [0x84, 0xE1, 0xE3, 0x81, 0x82, 0x83, 0xE0]

/-- Any other request: ERROR, UnsupportedRequest. -/
def spdmOther (s : State) (req : List Byte) : State :=
  if s.running && s.procRunning 0 && !spdmCodes.contains (byteAt req 1) then s.spdmError 0x07 (byteAt req 1) else s

/-! ### MCTP control (R363) -/

/-- A control command of a code is answered: completion code and data behind the request's instance and code. -/
def mctpControl (s : State) (code : Nat) (req : List Byte) (body : State → List Byte × State) : State :=
  if s.running && (s.procRunning 0 || s.procRunning 1) && byteAt req 1 == code then
    let (bs, s) := body s
    s.answerSec (bytesOf [byteAt req 0 % 128, code] ++ bs)
  else s

/-- Set Endpoint ID: operations 0 and 1 with an ID that is neither 0 nor 0xFF. -/
def mctpSetEid (s : State) (req : List Byte) : State :=
  s.mctpControl 0x01 req fun s =>
    let e := byteAt req 3
    if 1 < byteAt req 2 % 4 ∨ e = 0 ∨ e = 0xFF then (bytesOf [0x02], s)
    else (bytesOf [0, 0, e, 0], s.modSec fun x => { x with eid := e })

/-- Get Endpoint ID. -/
def mctpGetEid (s : State) (req : List Byte) : State :=
  s.mctpControl 0x02 req fun s => (bytesOf [0, s.sec.eid, 0, 0], s)

/-- Get MCTP Version Support: base, control, PLDM and SPDM; the version entry is open. -/
def mctpVersion (s : State) (req : List Byte) : State :=
  s.mctpControl 0x04 req fun s =>
    if [0xFF, 0, 1, 5].contains (byteAt req 2) then
      let (v, s) := freeOctets 4 s
      (bytesOf [0, 1] ++ v, s)
    else (bytesOf [0x80], s)

/-- Get Message Type Support: besides control, PLDM (1) and SPDM (5). -/
def mctpTypes (s : State) (req : List Byte) : State :=
  s.mctpControl 0x05 req fun s => (bytesOf [0, 2, 1, 5], s)

/-! ### PLDM (R389) -/

/-- Send a PLDM answer behind the request's header. -/
def answerPldm (s : State) (req : List Byte) (bs : List Byte) : State :=
  s.modMgt fun m => { m with responses := m.responses ++ [bytesOf [byteAt req 0 % 128, byteAt req 1, byteAt req 2] ++ bs] }

/-- A PLDM request is taken while the management processor runs; while it is in cocoon the request waits (R366, R389). -/
def pldmTake (s : State) (req : List Byte) (body : State → List Byte × State) : State :=
  if !s.running then s
  else if s.procRunning 1 then
    let (bs, s) := body s
    s.answerPldm req bs
  else if s.f .SEC_PROC_STATUS_STATE 1 = 3 then s.modMgt fun m => { m with waiting := m.waiting ++ [req] }
  else s

/-- A command of a PLDM type. -/
def pldm (s : State) (type cmd : Nat) (req : List Byte) (body : State → List Byte × State) : State :=
  if byteAt req 1 % 64 == type && byteAt req 2 == cmd then s.pldmTake req body else s

/-- GetTID. -/
def pldmGetTid (s : State) (req : List Byte) : State := s.pldm 0 0x02 req fun s => (bytesOf [0, s.mgt.tid], s)

/-- SetTID: 0 and 0xFF are no terminus IDs. -/
def pldmSetTid (s : State) (req : List Byte) : State :=
  s.pldm 0 0x01 req fun s =>
    let t := byteAt req 3
    if t = 0 ∨ t = 0xFF then (bytesOf [0x02], s) else (bytesOf [0], s.modMgt fun m => { m with tid := t })

/-- GetPLDMVersion of types 0 and 2; the version is open. -/
def pldmVersion (s : State) (req : List Byte) : State :=
  s.pldm 0 0x03 req fun s =>
    if [0, 2].contains (byteAt req 8) then
      let (v, s) := freeOctets 4 s
      (bytesOf [0, 0, 0, 0, 0, 5] ++ v ++ toLE 4 (crc32 v), s)
    else (bytesOf [0x83], s)

/-- GetPLDMTypes: types 0 and 2. -/
def pldmTypes (s : State) (req : List Byte) : State := s.pldm 0 0x04 req fun s => (bytesOf [0] ++ toLE 8 0x05, s)

/-- GetPLDMCommands: the commands of R389 for each type. -/
def pldmCommands (s : State) (req : List Byte) : State :=
  s.pldm 0 0x05 req fun s =>
    match byteAt req 3 with
    | 0 => (bytesOf [0] ++ toLE 32 (2 ^ 1 + 2 ^ 2 + 2 ^ 3 + 2 ^ 4 + 2 ^ 5), s)
    | 2 => (bytesOf [0] ++ toLE 32 (2 ^ 0x11 + 2 ^ 0x21 + 2 ^ 0x50 + 2 ^ 0x51), s)
    | _ => (bytesOf [0x83], s)

/-- The present sensors of Table Sensors, by ID, and the state sensor. -/
def pdrIds (s : State) : List Nat :=
  ((span 0x100 0x308).filter fun id => sensorExists id && !s.sensorAbsent id) ++ [0x0500]

/-- Bytes of a PDR: 105 for a numeric sensor with 32-bit readings, 27 for the state sensor. -/
def pdrSize (id : Nat) : Nat := if id = 0x0500 then 27 else 105

/-- The PDR of a sensor, its record handle the sensor ID. What R389 does not give is open: all but its type, length,
sensor ID and, for the state sensor, its one sensor of states 1 to 4. -/
def pdr (s : State) (id : Nat) : List Byte × State :=
  let st := id = 0x0500
  let (a, s) := freeOctets 2 s
  let (b, s) := freeOctets 2 s
  let (c, s) := freeOctets (if st then 8 else 91) s
  let (d, s) := freeOctets 2 s
  (toLE 4 id ++ bytesOf [1, if st then 4 else 2] ++ a ++ toLE 2 (pdrSize id - 10) ++ b ++ toLE 2 id ++ c
    ++ (if st then bytesOf [1] ++ d ++ bytesOf [1, 0x1E] else []), s)

/-- GetPDRRepositoryInfo: the records and their sizes; update times and the timeout are open. -/
def pldmRepository (s : State) (req : List Byte) : State :=
  s.pldm 2 0x50 req fun s =>
    let ids := s.pdrIds
    let (times, s) := freeOctets 26 s
    let (timeout, s) := freeOctets 1 s
    (bytesOf [0, 0] ++ times ++ toLE 4 ids.length ++ toLE 4 ((ids.map pdrSize).foldl (· + ·) 0) ++ toLE 4 105 ++ timeout, s)

/-- GetPDR: the record of a handle (0 for the first), the handle of the next (0 after the last), in one transfer. -/
def pldmGetPdr (s : State) (req : List Byte) : State :=
  s.pldm 2 0x51 req fun s =>
    let h := fieldAt req 3 4
    let ids := s.pdrIds
    match ids.dropWhile (fun id => id != h && h != 0) with
    | [] => (bytesOf [0x82], s)
    | id :: rest =>
      let (r, s) := s.pdr id
      let r := r.take (fieldAt req 12 2)
      (bytesOf [0] ++ toLE 4 (rest.headD 0) ++ toLE 4 0 ++ bytesOf [5] ++ toLE 2 r.length ++ r, s)

/-- GetSensorReading: the reading as 32 bits; a failed sensor is unavailable; states and events are open. -/
def pldmReading (s : State) (req : List Byte) : State :=
  s.pldm 2 0x11 req fun s =>
    let id := fieldAt req 3 2
    let r := s.reading id
    if 2 ≤ r.2 then (bytesOf [0x80], s)
    else
      let (e, s) := freeOctets 3 s
      (bytesOf [0, 5, if r.2 = 1 then 2 else 0, 0] ++ e ++ toLE 4 (word32 r.1), s)

/-- The states of the state sensor that hold: 2 throttled, 3 hard trip, 4 power warning. -/
def statesHeld (s : State) : List Nat :=
  let dies := List.range s.variant.dies
  (if dies.any (fun d => decide (s.mclk d < s.f .MGT_LIMITS_MCLK_CEILING)) then [2] else [])
    ++ (if dies.any (fun d => (s.die d).hardTrip) then [3] else []) ++ (if s.flag .MGT_STATUS_POWER_WARN then [4] else [])

/-- GetStateSensorReadings of sensor 0x0500: a state that holds, 1 where none does; which of several is open. -/
def pldmState (s : State) (req : List Byte) : State :=
  s.pldm 2 0x21 req fun s =>
    if fieldAt req 3 2 ≠ 0x0500 then (bytesOf [0x80], s)
    else
      let (v, s) := s.free
      let (e, s) := freeOctets 2 s
      let held := s.statesHeld
      let now := if held = [] then 1 else nth 1 held (v % held.length)
      (bytesOf [0, 1, 0, now] ++ e, s)

/-- The commands of R389, by type and code. -/
def pldmKnown : List (Nat × Nat) := [(0, 1), (0, 2), (0, 3), (0, 4), (0, 5), (2, 0x11), (2, 0x21), (2, 0x50), (2, 0x51)]

/-- Any other PLDM type or command: ERROR_UNSUPPORTED_PLDM_CMD. -/
def pldmOther (s : State) (req : List Byte) : State :=
  if pldmKnown.contains (byteAt req 1 % 64, byteAt req 2) then s else s.pldmTake req fun s => (bytesOf [0x05], s)

/-- A request of any PLDM command. -/
def pldmAny (s : State) (req : List Byte) : State :=
  ((((((((((s.pldmGetTid req).pldmSetTid req).pldmVersion req).pldmTypes req).pldmCommands req).pldmRepository req).pldmGetPdr
    req).pldmReading req).pldmState req).pldmOther req)

/-- Once the management processor runs again, the requests that waited are answered in their order (R366). -/
def pldmResume (s : State) : State :=
  if s.running && s.procRunning 1 then
    (s.modMgt fun m => { m with waiting := [] }).forEach s.mgt.waiting pldmAny
  else s

/-! ### I3C (R427) -/

/-- DYNAMIC_ADDRESS_ASSIGNMENT: the target takes a dynamic address; its logic answers from step 9 of the start.
DEDUCED: notes/assumptions/71.md. -/
def takeAddress (s : State) (addr : Nat) : State := if s.running then { s with i3c := some addr } else s

end State

/-! ### Meanings -/

/-- IMAGE_CHECK (R355); a management processor that runs again answers what waited for it (R366). -/
def execImageCheck (s : State) : Out := .next s.imageCheck.pldmResume

/-- GET_VERSION (R364). -/
def execGetVersion (req : List Byte) (s : State) : Out := .next (s.spdmGetVersion req)

/-- GET_CAPABILITIES (R364). -/
def execGetCapabilities (req : List Byte) (s : State) : Out := .next (s.spdmCapabilities req)

/-- NEGOTIATE_ALGORITHMS (R364). -/
def execNegotiateAlgorithms (req : List Byte) (s : State) : Out := .next (s.spdmAlgorithms req)

/-- GET_DIGESTS (R364). -/
def execGetDigests (req : List Byte) (s : State) : Out := .next (s.spdmDigests req)

/-- GET_CERTIFICATE (R364). -/
def execGetCertificate (req : List Byte) (s : State) : Out := .next (s.spdmCertificate req)

/-- CHALLENGE (R364). -/
def execChallenge (req : List Byte) (s : State) : Out := .next (s.spdmChallenge req)

/-- GET_MEASUREMENTS (R364). -/
def execGetMeasurements (req : List Byte) (s : State) : Out := .next (s.spdmMeasurements req)

/-- SPDM_UNSUPPORTED_REQUEST (R364). -/
def execSpdmUnsupportedRequest (req : List Byte) (s : State) : Out := .next (s.spdmOther req)

/-- SET_ENDPOINT_ID (R363). -/
def execSetEndpointId (req : List Byte) (s : State) : Out := .next (s.mctpSetEid req)

/-- GET_ENDPOINT_ID (R363). -/
def execGetEndpointId (req : List Byte) (s : State) : Out := .next (s.mctpGetEid req)

/-- GET_MCTP_VERSION_SUPPORT (R363). -/
def execGetMctpVersionSupport (req : List Byte) (s : State) : Out := .next (s.mctpVersion req)

/-- GET_MESSAGE_TYPE_SUPPORT (R363). -/
def execGetMessageTypeSupport (req : List Byte) (s : State) : Out := .next (s.mctpTypes req)

/-- GET_TID (R389). -/
def execGetTid (req : List Byte) (s : State) : Out := .next (s.pldmGetTid req)

/-- SET_TID (R389). -/
def execSetTid (req : List Byte) (s : State) : Out := .next (s.pldmSetTid req)

/-- GET_PLDM_VERSION (R389). -/
def execGetPldmVersion (req : List Byte) (s : State) : Out := .next (s.pldmVersion req)

/-- GET_PLDM_TYPES (R389). -/
def execGetPldmTypes (req : List Byte) (s : State) : Out := .next (s.pldmTypes req)

/-- GET_PLDM_COMMANDS (R389). -/
def execGetPldmCommands (req : List Byte) (s : State) : Out := .next (s.pldmCommands req)

/-- GET_PDR_REPOSITORY_INFO (R389). -/
def execGetPdrRepositoryInfo (req : List Byte) (s : State) : Out := .next (s.pldmRepository req)

/-- GET_PDR (R389). -/
def execGetPdr (req : List Byte) (s : State) : Out := .next (s.pldmGetPdr req)

/-- GET_SENSOR_READING (R389). -/
def execGetSensorReading (req : List Byte) (s : State) : Out := .next (s.pldmReading req)

/-- GET_STATE_SENSOR_READINGS (R389). -/
def execGetStateSensorReadings (req : List Byte) (s : State) : Out := .next (s.pldmState req)

/-- PLDM_UNSUPPORTED_COMMAND (R389). -/
def execPldmUnsupportedCommand (req : List Byte) (s : State) : Out := .next (s.pldmOther req)

/-- DYNAMIC_ADDRESS_ASSIGNMENT (R427). Both ways of giving the address end in the same state. -/
def execDynamicAddressAssignment (_kind : DaaKind) (addr : BitVec 7) (s : State) : Out := .next (s.takeAddress addr.toNat)

end Sys2Proof.Machine
end

