-- ==== Sys2Proof/Machine/Power.lean ====
section
/-!
DEFINITION. Clocks, reset, the hardware start and elapsed time (16_clocks_reset_and_time.md), the module's power
(17_module_electrical_and_mechanical.md R414 to R421, R431), loss of power and shutdown (15 R380, R392).
-/
namespace Sys2Proof.Machine

/-! ### Clock domains (R395) -/

/-- Domain number of a cycle counter's index. -/
def domainOf (n : Nat) : Nat :=
  if n < 1 then 1 else if n < 13 then 2 else if n < 21 then 3 else if n < 29 then 4 else if n < 37 then 5
  else if n < 45 then 6 else if n < 53 then 7 else if n < 65 then 8 else if n < 81 then 9 else if n < 97 then 10
  else if n < 101 then 11 else if n < 137 then 12 else if n < 317 then 13 else if n < 318 then 14 else if n < 320 then 15
  else if n < 328 then 16 else if n < 336 then 17 else if n < 344 then 18 else if n < 345 then 19 else if n < 346 then 20
  else if n < 358 then 21 else if n < 359 then 22 else if n < 360 then 23 else if n < 361 then 24 else 25

/-- First counter index of each domain's instances. -/
def domainBase (m : Nat) : Nat :=
  nth 0 [0, 0, 1, 13, 21, 29, 37, 45, 53, 65, 81, 97, 101, 137, 317, 318, 320, 328, 336, 344, 345, 346, 358, 359, 360, 361] m

/-- The domains with a PLL. -/
def hasPll (m : Nat) : Bool := [3, 4, 5, 6, 7, 8, 9, 10, 11, 12, 14, 16, 17, 18, 19, 20, 25].contains m

/-- The unit of instance `k` of a domain is present (R395, R3): per-die domains number compute dies first. -/
def Variant.hasClock (v : Variant) (m k : Nat) : Bool :=
  match m with
  | 2 | 8 | 21 => if k < 8 then v.hasDie k else v.hasIo (k - 8)
  | 3 | 4 | 5 | 6 | 7 | 16 | 17 | 18 => v.hasDie k
  | 9 | 10 => v.fitted k
  | 11 => v.hasIo k
  | 12 => v.hasLink k
  | 13 => v.hasLink (k / 5)
  | _ => true

/-- Nominal frequency in Hz of a domain that does not change it: its PLL's, REF's or a division of REF. -/
def domainHz (m : Nat) : Nat :=
  nth 0 [0, 100000000, 0, 0, 1300000000, 1000000000, 1400000000, 1750000000, 2000000000, 1000000000, 2000000000,
    1250000000, 1660000000, 1660156250, 1000000000, 0, 1100000000, 800000000, 600000000, 500000000, 600000000,
    25000000, 50000000, 0, 0, 800000000] m

namespace State

/-! ### Elapsed time and cycle counters (R408, R410) -/

/-- Frequency in Hz at which counter `n`'s instance runs now, 0 while it does not run (R408). SBCLK and JCLK are the
board's. -/
def clockHz (s : State) (n : Nat) : Nat :=
  let m := domainOf n
  let k := n - domainBase m
  let locked := s.flag .CLK_STATUS_PLLS_LOCKED
  if !s.variant.hasClock m k then 0
  else match m with
    | 2 => clamp 140000000 260000000 (Config.roscHz s.time k)
    | 3 => if locked then s.mclk k * 1000000 else 0
    | 9 | 10 => if locked && s.stackPresent k then domainHz m else 0
    | 13 =>
      let l := k / 5
      if [2, 3, 4].contains (s.linkState l) && !(s.link l).rx.lost.contains (k % 5) then domainHz m else 0
    | 15 => if [2, 3].contains (s.f .CHL_PORT_STATUS_STATE k) then
        (if s.flag .CHL_PORT_STATUS_RATE k then 500000000 else 1000000000) else 0
    | 23 | 24 => 0
    | _ => if hasPll m && !locked then 0 else domainHz m

/-- One REF cycle of counter `n`. DESIGN CHOICE: notes/assumptions/3.md. -/
def tickClock (s : State) (n : Nat) : State :=
  if n = 0 then s
  else if n = 359 ∨ n = 360 then
    let (edge, s) := s.choose
    if edge then s.bump .CLK_COUNT_COUNT n else s
  else
    let a := s.power.acc.get 0 n + s.clockHz n
    let c := a / 100000000
    let s := { s with power := { s.power with acc := s.power.acc.put 0 n (a % 100000000) } }
    if c = 0 then s else s.bump .CLK_COUNT_COUNT n c

/-- What the block does while no command waits: one REF cycle passes (DESIGN CHOICE: notes/assumptions/3.md). Without power or REF
nothing passes. GLB_POWERED_TIME sets the wrap bit of counter 0 when it wraps. -/
def idle (s : State) : State :=
  if s.power.pwrGood && s.power.start != .refLost then
    let s := s.forEach (List.range 362) tickClock
    let t := s.time + 1
    let s := { s with time := t % 2 ^ 64 }
    if t < 2 ^ 64 then s else s.orBit .CLK_COUNTER_WRAP_WRAPPED 0 0
  else s

/-! ### Loss of power and reset (R392, R400 to R402) -/

/-- Change the power state. -/
def modPower (s : State) (g : Power → Power) : State := { s with power := g s.power }

/-- Register fields after a power-on reset: POWER_LIMIT is TDP, the rest as State.reset (R375). -/
def resetFields (v : Variant) : FMap Nat := [(key .MGT_LIMITS_POWER_LIMIT 0, v.tdp)]

/-- Everything is lost but the fuses, the programmed log records and the board's straps; the module is off (R392).
DESIGN CHOICE: notes/assumptions/78.md. -/
def powerLost (s : State) : State :=
  { State.reset with
    fuses := s.fuses, straps := s.straps, fields := resetFields s.variant,
    mgt := { Mgt.reset with flash := s.mgt.flash, head := s.mgt.head, seq := s.mgt.seq, startCount := s.mgt.startCount },
    power := { s.power with pwrGood := false, start := .off, resetPending := false, resetAt := none, lockFailures := [], acc := [], vcblOff := [] },
    nextId := s.nextId, freeIx := s.freeIx, pending := s.pending }

/-- The converters turn off; `latch` keeps them off until the board cycles PWR_EN. -/
def powerOff (s : State) (latch : Bool) : State :=
  s.powerLost.modPower fun p => { p with converters := false, latchedOff := p.latchedOff || latch }

/-- The kept fields of a part reset (R401): by the field that a key names. -/
def keptFields (s : State) : FMap Nat :=
  let keep := fun (x : Nat × Nat) =>
    Fld.all.any fun y => y.idx == x.1 % 1024 && (y.kept || (y.idx == Fld.HBM_STATUS_STATE.idx && x.2 == 3))
  FMap.put 0 (s.fields.filter keep) (key .MGT_LIMITS_POWER_LIMIT 0) s.variant.tdp

/-- A part reset of a cause: everything takes its reset value but what R401 keeps. The part is in reset.
DEDUCED: notes/assumptions/71.md; DESIGN CHOICE: notes/assumptions/78.md. -/
def resetPart (s : State) (cause domain index : Nat) : State :=
  let r : State :=
    { State.reset with
      fuses := s.fuses, straps := s.straps, fields := s.keptFields, fences := s.fences, time := s.time,
      mgt := { Mgt.reset with flash := s.mgt.flash, head := s.mgt.head, seq := s.mgt.seq, startCount := s.mgt.startCount,
                              repair := s.mgt.repair },
      power := { s.power with start := .inReset, resetPending := s.power.resetPending && cause != 3, resetAt := some s.time, vcblOff := [] },
      jtag := s.jtag, nextId := s.nextId, freeIx := s.freeIx, pending := s.pending }
  let r := ((r.setF .CLK_RESET_CAUSE_CAUSE 0 cause).setF .CLK_RESET_CAUSE_DOMAIN 0 domain).setF .CLK_RESET_CAUSE_COUNTER_INDEX 0 index
  r.bump .CLK_PART_RESETS_COUNT

/-- A part reset is under way. -/
def inReset (s : State) : Bool := s.power.start == .inReset || s.power.start == .refLost

/-- Another cause arises during a part reset: it starts nothing, but within the REF cycle in which the reset began the lowest
cause is the one recorded (R405). DEDUCED: notes/assumptions/71.md. -/
def alsoCause (s : State) (cause : Nat) : State :=
  if s.inReset && s.power.resetAt == some s.time && decide (cause < s.f .CLK_RESET_CAUSE_CAUSE) then
    ((s.setF .CLK_RESET_CAUSE_CAUSE 0 cause).setF .CLK_RESET_CAUSE_DOMAIN 0 0).setF .CLK_RESET_CAUSE_COUNTER_INDEX 0 0
  else s

/-- POWER_ON_RESET: PWR_GOOD asserts while the converters run; time starts from zero, the board holds RESET_N (R403). -/
def powerOnReset (s : State) : State :=
  if s.power.converters && !s.power.pwrGood then
    let s := s.powerLost
    s.modPower fun p => { p with pwrGood := true, resetN := true, start := .inReset }
  else s

/-- PART_RESET: RESET_N asserts. During a part reset it only holds the part in reset (R405). -/
def partReset (s : State) : State :=
  if !s.power.pwrGood then s
  else
    let s := if s.running then s.resetPart 2 0 0 else s.alsoCause 2
    s.modPower fun p => { p with resetN := true }

/-- PART_RESET_KEY_WRITE: a write of CLK_RESET_CTRL with PART_RESET and its key is accepted (R405). -/
def keyWrite (s : State) (v : Nat) : State :=
  if s.running && bit v 0 && bits v 31 16 == 0xD5E7 then s.modPower fun p => { p with resetPending := true } else s

/-- PART_RESET_DELAY_EXPIRY: 10 µs after an accepted write, the part resets and restarts at step 3 of the start. -/
def delayExpiry (s : State) : State :=
  if !s.power.resetPending then s
  else if s.running then s.resetPart 3 0 0
  else (s.alsoCause 3).modPower fun p => { p with resetPending := false }

/-- SETUP_LOCK (R412). -/
def setupLock (s : State) : State := if s.running then s.setFlag .CLK_LOCK_SETUP_LOCK 0 true else s

/-- REF_LOST: the part is held in reset; during a part reset nothing else starts (R398, R405). -/
def refLost (s : State) : State :=
  let s := if s.running then s.resetPart 4 0 0 else s.alsoCause 4
  if s.power.start == .inReset then s.modPower fun p => { p with start := .refLost } else s

/-- REF_RETURN: 1 ms after REF returns the part leaves the reset for REF lost; RESET_N may still hold it. -/
def refReturn (s : State) : State :=
  if s.power.start == .refLost then s.modPower fun p => { p with start := .inReset } else s

/-- PLL_LOST: a PLL of a present unit leaves its window, or has not locked at a start; a third failure to lock in
succession turns the converters off (R398). DEDUCED: notes/assumptions/61.md. -/
def pllLost (s : State) (domain index : Nat) (starting : Bool) : State :=
  if index < 362 ∧ domainOf index = domain ∧ hasPll domain ∧ s.variant.hasClock domain (index - domainBase domain) then
    if starting then
      if s.power.start == .inReset then
        let n := s.power.lockFailures.get 0 index + 1
        if 3 ≤ n then s.powerOff true
        else (s.resetPart 5 domain index).modPower fun p => { p with lockFailures := FMap.put 0 [] index n }
      else s
    else if s.running then s.resetPart 5 domain index
    else s
  else s

/-! ### The hardware start (R406) -/

/-- Step 5: the certificate chain is read from flash and checked (R360). -/
def readFlashChain (s : State) (chain : List Byte) : State :=
  (s.modSec fun x => { x with chain := chain }).setFlag .SEC_STATUS_CHAIN_VALID 0
    (digestBytes (Config.sha512 chain) == s.fuses.chainDigest)

/-- Step 7: the stack trains at 8.0 Gb/s, at 6.4 Gb/s, which is logged, or fails; a stack that failed before a part reset
is not trained again (R222, R401). DEDUCED: notes/assumptions/64.md. -/
def trainStack (s : State) (fast slow : Nat) (k : Nat) : State :=
  if !s.variant.fitted k || s.f .HBM_STATUS_STATE k == 3 then s
  else if bit fast k then s.setF .HBM_STATUS_STATE k 1
  else
    let st := if bit slow k then 2 else 3
    (s.setF .HBM_STATUS_STATE k st).log 0x07 false (dcIx (k / 2)) [k + st * 16]

/-- HARDWARE_START: RESET_N is released, or a part reset that needs no release ends; steps 3 to 9 of the start. -/
def hardwareStart (s : State) (r : StartResult) : State :=
  if s.power.start != .inReset then s
  else
    let s := s.modPower fun p => { p with resetN := false, lockFailures := [], start := .running, resetPending := false, resetAt := none }
    let s := (s.setF .CLK_RESET_TIME_TIME 0 s.time).romMeasure
    let s := (s.setFlag .CLK_STATUS_PLLS_LOCKED 0 true).readFlashChain r.chain
    let s := (s.setF .CHL_PORT_STATUS_STATE 0 1).setF .CHL_PORT_STATUS_STATE 1 1
    let s := (s.portTrainingComplete 0 r.port0).portTrainingComplete 1 r.port1
    let s := s.forEach (List.range 16) fun s k => s.trainStack r.fast.toNat r.slow.toNat k
    let s := s.forEach ((List.range 22).filter s.procPresent) fun s i => s.setF .SEC_PROC_STATUS_STATE i 1
    s.setFlag .CLK_STATUS_HW_READY 0 true

/-! ### The module's power (R414 to R420) -/

/-- The converters start while PWR_EN is asserted and the capacitors are charged. -/
def startConverters (s : State) : State :=
  s.modPower fun p => { p with converters := p.converters || (p.pwrEn && p.charged && !p.latchedOff) }

/-- PWR_EN_ASSERT: an assertion sooner than 100 ms after the deassertion is held until then; the converters start either
way, and a module that was off starts again (R419). DEDUCED: notes/assumptions/62.md. -/
def enAssert (s : State) : State :=
  if s.power.pwrEn then s else (s.modPower fun p => { p with pwrEn := true, latchedOff := false }).startConverters

/-- PWR_EN_DEASSERT. -/
def enDeassert (s : State) : State :=
  if s.power.pwrEn then (s.powerOff false).modPower fun p => { p with pwrEn := false } else s

/-- RAIL_OUT_OF_REGULATION: PWR_GOOD deasserts (R420), which the host takes as a loss under R392.
DEDUCED: notes/assumptions/63.md. -/
def railOut (s : State) (r : Nat) : State := if s.variant.hasRail r && s.power.pwrGood then s.powerLost else s

/-- RAIL_START_TIMEOUT: the rails are not in regulation 50 ms after PWR_EN (R406). -/
def railTimeout (s : State) : State := if s.power.converters && !s.power.pwrGood then s.powerOff true else s

/-- VIN_OVERVOLTAGE (R414). -/
def overvoltage (s : State) : State := if s.power.vin then s.powerOff true else s

/-- VIN_UNDERVOLTAGE: the capacitors fall below 50 V, a power loss (R414). DEDUCED: notes/assumptions/73.md. -/
def undervoltage (s : State) : State := (s.powerOff false).modPower fun p => { p with vin := false, charged := false }

/-- INPUT_CURRENT_LIMIT_TIMEOUT: no log record is written (R417). -/
def currentLimit (s : State) : State := if s.power.converters then s.powerOff true else s

/-- VIN_APPLIED: the capacitors charge, and the converters start if PWR_EN is asserted (R418).
DEDUCED: notes/assumptions/73.md. -/
def vinApplied (s : State) : State := (s.modPower fun p => { p with vin := true, charged := true }).startConverters

/-- VCBL_OVERCURRENT: VCBL of a connector in use is switched off until the next part reset (R431). -/
def vcblOver (s : State) (k : Nat) : State :=
  if s.running && decide (k < s.variant.connectors) then s.modPower fun p => { p with vcblOff := p.vcblOff.put false k true }
  else s

/-- SHUTDOWN_POWER_OFF: the SHUTDOWN record goes ahead of the queue, then the converters turn off (R380). -/
def shutdownOff (s : State) : State :=
  match s.mgt.shutdown with
  | none => s
  | some (cause, unit, r) =>
    let s := if s.logReady then s.program ⟨0x03, false, false, 0, s.time, s.mgt.startCount, 1, 0, [cause, unit, word32 r]⟩ else s
    s.powerOff true

end State

/-! ### Meanings -/

/-- SHUTDOWN_POWER_OFF (R380). -/
def execShutdownPowerOff (s : State) : Out := .next s.shutdownOff

/-- POWER_ON_RESET (R400). -/
def execPowerOnReset (s : State) : Out := .next s.powerOnReset

/-- PART_RESET (R401). -/
def execPartReset (s : State) : Out := .next s.partReset

/-- HARDWARE_START (R406). -/
def execHardwareStart (r : StartResult) (s : State) : Out := .next (s.hardwareStart r)

/-- PART_RESET_KEY_WRITE (R405). -/
def execPartResetKeyWrite (value : BitVec 32) (s : State) : Out := .next (s.keyWrite value.toNat)

/-- SETUP_LOCK (R412). -/
def execSetupLock (s : State) : Out := .next s.setupLock

/-- REF_LOST (R398). -/
def execRefLost (s : State) : Out := .next s.refLost

/-- REF_RETURN (R398). -/
def execRefReturn (s : State) : Out := .next s.refReturn

/-- PLL_LOST (R398). -/
def execPllLost (domain : BitVec 5) (index : BitVec 9) (starting : Bool) (s : State) : Out :=
  .next (s.pllLost domain.toNat index.toNat starting)

/-- PWR_EN_ASSERT (R419). How long ago PWR_EN was deasserted changes when the start begins, not what it does.
DEDUCED: notes/assumptions/62.md. -/
def execPwrEnAssert (_msSinceDeassert : Nat) (s : State) : Out := .next s.enAssert

/-- PWR_EN_DEASSERT (R419). -/
def execPwrEnDeassert (s : State) : Out := .next s.enDeassert

/-- RAIL_OUT_OF_REGULATION (R420). -/
def execRailOutOfRegulation (r : Nat) (s : State) : Out := .next (s.railOut r)

/-- RAIL_START_TIMEOUT (R406). -/
def execRailStartTimeout (s : State) : Out := .next s.railTimeout

/-- VIN_OVERVOLTAGE (R414). -/
def execVinOvervoltage (s : State) : Out := .next s.overvoltage

/-- VIN_UNDERVOLTAGE (R414). -/
def execVinUndervoltage (s : State) : Out := .next s.undervoltage

/-- INPUT_CURRENT_LIMIT_TIMEOUT (R417). -/
def execInputCurrentLimitTimeout (s : State) : Out := .next s.currentLimit

/-- VCBL_OVERCURRENT (R431). -/
def execVcblOvercurrent (k : Nat) (s : State) : Out := .next (s.vcblOver k)

/-- CHL_PORT_TRAINING_COMPLETE (R318). -/
def execChlPortTrainingComplete (port : Nat) (result : Option (Bool × Bool × Bool)) (s : State) : Out :=
  .next (s.portTrainingComplete port result)

/-- PART_RESET_DELAY_EXPIRY (R405). -/
def execPartResetDelayExpiry (s : State) : Out := .next s.delayExpiry

/-- VIN_APPLIED (R418). -/
def execVinApplied (s : State) : Out := .next s.vinApplied

end Sys2Proof.Machine
end

