-- ==== Sys2Proof/Machine/Registers.lean ====
section
/-!
DEFINITION. The register window (00_scope.md R8 to R13): what a read of each register shows, what a write of it does,
and the messages that carry accesses (12_chautlink.md R302, R309 and its link configuration space).
-/
namespace Sys2Proof.Machine

/-! ### Instances -/

/-- Units of a register's first index. -/
inductive RegUnit where
  | part | tile | stack | link | die | proc
  deriving DecidableEq, Repr

/-- The unit that an instance of a register belongs to (R3, R9). -/
def Reg.unit (r : Reg) : RegUnit :=
  if 0x110000 ≤ r.info.off then .tile
  else if 0x0B0000 ≤ r.info.off ∧ r.info.off < 0x0C0000 then .stack
  else match r with
    | .FAB_LINK_CTRL | .FAB_LINK_STATUS | .FAB_LINK_PEER | .FAB_LINK_COUNTER_WRAP | .FAB_LINK_FEC_CORRECTED
    | .FAB_LINK_FEC_UNCORRECTABLE | .FAB_LINK_CRC_ERRORS | .FAB_LINK_REPLAYS | .FAB_LINK_RETRAINS | .FAB_LINK_FRAMES => .link
    | .XLT_WALKER_STATUS | .MGT_DIE_STATUS => .die
    | .SEC_PROC_STATUS | .SEC_PROC_ABI => .proc
    | _ => .part

/-- Instances of the inner indices of a register. -/
def RegInfo.inner (r : RegInfo) : Nat := r.dims.tail.foldl (fun n d => n * d.1) 1

/-- State of a group as GRP_DBG_STATUS.STATE shows it; none where the tables give a halted group no code.
DESIGN CHOICE: notes/assumptions/69.md. -/
def Group.shown (t : Tile) (g : Nat) (x : Group) (parked : Bool) : Option Nat :=
  if x.active then some 1
  else if t.thr.promo.contains g then some 7
  else match x.wait with
    | .none => none
    | .data _ _ => some 2
    | .xlat => some (if parked then 6 else 2)
    | .full => some 4
    | .array => some 5
    | .barb _ | .membar _ _ | .sem _ => some 3

/-- Word `w` of a list of 16-bit values, two in a word. -/
def pairWord (vs : List Nat) (w : Nat) : Nat := nth 0 vs (2 * w) % 2 ^ 16 + nth 0 vs (2 * w + 1) % 2 ^ 16 * 2 ^ 16

namespace State

/-- The unit of an instance is present. Of a stack that is fitted and failed training, HBM_STATUS alone reads.
DEDUCED: notes/assumptions/68.md. -/
def regPresent (s : State) (r : Reg) (i : Nat) : Bool :=
  let u := i / r.info.inner
  match r.unit with
  | .part => true
  | .tile => s.variant.hasTile u
  | .stack => if r = .HBM_STATUS then s.variant.fitted u else s.stackPresent u
  | .link => s.variant.hasLink u
  | .die => s.variant.hasDie u
  | .proc => s.procPresent u

/-! ### What a read shows (R11) -/

/-- The sum of bit `k` over the members of a list. -/
def maskBits (l : List Nat) (g : Nat → Bool) : Nat := (l.filter g).foldl (fun n k => n + 2 ^ k) 0

/-- The group that the debug registers of a tile address. -/
def dbgGroup (s : State) (p : Nat) : Option Group := (s.tile p).group? (s.f .GRP_DBG_SEL_GROUP p)

/-- The stack entry that they address: entry 0 is the bottom. -/
def dbgPath (s : State) (p : Nat) : Option Path :=
  if s.f .GRP_DBG_REG_SEL_KIND p = 2 then (s.dbgGroup p).bind fun x => x.stack.reverse[s.f .GRP_DBG_REG_SEL_INDEX p]?
  else none

/-- GLB and CLK fields that show other state. -/
def viewGlb (s : State) : Fld → Option Nat
  | .GLB_IDENTITY_PART_NUMBER => some s.variant.code
  | .GLB_IDENTITY_STEPPING => some s.fuses.stepping
  | .GLB_FW_ABI_ABI_ID => some s.fwAbi
  | .GLB_POP_COMPUTE_DIES => some (nth 0 s.popWords 0)
  | .GLB_POP_COMPUTE_CODEC => some (nth 0 s.popWords 0 / 2 ^ 8)
  | .GLB_POP_IO_DIES => some (nth 0 s.popWords 1)
  | .GLB_POP_STACKS_PRESENT => some (nth 0 s.popWords 2)
  | .GLB_POP_STACKS_FITTED => some (nth 0 s.popWords 2 / 2 ^ 16)
  | .GLB_POP_LINKS_LO_LINKS => some (nth 0 s.popWords 3)
  | .GLB_POP_LINKS_HI_LINKS => some (nth 0 s.popWords 4)
  | .GLB_POP_LINKS_HI_CONNECTORS => some (nth 0 s.popWords 4 / 2 ^ 4)
  | .GLB_POP_FIRMWARE_PROCESSORS => some (nth 0 s.popWords 5)
  | .GLB_POP_TILES_ENABLED_TILES => some (nth 0 s.popWords 6)
  | .GLB_POP_MEMORY_MEMORY_GIB => some (nth 0 s.popWords 7)
  | .GLB_POWERED_TIME_TIME => some s.time
  | _ => none

/-- CTX, QUE and OBJ fields. DEDUCED: notes/assumptions/66.md. -/
def viewQue (s : State) (i : Nat) : Fld → Option Nat
  | .CTX_STATUS_SQS => some (s.sqsOf i).length
  | .CTX_STATUS_CQS => some (s.cqsOf i).length
  | .CTX_OUTSTANDING_COUNT =>
    some (s.cp.descs.filter fun d => d.ctx == i && d.stage != .performed).length
  | .QUE_SQ_STATUS_HELD =>
    some (b2n (s.cp.descs.any fun d => d.q == i && d.stage == .fetched && s.ctxHeld d.ctx))
  | .QUE_SQ_INFLIGHT_COUNT => some (s.inflight i)
  | .QUE_CQ_STATUS_FULL =>
    let x := s.cp.cqs.get .reset i
    some (b2n (!x.held.isEmpty && x.consumer.any fun c =>
      decide (2 ^ s.f .QUE_CQ_SETUP_SIZE_LOG2 i ≤ ringAhead (s.f .QUE_CQ_PRODUCER_INDEX i) c)))
  | .QUE_CQ_STATUS_WAITING => some (s.cp.cqs.get .reset i).held.length
  | .QUE_ERING_STATUS_FULL =>
    some (b2n (!s.cp.errs.isEmpty && s.cp.errConsumer.any fun c =>
      decide (2 ^ s.f .QUE_ERING_SETUP_SIZE_LOG2 ≤ ringAhead (s.f .QUE_ERING_NEXT_SEQUENCE) c)))
  | .QUE_ERING_STATUS_HELD => some s.cp.errs.length
  | .OBJ_STATUS_LIVE => some s.liveSlots.length
  | _ => none

/-- XLT and translation-cache fields. -/
def viewXlt (s : State) (i : Nat) : Fld → Option Nat
  | .XLT_STATUS_FRING_FULL => some (b2n (s.nextReport.isSome && s.cp.fringConsumer.isSome && !s.fringRoom))
  | .XLT_WALKER_STATUS_WALKS => some (s.die i).walks.length
  | .XLT_WALKER_STATUS_PENDING => some ((s.die i).entries.filter (·.2.isSome)).length
  | .XLT_WALKER_STATUS_UNREPORTED => some ((s.die i).entries.filter fun e => e.2.any (·.seq.isNone)).length
  | .XLTC_STATUS_VALID_ENTRIES => some (s.tile i).xc.length
  | .XLTC_STATUS_WALK_WAIT => some (b2n (!((s.tile i).misses ++ (s.tile i).sent).isEmpty))
  | .XLTC_STATUS_FAULT_WAIT => some (b2n ((s.die (i / 104)).entries.any fun e => e.2.any fun x => tileOf x.miss.who == some i))
  | _ => none

/-- SYN fields. -/
def viewSyn (s : State) (i : Nat) (x : Fld) : Option Nat :=
  let cur := (s.tile i).syn.cur.map (·.2)
  match x with
  | .SYN_SEM_VALUE => some ((s.tile (i / 32)).syn.sems.get 0 (i % 32))
  | .SYN_STATUS_BAR_SLOT => match cur with
    | some (.bar _ k ..) => some k
    | _ => some 0
  | .SYN_STATUS_BAR_SCOPE => match cur with
    | some (.bar c ..) => some c
    | _ => some 0
  | .SYN_STATUS_BAR_WAITING => match cur with
    | some (.bar ..) => some 1
    | _ => some 0
  | .SYN_STATUS_FWAIT_WAITING => match cur with
    | some (.fwait ..) => some 1
    | _ => some 0
  | .SYN_STATUS_POLL_WAITING => match cur with
    | some (.poll ..) => some 1
    | _ => some 0
  | .SYN_STATUS_MEMBAR_WAITING => match cur with
    | some (.membar _) | some (.fsignal ..) => some 1
    | _ => some 0
  | .SYN_BAR_SENSE_TILE_SENSE => some (s.tile i).syn.sense
  | .SYN_BAR_SENSE_GANG_SENSE => some ((s.tile i).syn.sense / 2 ^ 8)
  | .SYN_BAR_SENSE_PART_SENSE => some ((s.tile i).syn.sense / 2 ^ 16)
  | .SYN_BAR_SENSE_SYSTEM_SENSE => some ((s.tile i).syn.sense / 2 ^ 24)
  | _ => none

/-- HBM, FAB and CHL fields. DEDUCED: notes/assumptions/60.md. -/
def viewIo (s : State) (i : Nat) : Fld → Option Nat
  | .HBM_REPAIR_REMAP_USED => some ((s.stack i).spares.filter (·.2.isSome)).length
  | .HBM_REPAIR_PPR_PENDING => some ((s.stack i).spares.filter fun e => e.2.any (!·.permanent)).length
  | .FAB_STATUS_LINKS_UP => some ((List.range 36).filter fun l => s.linkState l == 3).length
  | .FAB_STATUS_ANY_DEAD => some (b2n ((List.range 8192).any fun w => s.f .FAB_DEAD_DEAD w != 0))
  | .FAB_COLL_STATUS_OPEN => some (b2n (s.round i false).opened + 2 * b2n (s.round i true).opened)
  | .CHL_SF_STATUS_OCCUPIED => some (s.chl.filter.filter (·.2.isSome)).length
  | _ => none

/-- MGT and SEC fields. -/
def viewMgt (s : State) (i : Nat) : Fld → Option Nat
  | .MGT_DIE_STATUS_MCLK_MHZ => some (s.mclk i)
  | .MGT_DIE_STATUS_TEMP_C => (s.dieTemp i).map fun t => (t / 4 % 256).toNat
  | .MGT_DIE_STATUS_RESERVE_FREE => some (s.reserve i).length
  | .MGT_DIE_STATUS_MOULT_PENDING => some (b2n (!(s.nomineesOf i).isEmpty))
  | .MGT_DIE_STATUS_QUIESCING => some (b2n (bit (s.f .MGT_MOULT_CTRL_QUIESCE) i))
  | .SEC_STATUS_REQUIRE_SIGNED => some (b2n s.fuses.signedBlown)
  | .SEC_STATUS_OWNER_KEY_SET => some (b2n s.fuses.ownerWritten)
  | .SEC_STATUS_ABI_MIXED => some (b2n s.abiMixed)
  | .SEC_DEVICE_ID_DEVICE_ID => some s.fuses.deviceId
  | .SEC_MR_VALUE => some ((s.mr (i / 16)).toNat / 2 ^ (32 * (i % 16)))
  | _ => none

/-- SEQ fields; program counters and q-registers read zero in a gang's members (R51).
DEDUCED: notes/assumptions/74.md. -/
def viewSeq (s : State) (i : Nat) (x : Fld) : Option Nat :=
  let t := s.tile i
  let job := if t.seq.run = .idle then none else t.seq.kernel
  match x with
  | .SEQ_STATUS_STATE => some (match t.seq.run with
    | .idle => 0
    | .lead => if t.seq.halt.isSome then 2 else 1
    | .member => if t.seq.halt.isSome then 2 else 3
    | .halted => 2)
  | .SEQ_STATUS_STREAM_LIVE => some (maskBits (List.range 4) fun k => (t.slot k).enabled && !(t.slot k).ended)
  | .SEQ_STATUS_STREAM_QFULL => some (maskBits (List.range 4) fun k => match (t.slot k).stall with
    | .full _ => true
    | _ => false)
  | .SEQ_STATUS_STREAM_SEMWAIT => some (maskBits (List.range 4) fun k => match (t.slot k).stall with
    | .wait .. => true
    | _ => false)
  | .SEQ_STATUS_ENGINE_SEMWAIT => some (maskBits (List.range 4) fun k =>
    (s.head i k).any fun e => !(t.queue k).granted && e.wait.any fun (w : SemWait) => decide (s.sem i w.sem < w.count))
  | .SEQ_GANG_LEAD_LOCAL_ID => some ((job.map fun m => s.logicalOf m.lead % 96).getD 0)
  | .SEQ_GANG_SIZE_LOG2 => some ((job.map (·.gangLog2)).getD 0)
  | .SEQ_GANG_RANK => some ((job.map (·.rank)).getD 0)
  | .SEQ_GANG_CONTEXT => some ((job.map (·.job.ctx)).getD 0)
  | .SEQ_QUEUE_LEVEL_THRQ => some (t.queue 0).held.length
  | .SEQ_QUEUE_LEVEL_MATQ => some (t.queue 1).held.length
  | .SEQ_QUEUE_LEVEL_GATQ => some (t.queue 2).held.length
  | .SEQ_QUEUE_LEVEL_SYNQ => some (t.queue 3).held.length
  | .SEQ_IDENTITY_LOGICAL_LOCAL_ID => some ((s.localOf i).getD 0)
  | .SEQ_IDENTITY_ENABLED => some (b2n (s.localOf i).isSome)
  | .SEQ_IDENTITY_RETIRED => some (b2n (s.mgt.repair.retired.get false i))
  | .SEQ_PC_PC => let t := s.tile (i / 4); some (if t.rank = 0 then (t.slot (i % 4)).pc else 0)
  | .SEQ_Q_VALUE => let t := s.tile (i / 64); some (if t.rank = 0 then (t.slot (i / 16 % 4)).q.get 0 (i % 16) else 0)
  | .SEQ_HALT_REASON_REASON => some ((t.seq.halt.map (·.reason)).getD 0)
  | .SEQ_HALT_REASON_SOURCE_KIND => some ((t.seq.halt.map (·.kind)).getD 0)
  | .SEQ_HALT_REASON_STREAM => some ((t.seq.halt.map (·.stream)).getD 0)
  | .SEQ_HALT_REASON_GROUP => some ((t.seq.halt.map (·.group)).getD 0)
  | .SEQ_HALT_ORIGIN_ORIGIN_TILE => some ((t.seq.halt.map (·.origin)).getD 0)
  | .SEQ_HALT_ORIGIN_CONTEXT => some ((t.seq.halt.map (·.ctx)).getD 0)
  | .SEQ_HALT_ADDR_ADDR => some ((t.seq.halt.map (·.addr)).getD 0)
  | _ => none

/-- A group parks on a fault. -/
def parked (s : State) (p g : Nat) : Bool := s.xlFault (.group p g) (p / 104)

/-- THR and group debug fields (R81). -/
def viewThr (s : State) (i : Nat) (x : Fld) : Option Nat :=
  let t := s.tile i
  let gs := t.resident.filterMap t.group?
  let g := s.dbgGroup i
  match x with
  | .THR_STATUS_RESIDENT_GROUPS => some gs.length
  | .THR_STATUS_ACTIVE_GROUPS => some t.activeCount
  | .THR_STATUS_RESIDENT_BLOCKS => some (t.thr.blocks.filter (·.2.isSome)).length
  | .THR_STATUS_FREE_GRANULES => some (512 - (gs.map fun y => granted y.n / 8).sum)
  | .THR_STATUS_ANY_DEBUG_HALTED => some (b2n (gs.any (·.dbgHalted)))
  | .THR_STATUS_ANY_PARKED => some (b2n (t.resident.any (s.parked i)))
  | .THR_L1_WAYS_ENABLED => some (maskBits (List.range 8) (s.wayOn i))
  | .THR_L1_WAYS_LOCKED => some t.thr.locked
  | .GRP_DBG_STATUS_STATE => match g with
    | none => some 0
    | some y => y.shown t (s.f .GRP_DBG_SEL_GROUP i) (s.parked i (s.f .GRP_DBG_SEL_GROUP i))
  | .GRP_DBG_STATUS_DEBUG_HALTED => some (b2n (g.any (·.dbgHalted)))
  | .GRP_DBG_STATUS_HALT_PENDING => some (b2n (g.any (·.haltPending)))
  | .GRP_DBG_STATUS_STACK_DEPTH => some ((g.map (·.stack.length)).getD 0)
  | .GRP_DBG_STATUS_BLOCK_SLOT => some ((g.map (·.block)).getD 0)
  | .GRP_DBG_STATUS_GROUP_IN_BLOCK => some ((g.map (·.index)).getD 0)
  | .GRP_DBG_STATUS_GRANULES => some ((g.map fun y => granted y.n / 8).getD 0)
  | .GRP_DBG_MASK_ACTIVE => some ((g.map (·.mask)).getD 0)
  | .GRP_DBG_PC_PC => some ((g.map (·.pc)).getD 0)
  | .GRP_DBG_PROGRESS_COUNT => some ((g.map (·.progress)).getD 0)
  | .GRP_DBG_UNIFORM_VALUE =>
    if s.f .GRP_DBG_REG_SEL_KIND i ≠ 1 then some 0
    else if 64 ≤ s.f .GRP_DBG_REG_SEL_INDEX i then none
    else some ((g.map fun y => (y.ureg (s.f .GRP_DBG_REG_SEL_INDEX i)).toNat).getD 0)
  | .GRP_DBG_VDATA_VALUE =>
    let p := i / 32
    let r := s.f .GRP_DBG_REG_SEL_INDEX p
    if s.f .GRP_DBG_REG_SEL_KIND p ≠ 0 then some 0
    else some (((s.dbgGroup p).map fun y => if r < y.n then (y.vreg r (i % 32)).toNat else 0).getD 0)
  | .GRP_DBG_STACK_ADDR_ADDR => if s.f .GRP_DBG_REG_SEL_KIND i = 2 then (s.dbgPath i).map (·.addr) else some 0
  | .GRP_DBG_STACK_MASK_MASK => if s.f .GRP_DBG_REG_SEL_KIND i = 2 then (s.dbgPath i).map (·.mask) else some 0
  | .GRP_DBG_STACK_RPC_RPC => if s.f .GRP_DBG_REG_SEL_KIND i = 2 then (s.dbgPath i).map fun y => y.rpc.getD 0 else some 0
  | _ => none

/-- Word `w` of the matrix inspection window (R113). -/
def matInspect (s : State) (p w : Nat) : Nat :=
  let m := (s.tile p).mat
  let row := s.f .MAT_INSPECT_SEL_INDEX p
  match s.f .MAT_INSPECT_SEL_KIND p with
  | 0 => m.accRead (accKey row w) m.now
  | 3 => if w < 16 then pairWord ((List.range 16).map fun k => m.tables.get 0 (16 * (w / 8) + k)) (w % 8) else 0
  | k =>
    if 63 < row ∨ 31 < w then 0
    else pairWord ((List.range 64).map fun c => m.cellAt (k - 1) row c m.now) w

/-- MAT, GAT and scratchpad fields. -/
def viewMat (s : State) (i : Nat) (x : Fld) : Option Nat :=
  let t := s.tile i
  let m := t.mat
  match x with
  | .MAT_STATUS_LOADER_BUSY => some (b2n (m.now < m.loaderFree))
  | .MAT_STATUS_STREAMER_BUSY => some (b2n (m.now < m.streamerFree))
  | .MAT_STATUS_STREAMER_GMMA => some (b2n (decide (m.now < m.streamerFree) && m.streamerGmma))
  | .MAT_STATUS_DRAINER_BUSY => some (b2n (m.now < m.drainerFree))
  | .MAT_STATUS_ACTIVE_PLANE => some (m.activeAt m.now)
  | .MAT_STATUS_PLANE_A_FORMAT => some (m.tagAt 0 m.now).1
  | .MAT_STATUS_PLANE_B_FORMAT => some (m.tagAt 1 m.now).1
  | .MAT_STATUS_PLANE_A_PAIRED => some (b2n (m.tagAt 0 m.now).2)
  | .MAT_STATUS_PLANE_B_PAIRED => some (b2n (m.tagAt 1 m.now).2)
  | .MAT_STATUS_GMMA_WAITING => some m.gmmas.length
  | .MAT_STATUS_FROZEN => if m.ops.any (!·.done) then none else some 0
  | .MAT_INSPECT_DATA_VALUE => some (s.matInspect (i / 64) (i % 64))
  | .SPAD_STATUS_CARVE_ROWS => some t.thr.carve
  | .GAT_STATUS_BUSY => some (b2n (!t.gat.ops.isEmpty))
  | .GAT_STATUS_IN_FLIGHT => some (t.gat.ops.filter fun o => (o.entry.op != 3)).length
  | .GAT_STATUS_FAULT_STALLED => some (b2n (s.xlFault (.gather i) (i / 104)))
  | .GAT_STATUS_OUTSTANDING => some (s.owned fun o => o == .gather i).length
  | .SPAD_INSPECT_DATA_VALUE =>
    let p := i / 256
    let row := s.f .SPAD_INSPECT_SEL_ROW p
    some (if 3071 < row then 0 else fromLE ((s.tile p).spadBytes (row * 1024 + 4 * (i % 256)) 4))
  | _ => none

/-- Value of a field; none where the spec leaves it open. DESIGN CHOICE: notes/assumptions/69.md. -/
def fieldValue (s : State) (x : Fld) (i : Nat) : Option Nat :=
  let stored := some (s.f x i)
  let o := x.info.reg.info.off
  if x.info.acc = .wo then some 0
  else match x with
  | .HBM_REMAP_DATA_VALID | .HBM_REMAP_DATA_PSEUDO_CHANNEL | .HBM_REMAP_DATA_BANK | .HBM_REMAP_DATA_ROW
  | .HBM_REMAP_DATA_CAUSE | .HBM_REMAP_DATA_PERMANENT => some (bits (spareWord ((s.stack i).spares.get none (s.f .HBM_REMAP_SEL_ENTRY i))) x.info.hi x.info.lo)
  | .MGT_DIE_STATUS_TEMP_C | .GRP_DBG_STATUS_STATE | .GRP_DBG_UNIFORM_VALUE | .GRP_DBG_STACK_ADDR_ADDR
  | .GRP_DBG_STACK_MASK_MASK | .GRP_DBG_STACK_RPC_RPC | .MAT_STATUS_FROZEN =>
    (s.viewMgt i x).orElse fun _ => (s.viewThr i x).orElse fun _ => s.viewMat i x
  | _ =>
    (if o < 0x020000 then s.viewGlb x
     else if o < 0x0A0000 then s.viewQue i x
     else if o < 0x0B0000 then s.viewXlt i x
     else if o < 0x0F0000 then s.viewIo i x
     else if o < 0x110000 then s.viewMgt i x
     else if o < 0x1D0000 then s.viewSyn i x
     else if o < 0x200000 then s.viewXlt i x
     else (s.viewSeq i x).orElse fun _ => (s.viewThr i x).orElse fun _ => s.viewMat i x).orElse fun _ => stored

/-- A register's value: each field in its place, an open field a free value.
DESIGN CHOICE: notes/assumptions/69.md. -/
def regValue (s : State) (r : Reg) (i : Nat) : Nat × State :=
  r.fields.foldl (fun (n, s) x =>
    match s.fieldValue x i with
    | some v => (n + v % 2 ^ x.width * 2 ^ x.info.lo, s)
    | none => let (v, s) := s.free; (n + v % 2 ^ x.width * 2 ^ x.info.lo, s)) (0, s)

/-- An access of `n` bytes at an offset is refused under R10: misaligned, or not of the width of a register it meets. -/
def accessRefused (o n : Nat) : Bool :=
  o % n != 0 || (n != 4 && n != 8)
  || match regAt o with
     | some (r, _) => r.info.bytes != n
     | none => n == 8 && (regAt (o + 4)).isSome

/-- A read of a register (R10, R3). -/
def regRead (s : State) (o n : Nat) : Nat × State :=
  if accessRefused o n then (2 ^ (8 * n) - 1, s.bump .GLB_ACCESS_ERRORS_COUNT)
  else match regAt o with
    | some (r, i) => if s.regPresent r i then s.regValue r i else (0, s)
    | none => (0, s)

/-! ### What a write does -/

/-- The value that a write of `v` sets in a field. DEDUCED: notes/assumptions/50.md. -/
def clampField (s : State) (x : Fld) (i v : Nat) : Nat :=
  match x with
  | .CTX_SETUP_VA_BITS => clamp 40 56 v
  | .QUE_SQ_SETUP_SIZE_LOG2 | .QUE_CQ_SETUP_SIZE_LOG2 | .QUE_ERING_SETUP_SIZE_LOG2 | .XLT_SETUP_FRING_LOG2
  | .XLT_SETUP_RRING_LOG2 => clamp 6 16 v
  | .XLT_SETUP_IPA_BITS => clamp 40 52 v
  | .HBM_SETUP_THROTTLE_C => clamp 70 99 v
  | .HBM_SETUP_TRIP_C => clamp (s.f .HBM_SETUP_THROTTLE_C i + 6) 105 v
  | .HBM_SETUP_SCRUB_HOURS => satAt 168 v
  | .FAB_DIM_SIZE => satAt 256 v
  | .CHL_SETUP_TIMEOUT_LOG2 => clamp 16 30 v
  | .MGT_SETUP_DIE_THROTTLE_C => clamp 80 105 v
  | .MGT_SETUP_MOULT_CE_LIMIT_LOG2 => clamp 4 20 v
  | .MGT_LIMITS_POWER_LIMIT => clamp ((s.variant.tdp + 1) / 2) s.variant.tdp v
  | .MGT_LIMITS_MCLK_CEILING => clamp 200 700 v / 50 * 50
  | .SEC_SETUP_WDOG_LOG2 => if 1 ≤ v ∧ v ≤ 19 then 20 else v
  | .SEQ_SETUP_STALL_LIMIT_LOG2 => if 1 ≤ v ∧ v ≤ 15 then 16 else satAt 48 v
  | .THR_SETUP_PROGRESS_LIMIT_LOG2 => if 1 ≤ v ∧ v ≤ 15 then 16 else satAt 40 v
  | .GAT_SETUP_READ_LIMIT => clamp 1 512 v
  | _ => v

/-- A write of a field by its access code (R11). -/
def putField (s : State) (x : Fld) (i v : Nat) : State :=
  let w := bits v x.info.hi x.info.lo
  match x.info.acc with
  | .ro | .wo => s
  | .rw => s.setF x i (s.clampField x i w)
  | .rwl => if s.flag .CLK_LOCK_SETUP_LOCK then s else s.setF x i (s.clampField x i w)
  | .w1c => s.setF x i (s.f x i - (s.f x i &&& w))

/-- A write of the fields of a register, in order. -/
def putFields (s : State) (r : Reg) (i v : Nat) : State := s.forEach r.fields fun s x => s.putField x i v

/-- The register ignores writes in the present state of its unit (its tables, R265, R344).
DEDUCED: notes/assumptions/66.md. -/
def writeHeld (s : State) (r : Reg) (i : Nat) : Bool :=
  match r with
  | .CTX_SETUP | .CTX_S1_ROOT => s.ctxState i != 1
  | .QUE_SQ_SETUP | .QUE_SQ_BASE | .QUE_SQ_DOORBELL | .QUE_SQ_CONSUMER =>
    s.flag .QUE_SQ_CTRL_ENABLE i || s.f .QUE_SQ_STATUS_STATE i == 2
  | .QUE_CQ_SETUP | .QUE_CQ_BASE | .QUE_CQ_CONS_LINE | .QUE_CQ_PRODUCER =>
    s.flag .QUE_CQ_CTRL_ENABLE i || s.f .QUE_CQ_STATUS_STATE i == 2
  | .FAB_COLL_STATUS | .FAB_COLL_FENCE | .FAB_COLL_RESULT | .FAB_COLL_ROUND => s.flag .FAB_COLL_SETUP_ENABLE i
  | .FAB_COLL_CHILD => s.flag .FAB_COLL_SETUP_ENABLE (i / 4)
  | _ => false

/-- A host line has a new address, or a ring begins: the part reads it anew. -/
def renewLine (s : State) (l : HostLine) : State := (s.dropLine l).modCp fun c => { c with stale := c.stale ++ [l] }

/-- A write of CTX_CTRL: the lowest set bit acts; ABORT is the command of its own row (R265).
DEDUCED: notes/assumptions/54.md. -/
def ctxCtrl (s : State) (c v : Nat) : State :=
  if bit v 0 then s.ctxOpen c else if bit v 1 then s.ctxStart c else if bit v 2 then s else if bit v 3 then s.ctxDestroy c else s

/-- A write of a mailbox's opcode (R369, R390): while BUSY it sets OVERRUN; an unlisted one ends with BAD_COMMAND. -/
def mgtCommandWrite (s : State) (op : Nat) : State :=
  if s.mgt.busy.isSome then s.setFlag .MGT_MBX_STATUS_OVERRUN 0 true
  else
    let s := (s.modMgt fun m => { m with busy := some op, dirty := false }).setFlag .MGT_MBX_STATUS_BUSY 0 true
    if 1 ≤ op ∧ op ≤ 4 then s else s.mgtDone 1 []
def secCommandWrite (s : State) (op : Nat) : State :=
  if s.sec.busy.isSome then s.setFlag .SEC_MBX_STATUS_OVERRUN 0 true
  else
    let s := (s.modSec fun m => { m with busy := some op, dirty := false }).setFlag .SEC_MBX_STATUS_BUSY 0 true
    if 1 ≤ op ∧ op ≤ 6 then s else s.secDone 1 []

/-- A write of a collective group's set-up register (R344). -/
def collSetup (s : State) (g v : Nat) : State :=
  if s.flag .FAB_COLL_SETUP_ENABLE g then (if bit v 0 then s else s.collDisable g)
  else
    let s := s.putFields .FAB_COLL_SETUP g (clearBit v 0)
    if bit v 0 then s.collEnable g else s

/-- Debug writes of the selected group, taken while it is debug-halted (R81). -/
def dbgWrite (s : State) (p : Nat) (g : Group → Group) : State :=
  if (s.dbgGroup p).any (·.dbgHalted) then s.modGroup p (s.f .GRP_DBG_SEL_GROUP p) g else s

/-- The effect of a write of value `v` to a register. -/
def regEffect (s : State) (r : Reg) (i v : Nat) : State :=
  match r with
  | .CLK_RESET_CTRL => s.keyWrite v
  | .CLK_LOCK => s.when (bit v 0) (·.setupLock)
  | .CTX_CTRL => s.ctxCtrl i v
  | .QUE_SQ_CTRL =>
    let s := s.putField .QUE_SQ_CTRL_SETUP_ERROR i v
    if bit v 0 then s.sqEnable i else s.sqDisable i
  | .QUE_CQ_CTRL =>
    let s := s.putField .QUE_CQ_CTRL_SETUP_ERROR i v
    if bit v 0 then s.cqEnable i else s.cqDisable i
  | .QUE_ERING_SETUP =>
    let on := s.flag .QUE_ERING_SETUP_ENABLE
    let s := s.putFields r i v
    if s.flag .QUE_ERING_SETUP_ENABLE == on then s
    else if on then s.dropLine .eringConsumer else s.renewLine .eringConsumer
  | .QUE_ERING_CONS_LINE =>
    let s := s.putFields r i v
    if s.flag .QUE_ERING_SETUP_ENABLE then s.renewLine .eringConsumer else s.dropLine .eringConsumer
  | .QUE_ERING_CTRL => s.when (bit v 0) (·.eringRetry)
  | .OBJ_TABLE_BASE => s.objTableBase v
  | .XLT_FRING_CONS_LINE => (s.putFields r i v).renewLine .fringConsumer
  | .XLT_RRING_PROD_LINE => (s.putFields r i v).renewLine .rringProducer
  | .XLT_CTRL => s.when (bit v 0) (·.xltRingRetry)
  | .FAB_SETUP => s.fabSetup v
  | .FAB_LINK_CTRL =>
    let s := if bit v 0 then s.linkEnable i else s.linkDisable i
    s.when (bit v 1 && s.linkState i == 3) (·.linkRetrain i)
  | .FAB_COLL_SETUP => s.collSetup i v
  | .FAB_DEAD => s.forEach ((List.range 32).filter (bit v)) fun s b => s.fabDeadClear (32 * i + b)
  | .CHL_PORT_CTRL => s.when (bit v 0) (·.portRetrain i)
  | .CHL_MSI_CTRL => (s.putFields r i v).raisePending i
  | .MGT_MOULT_CTRL => s.forEach (List.range 8) fun s d =>
    if bit v d then s.quiesce d else s.setF .MGT_MOULT_CTRL_QUIESCE 0 (clearBit (s.f .MGT_MOULT_CTRL_QUIESCE) d)
  | .MGT_MBX_CMD => s.mgtCommandWrite (bits v 3 0)
  | .MGT_MBX_DATA => (s.putFields r i v).modMgt fun m => { m with dirty := m.dirty || m.busy.isSome }
  | .SEC_MBX_CMD => s.secCommandWrite (bits v 3 0)
  | .SEC_MBX_DATA => (s.putFields r i v).modSec fun m => { m with dirty := m.dirty || m.busy.isSome }
  | .SEQ_SETUP => (s.putFields r i v).holdChanged i
  | .SEQ_CTRL =>
    let s := s.when (bit v 0) (·.haltReq i)
    let s := s.when (bit v 1) (·.resumeGang i)
    s.when (bit v 2) (·.clearHalt i)
  | .GRP_DBG_CTRL =>
    let s := s.when (bit v 0) (·.grpHalt i)
    let s := s.when (bit v 1) (·.grpResume i false)
    s.when (bit v 2) (·.grpResume i true)
  | .GRP_DBG_PC => s.dbgWrite i fun x => { x with pc := bits v 55 0 }
  | .GRP_DBG_UNIFORM =>
    let k := s.f .GRP_DBG_REG_SEL_INDEX i
    if s.f .GRP_DBG_REG_SEL_KIND i = 1 ∧ k < 64 then s.dbgWrite i fun x => x.setU k (BitVec.ofNat 64 v) else s
  | .GRP_DBG_VDATA =>
    let p := i / 32
    let k := s.f .GRP_DBG_REG_SEL_INDEX p
    if s.f .GRP_DBG_REG_SEL_KIND p = 0 then
      s.dbgWrite p fun x => if k < x.n then x.setV k (i % 32) (BitVec.ofNat 32 v) else x
    else s
  | _ => s.putFields r i v

/-- A write of a register (R10, R3). -/
def regWrite (s : State) (o n v : Nat) : State :=
  if accessRefused o n then s.bump .GLB_ACCESS_ERRORS_COUNT
  else match regAt o with
    | some (r, i) => if s.regPresent r i && !s.writeHeld r i then s.regEffect r i (v % 2 ^ (8 * n)) else s
    | none => s

/-! ### Messages (R302, R309) -/

/-- A register of a port's link configuration space: its width and value. DEDUCED: notes/assumptions/46.md. -/
def lcfgRead (s : State) (k o : Nat) : Option (Nat × Nat) :=
  let p := s.port k
  match o with
  | 0 => some (4, 0x5A71 + k * 2 ^ 16)
  | 8 => some (8, p.aperture)
  | 16 => some (8, p.regBase)
  | 24 => some (4, b2n p.memEn + b2n p.regEn * 2 + b2n p.reqEn * 4 + b2n p.intrEn * 8)
  | _ => none

/-- An access to the space breaks R10. DEDUCED: notes/assumptions/46.md. -/
def lcfgRefused (s : State) (k o n : Nat) : Bool :=
  o % n != 0 || match s.lcfgRead k (o / 8 * 8) with
    | some (w, _) => (o == o / 8 * 8 && w != n) || (o != o / 8 * 8 && w == 8)
    | none => false

/-- A write of the space; REG_BASE and REG_EN are port 0's only. What waited for REQ_EN or INTR_EN is sent.
DEDUCED: notes/assumptions/45.md. -/
def lcfgWrite (s : State) (k o v : Nat) : State :=
  match o with
  | 8 => s.modPort k fun p => { p with aperture := bits v 51 42 * 2 ^ 42 }
  | 16 => if k = 0 then s.modPort k fun p => { p with regBase := bits v 51 26 * 2 ^ 26 } else s
  | 24 =>
    let s := s.modPort k fun p => { p with memEn := bit v 0, regEn := bit v 1 && k == 0, reqEn := bit v 2, intrEn := bit v 3 }
    let s := s.flushPort k
    if bit v 3 then s.forEach ((List.range 2048).filter fun n => s.f .CHL_MSI_CTRL_PORT n == k) fun s n => s.raisePending n else s
  | _ => s

/-- A register message's header keeps R308 and R309. -/
def regMsgOk (t h : Nat) : Bool :=
  Msg.type h == t && (Msg.length h == 4 || Msg.length h == 8)
  && h == Msg.header t (Msg.tag h) (Msg.addr h) (Msg.length h) (t == 0x39 && Msg.poison h) (cfg := Msg.cfg h)

/-- The offset in the register window that a port's message names. DEDUCED: notes/assumptions/45.md. -/
def windowOffset (s : State) (k a : Nat) : Option Nat :=
  if k = 0 ∧ (s.port 0).regEn ∧ a / 2 ^ 26 * 2 ^ 26 = (s.port 0).regBase then some (a % 2 ^ 26) else none

/-- MMRD (R309). DEDUCED: notes/assumptions/46.md. -/
def mmrd (s : State) (k h : Nat) : State :=
  let n := Msg.length h
  let a := Msg.addr h
  if !s.portUp k || 2 ≤ k then s
  else if !regMsgOk 0x38 h then s.nohome k h 1
  else
    let reply := fun (s : State) v => s.sendMsg k .nc (Msg.header 0x3A (Msg.tag h) a) (toLE 16 v)
    if Msg.cfg h then
      if s.lcfgRefused k a n then reply (s.bump .GLB_ACCESS_ERRORS_COUNT) (2 ^ (8 * n) - 1)
      else reply s (((s.lcfgRead k a).map (·.2)).getD 0)
    else match s.windowOffset k a with
      | none => s.nohome k h 3
      | some o => let (v, s) := s.regRead o n; reply s v

/-- MMWR: a poisoned one writes a free value. DEDUCED: notes/assumptions/67.md. -/
def mmwr (s : State) (k h v : Nat) : State :=
  let n := Msg.length h
  let a := Msg.addr h
  if !s.portUp k || 2 ≤ k then s
  else if !regMsgOk 0x39 h then s.nohome k h 1
  else
    let (v, s) := if Msg.poison h then s.free else (v, s)
    if Msg.cfg h then
      if s.lcfgRefused k a n then s.bump .GLB_ACCESS_ERRORS_COUNT else s.lcfgWrite k a v
    else match s.windowOffset k a with
      | none => s.nohome k h 3
      | some o => s.regWrite o n v

end State

/-! ### Meanings -/

/-- REGISTER_WRITE: an MMWR (R11, R309). -/
def execRegisterWrite (port : Nat) (hdr : BitVec 128) (data : W64) (s : State) : Out := .next (s.mmwr port hdr.toNat data.toNat)

/-- MMRD (R309). -/
def execMmrd (port : Nat) (hdr : BitVec 128) (s : State) : Out := .next (s.mmrd port hdr.toNat)

end Sys2Proof.Machine
end

