-- ==== Sys2Proof/Machine/Jtag.lean ====
section
/-!
DEFINITION. The JTAG port (17_module_electrical_and_mechanical.md R428, R429, 16 R400). A command is one scan: its
instruction is selected, Capture-DR takes a value, and Update-DR does what the instruction does.
-/
namespace Sys2Proof.Machine

namespace State

/-- Select an instruction: Capture-DR takes `x`; the contacts are driven or floated only by EXTEST, CLAMP and HIGHZ.
Without power the TAP does nothing. DESIGN CHOICE: notes/assumptions/70.md. -/
def selectJtag (s : State) (ir x : Nat) (driven : Option Nat) (floated : Bool) : State :=
  if s.power.pwrGood then { s with jtag := { s.jtag with ir := ir, captured := x, driven := driven, floated := floated } } else s

/-- The 32-bit identification register. -/
def idWord (s : State) : Nat := 1 + 0x3B5 * 2 + s.variant.code * 2 ^ 12 + s.fuses.stepping % 16 * 2 ^ 28

/-- Levels of the contacts, in the order of Table Host connector pin groups: PWR_EN, PWR_GOOD, PWR_WARN_N, RESET_N, PRSNT_N,
the four bus contacts, SB_ADDR; the bus levels are the board's, free values.
DESIGN CHOICE: notes/assumptions/70.md. -/
def contacts (s : State) : Nat × State :=
  let (bus, s) := s.free
  (b2n s.power.pwrEn + b2n s.power.pwrGood * 2 + b2n (!s.flag .MGT_STATUS_POWER_WARN) * 4 + b2n (!s.power.resetN) * 8
    + bus % 16 * 32 + s.straps % 4 * 512, s)

/-- SAMPLE/PRELOAD: the contacts are sampled and the cells loaded; nothing is driven. -/
def samplePreload (s : State) (cells : Nat) : State :=
  if s.power.pwrGood then
    let (x, s) := s.contacts
    let s := s.selectJtag 2 x none false
    { s with jtag := { s.jtag with cells := cells } }
  else s

/-- EXTEST, CLAMP and HIGHZ while the part does not run; while it runs the spec leaves behaviour undefined (R428). -/
def takeContacts (s : State) (body : State → State) : Out :=
  if s.running then .refused .boundaryScanWhileRunning else .next (body s)

/-- A register access of an updated data register: width, offset and data (R429). Before step 9 of the start reads return
all ones and writes are discarded. -/
def jtagAccess (s : State) (dr : Nat) : State :=
  if !s.power.pwrGood then s
  else
    let s := s.selectJtag 0x20 s.jtag.readData none false
    let n := if bit dr 96 then 8 else 4
    let o := bits dr 95 64
    let v := bits dr 63 0
    if bit dr 97 then
      if s.running then s.regWrite o n v else s
    else
      let (x, s) := if s.running then s.regRead o n else (2 ^ (8 * n) - 1, s)
      { s with jtag := { s.jtag with readData := x } }

end State

/-! ### Meanings -/

/-- BYPASS (R428). -/
def execBypass (s : State) : Out := .next (s.selectJtag 0x3F 0 none false)

/-- IDCODE (R428). -/
def execIdcode (s : State) : Out := .next (s.selectJtag 0x01 s.idWord none false)

/-- SAMPLE_PRELOAD (R428). -/
def execSamplePreload (cells : BitVec 11) (s : State) : Out := .next (s.samplePreload cells.toNat)

/-- EXTEST: the contacts take the cells' levels. -/
def execExtest (s : State) : Out :=
  s.takeContacts fun s => let (x, s) := s.contacts; s.selectJtag 0x00 x (some s.jtag.cells) false

/-- CLAMP: the contacts are held from the cells, BYPASS is between TDI and TDO. -/
def execClamp (s : State) : Out := s.takeContacts fun s => s.selectJtag 0x03 0 (some s.jtag.cells) false

/-- HIGHZ: the module's outputs float. -/
def execHighz (s : State) : Out := s.takeContacts fun s => s.selectJtag 0x04 0 none true

/-- TAP_RESET: the JTAG logic alone is reset, IDCODE selected (R400). DESIGN CHOICE: notes/assumptions/70.md. -/
def execTapReset (s : State) : Out := .next { s with jtag := .reset }

/-- REGISTER_ACCESS (R429). -/
def execRegisterAccess (dr : BitVec 98) (s : State) : Out := .next (s.jtagAccess dr.toNat)

end Sys2Proof.Machine
end

