-- ==== Sys2Proof/Machine/Dispatch.lean ====
section
/-!
DEFINITION. One arm per command: exec is the command's meaning on everything but the queue.
-/
namespace Sys2Proof.Machine

/-- The meaning of each command. -/
def exec (i : Instr) (s : State) : Host.Outcome State Fault Refusal :=
  match i with
  | .registerWrite port hdr data => Sys2Proof.Machine.execRegisterWrite port hdr data s
  | .mmrd port hdr => Sys2Proof.Machine.execMmrd port hdr s
  | .registerAccess dr => Sys2Proof.Machine.execRegisterAccess dr s
  | .bypass => Sys2Proof.Machine.execBypass s
  | .idcode => Sys2Proof.Machine.execIdcode s
  | .samplePreload cells => Sys2Proof.Machine.execSamplePreload cells s
  | .extest => Sys2Proof.Machine.execExtest s
  | .clamp => Sys2Proof.Machine.execClamp s
  | .highz => Sys2Proof.Machine.execHighz s
  | .tapReset => Sys2Proof.Machine.execTapReset s
  | .launchMessage p => Sys2Proof.Machine.execLaunchMessage p s
  | .kernelEnd p => Sys2Proof.Machine.execKernelEnd p s
  | .instructionFetchFill p who => Sys2Proof.Machine.execInstructionFetchFill p who s
  | .engineInstructionPush p k raw => Sys2Proof.Machine.execEngineInstructionPush p k raw s
  | .queueEntryFreed p k stall => Sys2Proof.Machine.execQueueEntryFreed p k stall s
  | .engineInstructionComplete p e t => Sys2Proof.Machine.execEngineInstructionComplete p e t s
  | .streamStallLimit p w cycles => Sys2Proof.Machine.execStreamStallLimit p w cycles s
  | .broadcastReceive p k => Sys2Proof.Machine.execBroadcastReceive p k s
  | .broadcastCreditReturn p k stall => Sys2Proof.Machine.execBroadcastCreditReturn p k stall s
  | .gangWaitComplete p k => Sys2Proof.Machine.execGangWaitComplete p k s
  | .gangHalt p => Sys2Proof.Machine.execGangHalt p s
  | .haltRecordsFinal p => Sys2Proof.Machine.execHaltRecordsFinal p s
  | .haltReq p => Sys2Proof.Machine.execHaltReq p s
  | .seqCtrlResume p => Sys2Proof.Machine.execSeqCtrlResume p s
  | .clearHalt p => Sys2Proof.Machine.execClearHalt p s
  | .qnop p k f => Sys2Proof.Machine.execQnop p k f s
  | .qend p k f => Sys2Proof.Machine.execQend p k f s
  | .qadd p k f => Sys2Proof.Machine.execQadd p k f s
  | .qsub p k f => Sys2Proof.Machine.execQsub p k f s
  | .qmul p k f => Sys2Proof.Machine.execQmul p k f s
  | .qand p k f => Sys2Proof.Machine.execQand p k f s
  | .qor p k f => Sys2Proof.Machine.execQor p k f s
  | .qxor p k f => Sys2Proof.Machine.execQxor p k f s
  | .qshl p k f => Sys2Proof.Machine.execQshl p k f s
  | .qshr p k f => Sys2Proof.Machine.execQshr p k f s
  | .qsra p k f => Sys2Proof.Machine.execQsra p k f s
  | .qmin p k f => Sys2Proof.Machine.execQmin p k f s
  | .qmax p k f => Sys2Proof.Machine.execQmax p k f s
  | .qminu p k f => Sys2Proof.Machine.execQminu p k f s
  | .qmaxu p k f => Sys2Proof.Machine.execQmaxu p k f s
  | .qslt p k f => Sys2Proof.Machine.execQslt p k f s
  | .qsltu p k f => Sys2Proof.Machine.execQsltu p k f s
  | .qaddi p k f => Sys2Proof.Machine.execQaddi p k f s
  | .qandi p k f => Sys2Proof.Machine.execQandi p k f s
  | .qori p k f => Sys2Proof.Machine.execQori p k f s
  | .qxori p k f => Sys2Proof.Machine.execQxori p k f s
  | .qshli p k f => Sys2Proof.Machine.execQshli p k f s
  | .qshri p k f => Sys2Proof.Machine.execQshri p k f s
  | .qmuli p k f => Sys2Proof.Machine.execQmuli p k f s
  | .qmovi p k f => Sys2Proof.Machine.execQmovi p k f s
  | .qmovi64 p k f => Sys2Proof.Machine.execQmovi64 p k f s
  | .qld p k f => Sys2Proof.Machine.execQld p k f s
  | .qldsp p k f => Sys2Proof.Machine.execQldsp p k f s
  | .qbr p k f => Sys2Proof.Machine.execQbr p k f s
  | .qloop p k f => Sys2Proof.Machine.execQloop p k f s
  | .qloopx p k f => Sys2Proof.Machine.execQloopx p k f s
  | .qloopn p k f => Sys2Proof.Machine.execQloopn p k f s
  | .qwait p k f => Sys2Proof.Machine.execQwait p k f s
  | .tlaunch p => Sys2Proof.Machine.execTlaunch p s
  | .tcarve p => Sys2Proof.Machine.execTcarve p s
  | .tpreload p ext => Sys2Proof.Machine.execTpreload p ext s
  | .tnop p => Sys2Proof.Machine.execTnop p s
  | .groupPromotion p => Sys2Proof.Machine.execGroupPromotion p s
  | .loadReturn p g k way => Sys2Proof.Machine.execLoadReturn p g k way s
  | .storeBufferDrain p full err => Sys2Proof.Machine.execStoreBufferDrain p full err s
  | .writeBufferDrain p => Sys2Proof.Machine.execWriteBufferDrain p s
  | .groupNoProgress p g => Sys2Proof.Machine.execGroupNoProgress p g s
  | .wayDisable p w => Sys2Proof.Machine.execWayDisable p w s
  | .l1ErrorWindowEnd p w => Sys2Proof.Machine.execL1ErrorWindowEnd p w s
  | .grpDbgHalt p => Sys2Proof.Machine.execGrpDbgHalt p s
  | .grpDbgResume p => Sys2Proof.Machine.execGrpDbgResume p s
  | .grpDbgStep p => Sys2Proof.Machine.execGrpDbgStep p s
  | .mov p g f => Sys2Proof.Machine.execMov p g f s
  | .add p g f => Sys2Proof.Machine.execAdd p g f s
  | .sub p g f => Sys2Proof.Machine.execSub p g f s
  | .mul p g f => Sys2Proof.Machine.execMul p g f s
  | .mulhi p g f => Sys2Proof.Machine.execMulhi p g f s
  | .mulhiu p g f => Sys2Proof.Machine.execMulhiu p g f s
  | .and p g f => Sys2Proof.Machine.execAnd p g f s
  | .or p g f => Sys2Proof.Machine.execOr p g f s
  | .xor p g f => Sys2Proof.Machine.execXor p g f s
  | .shl p g f => Sys2Proof.Machine.execShl p g f s
  | .shr p g f => Sys2Proof.Machine.execShr p g f s
  | .sra p g f => Sys2Proof.Machine.execSra p g f s
  | .min p g f => Sys2Proof.Machine.execMin p g f s
  | .max p g f => Sys2Proof.Machine.execMax p g f s
  | .minu p g f => Sys2Proof.Machine.execMinu p g f s
  | .maxu p g f => Sys2Proof.Machine.execMaxu p g f s
  | .adds p g f => Sys2Proof.Machine.execAdds p g f s
  | .subs p g f => Sys2Proof.Machine.execSubs p g f s
  | .addsu p g f => Sys2Proof.Machine.execAddsu p g f s
  | .subsu p g f => Sys2Proof.Machine.execSubsu p g f s
  | .cmp p g f => Sys2Proof.Machine.execCmp p g f s
  | .sel p g f => Sys2Proof.Machine.execSel p g f s
  | .add64 p g f => Sys2Proof.Machine.execAdd64 p g f s
  | .sub64 p g f => Sys2Proof.Machine.execSub64 p g f s
  | .shfl p g f => Sys2Proof.Machine.execShfl p g f s
  | .fadd p g f => Sys2Proof.Machine.execFadd p g f s
  | .fsub p g f => Sys2Proof.Machine.execFsub p g f s
  | .fmul p g f => Sys2Proof.Machine.execFmul p g f s
  | .ffma p g f => Sys2Proof.Machine.execFfma p g f s
  | .fmin p g f => Sys2Proof.Machine.execFmin p g f s
  | .fmax p g f => Sys2Proof.Machine.execFmax p g f s
  | .fcmp p g f => Sys2Proof.Machine.execFcmp p g f s
  | .fexp2 p g f => Sys2Proof.Machine.execFexp2 p g f s
  | .flog2 p g f => Sys2Proof.Machine.execFlog2 p g f s
  | .frcp p g f => Sys2Proof.Machine.execFrcp p g f s
  | .frsqrt p g f => Sys2Proof.Machine.execFrsqrt p g f s
  | .cvt p g f => Sys2Proof.Machine.execCvt p g f s
  | .ld p g f err => Sys2Proof.Machine.execLd p g f err s
  | .st p g f => Sys2Proof.Machine.execSt p g f s
  | .atom p g f => Sys2Proof.Machine.execAtom p g f s
  | .nop p g raw => Sys2Proof.Machine.execNop p g raw s
  | .bra p g f => Sys2Proof.Machine.execBra p g f s
  | .brx p g f => Sys2Proof.Machine.execBrx p g f s
  | .elect p g f => Sys2Proof.Machine.execElect p g f s
  | .vote p g f => Sys2Proof.Machine.execVote p g f s
  | .thrEnd p g f => Sys2Proof.Machine.execThrEnd p g f s
  | .cinv p g f => Sys2Proof.Machine.execCinv p g f s
  | .barb p g f => Sys2Proof.Machine.execBarb p g f s
  | .membar p g f => Sys2Proof.Machine.execMembar p g f s
  | .semwait p g f => Sys2Proof.Machine.execSemwait p g f s
  | .semsig p g f => Sys2Proof.Machine.execSemsig p g f s
  | .gmma p g f => Sys2Proof.Machine.execGmma p g f s
  | .umov p g f => Sys2Proof.Machine.execUmov p g f s
  | .uadd p g f => Sys2Proof.Machine.execUadd p g f s
  | .usub p g f => Sys2Proof.Machine.execUsub p g f s
  | .umul p g f => Sys2Proof.Machine.execUmul p g f s
  | .uand p g f => Sys2Proof.Machine.execUand p g f s
  | .uor p g f => Sys2Proof.Machine.execUor p g f s
  | .uxor p g f => Sys2Proof.Machine.execUxor p g f s
  | .ushl p g f => Sys2Proof.Machine.execUshl p g f s
  | .ushr p g f => Sys2Proof.Machine.execUshr p g f s
  | .uld p g f => Sys2Proof.Machine.execUld p g f s
  | .uins16 p g f => Sys2Proof.Machine.execUins16 p g f s
  | .mldp p t => Sys2Proof.Machine.execMldp p t s
  | .mlut p t => Sys2Proof.Machine.execMlut p t s
  | .mswap p t => Sys2Proof.Machine.execMswap p t s
  | .mstr p t err => Sys2Proof.Machine.execMstr p t err s
  | .mdrn p t => Sys2Proof.Machine.execMdrn p t s
  | .mzero p t => Sys2Proof.Machine.execMzero p t s
  | .mdly p t => Sys2Proof.Machine.execMdly p t s
  | .gmmaBegin p t => Sys2Proof.Machine.execGmmaBegin p t s
  | .gmmaResult p t => Sys2Proof.Machine.execGmmaResult p t s
  | .gxfer p => Sys2Proof.Machine.execGxfer p s
  | .gfill p => Sys2Proof.Machine.execGfill p s
  | .gnop p => Sys2Proof.Machine.execGnop p s
  | .gatherReadReturn p stall => Sys2Proof.Machine.execGatherReadReturn p stall s
  | .ynop p => Sys2Proof.Machine.execYnop p s
  | .yset p => Sys2Proof.Machine.execYset p s
  | .ybar p => Sys2Proof.Machine.execYbar p s
  | .ymembar p => Sys2Proof.Machine.execYmembar p s
  | .yfsignal p => Sys2Proof.Machine.execYfsignal p s
  | .yfwait p => Sys2Proof.Machine.execYfwait p s
  | .ypoll p => Sys2Proof.Machine.execYpoll p s
  | .ypollReread p => Sys2Proof.Machine.execYpollReread p s
  | .semaphoreSignal p wait => Sys2Proof.Machine.execSemaphoreSignal p wait s
  | .barrierArrival p => Sys2Proof.Machine.execBarrierArrival p s
  | .barrierPublicationReceive p k => Sys2Proof.Machine.execBarrierPublicationReceive p k s
  | .fenceSignal n => Sys2Proof.Machine.execFenceSignal n s
  | .fenceWaitSatisfied w => Sys2Proof.Machine.execFenceWaitSatisfied w s
  | .stackRead k line err odecc => Sys2Proof.Machine.execStackRead k line err odecc s
  | .stackWrite k line mask data err => Sys2Proof.Machine.execStackWrite k line mask data err s
  | .stackAtomic k off op wide a b err => Sys2Proof.Machine.execStackAtomic k off op wide a b err s
  | .scrubRead k err => Sys2Proof.Machine.execScrubRead k err s
  | .stackTemperatureRead k reading throttled => Sys2Proof.Machine.execStackTemperatureRead k reading throttled s
  | .rowRemapComplete k bad => Sys2Proof.Machine.execRowRemapComplete k bad s
  | .refetch d => Sys2Proof.Machine.execRefetch d s
  | .walkRequest p => Sys2Proof.Machine.execWalkRequest p s
  | .walkComplete d k hs => Sys2Proof.Machine.execWalkComplete d k hs s
  | .faultEntryAllocate d waited => Sys2Proof.Machine.execFaultEntryAllocate d waited s
  | .faultRecordWrite hs => Sys2Proof.Machine.execFaultRecordWrite hs s
  | .retry resp hs => Sys2Proof.Machine.execRetry resp hs s
  | .unserviceable resp hs => Sys2Proof.Machine.execUnserviceable resp hs s
  | .xltRingRetry => Sys2Proof.Machine.execXltRingRetry s
  | .invalidationAck id who => Sys2Proof.Machine.execInvalidationAck id who s
  | .openCtx c => Sys2Proof.Machine.execOpenCtx c s
  | .start c => Sys2Proof.Machine.execStart c s
  | .abort c bells => Sys2Proof.Machine.execAbort c bells s
  | .contextStopped c => Sys2Proof.Machine.execContextStopped c s
  | .destroy c => Sys2Proof.Machine.execDestroy c s
  | .sqEnable q => Sys2Proof.Machine.execSqEnable q s
  | .sqDisable q => Sys2Proof.Machine.execSqDisable q s
  | .cqEnable q => Sys2Proof.Machine.execCqEnable q s
  | .cqDisable q => Sys2Proof.Machine.execCqDisable q s
  | .hostLineReread l hs => Sys2Proof.Machine.execHostLineReread l hs s
  | .descriptorFetch q hs => Sys2Proof.Machine.execDescriptorFetch q hs s
  | .launch q n hs => Sys2Proof.Machine.execLaunch q n hs s
  | .copy q n hs => Sys2Proof.Machine.execCopy q n hs s
  | .compress q n hs => Sys2Proof.Machine.execCompress q n hs s
  | .decompress q n hs => Sys2Proof.Machine.execDecompress q n hs s
  | .fence q n => Sys2Proof.Machine.execFence q n s
  | .invalidate q n => Sys2Proof.Machine.execInvalidate q n s
  | .objRegister q n hs => Sys2Proof.Machine.execObjRegister q n hs s
  | .objRelease q n => Sys2Proof.Machine.execObjRelease q n s
  | .itemDispatch d hs => Sys2Proof.Machine.execItemDispatch d hs s
  | .codecFrameComplete d hs => Sys2Proof.Machine.execCodecFrameComplete d hs s
  | .completionRecordWrite cq hs => Sys2Proof.Machine.execCompletionRecordWrite cq hs s
  | .descriptorFenceSignal q n => Sys2Proof.Machine.execDescriptorFenceSignal q n s
  | .errorRecordWrite hs => Sys2Proof.Machine.execErrorRecordWrite hs s
  | .eringRingRetry => Sys2Proof.Machine.execEringRingRetry s
  | .objTableBaseWrite value => Sys2Proof.Machine.execObjTableBaseWrite value s
  | .objectTableReady => Sys2Proof.Machine.execObjectTableReady s
  | .interruptHoldoffExpiry src => Sys2Proof.Machine.execInterruptHoldoffExpiry src s
  | .flitReceive port f => Sys2Proof.Machine.execFlitReceive port f s
  | .credit port c n => Sys2Proof.Machine.execCredit port c n s
  | .rds port hdr => Sys2Proof.Machine.execRds port hdr s
  | .rdo port hdr => Sys2Proof.Machine.execRdo port hdr s
  | .rdnc port hdr => Sys2Proof.Machine.execRdnc port hdr s
  | .wrl port hdr data => Sys2Proof.Machine.execWrl port hdr data s
  | .wrp port hdr data => Sys2Proof.Machine.execWrp port hdr data s
  | .chlAtom port hdr data => Sys2Proof.Machine.execChlAtom port hdr data s
  | .wb port hdr data => Sys2Proof.Machine.execWb port hdr data s
  | .evict port hdr => Sys2Proof.Machine.execEvict port hdr s
  | .snpinv port hdr => Sys2Proof.Machine.execSnpinv port hdr s
  | .chlCmp port hdr => Sys2Proof.Machine.execChlCmp port hdr s
  | .chlAck port hdr => Sys2Proof.Machine.execChlAck port hdr s
  | .ackd port hdr data => Sys2Proof.Machine.execAckd port hdr data s
  | .nohome port hdr => Sys2Proof.Machine.execNohome port hdr s
  | .chlData port hdr data => Sys2Proof.Machine.execChlData port hdr data s
  | .chlCompletionTimeout port tag => Sys2Proof.Machine.execChlCompletionTimeout port tag s
  | .snoopTimeout port => Sys2Proof.Machine.execSnoopTimeout port s
  | .chlPortRetrain port => Sys2Proof.Machine.execChlPortRetrain port s
  | .frameReceive l f => Sys2Proof.Machine.execFrameReceive l f s
  | .laneLockLoss l rx lane => Sys2Proof.Machine.execLaneLockLoss l rx lane s
  | .fecWindowEnd l rx lane corrected uncorrectable => Sys2Proof.Machine.execFecWindowEnd l rx lane corrected uncorrectable s
  | .linkEnable l => Sys2Proof.Machine.execLinkEnable l s
  | .linkDisable l => Sys2Proof.Machine.execLinkDisable l s
  | .fabLinkRetrain l => Sys2Proof.Machine.execFabLinkRetrain l s
  | .linkTrainingComplete l result => Sys2Proof.Machine.execLinkTrainingComplete l result s
  | .linkDownRetry l => Sys2Proof.Machine.execLinkDownRetry l s
  | .retrainAttemptTimeout l => Sys2Proof.Machine.execRetrainAttemptTimeout l s
  | .fabSetupEnable value => Sys2Proof.Machine.execFabSetupEnable value s
  | .put pk => Sys2Proof.Machine.execPut pk s
  | .get pk => Sys2Proof.Machine.execGet pk s
  | .fabAtom pk => Sys2Proof.Machine.execFabAtom pk s
  | .cput pk => Sys2Proof.Machine.execCput pk s
  | .fabAck pk => Sys2Proof.Machine.execFabAck pk s
  | .fabData pk => Sys2Proof.Machine.execFabData pk s
  | .fail pk => Sys2Proof.Machine.execFail pk s
  | .destDeadTimeout io entry => Sys2Proof.Machine.execDestDeadTimeout io entry s
  | .fabDeadClear endpoint => Sys2Proof.Machine.execFabDeadClear endpoint s
  | .fabCollEnable g => Sys2Proof.Machine.execFabCollEnable g s
  | .collectiveContribution g addr data => Sys2Proof.Machine.execCollectiveContribution g addr data s
  | .collectiveRoundComplete g parity => Sys2Proof.Machine.execCollectiveRoundComplete g parity s
  | .collectiveRoundTimeout g parity => Sys2Proof.Machine.execCollectiveRoundTimeout g parity s
  | .load image => Sys2Proof.Machine.execLoad image s
  | .imageCheck => Sys2Proof.Machine.execImageCheck s
  | .report => Sys2Proof.Machine.execReport s
  | .readLog => Sys2Proof.Machine.execReadLog s
  | .readChain => Sys2Proof.Machine.execReadChain s
  | .extend => Sys2Proof.Machine.execExtend s
  | .programFuse => Sys2Proof.Machine.execProgramFuse s
  | .watchdogExpiry n => Sys2Proof.Machine.execWatchdogExpiry n s
  | .getVersion req => Sys2Proof.Machine.execGetVersion req s
  | .getCapabilities req => Sys2Proof.Machine.execGetCapabilities req s
  | .negotiateAlgorithms req => Sys2Proof.Machine.execNegotiateAlgorithms req s
  | .getDigests req => Sys2Proof.Machine.execGetDigests req s
  | .getCertificate req => Sys2Proof.Machine.execGetCertificate req s
  | .challenge req => Sys2Proof.Machine.execChallenge req s
  | .getMeasurements req => Sys2Proof.Machine.execGetMeasurements req s
  | .spdmUnsupportedRequest req => Sys2Proof.Machine.execSpdmUnsupportedRequest req s
  | .setEndpointId req => Sys2Proof.Machine.execSetEndpointId req s
  | .getEndpointId req => Sys2Proof.Machine.execGetEndpointId req s
  | .getMctpVersionSupport req => Sys2Proof.Machine.execGetMctpVersionSupport req s
  | .getMessageTypeSupport req => Sys2Proof.Machine.execGetMessageTypeSupport req s
  | .getTid req => Sys2Proof.Machine.execGetTid req s
  | .setTid req => Sys2Proof.Machine.execSetTid req s
  | .getPldmVersion req => Sys2Proof.Machine.execGetPldmVersion req s
  | .getPldmTypes req => Sys2Proof.Machine.execGetPldmTypes req s
  | .getPldmCommands req => Sys2Proof.Machine.execGetPldmCommands req s
  | .getPdrRepositoryInfo req => Sys2Proof.Machine.execGetPdrRepositoryInfo req s
  | .getPdr req => Sys2Proof.Machine.execGetPdr req s
  | .getSensorReading req => Sys2Proof.Machine.execGetSensorReading req s
  | .getStateSensorReadings req => Sys2Proof.Machine.execGetStateSensorReadings req s
  | .pldmUnsupportedCommand req => Sys2Proof.Machine.execPldmUnsupportedCommand req s
  | .sensorRead => Sys2Proof.Machine.execSensorRead s
  | .logInfo => Sys2Proof.Machine.execLogInfo s
  | .logRead => Sys2Proof.Machine.execLogRead s
  | .moultNominate => Sys2Proof.Machine.execMoultNominate s
  | .quiesce d => Sys2Proof.Machine.execQuiesce d s
  | .moult d => Sys2Proof.Machine.execMoult d s
  | .dieSensorSample io d k reading => Sys2Proof.Machine.execDieSensorSample io d k reading s
  | .shutdownPowerOff => Sys2Proof.Machine.execShutdownPowerOff s
  | .pmbusRead sensor reading => Sys2Proof.Machine.execPmbusRead sensor reading s
  | .dieEvaluation d => Sys2Proof.Machine.execDieEvaluation d s
  | .fastCurrentLimit => Sys2Proof.Machine.execFastCurrentLimit s
  | .fastLimitRelease => Sys2Proof.Machine.execFastLimitRelease s
  | .tileErrorPeriodEnd => Sys2Proof.Machine.execTileErrorPeriodEnd s
  | .logRecordProgram => Sys2Proof.Machine.execLogRecordProgram s
  | .logSectorErase => Sys2Proof.Machine.execLogSectorErase s
  | .stacksOpen d noResource badReserve => Sys2Proof.Machine.execStacksOpen d noResource badReserve s
  | .powerWarning millivolts => Sys2Proof.Machine.execPowerWarning millivolts s
  | .powerWarningClear => Sys2Proof.Machine.execPowerWarningClear s
  | .powerOnReset => Sys2Proof.Machine.execPowerOnReset s
  | .partReset => Sys2Proof.Machine.execPartReset s
  | .hardwareStart r => Sys2Proof.Machine.execHardwareStart r s
  | .partResetKeyWrite value => Sys2Proof.Machine.execPartResetKeyWrite value s
  | .setupLock => Sys2Proof.Machine.execSetupLock s
  | .refLost => Sys2Proof.Machine.execRefLost s
  | .refReturn => Sys2Proof.Machine.execRefReturn s
  | .pllLost domain index starting => Sys2Proof.Machine.execPllLost domain index starting s
  | .pwrEnAssert msSinceDeassert => Sys2Proof.Machine.execPwrEnAssert msSinceDeassert s
  | .pwrEnDeassert => Sys2Proof.Machine.execPwrEnDeassert s
  | .railOutOfRegulation r => Sys2Proof.Machine.execRailOutOfRegulation r s
  | .railStartTimeout => Sys2Proof.Machine.execRailStartTimeout s
  | .vinOvervoltage => Sys2Proof.Machine.execVinOvervoltage s
  | .vinUndervoltage => Sys2Proof.Machine.execVinUndervoltage s
  | .inputCurrentLimitTimeout => Sys2Proof.Machine.execInputCurrentLimitTimeout s
  | .vcblOvercurrent k => Sys2Proof.Machine.execVcblOvercurrent k s
  | .chlPortTrainingComplete port result => Sys2Proof.Machine.execChlPortTrainingComplete port result s
  | .partResetDelayExpiry => Sys2Proof.Machine.execPartResetDelayExpiry s
  | .vinApplied => Sys2Proof.Machine.execVinApplied s
  | .dynamicAddressAssignment kind addr => Sys2Proof.Machine.execDynamicAddressAssignment kind addr s

end Sys2Proof.Machine
end

