-- ==== Sys2Proof/Machine/Step.lean ====
section
/-!
DEFINITION. One step: the command at the front of the queue runs on the state with the rest of the queue.
-/
namespace Sys2Proof.Machine

/-- The state with a command put in front of its queue. -/
def State.push (s : State) (i : Instr) : State := { s with pending := i :: s.pending }

/-- A step takes the front command; on an empty queue one REF cycle passes (DESIGN CHOICE: notes/assumptions/3.md). -/
def step (s : State) : Host.Outcome State Fault Refusal :=
  match s.pending with
  | [] => .next s.idle
  | i :: rest => exec i { s with pending := rest }

/-- opcode_table.json gives no bits, so no word spells a command and the state is unchanged.
DESIGN CHOICE: notes/assumptions/2.md. -/
def State.withFetchWord (s : State) (_nbits _w : Nat) : State := s

end Sys2Proof.Machine
end

