-- ==== Sys2Proof/Safety.lean ====
section
/-!
DEFINITION. The terms of the claims: which components and units two states agree on, when a stream, a group or an
engine can execute an instruction, and the canonical form of the maps of State.
-/
namespace Sys2Proof.Machine

/-! ### What two states agree on -/

/-- The register fields outside a list read the same in both states. -/
def State.fieldsBut (s t : State) (l : List (Fld × Nat)) : Prop := ∀ x i, (x, i) ∉ l → t.f x i = s.f x i

/-- Tiles outside a list are the same in both states. -/
def State.tilesBut (s t : State) (l : List Nat) : Prop := ∀ p, p ∉ l → t.tile p = s.tile p

/-- Every byte of part memory reads the same. -/
def State.sameMem (s t : State) : Prop := ∀ c, t.memByte c = s.memByte c

/-- Bytes of part memory outside `n` bytes from cell `c` on read the same. -/
def State.memBut (s t : State) (c n : Nat) : Prop := ∀ a, ¬ (c ≤ a ∧ a < c + n) → t.memByte a = s.memByte a

/-- Nothing but register fields differs. -/
def State.onlyFields (s t : State) : Prop := t = { s with fields := t.fields }

/-- Nothing but tiles differs. -/
def State.onlyTiles (s t : State) : Prop := t = { s with tiles := t.tiles }

/-- Nothing but tiles and register fields differs. -/
def State.onlyTilesFields (s t : State) : Prop := t = { s with tiles := t.tiles, fields := t.fields }

/-- Nothing but tile `p` and register fields differs. -/
def TileOnly (s t : State) (p : Nat) : Prop := s.onlyTilesFields t ∧ s.tilesBut t [p]

/-! ### Streams (R28 to R30, R163, R188) -/

/-- Stream `k` of tile `p` can execute, and the instruction of `n` bytes at its program counter, aligned to its length,
is `word`. -/
def StreamAt (s : State) (p : Nat) (k : StreamId) (n word : Nat) : Prop :=
  s.streamLive p k.num k = true ∧ s.streamFetched p k.num n word = true ∧ ((s.tile p).slot k.num).pc % n = 0

/-- Nothing but one slot of one tile differs. -/
def SlotOnly (s t : State) (p k : Nat) : Prop :=
  s.onlyTiles t ∧ s.tilesBut t [p]
  ∧ t.tile p = { s.tile p with seq := { (s.tile p).seq with slots := (t.tile p).seq.slots } }
  ∧ ∀ j, j ≠ k → (t.tile p).slot j = (s.tile p).slot j

/-- The stream stands behind an instruction of `n` bytes, its q-registers as `q` gives them; the rest of its slot is
unchanged (R30). -/
def SlotNext (s t : State) (p k n : Nat) (q : Nat → Nat) : Prop :=
  let x := (s.tile p).slot k
  let y := (t.tile p).slot k
  (y.pc, y.loops) = loopNext x.pc ((x.pc + n) % 2 ^ 56) x.loops
  ∧ y = { x with pc := y.pc, loops := y.loops, q := y.q } ∧ ∀ r, t.qreg p k r = q r

/-! ### Thread groups (R59, R60, R187, R190) -/

/-- Group `g` of tile `p`, which is `x`, can issue; the instruction at its program counter is the one of these fields,
legal, and no register that it names awaits a load. -/
def GroupAt (s : State) (p g : Nat) (x : Group) (cls op : Nat) (f : ThreadFields) : Prop :=
  (s.tile p).group? g = some x ∧ s.canIssue p g x = true ∧ x.pc % 8 = 0
  ∧ cacheBytes (s.tile p).seq.tcache x.pc 8 = some (toLE 8 (f.word cls op))
  ∧ x.needs (f.names cls op) = [] ∧ f.legal cls op x.n = true

/-- Nothing but group `g` of tile `p` and the count of issued instructions differs. -/
def GroupOnly (s t : State) (p g : Nat) : Prop :=
  s.onlyTilesFields t ∧ s.tilesBut t [p]
  ∧ t.tile p = { s.tile p with thr := { (s.tile p).thr with groups := (t.tile p).thr.groups } }
  ∧ (∀ j, j ≠ g → (t.tile p).group? j = (s.tile p).group? j)
  ∧ s.fieldsBut t [(.THR_ISSUE_COUNT, p), (.THR_COUNTER_WRAP_ISSUE_WRAPPED, p)]

/-- Group `y` stands 8 bytes further on the path of `x`, unless that path reconverges there (R63). -/
def Behind (x y : Group) : Prop :=
  x.mask ≠ 0 → x.rpc ≠ some ((x.pc + 8) % 2 ^ 56) →
    y.pc = (x.pc + 8) % 2 ^ 56 ∧ y.mask = x.mask ∧ y.stack = x.stack ∧ y.rpc = x.rpc

/-- The group has gone on behind its instruction with the given registers: its program counter is 8 further unless the
path reconverges there (R63). -/
def GroupNext (t : State) (p g : Nat) (x : Group) (v : Nat → Nat → W32) (u : Nat → W64) : Prop :=
  ∃ y, (t.tile p).group? g = some y ∧ (∀ r l, l < 32 → y.vreg r l = v r l) ∧ (∀ r, y.ureg r = u r)
    ∧ y.loads = x.loads ∧ y.alive = x.alive ∧ y.wait = x.wait ∧ Behind x y

/-- Register D of the active lanes takes `h`; every other register of every lane keeps its value. -/
def laneWrite (x : Group) (d : Nat) (h : Nat → W32) (r l : Nat) : W32 :=
  if r = d ∧ bit x.mask l = true then h l else x.vreg r l

/-- The pair D, D + 1 of the active lanes takes `h`. -/
def pairWrite (x : Group) (d : Nat) (h : Nat → W64) (r l : Nat) : W32 :=
  if r = d ∧ bit x.mask l = true then (h l).setWidth 32
  else if r = d + 1 ∧ bit x.mask l = true then ((h l) >>> (32 : Nat)).setWidth 32 else x.vreg r l

/-- Both groups hold the same registers. -/
def SameRegs (x y : Group) : Prop := (∀ r l, y.vreg r l = x.vreg r l) ∧ ∀ r, y.ureg r = x.ureg r

/-- The lane accesses `ls` of an instruction are aligned and become `ls'`: cells of the block's local rows, or
translated, which leaves state `s₁` (R57, R73). -/
def LanesAt (s : State) (p g : Nat) (x : Group) (loc : Bool) (size : Nat) (acc : Access) (ls ls' : List LaneAcc)
    (s₁ : State) : Prop :=
  (∀ l ∈ ls, l.va % size = 0)
  ∧ if loc = true then
      s₁ = s ∧ ∃ b, (s.tile p).block? x.block = some b ∧ (∀ l ∈ ls, l.va + size ≤ b.rows * 1024)
        ∧ ls' = ls.map fun l => { l with target := 3, pa := (3072 - (s.tile p).thr.carve + b.rowFirst) * 1024 + l.va }
    else State.xlLanes p g x.pc acc ls s = (s₁, some ls')

/-! ### Engines (R31, R34) -/

/-- The head of an engine's queue has this opcode and may begin, which leaves state `s₁` where its wait is granted now. -/
def EngineHead (s : State) (p k op : Nat) (e : Entry) (s₁ : State) : Prop :=
  (s.tile p).live = true ∧ s.head p k = some e ∧ e.op = op ∧ s.headReady p k e = some s₁

/-- The head of MATQ has opcode `op` and begins after the cycles that `mt` names, which leave `s₁`, its wait then granted,
which leaves `s₂`: its unit is free, no instruction has begun in the same cycle, no MDLY holds it back (R86, R88). -/
def MatHead (s : State) (p op : Nat) (u : MatUnit) (mt : MatTime) (e : Entry) (s₂ : State) : Prop :=
  let s₁ := s.matTime p mt
  let m := (s₁.tile p).mat
  EngineHead s₁ p 1 op e s₂ ∧ m.earliest ≤ m.now ∧ m.lastBegin ≠ some m.now ∧ m.free u ≤ m.now

/-- A tile has halted with this reason at an instruction of stream `k` (R189, R192). -/
def HaltedAt (t : State) (p reason kind k addr : Nat) : Prop :=
  (t.tile p).seq.run = .halted ∧ ∃ h, (t.tile p).seq.halt = some h ∧ h.reason = reason ∧ h.kind = kind
    ∧ (if kind = 1 then h.group else h.stream) = k ∧ h.addr = addr % 2 ^ 56

/-! ### Descriptors (R286 to R288) -/

/-- Counters, each with the field of its wrap bit. -/
def withWraps (l : List (Fld × Nat)) : List (Fld × Nat) :=
  l.flatMap fun x => x :: ((x.1.wrap x.2).map fun w => (w.1, w.2.1)).toList

/-- The fields that the completion of a descriptor may change. -/
def Desc.doneFields (d : Desc) : List (Fld × Nat) :=
  (.QUE_SQ_STATUS_STATE, d.q) ::
    withWraps [(.CTX_ITEMS_FAILED_COUNT, d.ctx), (.CTX_ITEMS_DONE_COUNT, d.ctx), (.OBJ_STALE_ITEMS_COUNT, 0)]

/-- The words of a completion record but for PHASE (R288). -/
def Desc.recordOf (d : Desc) (mask result tag count first : Nat) : List Nat :=
  [mask % 2 ^ 32, mask / 2 ^ 32, result, 0, tag, d.n, d.q + d.ctx * 2 ^ 10 + (count - 1) * 2 ^ 16, first]

/-- A record for the descriptor has become the newest that its completion queue holds. -/
def RecordHeld (s t : State) (d : Desc) (words : List Nat) (irq : Bool) : Prop :=
  (t.cp.cqs.get .reset d.cq).held = (s.cp.cqs.get .reset d.cq).held ++ [⟨words, d.q, d.n, irq⟩]

/-- The descriptor has completed with this result, mask of failed items and first failure; nothing else has changed. -/
def Completes (s t : State) (d : Desc) (mask result first : Nat) : Prop :=
  t = { s with cp := t.cp, fields := t.fields } ∧ s.fieldsBut t d.doneFields
  ∧ (t.desc? d.q d.n).map (·.stage) = some .complete
  ∧ RecordHeld s t d (d.recordOf mask result (d.w 1) d.count first) d.irq

/-- Descriptor `(q, n)` of an opcode starts now and has met no failure; `s₁` has ended the items whose stores are settled. -/
def StartsAt (s : State) (q n op : Nat) (s₁ : State) (d : Desc) : Prop :=
  s.starting q n op = some (s₁, d) ∧ d.q = q ∧ d.n = n ∧ d.stage = .fetched ∧ d.malformed = false ∧ d.poisoned = false
  ∧ d.items.length = d.count ∧ ∀ it ∈ d.items, it.stage = .fresh ∧ it.code = 0

/-! ### Chautlink (R305, R309, R312, R313) -/

/-- Exactly one message has been queued for port `k`, or sent by it, since `s`, and it is one that `ok` describes. -/
def MsgSent (s t : State) (k : Nat) (ok : Msg → Prop) : Prop :=
  ∃ m, ok m ∧ ((t.port k).out ++ (t.port k).queue.map (·.2)).Perm ((s.port k).out ++ (s.port k).queue.map (·.2) ++ [m])

/-- A message of a type with a tag, these data and the poison bit (R305). -/
def Msg.Is (type tag : Nat) (data : List Byte) (poison : Bool) (m : Msg) : Prop :=
  m.hdr % 2 ^ 6 = type ∧ m.hdr / 2 ^ 8 % 2 ^ 12 = tag ∧ bit m.hdr 20 = poison ∧ m.data = data

/-- A host request of a type with header `h`, legal, on an UP port that serves memory, reaches cell `c` at offset `pa` of
the port's aperture; no snoop of the line is under way (R302, R309, R313). -/
def HostReaches (s : State) (k ty h pa c : Nat) : Prop :=
  k < 2 ∧ s.portUp k = true ∧ Msg.requestOk ty h = true ∧ (s.port k).memEn = true ∧ (s.port k).aperture % 64 = 0 ∧ (s.port k).aperture + pa = Msg.addr h
  ∧ s.cellOf pa = some c ∧ s.stacksOpen (c / 2 ^ 37) = true ∧ s.serves c = true ∧ s.snooped (pa / 64) = false

/-- The operations of R186 on values of `n` bits. -/
def atomicResult (n op : Nat) (x y z : BitVec n) : BitVec n :=
  match op with
  | 0 => x + y
  | 1 => if y.toInt < x.toInt then y else x
  | 2 => if x.toInt < y.toInt then y else x
  | 3 => if y.toNat < x.toNat then y else x
  | 4 => if x.toNat < y.toNat then y else x
  | 5 => x &&& y
  | 6 => x ||| y
  | 7 => x ^^^ y
  | 8 => y
  | _ => if x = y then z else x

/-! ### Fabric (R329 to R338) -/

/-- A packet of this kind waits for a link or has been sent on one. -/
def PacketOut (t : State) (ok : Packet → Prop) : Prop :=
  ∃ pk, ok pk ∧ ((∃ x ∈ t.fab.queue, x.2.1 = pk) ∨ ∃ l, pk ∈ (t.link l).out)

/-- A response packet of a type to the sender of the request with header `h`, its tag copied (R335). -/
def Pk.AnswerTo (h type code : Nat) (p : Packet) : Prop :=
  p.hdr.toNat % 2 ^ 4 = type ∧ Pk.dest p.hdr.toNat = Pk.source h ∧ Pk.tag p.hdr.toNat = Pk.tag h ∧ Pk.code p.hdr.toNat = code

/-- A legal request of a peer, of type `ty` with header `h`, for `n` bytes from cell `c` on: nothing of its source is held
back, no snoop is needed, and the answer has a direction with a live link (R331, R337, R338). -/
def PeerReaches (s : State) (ty h c n : Nat) : Prop :=
  Pk.type h = ty ∧ Pk.requestOk h = true ∧ s.fabOn = true ∧ Pk.source h ≠ s.endpoint ∧ s.fab.heldPeers = []
  ∧ s.cellOf (Pk.addr h) = some c ∧ (∀ x ∈ s.cellsOf (Pk.addr h) n, s.serves x = true ∧ s.blockers x none (ty != 2) = [])
  ∧ ∃ j, s.route (Pk.source h) = some j ∧ s.dirAlive j = true

/-! ### Mailboxes (R369, R390) -/

/-- The command in progress has ended with a status: BUSY clears, DONE is set, the ROM takes the next (R369). -/
def SecEnds (s t : State) (status : Nat) : Prop :=
  t.sec.busy = none ∧ t.sec.staging = none ∧ t.flag .SEC_MBX_STATUS_BUSY = false ∧ t.flag .SEC_MBX_STATUS_DONE = true
  ∧ t.f .SEC_MBX_STATUS_STATUS = status ∧ t.flag .SEC_MBX_STATUS_OVERRUN = s.flag .SEC_MBX_STATUS_OVERRUN

/-- The management processor's command has ended with a status (R390). -/
def MgtEnds (s t : State) (status : Nat) : Prop :=
  t.mgt.busy = none ∧ t.flag .MGT_MBX_STATUS_BUSY = false ∧ t.flag .MGT_MBX_STATUS_DONE = true
  ∧ t.f .MGT_MBX_STATUS_STATUS = status ∧ t.flag .MGT_MBX_STATUS_OVERRUN = s.flag .MGT_MBX_STATUS_OVERRUN

/-! ### Sideband (R363, R364, R389) -/

/-- The SEP firmware has sent one answer, which `ok` describes; memory, tiles and measurement registers are unchanged. -/
def SecAnswers (s t : State) (ok : List Byte → Prop) : Prop :=
  t.mem = s.mem ∧ t.tiles = s.tiles ∧ t.sec.mrs = s.sec.mrs ∧ t.sec.procs = s.sec.procs
  ∧ ∃ bs, t.sec.responses = s.sec.responses ++ [bs] ∧ ok bs

/-- The management processor has sent one PLDM answer, which `ok` describes; nothing but its state has changed. -/
def MgtAnswers (s t : State) (ok : List Byte → Prop) : Prop :=
  t = { s with mgt := t.mgt, freeIx := t.freeIx } ∧ t.mgt.sensors = s.mgt.sensors ∧ t.mgt.flash = s.mgt.flash
  ∧ ∃ bs, t.mgt.responses = s.mgt.responses ++ [bs] ∧ ok bs

/-! ### Reset and power (R392, R400 to R402) -/

/-- A part reset of this cause: work, firmware and link configuration are lost; R401's fields, the fences, the time, the repair
state and the programmed log records are kept; every other field has its reset value, POWER_LIMIT is TDP. -/
def PartReset (s t : State) (cause domain index : Nat) : Prop :=
  t.fuses = s.fuses ∧ t.fences = s.fences ∧ t.time = s.time ∧ t.mgt.repair = s.mgt.repair ∧ t.mgt.flash = s.mgt.flash
  ∧ t.jtag = s.jtag ∧ t.pending = s.pending ∧ t.cp = .reset ∧ t.chl = .reset ∧ t.fab = .reset ∧ t.sec = .reset ∧ t.tiles = []
  ∧ t.power.pwrGood = s.power.pwrGood ∧ t.power.resetPending = (s.power.resetPending && cause != 3)
  ∧ t.f .CLK_RESET_CAUSE_CAUSE = cause ∧ t.f .CLK_RESET_CAUSE_DOMAIN = domain ∧ t.f .CLK_RESET_CAUSE_COUNTER_INDEX = index
  ∧ (s.f .CLK_PART_RESETS_COUNT + 1 < 2 ^ 64 → t.f .CLK_PART_RESETS_COUNT = s.f .CLK_PART_RESETS_COUNT + 1)
  ∧ (∀ k, s.f .HBM_STATUS_STATE k = 3 → t.f .HBM_STATUS_STATE k = 3)
  ∧ t.f .MGT_LIMITS_POWER_LIMIT = s.variant.tdp
  ∧ ∀ x i, x ≠ .HBM_STATUS_STATE → (x, i) ≠ (.MGT_LIMITS_POWER_LIMIT, 0) → x.info.reg ≠ .CLK_RESET_CAUSE → x ≠ .CLK_PART_RESETS_COUNT →
      (s.f .CLK_PART_RESETS_COUNT + 1 < 2 ^ 64 ∨ x.isWrap = false) → t.f x i = if x.kept = true then s.f x i else x.info.reset

/-- Power is lost: everything but the fuses, the straps and the programmed log records (R392). -/
def PowerLost (s t : State) : Prop :=
  t.power.pwrGood = false ∧ t.power.start = .off ∧ t.fuses = s.fuses ∧ t.straps = s.straps ∧ t.mgt.flash = s.mgt.flash
  ∧ t.pending = s.pending ∧ t.cp = .reset ∧ t.chl = .reset ∧ t.fab = .reset ∧ t.sec = .reset ∧ t.tiles = [] ∧ t.fences = []
  ∧ t.mgt.repair = .reset ∧ t.mgt.queue = [] ∧ t.time = 0

/-! ### Registers (R8 to R11) -/

/-- The registers whose writes do more than set their own fields. -/
def actingRegs : List Reg :=
  [.CLK_RESET_CTRL, .CLK_LOCK, .CTX_CTRL, .QUE_SQ_CTRL, .QUE_CQ_CTRL, .QUE_ERING_SETUP, .QUE_ERING_CONS_LINE, .QUE_ERING_CTRL,
   .OBJ_TABLE_BASE, .XLT_FRING_CONS_LINE, .XLT_RRING_PROD_LINE, .XLT_CTRL, .FAB_SETUP, .FAB_LINK_CTRL, .FAB_COLL_SETUP, .FAB_DEAD,
   .CHL_PORT_CTRL, .CHL_MSI_CTRL, .MGT_MOULT_CTRL, .MGT_MBX_CMD, .MGT_MBX_DATA, .SEC_MBX_CMD, .SEC_MBX_DATA, .SEQ_CTRL,
   .GRP_DBG_CTRL, .GRP_DBG_PC, .GRP_DBG_UNIFORM, .GRP_DBG_VDATA]

/-! ### The canonical form of the maps of State -/

/-- A register field's entry: not its reset value, within its width. -/
def fieldEntry (k v : Nat) : Bool :=
  Fld.all.any fun x => decide (x.idx = k % 1024) && decide (v ≠ x.info.reset) && decide (v < 2 ^ x.width)

/-- Part memory in its canonical form: addresses rise strictly, no entry equals what an unlisted address reads as. -/
def Memory.wf (m : FMap Byte) : Bool := FMap.wf State.memDefault m

/-- Part memory, eyespots and register fields are canonical: keys rise strictly, no entry has the value of an unlisted key. -/
def State.canonical (s : State) : Prop :=
  Memory.wf s.mem = true ∧ FMap.wf false s.eyes = true ∧ FMap.wfBy fieldEntry 0 s.fields = true

end Sys2Proof.Machine
end

