-- ==== Sys2Proof/Certificates/Slice0/Obligations.lean ====
section
/-!
DEFINITION. The statements for the provers. Each formalises what the rules of spec/ named in OBLIGATIONS.json say that a
command or the part does. A statement of several parts is the conjunction of its clauses, each a definition of its own.
-/
open Sys2Proof Sys2Proof.Machine

/-! ### Streams (07_hexist_encodings.md R163 to R167, R188; 02_tiles_streams_and_gangs.md R29, R30) -/

/-- The fifteen S-R operations write D = A op B and nothing else (R165): shift counts are B[5:0], QMUL keeps the low 64
bits, the set instructions give 1 or 0. The stream goes on behind the instruction, under R30 where a loop is active. -/
def Clause.ScalarRegisterOperations : Prop :=
  ∀ x ∈ ([(.qadd, 0x03, fun a b => a + b), (.qsub, 0x04, fun a b => a - b), (.qmul, 0x05, fun a b => a * b),
      (.qand, 0x06, fun a b => a &&& b), (.qor, 0x07, fun a b => a ||| b), (.qxor, 0x08, fun a b => a ^^^ b),
      (.qshl, 0x09, fun a b => a <<< (b.toNat % 64)), (.qshr, 0x0A, fun a b => a >>> (b.toNat % 64)),
      (.qsra, 0x0B, fun a b => a.sshiftRight (b.toNat % 64)),
      (.qmin, 0x0C, fun a b => if b.toInt < a.toInt then b else a), (.qmax, 0x0D, fun a b => if a.toInt < b.toInt then b else a),
      (.qminu, 0x0E, fun a b => if b.toNat < a.toNat then b else a), (.qmaxu, 0x0F, fun a b => if a.toNat < b.toNat then b else a),
      (.qslt, 0x10, fun a b => if a.toInt < b.toInt then 1 else 0), (.qsltu, 0x11, fun a b => if a.toNat < b.toNat then 1 else 0)]
      : List ((Nat → StreamId → ScalarR → Instr) × Nat × (W64 → W64 → W64))),
  ∀ (s : State) (p : Nat) (k : StreamId) (f : ScalarR), f.len = 0 → f.rsv0 = 0 → f.rsv1 = 0 →
    StreamAt s p k 8 (f.word x.2.1) →
    ∃ t, exec (x.1 p k f) s = .next t ∧ SlotOnly s t p k.num
      ∧ SlotNext s t p k.num 8 fun r => if r = f.d.toNat
          then (x.2.2 (BitVec.ofNat 64 (s.qreg p k.num f.a.toNat)) (BitVec.ofNat 64 (s.qreg p k.num f.b.toNat))).toNat
          else s.qreg p k.num r

/-- The S-I operations write D = A op IMM, IMM sign-extended to 64 bits, shifts by IMM[5:0]; QMOVI writes IMM, QMOVI64
its 64 bits, QLOOPN the count left of loop level IMM[1:0], 0 for a level that is not active (R164 to R166). -/
def Clause.ScalarImmediateOperations : Prop :=
  (∀ x ∈ ([(.qaddi, 0x18, fun a b => a + b), (.qandi, 0x19, fun a b => a &&& b), (.qori, 0x1A, fun a b => a ||| b),
      (.qxori, 0x1B, fun a b => a ^^^ b), (.qshli, 0x1C, fun a b => a <<< (b.toNat % 64)),
      (.qshri, 0x1D, fun a b => a >>> (b.toNat % 64)), (.qmuli, 0x1E, fun a b => a * b)]
      : List ((Nat → StreamId → ScalarI → Instr) × Nat × (W64 → W64 → W64))),
    ∀ (s : State) (p : Nat) (k : StreamId) (f : ScalarI), f.len = 0 → f.rsv0 = 0 → StreamAt s p k 8 (f.word x.2.1) →
      ∃ t, exec (x.1 p k f) s = .next t ∧ SlotOnly s t p k.num
        ∧ SlotNext s t p k.num 8 fun r => if r = f.d.toNat
            then (x.2.2 (BitVec.ofNat 64 (s.qreg p k.num f.a.toNat)) (f.imm.signExtend 64)).toNat else s.qreg p k.num r)
  ∧ (∀ (s : State) (p : Nat) (k : StreamId) (f : ScalarI), f.len = 0 → f.rsv0 = 0 → f.a = 0 → StreamAt s p k 8 (f.word 0x1F) →
      ∃ t, exec (.qmovi p k f) s = .next t ∧ SlotOnly s t p k.num
        ∧ SlotNext s t p k.num 8 fun r => if r = f.d.toNat then (f.imm.signExtend 64).toNat else s.qreg p k.num r)
  ∧ (∀ (s : State) (p : Nat) (k : StreamId) (f : ScalarX), f.len = 1 → f.rsv0 = 0 → f.rsv1 = 0 →
      StreamAt s p k 16 (f.word 0x20) →
      ∃ t, exec (.qmovi64 p k f) s = .next t ∧ SlotOnly s t p k.num
        ∧ SlotNext s t p k.num 16 fun r => if r = f.d.toNat then f.imm64.toNat else s.qreg p k.num r)
  ∧ (∀ (s : State) (p : Nat) (k : StreamId) (f : ScalarI), f.len = 0 → f.rsv0 = 0 → f.a = 0 → StreamAt s p k 8 (f.word 0x2B) →
      ∃ t, exec (.qloopn p k f) s = .next t ∧ SlotOnly s t p k.num
        ∧ SlotNext s t p k.num 8 fun r => if r = f.d.toNat
            then (match ((s.tile p).slot k.num).loops[f.imm.toNat % 4]? with
              | some l => l.left % 2 ^ 64
              | none => 0)
            else s.qreg p k.num r)

/-- The scalar operations of a stream: the S-R and the S-I formats. -/
def Obligations.ScalarOperations : Prop := Clause.ScalarRegisterOperations ∧ Clause.ScalarImmediateOperations

/-- QNOP only goes on; QEND ends the stream; QBR goes to its own address + OFFSET where its condition holds and no loop's
body is left, else behind it; QLOOP enters a loop of a count other than zero; QLOOPX goes on behind the last instruction
of the innermost loop, whose line the cache holds (R29, R30, R37, R165, R166). -/
def Clause.StreamControl : Prop :=
  (∀ (s : State) (p : Nat) (k : StreamId), StreamAt s p k 8 (ScalarR.word 0x01 ⟨0, 0, 0, 0, 0, 0⟩) →
    ∃ t, exec (.qnop p k ⟨0, 0, 0, 0, 0, 0⟩) s = .next t ∧ SlotOnly s t p k.num
      ∧ SlotNext s t p k.num 8 fun r => s.qreg p k.num r)
  ∧ (∀ (s : State) (p : Nat) (k : StreamId), StreamAt s p k 8 (ScalarR.word 0x02 ⟨0, 0, 0, 0, 0, 0⟩) →
    ∃ t, exec (.qend p k ⟨0, 0, 0, 0, 0, 0⟩) s = .next t ∧ SlotOnly s t p k.num
      ∧ ((t.tile p).slot k.num).ended = true ∧ ∀ r, t.qreg p k.num r = s.qreg p k.num r)
  ∧ (∀ (s : State) (p : Nat) (k : StreamId) (f : ScalarB), f.len = 0 → f.rsv0 = 0 → f.cond ≠ 7 →
    (f.cond = 0 → f.a = 0 ∧ f.b = 0) → f.offset.toNat % 8 = 0 → StreamAt s p k 8 (f.word 0x28) →
    let x := (s.tile p).slot k.num
    let a := BitVec.ofNat 64 (s.qreg p k.num f.a.toNat)
    let b := BitVec.ofNat 64 (s.qreg p k.num f.b.toNat)
    let taken : Prop := f.cond = 0 ∨ (f.cond = 1 ∧ a = b) ∨ (f.cond = 2 ∧ a ≠ b) ∨ (f.cond = 3 ∧ a.toInt < b.toInt)
      ∨ (f.cond = 4 ∧ b.toInt ≤ a.toInt) ∨ (f.cond = 5 ∧ a.toNat < b.toNat) ∨ (f.cond = 6 ∧ b.toNat ≤ a.toNat)
    let target := ((BitVec.ofNat 64 x.pc + f.offset.signExtend 64).toNat) % 2 ^ 56
    (taken → (∀ l ls, x.loops = l :: ls → l.first ≤ target ∧ target ≤ l.last) →
      ∃ t, exec (.qbr p k f) s = .next t ∧ SlotOnly s t p k.num ∧ (t.tile p).slot k.num = { x with pc := target })
    ∧ (¬ taken → ∃ t, exec (.qbr p k f) s = .next t ∧ SlotOnly s t p k.num
      ∧ SlotNext s t p k.num 8 fun r => s.qreg p k.num r))
  ∧ (∀ (s : State) (p : Nat) (k : StreamId) (f : ScalarL), f.len = 0 → f.rsv0 = 0 → 8 ≤ f.endOff.toInt →
    f.endOff.toInt % 8 = 0 → StreamAt s p k 8 (f.word 0x29) →
    let x := (s.tile p).slot k.num
    let count := s.qreg p k.num f.count.toNat % 2 ^ 32
    let last := (x.pc + f.endOff.toNat) % 2 ^ 56
    count ≠ 0 → x.loops.length < 4 → (∀ l ls, x.loops = l :: ls → last ≤ l.last) →
      ∃ t, exec (.qloop p k f) s = .next t ∧ SlotOnly s t p k.num
        ∧ (t.tile p).slot k.num =
          { x with pc := (x.pc + 8) % 2 ^ 56, loops := ⟨(x.pc + 8) % 2 ^ 56, last, count - 1⟩ :: x.loops })
  ∧ (∀ (s : State) (p : Nat) (k : StreamId) (l : LoopLevel) (ls : List LoopLevel) (bs : List Byte),
    StreamAt s p k 8 (ScalarR.word 0x2A ⟨0, 0, 0, 0, 0, 0⟩) → ((s.tile p).slot k.num).loops = l :: ls →
    cacheBytes (s.tile p).seq.icache l.last 8 = some bs →
    let next := (l.last + (if fromLE bs % 2 = 1 then 16 else 8)) % 2 ^ 56
    ∃ t, exec (.qloopx p k ⟨0, 0, 0, 0, 0, 0⟩) s = .next t ∧ SlotOnly s t p k.num
      ∧ (t.tile p).slot k.num = { (s.tile p).slot k.num with
          pc := (loopNext l.last next ls).1, loops := (loopNext l.last next ls).2 })

/-- QLD writes the 8 bytes at A + IMM, zero from a line with an eyespot, once the read has been served at its home or its
reply has come; QLDSP those at scratchpad address (A + IMM) mod 3,145,728; QWAIT on a tile alone is granted at once where
the semaphore's value is at least the count, which GE_CONSUME takes off it, and stalls the stream otherwise (R34, R167). -/
def Clause.StreamReadsAndWaits : Prop :=
  (∀ (s s₁ s₂ : State) (p : Nat) (k : StreamId) (f : ScalarI) (tgt pa ep : Nat) (bs : List Byte) (poison : Bool),
    f.len = 0 → f.rsv0 = 0 → StreamAt s p k 8 (f.word 0x21) → ((s.tile p).slot k.num).read = none →
    let va := (BitVec.ofNat 64 (s.qreg p k.num f.a.toNat) + f.imm.signExtend 64).toNat % 2 ^ 56
    va % 8 = 0 → s.translate p (s.missOf p (.stream p k) va .read ((s.tile p).slot k.num).pc) = (s₁, .ok tgt pa ep) →
    s₁.memRead p tgt pa ep 8 (.stream p k) = (s₂, .data bs poison) →
    ∃ t, exec (.qld p k f) s = .next t
      ∧ t.qreg p k.num f.d.toNat = (if poison then 0 else fromLE bs % 2 ^ 64)
      ∧ ∀ c, t.memByte c = s₂.memByte c)
  ∧ (∀ (s s₁ : State) (p : Nat) (k : StreamId) (f : ScalarI) (id : Nat) (bs : List Byte),
    f.len = 0 → f.rsv0 = 0 → StreamAt s p k 8 (f.word 0x21) → ((s.tile p).slot k.num).read = some id →
    (BitVec.ofNat 64 (s.qreg p k.num f.a.toNat) + f.imm.signExtend 64).toNat % 8 = 0 →
    s.takeReq p 8 id = some (s₁, bs) →
    ∃ t, exec (.qld p k f) s = .next t ∧ t.qreg p k.num f.d.toNat = fromLE bs % 2 ^ 64
      ∧ ((t.tile p).slot k.num).read = none)
  ∧ (∀ (s : State) (p : Nat) (k : StreamId) (f : ScalarI), f.len = 0 → f.rsv0 = 0 → StreamAt s p k 8 (f.word 0x22) →
    let a := (BitVec.ofNat 64 (s.qreg p k.num f.a.toNat) + f.imm.signExtend 64).toNat % 3145728
    a % 8 = 0 →
    ∃ t, exec (.qldsp p k f) s = .next t ∧ s.onlyTilesFields t
      ∧ t.qreg p k.num f.d.toNat = fromLE ((s.tile p).spadBytes a 8) % 2 ^ 64
      ∧ (∀ r, r ≠ f.d.toNat → t.qreg p k.num r = s.qreg p k.num r) ∧ (t.tile p).spad = (s.tile p).spad)
  ∧ (∀ (s : State) (p : Nat) (k : StreamId) (f : ScalarW), f.len = 0 → f.rsv0 = 0 → f.rsv1 = 0 → f.cond = 1 ∨ f.cond = 2 →
    StreamAt s p k 8 (f.word 0x2C) → s.gangTiles p = [p] → s.leadOf p = p → (s.tile p).gangSize = 1 →
    let v := s.sem p f.sem.toNat
    let n := f.count.toNat + 1
    (n ≤ v → ∃ t, exec (.qwait p k f) s = .next t ∧ s.onlyTiles t
      ∧ ((t.tile p).slot k.num).stall = .none
      ∧ ((t.tile p).slot k.num).pc = (loopNext ((s.tile p).slot k.num).pc ((((s.tile p).slot k.num).pc + 8) % 2 ^ 56)
          ((s.tile p).slot k.num).loops).1
      ∧ t.sem p f.sem.toNat = (if f.cond = 2 then v - n else v))
    ∧ (v < n → ∃ t, exec (.qwait p k f) s = .next t ∧ s.onlyTiles t
      ∧ ((t.tile p).slot k.num).stall = .wait ⟨f.sem.toNat, n, f.cond == 2⟩ []
      ∧ ((t.tile p).slot k.num).pc = ((s.tile p).slot k.num).pc ∧ t.sem p f.sem.toNat = v))

/-- The stream instructions that do not compute: control, loads and waits.
Rests also on choices of the model: notes/assumptions/22.md, notes/assumptions/23.md. -/
def Obligations.StreamInstructions : Prop := Clause.StreamControl ∧ Clause.StreamReadsAndWaits

/-- A scalar instruction that breaks R163, R164 or R166 halts its tile with ILLEGAL_INSTR, source STREAM, at its own
address (R188); the tile's record then names the stream, and nothing but the tile changes. -/
def Clause.IllegalScalarHalts : Prop :=
  (∀ x ∈ ([(.qadd, 0x03), (.qsub, 0x04), (.qmul, 0x05), (.qand, 0x06), (.qor, 0x07), (.qxor, 0x08), (.qshl, 0x09), (.qshr, 0x0A),
      (.qsra, 0x0B), (.qmin, 0x0C), (.qmax, 0x0D), (.qminu, 0x0E), (.qmaxu, 0x0F), (.qslt, 0x10), (.qsltu, 0x11)]
      : List ((Nat → StreamId → ScalarR → Instr) × Nat)),
    ∀ (s : State) (p : Nat) (k : StreamId) (f : ScalarR), s.streamLive p k.num k = true →
      s.streamFetched p k.num 8 (f.word x.2) = true →
      (f.len ≠ 0 ∨ f.rsv0 ≠ 0 ∨ f.rsv1 ≠ 0 ∨ ((s.tile p).slot k.num).pc % 8 ≠ 0) →
      ∃ t, exec (x.1 p k f) s = .next t ∧ s.onlyTiles t ∧ s.tilesBut t [p] ∧ (t.tile p).seq.run = .halted
        ∧ ∃ h, (t.tile p).seq.halt = some h ∧ h.reason = 0x0001 ∧ h.kind = 0 ∧ h.stream = k.num
          ∧ h.addr = ((s.tile p).slot k.num).pc % 2 ^ 56)
  ∧ (∀ (s : State) (p : Nat) (k : StreamId) (f : ScalarB), s.streamLive p k.num k = true →
      s.streamFetched p k.num 8 (f.word 0x28) = true → (f.cond = 7 ∨ f.offset.toNat % 8 ≠ 0) →
      ∃ t, exec (.qbr p k f) s = .next t ∧ s.onlyTiles t
        ∧ ∃ h, (t.tile p).seq.halt = some h ∧ h.reason = 0x0001 ∧ h.kind = 0 ∧ h.stream = k.num)
  ∧ (∀ (s : State) (p : Nat) (k : StreamId), StreamAt s p k 8 (ScalarR.word 0x2A ⟨0, 0, 0, 0, 0, 0⟩) →
      ((s.tile p).slot k.num).loops = [] →
      ∃ t, exec (.qloopx p k ⟨0, 0, 0, 0, 0, 0⟩) s = .next t ∧ s.onlyTiles t
        ∧ ∃ h, (t.tile p).seq.halt = some h ∧ h.reason = 0x0003 ∧ h.kind = 0 ∧ h.stream = k.num)

/-! ### Launch, fetch, push, gangs and halts (02_tiles_streams_and_gangs.md R28 to R51) -/

/-- A launch message sets an idle tile running, as lead or member, with each enabled slot at its entry point and the lead's
q0 to q3 preset, every semaphore zero (R36, R206); a COPY item's message launches no kernel (R283). The end of a kernel
leaves each tile of the gang idle with its L1 invalidated, and ends the item once its stores are performed (R37, R202).
Rests also on choices of the model: notes/assumptions/24.md. -/
def Obligations.LaunchAndKernelEnd : Prop :=
  (∀ (s : State) (p : Nat) (m : LaunchMsg), (s.tile p).seq.inbox = some m → m.job.copy = false →
    (s.tile p).seq.run = .idle → (s.tile p).seq.halt = none →
    (m.rank = 0 → ∀ r, 0 < r → r < 2 ^ m.gangLog2 →
      (s.tile (s.physOf (p / 104) ((s.localOf m.lead).getD 0 + r))).seq.run = .member) →
    ∃ t, exec (.launchMessage p) s = .next t ∧ (t.tile p).seq.inbox = none ∧ (t.tile p).seq.kernel = some m
      ∧ (t.tile p).seq.run = (if m.rank = 0 then .lead else .member)
      ∧ (∀ k, k < 4 → let x := (t.tile p).slot k
          (x.enabled = true ↔ m.rank = 0 ∧ bit m.enables k = true) ∧ (x.ended = !x.enabled)
          ∧ (x.enabled = true → x.pc = nth 0 m.pcs k)
          ∧ (m.rank = 0 → t.qreg p k 0 = m.args % 2 ^ 64 ∧ t.qreg p k 1 = m.job.item
              ∧ t.qreg p k 2 = 2 ^ m.gangLog2 ∧ t.qreg p k 3 = s.logicalOf m.lead))
      ∧ (∀ n, t.sem p n = 0) ∧ s.tilesBut t [p] ∧ t.mem = s.mem ∧ t.fields = s.fields)
  ∧ (∀ (s : State) (p : Nat) (m : LaunchMsg), (s.tile p).seq.inbox = some m → m.job.copy = true →
    (s.tile p).seq.run = .idle → (s.tile p).seq.halt = none →
    (m.rank = 0 → ∀ r, 0 < r → r < 2 ^ m.gangLog2 →
      (s.tile (s.physOf (p / 104) ((s.localOf m.lead).getD 0 + r))).seq.run = .member) →
    ∃ t, exec (.launchMessage p) s = .next t ∧ s.onlyTiles t ∧ (t.tile p).seq.run = .lead
      ∧ (t.tile p).seq.kernel = some m ∧ (t.tile p).seq.slots = (s.tile p).seq.slots)
  ∧ (∀ (s : State) (p : Nat) (m : LaunchMsg), (s.tile p).seq.kernel = some m → m.job.copy = false →
    (s.tile p).seq.run = .lead → (s.tile p).seq.halt = none →
    (∀ q ∈ s.gangTiles p, s.drained q = true ∧ (s.tile q).seq.halt = none) →
    ∃ t, exec (.kernelEnd p) s = .next t ∧ t.mem = s.mem
      ∧ (∀ q ∈ s.gangTiles p, (t.tile q).seq.run = .idle ∧ (t.tile q).seq.kernel = none ∧ (t.tile q).thr.l1 = [])
      ∧ ∀ d, s.desc? m.job.q m.job.n = some d → m.job.item < d.items.length →
          s.owned (fun o => match o with | .store q _ => (s.gangTiles p).contains q | _ => false) = [] →
          (t.desc? m.job.q m.job.n).bind (fun d => (d.items[m.job.item]?).map (·.stage)) = some .ended)

/-- An instruction fetch fills the cache with the 64-byte line it has read (R28, R191); a legal engine instruction goes to
the tail of its engine's queue with the program counter and q-registers of the push (R31, R41), or to every member of a
gang with the member's rank (R40); with no free entry the stream stalls until one is visible (R33, R43).
Rests also on choices of the model: notes/assumptions/22.md, notes/assumptions/23.md. -/
def Obligations.FetchAndPush : Prop :=
  (∀ (s s₁ s₂ : State) (p : Nat) (k : StreamId) (a instr tgt pa ep : Nat) (bs : List Byte), (s.tile p).live = true →
    s.fetchNeed p (.stream k) = some (a, instr) → (s.tile p).seq.fetches.get none k.num = none →
    s.xlWaiting (.stream p k) (p / 104) (some p) = false →
    s.translate p (s.missOf p (.stream p k) a .fetch instr) = (s₁, .ok tgt pa ep) →
    s₁.memRead p tgt (pa / 64 * 64) ep 64 (.stream p k) = (s₂, .data bs false) →
    ∃ t, exec (.instructionFetchFill p (.stream k)) s = .next t
      ∧ cacheBytes (t.tile p).seq.icache (a / 64 * 64) 64 = some (fit 64 bs) ∧ t.mem = s₂.mem)
  ∧ (∀ (s s₁ s₂ : State) (p g : Nat) (a instr tgt pa ep : Nat) (bs : List Byte), (s.tile p).live = true →
    s.fetchNeed p (.group g) = some (a, instr) → (s.tile p).seq.fetches.get none (4 + g) = none →
    s.xlWaiting (.group p g) (p / 104) (some p) = false →
    s.translate p (s.missOf p (.group p g) a .fetch instr) = (s₁, .ok tgt pa ep) →
    s₁.memRead p tgt (pa / 64 * 64) ep 64 (.groupFetch p g) = (s₂, .data bs false) →
    ∃ t, exec (.instructionFetchFill p (.group g)) s = .next t
      ∧ cacheBytes (t.tile p).seq.tcache (a / 64 * 64) 64 = some (fit 64 bs) ∧ t.mem = s₂.mem)
  ∧ (∀ (s : State) (p : Nat) (k : StreamId) (raw : BitVec 128), StreamAt s p k 16 raw.toNat → engineOk k.num raw.toNat = true →
    s.gangTiles p = [p] → (s.tile p).gangSize = 1 → ((s.tile p).queue k.num).held.length + ((s.tile p).queue k.num).freed < 64 →
    let x := (s.tile p).slot k.num
    ∃ t, exec (.engineInstructionPush p k raw) s = .next t ∧ s.onlyTilesFields t ∧ s.tilesBut t [p]
      ∧ (t.tile p).queue k.num = { (s.tile p).queue k.num with
          held := ((s.tile p).queue k.num).held ++ [⟨raw.toNat, x.pc, x.q, 0⟩] }
      ∧ ((t.tile p).slot k.num).pc = (loopNext x.pc ((x.pc + 16) % 2 ^ 56) x.loops).1
      ∧ ∀ r, t.qreg p k.num r = s.qreg p k.num r)
  ∧ (∀ (s : State) (p : Nat) (k : StreamId) (raw : BitVec 128), StreamAt s p k 16 raw.toNat → engineOk k.num raw.toNat = true →
    (s.tile p).gangSize = 1 → 64 ≤ ((s.tile p).queue k.num).held.length + ((s.tile p).queue k.num).freed →
    ∃ t, exec (.engineInstructionPush p k raw) s = .next t ∧ SlotOnly s t p k.num
      ∧ (t.tile p).slot k.num = { (s.tile p).slot k.num with stall := .full raw.toNat })
  ∧ (∀ (s : State) (p stall : Nat) (k : StreamId), 0 < ((s.tile p).queue k.num).freed → ((s.tile p).slot k.num).stall = .none →
    ∃ t, exec (.queueEntryFreed p k stall) s = .next t ∧ s.onlyTiles t ∧ s.tilesBut t [p]
      ∧ (t.tile p).queue k.num = { (s.tile p).queue k.num with freed := ((s.tile p).queue k.num).freed - 1 })
  ∧ (∀ (s : State) (p stall raw : Nat) (k : StreamId), 0 < ((s.tile p).queue k.num).freed →
    ((s.tile p).slot k.num).stall = .full raw → (s.tile p).live = true → s.gangTiles p = [p] → (s.tile p).gangSize = 1 →
    ((s.tile p).queue k.num).held.length + ((s.tile p).queue k.num).freed ≤ 64 →
    let x := (s.tile p).slot k.num
    ∃ t, exec (.queueEntryFreed p k stall) s = .next t ∧ s.onlyTilesFields t ∧ ((t.tile p).slot k.num).stall = .none
      ∧ ((t.tile p).queue k.num).held = ((s.tile p).queue k.num).held ++ [⟨raw, x.pc, x.q, 0⟩])

/-- In a gang of several tiles: a push reaches every member with its own rank (R40, R41); a member receives its lead's
instructions in order (R42); the lead regains a credit when every member has dequeued one more entry (R43); and it goes on
behind a QWAIT once every member's grant is recorded (R44).
Rests also on choices of the model: notes/assumptions/24.md. -/
def Obligations.GangStreams : Prop :=
  (∀ (s : State) (p : Nat) (k : StreamId) (raw : BitVec 128), StreamAt s p k 16 raw.toNat → engineOk k.num raw.toNat = true →
    (s.gangTiles p).Nodup → (s.gangTiles p).length ≠ 1 → (s.tile p).gangSize ≠ 1 →
    ((s.tile p).slot k.num).pushed < ((s.tile p).slot k.num).returned + 64 →
    let x := (s.tile p).slot k.num
    ∃ t, exec (.engineInstructionPush p k raw) s = .next t ∧ s.onlyTilesFields t
      ∧ ∀ r (h : r < (s.gangTiles p).length), ((t.tile ((s.gangTiles p)[r]'h)).queue k.num).transit =
          ((s.tile ((s.gangTiles p)[r]'h)).queue k.num).transit ++ [⟨raw.toNat, x.pc, x.q, r⟩])
  ∧ (∀ (s : State) (p : Nat) (k : StreamId) (e : Entry) (l : List Entry), ((s.tile p).queue k.num).transit = e :: l →
    ∃ t, exec (.broadcastReceive p k) s = .next t ∧ s.onlyTiles t ∧ s.tilesBut t [p]
      ∧ (t.tile p).queue k.num = { (s.tile p).queue k.num with held := ((s.tile p).queue k.num).held ++ [e], transit := l })
  ∧ (∀ (s : State) (p stall : Nat) (k : StreamId), (s.tile p).gangSize ≠ 1 → (s.tile p).rank = 0 →
    (∀ q ∈ s.gangTiles p, ((s.tile p).slot k.num).returned < ((s.tile q).queue k.num).taken) →
    ((s.tile p).slot k.num).stall = .none →
    ∃ t, exec (.broadcastCreditReturn p k stall) s = .next t ∧ SlotOnly s t p k.num
      ∧ (t.tile p).slot k.num = { (s.tile p).slot k.num with returned := ((s.tile p).slot k.num).returned + 1 })
  ∧ (∀ (s : State) (p : Nat) (k : StreamId) (w : SemWait) (l : List Nat), ((s.tile p).slot k.num).stall = .wait w l →
    (s.tile p).gangSize ≠ 1 → (s.tile p).live = true → (∀ r, r < (s.tile p).gangSize → r ∈ l) →
    let x := (s.tile p).slot k.num
    ∃ t, exec (.gangWaitComplete p k) s = .next t ∧ SlotOnly s t p k.num ∧ ((t.tile p).slot k.num).stall = .none
      ∧ ((t.tile p).slot k.num).pc = (loopNext x.pc ((x.pc + 8) % 2 ^ 56) x.loops).1)

/-- Halts: HALT_REQ stops a tile with DEBUG_HALT (R49); the halt of a gang reaches a member as GANG_HALT with the tile
that halted first (R47); the records become final and are held where HALT_HOLD says so (R46, R48); RESUME lets a
gang stopped by the debugger run on (R49); CLEAR_HALT leaves the gang's tiles idle, or is remembered until the records are
final (R48); and a stall that lasts the limit halts the tile with STALL_LIMIT (R35). -/
def Clause.HaltsAndDebug : Prop :=
  (∀ (s : State) (p : Nat), s.tilePresent p = true → (s.tile p).seq.halt = none →
    ∃ t, exec (.haltReq p) s = .next t ∧ s.onlyTiles t ∧ s.tilesBut t [p] ∧ (t.tile p).seq.run = .halted
      ∧ ∃ h, (t.tile p).seq.halt = some h ∧ h.reason = 0x00FF ∧ h.origin = s.logicalOf p)
  ∧ (∀ (s : State) (p q : Nat), (s.tile p).live = true → (s.origins (s.gangTiles p)).head? = some q →
    ∃ t, exec (.gangHalt p) s = .next t ∧ s.onlyTiles t ∧ s.tilesBut t [p] ∧ (t.tile p).seq.run = .halted
      ∧ ∃ h, (t.tile p).seq.halt = some h ∧ h.reason = 0x00F0 ∧ h.kind = 2 ∧ h.origin = s.logicalOf q)
  ∧ (∀ (s : State) (p : Nat), s.gangTiles p ≠ [] →
    (∀ q ∈ s.gangTiles p, (s.tile q).seq.halt.isSome = true ∧ (s.tile q).seq.clearAsked = false
      ∧ s.flag .SEQ_SETUP_HALT_HOLD q = true) →
    (∃ q ∈ s.gangTiles p, (s.tile q).seq.final = false) →
    ∃ t, exec (.haltRecordsFinal p) s = .next t ∧ t.mem = s.mem
      ∧ ∀ q ∈ s.gangTiles p, (t.tile q).seq.final = true ∧ (t.tile q).seq.run = (s.tile q).seq.run
        ∧ (t.tile q).seq.halt.map (·.reason) = (s.tile q).seq.halt.map (·.reason))
  ∧ (∀ (s : State) (p : Nat), s.debugHeld p = true → (∀ d, (s.die d).entries = []) →
    ∃ t, exec (.seqCtrlResume p) s = .next t ∧ t.mem = s.mem
      ∧ ∀ q ∈ s.gangTiles p, (t.tile q).seq.halt = none
        ∧ ∀ m, (s.tile q).seq.kernel = some m → (t.tile q).seq.run = (if m.rank = 0 then .lead else .member))
  ∧ (∀ (s : State) (p : Nat), (s.tile p).seq.halt.isSome = true → (s.tile p).seq.final = true →
    ∃ t, exec (.clearHalt p) s = .next t ∧ t.mem = s.mem
      ∧ ∀ q ∈ s.gangTiles p, (t.tile q).seq.run = .idle ∧ (t.tile q).seq.halt = none ∧ (t.tile q).seq.kernel = none)
  ∧ (∀ (s : State) (p : Nat), (s.tile p).seq.halt.isSome = true → (s.tile p).seq.final = false →
    ∃ t, exec (.clearHalt p) s = .next t ∧ s.onlyTiles t ∧ s.tilesBut t [p] ∧ (t.tile p).seq.clearAsked = true
      ∧ (t.tile p).seq.halt = (s.tile p).seq.halt)
  ∧ (∀ (s : State) (p cycles : Nat) (k : StreamId), let n := s.f .SEQ_SETUP_STALL_LIMIT_LOG2 p
    n ≠ 0 → 2 ^ n ≤ cycles → (s.tile p).live = true → (s.tile p).seq.run = .lead →
    (∀ g ∈ (s.tile p).resident, ∀ x, (s.tile p).group? g = some x → x.dbgHalted = false) →
    ((s.tile p).slot k.num).ended = false → ((s.tile p).slot k.num).stall ≠ .none →
    ∃ t, exec (.streamStallLimit p (.stream k) cycles) s = .next t ∧ s.onlyTiles t ∧ s.tilesBut t [p]
      ∧ ∃ h, (t.tile p).seq.halt = some h ∧ h.reason = 0x0010 ∧ h.kind = 0 ∧ h.stream = k.num
        ∧ h.addr = ((s.tile p).slot k.num).pc % 2 ^ 56)

/-- Halts of a tile and the debug interface: illegal scalar instructions, halt requests, resumption and clearing.
Rests also on choices of the model: notes/assumptions/21.md, notes/assumptions/36.md. -/
def Obligations.Halts : Prop := Clause.IllegalScalarHalts ∧ Clause.HaltsAndDebug

/-! ### Thread instructions (07_hexist_encodings.md R181 to R187, R190; 03_thread_groups.md) -/

/-- Integer instructions write D = A op second operand in every active lane, on 32-bit values that wrap, saturate or shift
by B[4:0] as R184 says, and leave every other register, lane, group and tile alone. -/
def Clause.IntegerInstructions : Prop :=
  ∀ x ∈ ([(.mov, 0x01, fun _ b => b), (.add, 0x02, fun a b => a + b), (.sub, 0x03, fun a b => a - b), (.mul, 0x04, fun a b => a * b),
      (.mulhi, 0x05, fun a b => BitVec.ofInt 32 (a.toInt * b.toInt / 2 ^ 32)),
      (.mulhiu, 0x06, fun a b => BitVec.ofNat 32 (a.toNat * b.toNat / 2 ^ 32)),
      (.and, 0x07, fun a b => a &&& b), (.or, 0x08, fun a b => a ||| b), (.xor, 0x09, fun a b => a ^^^ b),
      (.shl, 0x0A, fun a b => a <<< (b.toNat % 32)), (.shr, 0x0B, fun a b => a >>> (b.toNat % 32)),
      (.sra, 0x0C, fun a b => a.sshiftRight (b.toNat % 32)),
      (.min, 0x0D, fun a b => if b.toInt < a.toInt then b else a), (.max, 0x0E, fun a b => if a.toInt < b.toInt then b else a),
      (.minu, 0x0F, fun a b => if b.toNat < a.toNat then b else a), (.maxu, 0x10, fun a b => if a.toNat < b.toNat then b else a),
      (.adds, 0x11, fun a b => BitVec.ofInt 32 (max (-2 ^ 31) (min (2 ^ 31 - 1) (a.toInt + b.toInt)))),
      (.subs, 0x12, fun a b => BitVec.ofInt 32 (max (-2 ^ 31) (min (2 ^ 31 - 1) (a.toInt - b.toInt)))),
      (.addsu, 0x13, fun a b => BitVec.ofNat 32 (min (2 ^ 32 - 1) (a.toNat + b.toNat))),
      (.subsu, 0x14, fun a b => BitVec.ofNat 32 (a.toNat - b.toNat))]
      : List ((Nat → Nat → ThreadFields → Instr) × Nat × (W32 → W32 → W32))),
  ∀ (s : State) (p g : Nat) (y : Group) (f : ThreadFields), GroupAt s p g y 0 x.2.1 f →
    ∃ t, exec (x.1 p g f) s = .next t ∧ GroupOnly s t p g
      ∧ (GroupNext t p g y
          (laneWrite y f.d.toNat fun l => x.2.2 (y.vreg f.a.toNat l) (y.int2 f l)) y.ureg)

/-- CMP writes 1 where its condition holds and 0 elsewhere, SEL the first source where C is not zero, ADD64 and SUB64 a
pair, SHFL the register of the lane that the second operand names, ELECT the lowest active lane, VOTE the mask of active
lanes with A not zero, FP32 conversions and NOP as R184, R185 and R187 say. -/
def Clause.CompareSelectAndLanes : Prop :=
  (∀ (s : State) (p g : Nat) (y : Group) (f : ThreadFields), GroupAt s p g y 0 0x15 f →
    ∃ t, exec (.cmp p g f) s = .next t ∧ GroupOnly s t p g
      ∧ (GroupNext t p g y (laneWrite y f.d.toNat fun l =>
          let a := y.vreg f.a.toNat l
          let b := y.int2 f l
          let holds : Prop := (f.modHi = 0 ∧ a = b) ∨ (f.modHi = 1 ∧ a ≠ b) ∨ (f.modHi = 2 ∧ a.toInt < b.toInt)
            ∨ (f.modHi = 3 ∧ a.toInt ≤ b.toInt) ∨ (f.modHi = 4 ∧ a.toNat < b.toNat) ∨ (f.modHi = 5 ∧ a.toNat ≤ b.toNat)
          haveI := Classical.propDecidable holds
          if holds then 1 else 0) y.ureg))
  ∧ (∀ (s : State) (p g : Nat) (y : Group) (f : ThreadFields), GroupAt s p g y 0 0x16 f →
    ∃ t, exec (.sel p g f) s = .next t ∧ GroupOnly s t p g
      ∧ (GroupNext t p g y (laneWrite y f.d.toNat fun l =>
          if y.vreg f.c.toNat l = 0 then y.int2 f l else y.vreg f.a.toNat l) y.ureg))
  ∧ (∀ x ∈ ([(.add64, 0x17, fun a b => a + b), (.sub64, 0x18, fun a b => a - b)]
      : List ((Nat → Nat → ThreadFields → Instr) × Nat × (W64 → W64 → W64))),
    ∀ (s : State) (p g : Nat) (y : Group) (f : ThreadFields), GroupAt s p g y 0 x.2.1 f →
    ∃ t, exec (x.1 p g f) s = .next t ∧ GroupOnly s t p g
      ∧ (GroupNext t p g y
          (pairWrite y f.d.toNat fun l => x.2.2 (y.vpair f.a.toNat l) (y.pair2 f l)) y.ureg))
  ∧ (∀ (s : State) (p g : Nat) (y : Group) (f : ThreadFields), GroupAt s p g y 0 0x19 f →
    ∃ t, exec (.shfl p g f) s = .next t ∧ GroupOnly s t p g
      ∧ (GroupNext t p g y
          (laneWrite y f.d.toNat fun l => y.vreg f.a.toNat ((y.int2 f l).toNat % 32)) y.ureg))
  ∧ (∀ (s : State) (p g : Nat) (y : Group) (f : ThreadFields), GroupAt s p g y 5 0x04 f →
    ∃ t, exec (.elect p g f) s = .next t ∧ GroupOnly s t p g
      ∧ (∀ e, e < 32 → bit y.mask e = true → (∀ j, j < e → bit y.mask j = false) →
          GroupNext t p g y (laneWrite y f.d.toNat fun _ => BitVec.ofNat 32 e) y.ureg))
  ∧ (∀ (s : State) (p g : Nat) (y : Group) (f : ThreadFields), GroupAt s p g y 5 0x05 f →
    ∃ t, exec (.vote p g f) s = .next t ∧ GroupOnly s t p g
      ∧ (∃ m : W32,
          (∀ j, j < 32 → m.getLsbD j = (bit y.mask j && decide (y.vreg f.a.toNat j ≠ 0)))
          ∧ GroupNext t p g y (laneWrite y f.d.toNat fun _ => m) y.ureg))
  ∧ (∀ (s : State) (p g : Nat) (y : Group) (raw : W64), GroupAt s p g y 5 0x01 (.ofWord raw.toNat) →
    threadClass raw.toNat = 5 → threadOp raw.toNat = 1 →
    ∃ t, exec (.nop p g raw) s = .next t ∧ GroupOnly s t p g ∧ (GroupNext t p g y y.vreg y.ureg))

/-- The integer, compare, select and lane instructions of a thread group.
Rests also on choices of the model: notes/assumptions/27.md. -/
def Obligations.IntegerOperations : Prop := Clause.IntegerInstructions ∧ Clause.CompareSelectAndLanes

/-- FP32 instructions write the exact result rounded once to nearest even, with the NaN, infinity and zero rules of R131
and R184; FCMP writes 1 or 0 and a NaN makes only NE hold; CVT converts between the formats that IMM names (R185).
Rests also on choices of the model: notes/assumptions/19.md, notes/assumptions/40.md. -/
def Obligations.FloatInstructions : Prop :=
  (∀ x ∈ ([(.fadd, 0x01, fun a b => f32Round ((f32 a).add (f32 b))), (.fsub, 0x02, fun a b => f32Round ((f32 a).add (f32 b).neg)),
      (.fmul, 0x03, fun a b => f32Round ((f32 a).mul (f32 b))), (.fmin, 0x05, fmin), (.fmax, 0x06, fmax)]
      : List ((Nat → Nat → ThreadFields → Instr) × Nat × (Nat → Nat → Nat))),
    ∀ (s : State) (p g : Nat) (y : Group) (f : ThreadFields), GroupAt s p g y 1 x.2.1 f →
    ∃ t, exec (x.1 p g f) s = .next t ∧ GroupOnly s t p g
      ∧ (GroupNext t p g y (laneWrite y f.d.toNat fun l =>
          BitVec.ofNat 32 (x.2.2 (y.vreg f.a.toNat l).toNat (y.float2 f l).toNat)) y.ureg))
  ∧ (∀ (s : State) (p g : Nat) (y : Group) (f : ThreadFields), GroupAt s p g y 1 0x04 f →
    ∃ t, exec (.ffma p g f) s = .next t ∧ GroupOnly s t p g
      ∧ (GroupNext t p g y (laneWrite y f.d.toNat fun l => BitVec.ofNat 32 (f32Round
          (((f32 (y.vreg f.a.toNat l).toNat).mul (f32 (y.float2 f l).toNat)).add (f32 (y.vreg f.c.toNat l).toNat)))) y.ureg))
  ∧ (∀ (s : State) (p g : Nat) (y : Group) (f : ThreadFields), GroupAt s p g y 1 0x07 f →
    ∃ t, exec (.fcmp p g f) s = .next t ∧ GroupOnly s t p g
      ∧ (GroupNext t p g y (laneWrite y f.d.toNat fun l =>
          let a := f32 (y.vreg f.a.toNat l).toNat
          let b := f32 (y.float2 f l).toNat
          if (f.modHi = 0 ∧ a.eq b = true) ∨ (f.modHi = 1 ∧ a.eq b = false) ∨ (f.modHi = 2 ∧ a.lt b = true)
            ∨ (f.modHi = 3 ∧ (a.lt b = true ∨ a.eq b = true)) then 1 else 0) y.ureg))
  ∧ (∀ x ∈ ([(.fexp2, 0x08, 0), (.flog2, 0x09, 1), (.frcp, 0x0A, 2), (.frsqrt, 0x0B, 3)]
      : List ((Nat → Nat → ThreadFields → Instr) × Nat × Nat)),
    ∀ (s : State) (p g : Nat) (y : Group) (f : ThreadFields), GroupAt s p g y 1 x.2.1 f →
    ∃ t, exec (x.1 p g f) s = .next t ∧ GroupOnly s t p g
      ∧ (GroupNext t p g y (laneWrite y f.d.toNat fun l =>
          BitVec.ofNat 32 (approxOp x.2.2 (y.vreg f.a.toNat l).toNat)) y.ureg))
  ∧ (∀ (s : State) (p g : Nat) (y : Group) (f : ThreadFields), GroupAt s p g y 2 0x01 f →
    ∃ t, exec (.cvt p g f) s = .next t ∧ GroupOnly s t p g
      ∧ (GroupNext t p g y (laneWrite y f.d.toNat fun l => BitVec.ofNat 32
          (cvtBits (f.imm.toNat % 16) (f.imm.toNat / 16 % 16) (y.vreg f.a.toNat l).toNat)) y.ureg))

/-- Uniform instructions write u[D] = u[A] op second operand, 64 bits that wrap, and UINS16 shifts u[D] left by 16 and
inserts IMM; no lane register changes (R187).
Rests also on choices of the model: notes/assumptions/30.md. -/
def Obligations.UniformInstructions : Prop :=
  (∀ x ∈ ([(.umov, 0x01, fun _ b => b), (.uadd, 0x02, fun a b => a + b), (.usub, 0x03, fun a b => a - b),
      (.umul, 0x04, fun a b => a * b), (.uand, 0x05, fun a b => a &&& b), (.uor, 0x06, fun a b => a ||| b),
      (.uxor, 0x07, fun a b => a ^^^ b), (.ushl, 0x08, fun a b => a <<< (b.toNat % 64)),
      (.ushr, 0x09, fun a b => a >>> (b.toNat % 64))]
      : List ((Nat → Nat → ThreadFields → Instr) × Nat × (W64 → W64 → W64))),
    ∀ (s : State) (p g : Nat) (y : Group) (f : ThreadFields), GroupAt s p g y 8 x.2.1 f →
    ∃ t, exec (x.1 p g f) s = .next t ∧ GroupOnly s t p g
      ∧ (GroupNext t p g y y.vreg fun r =>
          if r = f.d.toNat then x.2.2 (y.ureg f.a.toNat) (y.uni2 f) else y.ureg r))
  ∧ (∀ (s : State) (p g : Nat) (y : Group) (f : ThreadFields), GroupAt s p g y 8 0x0B f →
    ∃ t, exec (.uins16 p g f) s = .next t ∧ GroupOnly s t p g
      ∧ (GroupNext t p g y y.vreg fun r =>
          if r = f.d.toNat then BitVec.ofNat 64 ((y.ureg r).toNat * 2 ^ 16 + f.imm.toNat) else y.ureg r))

/-! ### Accesses of thread groups (03_thread_groups.md R57, R59, R65 to R73; 07_hexist_encodings.md R186) -/

/-- Loads. LD of local rows writes the scratchpad's bytes of its block's rows, of 1, 2, 4 or 8 bytes, sign-extended where
MODIFIER[4] is set, a pair for 8; LD.CG begins a load that later returns, as ULD does, and the group goes on behind it;
a cached LD whose lines the L1 holds writes their bytes (R57, R59, R68, R69, R186). -/
def Clause.Loads : Prop :=
  (∀ (s : State) (p g : Nat) (x : Group) (f : ThreadFields) (ls : List LaneAcc), GroupAt s p g x 3 1 f → f.space = 2 →
    x.acquires = [] → (s.tile p).sbOf g x = [] → lanesOf x.mask ≠ [] →
    LanesAt s p g x true f.size .read ((lanesOf x.mask).map fun l => laneAt l (x.localAddr f l) 0 0) ls s →
    let got := fun l => fromLE ((s.tile p).spadBytes (((ls.find? fun z => z.lane == l).map (·.pa)).getD 0) f.size)
    ∃ t, exec (.ld p g f .none) s = .next t ∧ TileOnly s t p ∧ (t.tile p).spad = (s.tile p).spad
      ∧ GroupNext t p g x
          (if f.size = 8 then pairWrite x f.d.toNat fun l => BitVec.ofNat 64 (got l)
           else laneWrite x f.d.toNat fun l =>
             if f.size = 1 then (if f.modBit 4 = true then (BitVec.ofNat 8 (got l)).signExtend 32 else (BitVec.ofNat 8 (got l)).setWidth 32)
             else if f.size = 2 then (if f.modBit 4 = true then (BitVec.ofNat 16 (got l)).signExtend 32
               else (BitVec.ofNat 16 (got l)).setWidth 32)
             else BitVec.ofNat 32 (got l)) x.ureg)
  ∧ (∀ (s s₁ : State) (p g : Nat) (x : Group) (f : ThreadFields) (ls : List LaneAcc), GroupAt s p g x 3 1 f → f.space = 1 →
    x.acquires = [] → LanesAt s p g x false f.size .read ((lanesOf x.mask).map fun l => laneAt l (x.globalAddr f l) 0 0) ls s₁ →
    (s₁.tile p).sbOf g x = [] → (∀ l ∈ ls, l.target ≠ 3) →
    ∃ t y o, exec (.ld p g f .none) s = .next t ∧ t.mem = s.mem ∧ (t.tile p).group? g = some y ∧ Behind x y ∧ SameRegs x y
      ∧ y.loads = x.loads ++ [o] ∧ o.lanes = ls ∧ o.issued = true ∧ o.cached = false ∧ o.atomic = false
      ∧ o.acquire = f.modBit 5 ∧ o.dest = ⟨false, f.d.toNat, f.size, f.modBit 4⟩ ∧ s.tilesBut t [p])
  ∧ (∀ (s s₁ : State) (p g : Nat) (x : Group) (f : ThreadFields) (ls : List LaneAcc), GroupAt s p g x 3 1 f → f.space = 0 →
    f.size = 4 → x.acquires = [] →
    LanesAt s p g x false f.size .read ((lanesOf x.mask).map fun l => laneAt l (x.globalAddr f l) 0 0) ls s₁ →
    (s₁.tile p).sbOf g x = [] → (∀ l ∈ ls, l.target ≠ 3) →
    let line := fun l => (s₁.l1Way p (x.globalAddr f l)).bind fun w => (s₁.tile p).l1At (x.globalAddr f l) w
    (∀ l ∈ lanesOf x.mask, (line l).isSome = true) →
    ∃ t, exec (.ld p g f .none) s = .next t ∧ t.mem = s.mem ∧ s.tilesBut t [p]
      ∧ GroupNext t p g x (laneWrite x f.d.toNat fun l =>
          BitVec.ofNat 32 (fromLE ((((line l).getD []).drop (x.globalAddr f l % 128)).take 4))) x.ureg)
  ∧ (∀ (s s₁ : State) (p g : Nat) (x : Group) (f : ThreadFields) (ls : List LaneAcc), GroupAt s p g x 8 0x0A f →
    x.acquires = [] → LanesAt s p g x false 8 .read [laneAt 0 (x.uniAddr f) 0 0] ls s₁ →
    (s₁.tile p).sbOf g x = [] → (∀ l ∈ ls, l.target ≠ 3) →
    ∃ t y o, exec (.uld p g f) s = .next t ∧ t.mem = s.mem ∧ (t.tile p).group? g = some y ∧ Behind x y ∧ SameRegs x y
      ∧ y.loads = x.loads ++ [o] ∧ o.lanes = ls ∧ o.issued = true ∧ o.cached = false
      ∧ o.dest = ⟨true, f.d.toNat, 8, false⟩ ∧ s.tilesBut t [p])

/-- A load in flight returns: an uncached one writes the bytes at its home, taken when it returns, an atomic the old
values that it brought; either leaves the group's loads, and every other register keeps its value (R59, R67, R195). -/
def Clause.LoadReturns : Prop :=
  (∀ (s s₁ : State) (p g k way : Nat) (x : Group) (o : LoadOp) (l : LaneAcc) (bs : List Byte),
    (s.tile p).group? g = some x → x.loads[k]? = some o → o.issued = true → o.atomic = false → o.cached = false →
    o.reqs = [] → o.got = [] → o.lanes = [l] → l.target = 0 → l.lane < 32 → o.dest.uni = false → o.dest.size = 4 →
    (∀ e ∈ x.loads.take k, e.lanes = []) → s.mustWait (l.pa / 64 * 64) 64 false = none → (s.tile p).thr.wb = [] →
    s.memRead p 0 (l.pa / 64 * 64) 0 64 .nobody = (s₁, .data bs false) →
    ∃ t y, exec (.loadReturn p g k way) s = .next t ∧ t.mem = s₁.mem ∧ s.tilesBut t [p] ∧ (t.tile p).group? g = some y
      ∧ y.loads = x.loads.eraseIdx k ∧ y.pc = x.pc ∧ (∀ r, y.ureg r = x.ureg r)
      ∧ ∀ r j, j < 32 → y.vreg r j = if r = o.dest.reg ∧ j = l.lane then BitVec.ofNat 32 (fromLE ((bs.drop (l.pa % 64)).take 4))
          else x.vreg r j)
  ∧ (∀ (s : State) (p g k way : Nat) (x : Group) (o : LoadOp) (l : LaneAcc) (v : Nat),
    (s.tile p).group? g = some x → x.loads[k]? = some o → o.issued = true → o.atomic = true → o.cached = false →
    o.reqs = [] → o.got = [(l.lane, v)] → o.lanes = [l] → l.lane < 32 → o.dest.uni = false → o.dest.size = 4 →
    (∀ e ∈ x.loads.take k, e.lanes = []) →
    ∃ t y, exec (.loadReturn p g k way) s = .next t ∧ t.mem = s.mem ∧ s.tilesBut t [p] ∧ (t.tile p).group? g = some y
      ∧ y.loads = x.loads.eraseIdx k ∧ y.pc = x.pc ∧ (∀ r, y.ureg r = x.ureg r)
      ∧ ∀ r j, j < 32 → y.vreg r j = if r = o.dest.reg ∧ j = l.lane then BitVec.ofNat 32 v else x.vreg r j)

/-- Loads of a thread group and the return of their data.
Rests also on choices of the model: notes/assumptions/23.md, notes/assumptions/34.md. -/
def Obligations.LoadsAndReturns : Prop := Clause.Loads ∧ Clause.LoadReturns

/-- ST and ATOM take one entry of the 32-entry store buffer, with the data of their lanes; memory and scratchpad change
only when the entry drains. ATOM's old values are awaited as a load. With the buffer full the group leaves the active set
with its instruction not issued (R59, R65, R67, R186). -/
def Clause.StoresAndAtomics : Prop :=
  (∀ (s s₁ : State) (p g : Nat) (x : Group) (f : ThreadFields) (ls : List LaneAcc), GroupAt s p g x 3 2 f →
    (if f.modBit 5 = true then x.loads = [] else x.acquires = []) →
    LanesAt s p g x (f.space == 2) f.size .store ((lanesOf x.mask).map fun l =>
      laneAt l (if f.space = 2 then x.localAddr f l else x.globalAddr f l)
        ((if f.size = 8 then (x.vpair f.b.toNat l).toNat else (x.vreg f.b.toNat l).toNat) % 2 ^ (8 * f.size)) 0) ls s₁ →
    (ls.map fun l => (l.target, l.endpoint, l.pa)).Nodup →
    ((s.tile p).thr.sb.length < 32 → ∃ t, exec (.st p g f) s = .next t ∧ t.mem = s.mem ∧ s.tilesBut t [p]
      ∧ (t.tile p).spad = (s.tile p).spad ∧ GroupNext t p g x x.vreg x.ureg
      ∧ (t.tile p).thr.sb = (s.tile p).thr.sb
          ++ [⟨(s.tile p).thr.nextStore, g, x.launch, none, f.modBit 5, f.size, ls⟩])
    ∧ (32 ≤ (s.tile p).thr.sb.length → ∃ t, exec (.st p g f) s = .next t ∧ t.mem = s.mem
      ∧ (t.tile p).group? g = some { x with active := false, wait := .full } ∧ (t.tile p).thr.sb = (s.tile p).thr.sb))
  ∧ (∀ (s s₁ : State) (p g : Nat) (x : Group) (f : ThreadFields) (ls : List LaneAcc), GroupAt s p g x 4 1 f →
    x.acquires = [] → (s.tile p).thr.sb.length < 32 →
    LanesAt s p g x (f.modBit 5) (if f.wide then 8 else 4) .atomic ((lanesOf x.mask).map fun l =>
      laneAt l (if f.modBit 5 = true then (x.vreg f.a.toNat l).toNat else x.atomAddr f l)
        (if f.wide then (x.vpair f.b.toNat l).toNat else (x.vreg f.b.toNat l).toNat)
        (if f.wide then (x.vpair f.c.toNat l).toNat else (x.vreg f.c.toNat l).toNat)) ls s₁ →
    let id := (s.tile p).thr.nextStore
    ∃ t y o, exec (.atom p g f) s = .next t ∧ t.mem = s.mem ∧ s.tilesBut t [p] ∧ (t.tile p).spad = (s.tile p).spad
      ∧ (t.tile p).thr.sb = (s.tile p).thr.sb ++ [⟨id, g, x.launch, some (f.mod.toNat % 16), false, if f.wide then 8 else 4, ls⟩]
      ∧ (t.tile p).group? g = some y ∧ Behind x y ∧ SameRegs x y ∧ y.loads = x.loads ++ [o] ∧ o.id = id ∧ o.atomic = true
      ∧ o.issued = false ∧ o.dest = ⟨false, f.d.toNat, if f.wide then 8 else 4, false⟩)

/-- The buffers drain in order (R65, R67, R68). A local store writes its lanes' bytes of the scratchpad and no other; a
store to memory goes to the write buffer's line; an atomic on part memory stores its result at its home and returns the old
value; a write-buffer entry writes exactly its bytes of its line in part memory. -/
def Clause.BufferDrains : Prop :=
  (∀ (s : State) (p full : Nat) (e : SbEntry) (rest : List SbEntry), (s.tile p).thr.sb = e :: rest → e.atomic = none →
    e.release = false → e.lanes ≠ [] → (∀ l ∈ e.lanes, l.target = 3) →
    (∀ x, (s.tile p).group? e.group = some x → x.loads = []) →
    e.lanes.Pairwise (fun a b => a.pa + e.size ≤ b.pa ∨ b.pa + e.size ≤ a.pa) →
    ∃ t, exec (.storeBufferDrain p full .none) s = .next t ∧ t.mem = s.mem ∧ s.tilesBut t [p] ∧ (t.tile p).thr.sb = rest
      ∧ (∀ l ∈ e.lanes, (t.tile p).spadBytes l.pa e.size = toLE e.size l.a)
      ∧ ∀ a, (∀ l ∈ e.lanes, ¬ (l.pa ≤ a ∧ a < l.pa + e.size)) → (t.tile p).spad.get 0 a = (s.tile p).spad.get 0 a)
  ∧ (∀ (s : State) (p full : Nat) (e : SbEntry) (rest : List SbEntry) (l : LaneAcc), (s.tile p).thr.sb = e :: rest →
    e.atomic = none → e.release = false → e.lanes = [l] → l.target ≠ 3 → (s.tile p).thr.wb = [] →
    (∀ x, (s.tile p).group? e.group = some x → x.loads = []) →
    ∃ t w, exec (.storeBufferDrain p full .none) s = .next t ∧ t.mem = s.mem ∧ s.tilesBut t [p] ∧ (t.tile p).thr.sb = rest
      ∧ (t.tile p).thr.wb = [w] ∧ w.target = l.target ∧ w.line = l.pa / 128 ∧ w.endpoint = l.endpoint
      ∧ ∀ i, w.bytes.get none i = if l.pa % 128 ≤ i ∧ i < l.pa % 128 + e.size
          then (toLE e.size l.a)[i - l.pa % 128]? else none)
  ∧ (∀ (s : State) (p full c op : Nat) (e : SbEntry) (rest : List SbEntry) (l : LaneAcc) (x : Group) (o : LoadOp),
    (s.tile p).thr.sb = e :: rest → e.atomic = some op → e.release = false → e.lanes = [l] → l.target = 0 →
    (e.size = 4 ∨ e.size = 8) → (s.tile p).thr.wb = [] → (s.tile p).group? e.group = some x → x.loads = [o] → o.id = e.id →
    x.firstStore ≤ e.id → s.mustWait l.pa e.size true = none → s.cellOf l.pa = some c → s.eye (c / 64) = false →
    let n := e.size
    let old := fromLE (s.memBytes c n)
    ∃ t y, exec (.storeBufferDrain p full .none) s = .next t ∧ s.tilesBut t [p] ∧ (t.tile p).thr.sb = rest
      ∧ t.memBytes c n = toLE n (atomicOp op (8 * n) old (l.a % 2 ^ (8 * n)) (l.b % 2 ^ (8 * n))) ∧ s.memBut t c n
      ∧ (t.tile p).group? e.group = some y ∧ ∃ o', y.loads = [o'] ∧ o'.issued = true ∧ o'.reqs = []
      ∧ FMap.get 0 o'.got l.lane = old)
  ∧ (∀ (s : State) (p : Nat) (e : WbEntry) (rest : List WbEntry) (c : Nat → Nat), (s.tile p).thr.wb = e :: rest →
    e.target = 0 → (∀ h, h < 2 → s.cellOf (e.pa + 64 * h) = some (64 * c h)) → c 0 ≠ c 1 →
    (∀ h, h < 2 → s.mustWait (e.pa + 64 * h) 64 true = none) →
    ∃ t, exec (.writeBufferDrain p) s = .next t ∧ s.tilesBut t [p] ∧ (t.tile p).thr.wb = rest
      ∧ (∀ h i, h < 2 → i < 64 →
          t.memByte (64 * c h + i) = (e.bytes.get none (64 * h + i)).getD (s.memByte (64 * c h + i)))
      ∧ ∀ a, a / 64 ≠ c 0 → a / 64 ≠ c 1 → t.memByte a = s.memByte a)

/-- Stores, atomics and the draining of the store and write buffers.
Rests also on choices of the model: notes/assumptions/31.md, notes/assumptions/32.md, notes/assumptions/35.md. -/
def Obligations.StoresAndBuffers : Prop := Clause.StoresAndAtomics ∧ Clause.BufferDrains

/-- CINV drops from the L1 every line that its range covers, all lines where MODIFIER[0] is set, but for those in locked
ways (R69, R71); a way with 16 errors in its window is disabled and its lines dropped, its lock released, unless fewer than
four ways would remain (R72); a window ends after 2^20 accesses (R72).
Rests also on choices of the model: notes/assumptions/33.md. -/
def Obligations.L1Maintenance : Prop :=
  (∀ (s : State) (p g : Nat) (x : Group) (f : ThreadFields), GroupAt s p g x 5 0x07 f →
    let a := (x.ureg f.a.toNat).toNat % 2 ^ 56
    let n := (x.ureg f.b.toNat).toNat
    ∃ t, exec (.cinv p g f) s = .next t ∧ s.onlyTilesFields t ∧ s.tilesBut t [p] ∧ GroupNext t p g x x.vreg x.ureg
      ∧ ∀ k line bs, (k, some (line, bs)) ∈ (t.tile p).thr.l1 ↔ (k, some (line, bs)) ∈ (s.tile p).thr.l1
          ∧ (bit (s.tile p).thr.locked (k % 8) = true ∨ ¬ (f.modBit 0 = true ∨ (0 < n ∧ line * 128 < a + n ∧ a < line * 128 + 128))))
  ∧ (∀ (s : State) (p w : Nat), w < 8 → s.wayOn p w = true → 16 ≤ ((s.tile p).thr.ways.get ⟨0, 0⟩ w).errors →
    (4 < (s.enabledWays p).length →
      ∃ t, exec (.wayDisable p w) s = .next t ∧ t.mem = s.mem ∧ s.tilesBut t [p] ∧ t.wayOn p w = false
        ∧ (∀ v, v ≠ w → v < 8 → t.wayOn p v = s.wayOn p v) ∧ bit (t.f .THR_L1_WAYS_DISABLED_EVENT p) w = true
        ∧ bit (t.tile p).thr.locked w = false ∧ ∀ i, i < 256 → (t.tile p).thr.l1.get none (8 * i + w) = none)
    ∧ ((s.enabledWays p).length ≤ 4 →
      ∃ t, exec (.wayDisable p w) s = .next t ∧ t.mem = s.mem ∧ s.tilesBut t [p] ∧ t.wayOn p w = true
        ∧ (t.tile p).thr.l1 = (s.tile p).thr.l1))
  ∧ (∀ (s : State) (p w : Nat), 2 ^ 20 ≤ ((s.tile p).thr.ways.get ⟨0, 0⟩ w).accesses →
    ∃ t, exec (.l1ErrorWindowEnd p w) s = .next t ∧ s.onlyTiles t ∧ s.tilesBut t [p]
      ∧ (t.tile p).thr.ways.get ⟨0, 0⟩ w = ⟨0, 0⟩ ∧ (t.tile p).thr.l1 = (s.tile p).thr.l1
      ∧ ∀ v, v ≠ w → (t.tile p).thr.ways.get ⟨0, 0⟩ v = (s.tile p).thr.ways.get ⟨0, 0⟩ v)

/-! ### Control of thread groups (03_thread_groups.md R52 to R64, R71, R78 to R82; 07_hexist_encodings.md R187) -/

/-- BRA: lanes take the branch as KIND and INV say (R187). All of them: the group goes to the target; none: on behind
the instruction; some: the group goes on behind it with the others, and the reconvergence stack holds the target's path
above the path that goes on at RPC (R62); a stack without room halts with DIVERGENCE (R62). A taken branch backward
counts once (R64). -/
def Clause.Branches : Prop :=
  ∀ (s : State) (p g : Nat) (x : Group) (f : ThreadFields), GroupAt s p g x 5 0x02 f → x.mask < 2 ^ 32 → x.mask ≠ 0 →
    let takes := fun l => match f.kind with
      | 0 => (x.vreg f.a.toNat l != 0) != f.modBit 2
      | 1 => (x.ureg f.a.toNat != 0) != f.modBit 2
      | _ => true
    let target := branchTo x.pc f.imm
    let next := (x.pc + 8) % 2 ^ 56
    let join := branchTo x.pc f.rpc
    ((∀ l ∈ lanesOf x.mask, takes l = true) → x.rpc ≠ some target →
      ∃ t y, exec (.bra p g f) s = .next t ∧ GroupOnly s t p g ∧ (t.tile p).group? g = some y ∧ SameRegs x y ∧ y.pc = target
        ∧ y.mask = x.mask ∧ y.stack = x.stack ∧ y.rpc = x.rpc
        ∧ y.progress = (if f.imm.toInt ≤ 0 then (x.progress + 1) % 2 ^ 48 else x.progress))
    ∧ ((∀ l ∈ lanesOf x.mask, takes l = false) → x.rpc ≠ some next →
      ∃ t y, exec (.bra p g f) s = .next t ∧ GroupOnly s t p g ∧ (t.tile p).group? g = some y ∧ SameRegs x y ∧ y.pc = next
        ∧ y.mask = x.mask ∧ y.stack = x.stack ∧ y.rpc = x.rpc ∧ y.progress = x.progress)
    ∧ (∀ m, (∀ l, bit m l = (bit x.mask l && takes l)) → m ≠ 0 → m ≠ x.mask →
      (x.stack.length + 2 ≤ 32 → join ≠ next →
        ∃ t y, exec (.bra p g f) s = .next t ∧ GroupOnly s t p g ∧ (t.tile p).group? g = some y ∧ SameRegs x y ∧ y.pc = next
          ∧ y.mask = x.mask - m ∧ y.rpc = some join
          ∧ y.stack = ⟨target, m, some join⟩ :: ⟨join, x.mask, x.rpc⟩ :: x.stack
          ∧ y.progress = (if f.imm.toInt ≤ 0 then (x.progress + 1) % 2 ^ 48 else x.progress))
      ∧ (32 < x.stack.length + 2 → ∃ t, exec (.bra p g f) s = .next t ∧ s.onlyTiles t ∧ s.tilesBut t [p]
          ∧ HaltedAt t p 0x0004 1 g x.pc))

/-- BRX: every lane goes to u[B] + its A; the targets run in ascending order, the group with the lowest target's lanes
first (R63); where all agree the group only moves; an address that is no multiple of 8 halts with MEM_ALIGN (R187). -/
def Clause.IndirectBranches : Prop :=
  ∀ (s : State) (p g : Nat) (x : Group) (f : ThreadFields), GroupAt s p g x 5 0x03 f →
    let target := fun l => (x.ureg f.b.toNat + (x.vreg f.a.toNat l).setWidth 64).toNat % 2 ^ 56
    (∀ a, lanesOf x.mask ≠ [] → (∀ l ∈ lanesOf x.mask, target l = a) → a % 8 = 0 →
      x.rpc ≠ some a →
      ∃ t y, exec (.brx p g f) s = .next t ∧ GroupOnly s t p g ∧ (t.tile p).group? g = some y ∧ SameRegs x y ∧ y.pc = a
        ∧ y.mask = x.mask ∧ y.stack = x.stack ∧ y.rpc = x.rpc)
    ∧ (∀ a b rest, (∀ l ∈ lanesOf x.mask, target l % 8 = 0) → (a :: b :: rest).Pairwise (· < ·) →
      (∀ c, c ∈ a :: b :: rest ↔ ∃ l ∈ lanesOf x.mask, target l = c) → x.stack.length + 2 + rest.length ≤ 32 →
      branchTo x.pc f.imm ≠ a →
      ∃ t y, exec (.brx p g f) s = .next t ∧ GroupOnly s t p g ∧ (t.tile p).group? g = some y ∧ SameRegs x y ∧ y.pc = a
        ∧ y.mask = maskOf ((lanesOf x.mask).filter fun l => target l == a) ∧ y.rpc = some (branchTo x.pc f.imm)
        ∧ y.stack = ((b :: rest).map fun c => ⟨c, maskOf ((lanesOf x.mask).filter fun l => target l == c),
            some (branchTo x.pc f.imm)⟩) ++ ⟨branchTo x.pc f.imm, x.mask, x.rpc⟩ :: x.stack)
    ∧ ((∃ l ∈ lanesOf x.mask, target l % 8 ≠ 0) → ∃ t, exec (.brx p g f) s = .next t ∧ s.onlyTiles t ∧ s.tilesBut t [p]
      ∧ HaltedAt t p 0x0002 1 g x.pc)

/-- Branches, calls and returns of a thread group. -/
def Obligations.ControlFlow : Prop := Clause.Branches ∧ Clause.IndirectBranches

/-- END ends the active lanes; with others alive they leave every path of the group; with none the group ends once no
load is outstanding, and its slot and, with its last group, its block's slot are free (R52, R58). SEMWAIT stops the group
until its condition holds; SEMSIG follows the group's stores; BARB and MEMBAR stop the group (R187, R200, R206, R210). -/
def Clause.GroupWaitsAndEnd : Prop :=
  (∀ (s : State) (p g : Nat) (x : Group) (f : ThreadFields), GroupAt s p g x 5 0x06 f → x.loads = [] →
    (∀ l, l < 32 → bit x.alive l = true → bit x.mask l = true) →
    ∃ t, exec (.thrEnd p g f) s = .next t ∧ TileOnly s t p ∧ (t.tile p).group? g = none
      ∧ (∀ j, j ≠ g → (t.tile p).group? j = (s.tile p).group? j)
      ∧ ∀ b, (s.tile p).block? x.block = some b → b.groups = [g] → (t.tile p).block? x.block = none)
  ∧ (∀ (s : State) (p g : Nat) (x : Group) (f : ThreadFields) (l : Nat), GroupAt s p g x 5 0x06 f → l < 32 →
    bit x.alive l = true → bit x.mask l = false →
    ∃ t y, exec (.thrEnd p g f) s = .next t ∧ GroupOnly s t p g ∧ (t.tile p).group? g = some y ∧ SameRegs x y
      ∧ ∀ j, bit y.alive j = (decide (j < 32) && bit x.alive j && !bit x.mask j))
  ∧ (∀ (s : State) (p g : Nat) (x : Group) (f : ThreadFields), GroupAt s p g x 6 0x01 f →
    ∃ t y, exec (.barb p g f) s = .next t ∧ TileOnly s t p ∧ (t.tile p).group? g = some y ∧ Behind x y ∧ SameRegs x y
      ∧ y.active = false
      ∧ y.wait = .barb (x.loads.isEmpty && !(s.tile p).thr.inSb g x.firstStore (s.tile p).thr.nextStore))
  ∧ (∀ (s : State) (p g : Nat) (x : Group) (f : ThreadFields), GroupAt s p g x 6 0x02 f → x.haltPending = false →
    x.stepping = false →
    let y := (s.tile p).thr
    let done := x.loads.isEmpty && !y.inSb g x.firstStore y.nextStore && (f.kind == 0 || !y.inWb g x.firstStore y.nextStore)
      && (f.kind != 3 || (s.storesOut p g x.firstStore y.nextStore).isEmpty)
    ∃ t z, exec (.membar p g f) s = .next t ∧ TileOnly s t p ∧ (t.tile p).group? g = some z ∧ Behind x z ∧ SameRegs x z
      ∧ z.active = false ∧ (done = true → z.wait = .none ∧ g ∈ (t.tile p).thr.promo)
      ∧ (done = false → z.wait = .membar f.kind y.nextStore))
  ∧ (∀ (s : State) (p g : Nat) (x : Group) (f : ThreadFields), GroupAt s p g x 6 0x03 f → x.haltPending = false →
    x.stepping = false →
    let i := f.imm.toNat
    let v := s.sem p (i % 32)
    let n := i / 32 % 16 + 1
    ∃ t z, exec (.semwait p g f) s = .next t ∧ TileOnly s t p ∧ (t.tile p).group? g = some z ∧ Behind x z ∧ SameRegs x z
      ∧ z.active = false
      ∧ (n ≤ v → z.wait = .none ∧ g ∈ (t.tile p).thr.promo
          ∧ t.sem p (i % 32) = (if bit i 9 = true then v - n else v))
      ∧ (v < n → z.wait = .sem ⟨i % 32, n, bit i 9⟩ ∧ t.sem p (i % 32) = v))
  ∧ (∀ (s : State) (p g : Nat) (x : Group) (f : ThreadFields), GroupAt s p g x 6 0x04 f → (s.tile p).thr.sigs = [] →
    let y := (s.tile p).thr
    let i := f.imm.toNat
    ∃ t, exec (.semsig p g f) s = .next t ∧ TileOnly s t p
      ∧ (if (y.inSb g x.firstStore y.nextStore || y.inWb g x.firstStore y.nextStore) = true
         then (t.tile p).syn.signals = (s.tile p).syn.signals
         else (t.tile p).syn.signals = (s.tile p).syn.signals ++ [(i % 32, i / 32 % 16 + 1)]))

/-- THR instructions. TLAUNCH makes its block resident in the lowest free block slot, its groups in the lowest free group
slots, each as R53 says: lane numbers in v0, u0 and u1 from the entry, u2 the group's number, u3 the count. TCARVE sets the
carve-out with no block resident; TNOP begins; a begun one completes and raises its signal (R34, R53, R58, R139, R172). -/
def Clause.BlockLaunch : Prop :=
  (∀ (s s₁ : State) (p : Nat) (e : Entry) (b r : Nat), EngineHead s p 0 1 e s₁ →
    let y := s₁.tile p
    let n := e.thrGroups
    let free := (List.range 64).filter fun g => (y.group? g).isNone
    1 ≤ e.thrRegs → e.thrRegs ≤ 255 → 1 ≤ n → n ≤ 16 → e.thrRows ≤ y.thr.carve → e.thrEntry % 8 = 0 →
    b < 16 → y.block? b = none → (∀ c, c < b → y.block? c ≠ none) → n ≤ free.length →
    (y.resident.map fun g => ((y.group? g).map fun x => 8 * ((x.n + 7) / 8)).getD 0).sum + n * (8 * ((e.thrRegs + 7) / 8)) ≤ 4096 →
    firstFit (((FMap.keys y.thr.blocks).filterMap y.block?).map fun z => (z.rowFirst, z.rows)) y.thr.carve e.thrRows = some r →
    ∃ t z, exec (.tlaunch p) s = .next t ∧ TileOnly s t p ∧ t.mem = s.mem ∧ (t.tile p).block? b = some z
      ∧ z.groups = free.take n ∧ z.rowFirst = r ∧ z.rows = e.thrRows ∧ ((t.tile p).queue 0).held = (y.queue 0).held.drop 1
      ∧ (∀ g, g ∉ free.take n → (t.tile p).group? g = y.group? g)
      ∧ ∀ i (h : i < (free.take n).length), ∃ x, (t.tile p).group? ((free.take n)[i]'h) = some x ∧ x.block = b
          ∧ x.pc = e.thrEntry ∧ x.mask = 2 ^ 32 - 1 ∧ x.alive = 2 ^ 32 - 1 ∧ x.stack = [] ∧ x.rpc = none ∧ x.n = e.thrRegs
          ∧ x.progress = 0 ∧ (∀ v l, l < 32 → x.vreg v l = if v = 0 then BitVec.ofNat 32 l else 0)
          ∧ ∀ u, x.ureg u = if u = 0 then BitVec.ofNat 64 (e.qWord (e.f 1 26 18)) else if u = 1 then BitVec.ofNat 64 (e.qWord (e.f 1 17 9))
              else if u = 2 then BitVec.ofNat 64 i else if u = 3 then BitVec.ofNat 64 n else 0)
  ∧ (∀ (s s₁ : State) (p : Nat) (e : Entry), EngineHead s p 0 1 e s₁ →
    (e.thrRegs = 0 ∨ 255 < e.thrRegs ∨ e.thrGroups = 0 ∨ 16 < e.thrGroups ∨ (s₁.tile p).thr.carve < e.thrRows ∨ e.thrEntry % 8 ≠ 0) →
    ∃ t, exec (.tlaunch p) s = .next t ∧ s.onlyTiles t ∧ HaltedAt t p 0x0001 0 0 e.addr)
  ∧ (∀ (s s₁ : State) (p : Nat) (e : Entry), EngineHead s p 0 2 e s₁ → (s₁.tile p).thr.blocks = [] → e.f 1 10 0 ≤ 1024 →
    ∃ t, exec (.tcarve p) s = .next t ∧ TileOnly s t p ∧ (t.tile p).thr.carve = e.f 1 10 0
      ∧ ((t.tile p).queue 0).held = ((s₁.tile p).queue 0).held.drop 1
      ∧ (t.tile p).syn.signals = (s.tile p).syn.signals ++ e.signal.toList)
  ∧ (∀ (s s₁ : State) (p : Nat) (e : Entry), EngineHead s p 0 4 e s₁ →
    ∃ t, exec (.tnop p) s = .next t ∧ TileOnly s t p ∧ ((t.tile p).queue 0).held = ((s₁.tile p).queue 0).held.drop 1
      ∧ (t.tile p).thr.running = (s.tile p).thr.running ++ [(e, none)])
  ∧ (∀ (s : State) (p : Nat) (e : Entry) (rest : List (Entry × Option Nat)) (mt : MatTime), (s.tile p).thr.sigs = [] →
    (s.tile p).thr.running = (e, none) :: rest →
    ∃ t, exec (.engineInstructionComplete p .thr mt) s = .next t ∧ t.mem = s.mem ∧ s.tilesBut t [p]
      ∧ (t.tile p).thr.running = rest ∧ (t.tile p).syn.signals = (s.tile p).syn.signals ++ e.signal.toList)

/-- TPRELOAD reads the 128-byte lines of its range into the ways that it then locks: a line that part memory holds without
an eyespot is in the L1 afterwards; more than six locked ways are illegal (R71, R172). -/
def Clause.Preload : Prop :=
  (∀ (s s₁ s₂ s₃ : State) (p : Nat) (e : Entry) (hs : HostMem) (w : Nat) (ws : List Nat) (a ep : Nat) (bs : List Byte),
    EngineHead s p 0 3 e s₁ → State.wayCount (e.f 1 20 13 ||| (s₁.tile p).thr.locked) ≤ 6 → s₁.preloadWays p (e.f 1 20 13) = w :: ws →
    let va := e.qAddr (e.f 1 8 0) / 128 * 128
    0 < e.reg (e.f 1 12 9) % 2 ^ 32 → e.qAddr (e.f 1 8 0) % 128 + e.reg (e.f 1 12 9) % 2 ^ 32 ≤ 128 →
    s₁.preloadAddr p va hs = (s₂, some (some (0, a, ep))) → s₂.preloadRead p 0 a hs = (s₃, some (bs, true)) → bs.length = 128 →
    (s₃.tile p).thr.wb = [] →
    ∃ t, exec (.tpreload p hs) s = .next t ∧ t.mem = s₃.mem ∧ s.tilesBut t [p] ∧ (t.tile p).l1At va w = some bs
      ∧ bit (t.tile p).thr.locked w = true ∧ ((t.tile p).queue 0).held = ((s₁.tile p).queue 0).held.drop 1)
  ∧ (∀ (s s₁ : State) (p : Nat) (e : Entry) (hs : HostMem), EngineHead s p 0 3 e s₁ →
    6 < State.wayCount (e.f 1 20 13 ||| (s₁.tile p).thr.locked) →
    ∃ t, exec (.tpreload p hs) s = .next t ∧ s.onlyTiles t ∧ HaltedAt t p 0x0001 0 0 e.addr)

/-- Thread blocks: their launch and the preload of the L1.
Rests also on choices of the model: notes/assumptions/29.md. -/
def Obligations.Blocks : Prop := Clause.BlockLaunch ∧ Clause.Preload

/-- The first group in promotion order enters the active set while it holds fewer than eight (R59, R61); a group whose
backward branches reach the limit halts its tile (R64); GRP_DBG_HALT stops the selected group before its next instruction
unless a wait of its own holds it; RESUME makes it ready, STEP for one instruction (R78, R80). -/
def Clause.GroupEvents : Prop :=
  (∀ (s : State) (p g : Nat) (rest : List Nat) (x : Group), ((s.settle p).tile p).thr.promo = g :: rest → (s.tile p).live = true →
    ((s.settle p).tile p).group? g = some x →
    (((s.settle p).tile p).activeCount < 8 → ∃ t, exec (.groupPromotion p) s = .next t ∧ TileOnly s t p
      ∧ (t.tile p).group? g = some { x with active := true } ∧ (t.tile p).thr.promo = rest)
    ∧ (8 ≤ ((s.settle p).tile p).activeCount → exec (.groupPromotion p) s = .next (s.settle p)))
  ∧ (∀ (s : State) (p g : Nat) (x : Group), (s.tile p).live = true → (s.tile p).group? g = some x →
    s.f .THR_SETUP_PROGRESS_LIMIT_LOG2 p ≠ 0 → 2 ^ s.f .THR_SETUP_PROGRESS_LIMIT_LOG2 p ≤ x.progress →
    ∃ t, exec (.groupNoProgress p g) s = .next t ∧ s.onlyTiles t ∧ s.tilesBut t [p] ∧ HaltedAt t p 0x000F 1 g x.lastBranch)
  ∧ (∀ (s : State) (p : Nat) (x : Group), (s.tile p).group? (s.f .GRP_DBG_SEL_GROUP p) = some x → x.dbgHalted = false →
    x.wait = .none →
    ∃ t, exec (.grpDbgHalt p) s = .next t ∧ s.onlyTiles t ∧ s.tilesBut t [p]
      ∧ (t.tile p).group? (s.f .GRP_DBG_SEL_GROUP p) = some { x with active := false, stepping := false, dbgHalted := true }
      ∧ s.f .GRP_DBG_SEL_GROUP p ∉ (t.tile p).thr.promo)
  ∧ (∀ (s : State) (p : Nat) (x : Group) (w : Bool), (s.tile p).group? (s.f .GRP_DBG_SEL_GROUP p) = some x → x.dbgHalted = false →
    x.wait = .barb w →
    ∃ t, exec (.grpDbgHalt p) s = .next t ∧ s.onlyTiles t ∧ s.tilesBut t [p]
      ∧ (t.tile p).group? (s.f .GRP_DBG_SEL_GROUP p) = some { x with haltPending := true })
  ∧ (∀ (s : State) (p : Nat) (x : Group), (s.tile p).group? (s.f .GRP_DBG_SEL_GROUP p) = some x → x.dbgHalted = true →
    ∃ t, exec (.grpDbgResume p) s = .next t ∧ s.onlyTiles t ∧ s.tilesBut t [p]
      ∧ (t.tile p).group? (s.f .GRP_DBG_SEL_GROUP p) = some { x with dbgHalted := false, stepping := false }
      ∧ (t.tile p).thr.promo = (s.tile p).thr.promo ++ [s.f .GRP_DBG_SEL_GROUP p])
  ∧ (∀ (s : State) (p : Nat) (x : Group), (s.tile p).group? (s.f .GRP_DBG_SEL_GROUP p) = some x → x.dbgHalted = true →
    ∃ t, exec (.grpDbgStep p) s = .next t ∧ s.onlyTiles t ∧ s.tilesBut t [p]
      ∧ (t.tile p).group? (s.f .GRP_DBG_SEL_GROUP p) = some { x with dbgHalted := false, stepping := true }
      ∧ (t.tile p).thr.promo = (s.tile p).thr.promo ++ [s.f .GRP_DBG_SEL_GROUP p])

/-- Waits, ends and events of a thread group.
Rests also on choices of the model: notes/assumptions/28.md. -/
def Obligations.GroupWaits : Prop := Clause.GroupWaitsAndEnd ∧ Clause.GroupEvents

/-! ### The matrix engine (04_matrix_array.md; 07_hexist_encodings.md R173 to R176) -/

/-- A MAT instruction at the head of MATQ begins in its unit: the loader for MLDP's rows and MLUT, the streamer for M × w
cycles, the drainer for N; MSWAP and MDLY use none. MLDP sets its plane's tag, MLUT writes the plane's table from one cell of
the scratchpad, MSWAP changes the active plane, MSTR is bound to the plane active two cycles before, MDLY holds back the next
instruction (R84, R86, R89 to R92, R102, R103). -/
def Clause.MatrixBegins : Prop :=
  (∀ (s s₂ : State) (p : Nat) (mt : MatTime) (e : Entry), MatHead s p 1 .loader mt e s₂ → mldpFits e = true → mldpOk e = true →
    let m := (s₂.tile p).mat
    ∃ t o, exec (.mldp p mt) s = .next t ∧ t.mem = s.mem ∧ s.tilesBut t [p] ∧ (t.tile p).mat.loaderFree = m.now + e.ldRows
      ∧ (t.tile p).mat.tagAt e.ldPlane m.now = (e.ldFmt, e.ldPaired) ∧ (t.tile p).mat.ops = m.ops ++ [o]
      ∧ o.start = m.now ∧ o.due = m.now + e.ldRows ∧ o.entry = e ∧ (t.tile p).mat.acc = m.acc ∧ (t.tile p).mat.plane = m.plane
      ∧ ((t.tile p).queue 1).held = ((s₂.tile p).queue 1).held.drop 1)
  ∧ (∀ (s s₂ : State) (p : Nat) (mt : MatTime) (e : Entry), MatHead s p 2 .loader mt e s₂ → e.qSpad (e.f 1 8 0) % 32 = 0 →
    e.qSpad (e.f 1 8 0) + 32 ≤ 3145728 →
    let m := (s₂.tile p).mat
    ∃ t, exec (.mlut p mt) s = .next t ∧ t.mem = s.mem ∧ s.tilesBut t [p] ∧ (t.tile p).mat.loaderFree = m.now + 1
      ∧ (∀ i, i < 16 → (t.tile p).mat.tables.get 0 (16 * e.f 1 9 9 + i) =
          fromLE ((s₂.tile p).spadBytes (e.qSpad (e.f 1 8 0) + 2 * i) 2))
      ∧ (∀ i, ¬ (16 * e.f 1 9 9 ≤ i ∧ i < 16 * e.f 1 9 9 + 16) → (t.tile p).mat.tables.get 0 i = m.tables.get 0 i)
      ∧ (t.tile p).mat.acc = m.acc ∧ (t.tile p).mat.plane = m.plane)
  ∧ (∀ (s s₂ : State) (p : Nat) (mt : MatTime) (e : Entry), MatHead s p 3 .none mt e s₂ →
    let m := (s₂.tile p).mat
    ∃ t, exec (.mswap p mt) s = .next t ∧ t.mem = s.mem ∧ s.tilesBut t [p] ∧ (t.tile p).mat.activeB = !m.activeB
      ∧ (t.tile p).mat.swaps.head? = some m.now ∧ (t.tile p).mat.acc = m.acc ∧ (t.tile p).mat.plane = m.plane
      ∧ (t.tile p).mat.loaderFree = m.loaderFree ∧ (t.tile p).mat.streamerFree = m.streamerFree
      ∧ (t.tile p).mat.drainerFree = m.drainerFree)
  ∧ (∀ (s s₂ : State) (p : Nat) (mt : MatTime) (e : Entry), MatHead s p 4 .streamer mt e s₂ →
    let m := (s₂.tile p).mat
    let plane := m.activeAt (m.now - 2)
    let tag := m.tagAt plane (m.now - 2)
    let w := passWidth tag.1 e.strFmt
    mstrFits e tag.2 = true → mstrOk e tag.1 tag.2 = true →
    ∃ t o, exec (.mstr p mt .none) s = .next t ∧ t.mem = s.mem ∧ s.tilesBut t [p]
      ∧ (t.tile p).mat.streamerFree = m.now + e.strM * w ∧ (t.tile p).mat.acc = m.acc ∧ (t.tile p).mat.plane = m.plane
      ∧ o ∈ (t.tile p).mat.ops ∧ o.start = m.now ∧ o.due = m.now + (e.strM - 1) * w + 135
      ∧ o.work = .mstr plane tag.1 tag.2 e.strM e.strK w)
  ∧ (∀ (s s₂ : State) (p : Nat) (mt : MatTime) (e : Entry), MatHead s p 5 .drainer mt e s₂ → mdrnFits e = true → mdrnOk e = true →
    let m := (s₂.tile p).mat
    ∃ t o, exec (.mdrn p mt) s = .next t ∧ t.mem = s.mem ∧ s.tilesBut t [p] ∧ (t.tile p).mat.drainerFree = m.now + e.drnN
      ∧ (t.tile p).mat.ops = m.ops ++ [o] ∧ o.start = m.now ∧ o.due = m.now + e.drnN + 8 ∧ (t.tile p).mat.acc = m.acc
      ∧ (t.tile p).spad = (s₂.tile p).spad)
  ∧ (∀ (s s₂ : State) (p : Nat) (mt : MatTime) (e : Entry), MatHead s p 6 .drainer mt e s₂ →
    let m := (s₂.tile p).mat
    ∃ t o, exec (.mzero p mt) s = .next t ∧ t.mem = s.mem ∧ s.tilesBut t [p] ∧ (t.tile p).mat.drainerFree = m.now + e.drnN
      ∧ (t.tile p).mat.ops = m.ops ++ [o] ∧ o.start = m.now ∧ o.work = .mzero e.drnBase e.drnN ∧ (t.tile p).mat.acc = m.acc)
  ∧ (∀ (s s₂ : State) (p : Nat) (mt : MatTime) (e : Entry), MatHead s p 7 .none mt e s₂ →
    let m := (s₂.tile p).mat
    let n := if e.f 1 15 0 = 0 then 1 else e.f 1 15 0
    ∃ t, exec (.mdly p mt) s = .next t ∧ t.mem = s.mem ∧ s.tilesBut t [p] ∧ (t.tile p).mat.earliest = m.now + n
      ∧ (t.tile p).mat.acc = m.acc ∧ (t.tile p).mat.plane = m.plane)

/-- A MAT instruction that breaks a check halts its tile when it begins: MAT_INCONSISTENT, or SCRATCHPAD_RANGE where its
extent leaves the scratchpad; the halt names stream 1 and the address it was pushed from (R90, R94, R136, R175, R189). -/
def Clause.MatrixChecks : Prop :=
  (∀ (s s₂ : State) (p : Nat) (mt : MatTime) (e : Entry), MatHead s p 1 .loader mt e s₂ →
    (mldpFits e = false → ∃ t, exec (.mldp p mt) s = .next t ∧ HaltedAt t p 0x0006 0 1 e.addr)
    ∧ (mldpFits e = true → mldpOk e = false → ∃ t, exec (.mldp p mt) s = .next t ∧ HaltedAt t p 0x0007 0 1 e.addr))
  ∧ (∀ (s s₂ : State) (p : Nat) (mt : MatTime) (e : Entry) (err : TileErr), MatHead s p 4 .streamer mt e s₂ →
    let m := (s₂.tile p).mat
    let plane := m.activeAt (m.now - 2)
    mstrFits e (m.tagAt plane (m.now - 2)).2 = true → (m.tagAt plane (m.now - 2)).1 = 0 →
    ∃ t, exec (.mstr p mt err) s = .next t ∧ t.mem = s.mem ∧ HaltedAt t p 0x0007 0 1 e.addr)
  ∧ (∀ (s s₂ : State) (p : Nat) (mt : MatTime) (e : Entry), MatHead s p 5 .drainer mt e s₂ →
    (mdrnFits e = false → ∃ t, exec (.mdrn p mt) s = .next t ∧ HaltedAt t p 0x0006 0 1 e.addr)
    ∧ (mdrnFits e = true → mdrnOk e = false → ∃ t, exec (.mdrn p mt) s = .next t ∧ HaltedAt t p 0x0007 0 1 e.addr))

/-- The matrix engine: what its instructions do as they begin, and the formats they refuse.
Rests also on choices of the model: notes/assumptions/37.md, notes/assumptions/38.md. -/
def Obligations.MatrixInstructions : Prop := Clause.MatrixBegins ∧ Clause.MatrixChecks

/-- An MLDP alone in flight has written, `n` cycles after it began, plane row f + j from the source row at source + j ×
stride for every j, the values as stored where its kind expands nothing; then it completes and raises its signal (R89, R104). -/
def Clause.PlaneLoad : Prop :=
  ∀ (s : State) (p plane first n frozen num : Nat) (table : List Nat) (e : Entry), e.ldKind = 0 →
    (s.tile p).mat.ops = [⟨num, (s.tile p).mat.now, (s.tile p).mat.now + n, e, .mldp plane first n false table, [], [], [], false, false⟩] →
    plane < 2 → first + n ≤ 64 → 1 ≤ n → 1 ≤ e.ldStored → e.ldStored ≤ 8 →
    ∃ t, exec (.engineInstructionComplete p .mat ⟨n, frozen⟩) s = .next t ∧ t.mem = s.mem ∧ s.tilesBut t [p]
      ∧ (t.tile p).mat.now = (s.tile p).mat.now + n ∧ (t.tile p).mat.ops = [] ∧ (t.tile p).mat.acc = (s.tile p).mat.acc
      ∧ (t.tile p).syn.signals = (s.tile p).syn.signals ++ e.signal.toList ∧ (t.tile p).spad = (s.tile p).spad
      ∧ ∀ r c, r < 64 → c < 64 → (t.tile p).mat.plane.get 0 (plane * 4096 + r * 64 + c) =
          if first ≤ r ∧ r < first + n then
            packedValue e.ldStored ((s.tile p).spadBytes (e.ldSrc + (r - first) * e.ldStride) (8 * fmtBits e.ldStored)) c
          else (s.tile p).mat.plane.get 0 (plane * 4096 + r * 64 + c)

/-- GMMA issues with all 32 lanes active and stops its group until its results are in; it takes the streamer once that is
free and no MSTR goes before it; its results go to the registers from D on, a column each, and the group is then ready
(R76, R77, R107 to R109). -/
def Clause.GroupMatrix : Prop :=
  (∀ (s : State) (p g : Nat) (x : Group) (f : ThreadFields), GroupAt s p g x 7 1 f → 3 ≤ f.b.toNat % 16 → f.b.toNat % 16 ≤ 8 →
    x.mask = 2 ^ 32 - 1 →
    ∃ t y w, exec (.gmma p g f) s = .next t ∧ TileOnly s t p ∧ (t.tile p).group? g = some y ∧ Behind x y ∧ SameRegs x y
      ∧ y.wait = .array ∧ y.active = false ∧ (t.tile p).mat.gmmas = (s.tile p).mat.gmmas ++ [w] ∧ w.group = g ∧ w.addr = x.pc
      ∧ w.plane = b2n (f.modBit 0) ∧ w.half = b2n (f.modBit 1) ∧ w.k = (if f.modBit 2 = true then 64 else 32)
      ∧ w.dest = f.d.toNat ∧ w.accumulate = f.modBit 3 ∧ w.leftFmt = f.b.toNat % 16)
  ∧ (∀ (s : State) (p g : Nat) (x : Group) (f : ThreadFields), GroupAt s p g x 7 1 f →
    ((f.b.toNat % 16 < 3 ∨ 8 < f.b.toNat % 16) → ∃ t, exec (.gmma p g f) s = .next t ∧ s.onlyTiles t ∧ HaltedAt t p 0x0007 1 g x.pc)
    ∧ (3 ≤ f.b.toNat % 16 → f.b.toNat % 16 ≤ 8 → x.mask ≠ 2 ^ 32 - 1 →
      ∃ t, exec (.gmma p g f) s = .next t ∧ s.onlyTiles t ∧ HaltedAt t p 0x0008 1 g x.pc))
  ∧ (∀ (s s₁ : State) (p : Nat) (mt : MatTime) (w : GmmaWait) (rest : List GmmaWait), s.matTime p mt = s₁ →
    let m := (s₁.tile p).mat
    let tag := m.tagAt w.plane m.now
    m.gmmas = w :: rest → (s₁.tile p).live = true → m.streamerFree ≤ m.now → s₁.mstrFirst p = false →
    (tag.1 ≠ 0 → tag.2 = false → pairingOk tag.1 false w.leftFmt = true →
      ∃ t o, exec (.gmmaBegin p mt) s = .next t ∧ t.mem = s.mem ∧ s.tilesBut t [p] ∧ (t.tile p).mat.gmmas = rest
        ∧ (t.tile p).mat.streamerFree = m.now + 32 * passWidth tag.1 w.leftFmt ∧ (t.tile p).mat.ops = m.ops ++ [o]
        ∧ o.start = m.now ∧ (t.tile p).mat.acc = m.acc)
    ∧ ((tag.1 = 0 ∨ tag.2 = true) → ∃ t, exec (.gmmaBegin p mt) s = .next t ∧ HaltedAt t p 0x0007 1 w.group w.addr))
  ∧ (∀ (s s₁ : State) (p g plane fmt half k w leftFmt dest : Nat) (left : List Nat) (acc : Bool) (mt : MatTime) (o : MatOp) (x : Group),
    s.matTime p mt = s₁ → (s₁.tile p).mat.firstDue (·.isGmma) = some o → o.due ≤ (s₁.tile p).mat.now →
    o.work = .gmma g plane fmt half k w left leftFmt dest acc → (s₁.tile p).group? g = some x → x.haltPending = false →
    x.stepping = false →
    ∃ t y, exec (.gmmaResult p mt) s = .next t ∧ t.mem = s.mem ∧ s.tilesBut t [p] ∧ (t.tile p).group? g = some y
      ∧ y.wait = .none ∧ y.pc = x.pc ∧ (∀ r, y.ureg r = x.ureg r) ∧ g ∈ (t.tile p).thr.promo
      ∧ ∀ r i, i < 32 → y.vreg r i = if dest ≤ r ∧ r < dest + k then
          BitVec.ofNat 32 ((s₁.tile p).mat.gmmaElement o.start plane fmt half w left leftFmt acc (x.vreg r i).toNat i (r - dest))
        else x.vreg r i)

/-- Planes and the group matrix instruction.
Rests also on choices of the model: notes/assumptions/37.md, notes/assumptions/39.md. -/
def Obligations.Planes : Prop := Clause.PlaneLoad ∧ Clause.GroupMatrix

/-! ### The gather engine (06_scratchpad_and_gather.md R141 to R155; 07_hexist_encodings.md R176, R177) -/

/-- GFILL writes its pattern into every byte of its region and no other; GNOP begins; GXFER takes the descriptor in the
scratchpad as its operands override it and begins with its first element, or, in scratchpad mode, moves its rows. A region
beyond the scratchpad halts with SCRATCH_RANGE, an inconsistent instruction with GAT_INCONSISTENT (R136, R141 to R145). -/
def Clause.GatherInstructions : Prop :=
  (∀ (s s₁ : State) (p : Nat) (e : Entry), EngineHead s p 2 2 e s₁ → s₁.gatRoom p false = true →
    (e.fillDest % 32 = 0 → e.fillCount % 32 = 0 → e.fillCount ≠ 0 → e.fillDest + e.fillCount ≤ 3145728 →
      ∃ t o, exec (.gfill p) s = .next t ∧ TileOnly s t p
        ∧ (∀ i, i < e.fillCount → (t.tile p).spad.get 0 (e.fillDest + i) = BitVec.ofNat 8 (e.fillPattern / 256 ^ (i % 4)))
        ∧ (∀ a, ¬ (e.fillDest ≤ a ∧ a < e.fillDest + e.fillCount) → (t.tile p).spad.get 0 a = (s.tile p).spad.get 0 a)
        ∧ (t.tile p).gat.ops = (s.tile p).gat.ops ++ [o] ∧ o.entry = e ∧ o.phase = .done
        ∧ ((t.tile p).queue 2).held = ((s₁.tile p).queue 2).held.drop 1)
    ∧ (3145728 < e.fillDest + e.fillCount → ∃ t, exec (.gfill p) s = .next t ∧ s.onlyTiles t ∧ (t.tile p).spad = (s.tile p).spad
        ∧ HaltedAt t p 0x0006 0 2 e.addr)
    ∧ (e.fillDest + e.fillCount ≤ 3145728 → (e.fillDest % 32 ≠ 0 ∨ e.fillCount % 32 ≠ 0 ∨ e.fillCount = 0) →
        ∃ t, exec (.gfill p) s = .next t ∧ s.onlyTiles t ∧ (t.tile p).spad = (s.tile p).spad ∧ HaltedAt t p 0x0009 0 2 e.addr))
  ∧ (∀ (s s₁ : State) (p : Nat) (e : Entry), EngineHead s p 2 3 e s₁ → s₁.gatRoom p true = true →
    ∃ t o, exec (.gnop p) s = .next t ∧ s.onlyTiles t ∧ s.tilesBut t [p] ∧ (t.tile p).spad = (s.tile p).spad
      ∧ (t.tile p).gat.ops = (s.tile p).gat.ops ++ [o] ∧ o.entry = e ∧ o.phase = .done)
  ∧ (∀ (s s₁ : State) (p : Nat) (e : Entry), EngineHead s p 2 1 e s₁ → s₁.gatRoom p false = true → e.gatDesc + 64 ≤ 3145728 →
    let w := nth 0 (bytesWords 16 ((s.tile p).spadBytes e.gatDesc 64))
    let x := Xfer.make e w
    (e.gatDesc % 64 = 0 → x.fieldsOk w = true → x.fits = true → x.formOk = true → x.mode = 0 →
      ∃ t o, exec (.gxfer p) s = .next t ∧ TileOnly s t p ∧ (t.tile p).spad = (s.tile p).spad
        ∧ (t.tile p).gat.ops = (s.tile p).gat.ops ++ [o] ∧ o.entry = e ∧ o.xfer = some x ∧ o.phase = .rows 0 0 x.base)
    ∧ (e.gatDesc % 64 = 0 → x.fieldsOk w = true → x.fits = true → x.formOk = true → x.mode = 3 → x.layout = 0 →
      fmtBits x.fmt = 8 → x.count = 1 → x.n1 = 1 → x.n2 = 1 → x.n3 = 1 →
      ∃ t, exec (.gxfer p) s = .next t ∧ TileOnly s t p
        ∧ (∀ i, i < x.n0 → (t.tile p).spad.get 0 (x.spad + i) = (s.tile p).spad.get 0 (x.base + i))
        ∧ ∀ a, ¬ (x.spad ≤ a ∧ a < x.spad + x.n0) → (t.tile p).spad.get 0 a = (s.tile p).spad.get 0 a)
    ∧ ((e.gatDesc % 64 ≠ 0 ∨ x.fieldsOk w = false) → ∃ t, exec (.gxfer p) s = .next t ∧ TileOnly s t p
        ∧ (t.tile p).spad = (s.tile p).spad ∧ HaltedAt t p 0x0009 0 2 e.addr))

/-- The transfer that is reading goes on. The last row of a plain transfer of 8-bit values from part memory places exactly
its bytes in the scratchpad; the last row of one to part memory writes exactly its bytes there; the transfer is then done, and
the oldest done one completes and raises its signal (R145, R147 to R149). -/
def Clause.GatherTransfers : Prop :=
  (∀ (s s₁ s₂ : State) (p stall src pa ep : Nat) (x : Xfer) (o : GatOp) (bs : List Byte), (s.tile p).gat.ops.getLast? = some o →
    o.xfer = some x → o.phase = .rows 0 0 src → x.out = false → x.mode = 0 → x.layout = 0 → fmtBits x.fmt = 8 → x.count = 1 →
    x.n1 = 1 → x.n2 = 1 → x.n3 = 1 → 1 ≤ x.n0 → src % 64 + x.n0 ≤ 64 → src < 2 ^ 56 → o.row = [] → o.staged = [] → o.req = none →
    let s₀ := s.bump .GAT_FAULT_STALL_CYCLES_COUNT p stall
    s₀.xlWaiting (.gather p) (p / 104) (some p) = false →
    s₀.translate p (s₀.missOf p (.gather p) (src / 64 * 64) .read o.entry.addr) = (s₁, .ok 0 pa ep) →
    s₁.memRead p 0 pa ep 64 (.gather p) = (s₂, .data bs false) → bs.length = 64 →
    ∃ t z, exec (.gatherReadReturn p stall) s = .next t ∧ t.mem = s₂.mem ∧ s.tilesBut t [p]
      ∧ (t.tile p).gat.ops.getLast? = some z ∧ z.phase = .done ∧ z.entry = o.entry
      ∧ (∀ i, i < x.n0 → (t.tile p).spad.get 0 (x.spad + i) = nth 0 bs (src % 64 + i))
      ∧ ∀ a, ¬ (x.spad ≤ a ∧ a < x.spad + x.n0) → (t.tile p).spad.get 0 a = (s.tile p).spad.get 0 a)
  ∧ (∀ (s s₁ : State) (p stall src pa ep c : Nat) (x : Xfer) (o : GatOp), (s.tile p).gat.ops.getLast? = some o →
    o.xfer = some x → o.phase = .rows 0 0 src → x.out = true → x.mode = 0 → x.layout = 0 → fmtBits x.fmt = 8 → x.count = 1 →
    x.n1 = 1 → x.n2 = 1 → x.n3 = 1 → 1 ≤ x.n0 → src % 64 + x.n0 ≤ 64 → src < 2 ^ 56 → o.offset = 0 →
    let s₀ := s.bump .GAT_FAULT_STALL_CYCLES_COUNT p stall
    s₀.xlWaiting (.gather p) (p / 104) (some p) = false →
    s₀.translate p (s₀.missOf p (.gather p) src .store o.entry.addr) = (s₁, .ok 0 pa ep) →
    s₁.mustWait pa x.n0 true = none → s₁.cellOf pa = some c → c % 64 = src % 64 → pa % 64 = src % 64 →
    ∃ t z, exec (.gatherReadReturn p stall) s = .next t ∧ s.tilesBut t [p] ∧ (t.tile p).spad = (s.tile p).spad
      ∧ (t.tile p).gat.ops.getLast? = some z ∧ z.phase = .done
      ∧ (∀ i, i < x.n0 → t.memByte (c + i) = (s.tile p).spad.get 0 (x.spad + i)) ∧ s.memBut t c x.n0)
  ∧ (∀ (s : State) (p : Nat) (o : GatOp) (rest : List GatOp) (mt : MatTime), (s.tile p).gat.ops = o :: rest → o.phase = .done →
    s.gatUnacked p o.num = false →
    ∃ t, exec (.engineInstructionComplete p .gat mt) s = .next t ∧ TileOnly s t p ∧ (t.tile p).gat.ops = rest
      ∧ (t.tile p).syn.signals = (s.tile p).syn.signals ++ o.entry.signal.toList ∧ (t.tile p).spad = (s.tile p).spad)

/-- The gather engine: its instructions and its transfers.
Rests also on choices of the model: notes/assumptions/41.md, notes/assumptions/42.md. -/
def Obligations.Gathers : Prop := Clause.GatherInstructions ∧ Clause.GatherTransfers

/-! ### Synchronisation (08_ordering_and_synchronisation.md R201, R206 to R219; 07_hexist_encodings.md R178, R179) -/

/-- The SYN instructions begin one at a time in queue order: YNOP does nothing, YSET writes its semaphore, YMEMBAR and
YFSIGNAL wait for the stores of their scope, YFWAIT for its fence, YBAR for its barrier (R178, R201, R206, R211, R218). -/
def Clause.SyncInstructions : Prop :=
  ∀ (s s₁ : State) (p : Nat) (e : Entry), (s.tile p).syn.cur = none →
    (EngineHead s p 3 1 e s₁ → ∃ t, exec (.ynop p) s = .next t ∧ s.onlyTiles t ∧ s.tilesBut t [p]
      ∧ (t.tile p).syn.cur = some (e, .done) ∧ (t.tile p).syn.sems = (s₁.tile p).syn.sems
      ∧ ((t.tile p).queue 3).held = ((s₁.tile p).queue 3).held.drop 1)
    ∧ (EngineHead s p 3 2 e s₁ → ((s₁.dequeue p 3).semWaiting p = false) → ∃ t, exec (.yset p) s = .next t ∧ s.onlyTiles t
      ∧ s.tilesBut t [p] ∧ (t.tile p).syn.cur = some (e, .done)
      ∧ ∀ n, t.sem p n = if n = e.f 1 4 0 then e.f 1 31 16 else s₁.sem p n)
    ∧ (EngineHead s p 3 3 e s₁ → (s.tile p).syn.dead = [] → (2 ≤ e.f 1 1 0 → e.reg (e.f 1 8 5) % 2 ^ 32 ≠ 0) →
      ∃ t, exec (.ybar p) s = .next t ∧ s.onlyTiles t ∧ s.tilesBut t [p]
        ∧ (t.tile p).syn.cur = some (e, .bar (e.f 1 1 0) (e.f 1 4 2) (e.reg (e.f 1 8 5) % 2 ^ 32) (s₁.covered p (e.f 1 1 0))
            false none false)
        ∧ (t.tile p).syn.sense = (s.tile p).syn.sense)
    ∧ (EngineHead s p 3 3 e s₁ → 2 ≤ e.f 1 1 0 → e.reg (e.f 1 8 5) % 2 ^ 32 = 0 →
      ∃ t, exec (.ybar p) s = .next t ∧ s.onlyTiles t ∧ HaltedAt t p 0x000B 0 3 e.addr)
    ∧ (EngineHead s p 3 4 e s₁ → ∃ t, exec (.ymembar p) s = .next t ∧ s.onlyTiles t ∧ s.tilesBut t [p]
      ∧ (t.tile p).syn.cur = some (e, .membar (s₁.covered p (e.f 1 1 0))) ∧ (t.tile p).syn.sems = (s₁.tile p).syn.sems)
    ∧ (EngineHead s p 3 5 e s₁ → ∃ t, exec (.yfsignal p) s = .next t ∧ s.onlyTiles t ∧ s.tilesBut t [p]
      ∧ (t.tile p).syn.cur = some (e, .fsignal (e.reg (e.f 1 3 0) % 65536) (e.reg (e.f 1 7 4) % 2 ^ 64) (s₁.covered p 3)))
    ∧ (EngineHead s p 3 6 e s₁ → ∃ t, exec (.yfwait p) s = .next t ∧ s.onlyTiles t ∧ s.tilesBut t [p]
      ∧ (t.tile p).syn.cur = some (e, .fwait (e.reg (e.f 1 3 0) % 65536) (e.reg (e.f 1 7 4) % 2 ^ 64)))

/-- YPOLL reads its word with its begin and, while COND does not hold, again: 0 at least the comparand, 1 equal, 2 not
equal; a word that is not aligned halts with MEM_ALIGN (R178, R179). -/
def Clause.Polling : Prop :=
  (∀ (s s₁ s₂ s₃ : State) (p target pa ep : Nat) (e : Entry) (bs : List Byte), (s.tile p).syn.cur = none → EngineHead s p 3 7 e s₁ →
    let va := e.qAddr (e.f 1 8 0)
    let value := e.reg (e.f 1 12 9) % 2 ^ 64
    let cond := e.f 1 14 13
    let s₀ := s₁.synBegun p e (.poll va value cond false none)
    va % 8 = 0 → cond ≠ 3 → s₀.xlWaiting (.sync p) (p / 104) (some p) = false →
    s₀.translate p (s₀.missOf p (.sync p) va .read e.addr) = (s₂, .ok target pa ep) →
    s₂.memRead p target pa ep 8 (.sync p) = (s₃, .data bs false) →
    ∃ t h, exec (.ypoll p) s = .next t ∧ t.mem = s₃.mem ∧ (t.tile p).syn.cur = some (e, .poll va value cond h none)
      ∧ (h = true ↔ s₃.cellOf pa = none ∨ (cond = 0 ∧ value ≤ fromLE bs) ∨ (cond = 1 ∧ fromLE bs = value) ∨ (cond = 2 ∧ fromLE bs ≠ value)))
  ∧ (∀ (s s₁ : State) (p : Nat) (e : Entry), (s.tile p).syn.cur = none → EngineHead s p 3 7 e s₁ → e.qAddr (e.f 1 8 0) % 8 ≠ 0 →
    ∃ t, exec (.ypoll p) s = .next t ∧ s.onlyTiles t ∧ HaltedAt t p 0x0002 0 3 e.addr)
  ∧ (∀ (s s₁ : State) (p : Nat) (e : Entry), (s.tile p).syn.cur = none → EngineHead s p 3 7 e s₁ → e.qAddr (e.f 1 8 0) % 8 = 0 →
    e.f 1 14 13 = 3 → ∃ t, exec (.ypoll p) s = .next t ∧ s.onlyTiles t ∧ HaltedAt t p 0x000B 0 3 e.addr)
  ∧ (∀ (s s₂ s₃ : State) (p target pa ep va value cond : Nat) (e : Entry) (bs : List Byte), (s.tile p).live = true →
    (s.tile p).syn.cur = some (e, .poll va value cond false none) → cond < 3 →
    s.xlWaiting (.sync p) (p / 104) (some p) = false →
    s.translate p (s.missOf p (.sync p) va .read e.addr) = (s₂, .ok target pa ep) →
    s₂.memRead p target pa ep 8 (.sync p) = (s₃, .data bs false) →
    ∃ t h, exec (.ypollReread p) s = .next t ∧ t.mem = s₃.mem ∧ (t.tile p).syn.cur = some (e, .poll va value cond h none)
      ∧ (h = true ↔ s₃.cellOf pa = none ∨ (cond = 0 ∧ value ≤ fromLE bs) ∨ (cond = 1 ∧ fromLE bs = value) ∨ (cond = 2 ∧ fromLE bs ≠ value)))

/-- A SYN instruction completes when what it waits for has come, and raises its signal; a YFSIGNAL then sends its fence
signal. A semaphore signal adds its count, saturating at 65,535 (R207, R208, R218). -/
def Clause.SyncCompletes : Prop :=
  (∀ (s : State) (p : Nat) (e : Entry) (w : SynWork) (mt : MatTime), (s.tile p).syn.cur = some (e, w) →
    (w = .done ∨ (∃ ids, w = .membar ids ∧ s.outstanding ids = []) ∨ (∃ n v, w = .fwait n v ∧ v ≤ s.fences.get 0 n)
      ∨ ∃ a v c r, w = .poll a v c true r) →
    ∃ t, exec (.engineInstructionComplete p .syn mt) s = .next t ∧ TileOnly s t p ∧ (t.tile p).syn.cur = none
      ∧ (t.tile p).syn.signals = (s.tile p).syn.signals ++ e.signal.toList ∧ (t.tile p).syn.sems = (s.tile p).syn.sems)
  ∧ (∀ (s : State) (p n v : Nat) (ids : List Nat) (e : Entry) (mt : MatTime), (s.tile p).syn.cur = some (e, .fsignal n v ids) →
    s.outstanding ids = [] →
    ∃ t, exec (.engineInstructionComplete p .syn mt) s = .next t ∧ (t.tile p).syn.cur = none ∧ t.mem = s.mem
      ∧ t.fenceQueue = s.fenceQueue ++ [⟨n, v, 0, s.logicalOf p, none⟩] ∧ t.fences = s.fences
      ∧ (t.tile p).syn.signals = (s.tile p).syn.signals ++ e.signal.toList)
  ∧ (∀ (s : State) (p wait k n : Nat) (rest : List (Nat × Nat)), (s.tile p).syn.signals = (k, n) :: rest → s.semWaiting p = false →
    ∃ t, exec (.semaphoreSignal p wait) s = .next t ∧ TileOnly s t p ∧ (t.tile p).syn.signals = rest
      ∧ (∀ j, t.sem p j = if j = k then min 65535 (s.sem p k + n) else s.sem p j)
      ∧ (65535 < s.sem p k + n → t.flag .SYN_STATUS_SEM_SATURATED p = true))

/-- The synchronization unit: its instructions, polling and their completion.
Rests also on choices of the model: notes/assumptions/51.md. -/
def Obligations.SyncUnit : Prop := Clause.SyncInstructions ∧ Clause.Polling ∧ Clause.SyncCompletes

/-- A barrier's arrivals (R211 to R213): before the count the root only records the arrival; the arrival that reaches the
count inverts the published sense, clears the root and publishes to every participant, whose YBAR completes and whose own
sense is inverted when it sees that. A BARB goes on when all its block's groups have arrived (R210). -/
def Clause.Barriers : Prop :=
  (∀ (s : State) (p scope slot count : Nat) (ids : List Nat) (e : Entry),
    (s.tile p).syn.cur = some (e, .bar scope slot count ids false none false) → s.outstanding ids = [] →
    let key := s.rootOf p scope slot
    let r := s.roots.get .reset key
    bit (s.tile p).syn.sense (8 * scope + slot) ≠ r.sense → r.error = 0 →
    let want := if scope = 0 then 1 else if scope = 1 then (s.tile p).gangSize else if r.arrived = [] then count else r.count
    (scope < 2 ∨ count = want) →
    (r.arrived.length + 1 ≠ want → ∃ t, exec (.barrierArrival p) s = .next t ∧ t.mem = s.mem ∧ s.tilesBut t [p]
      ∧ t.roots.get .reset key = ⟨r.sense, r.arrived ++ [p], want, 0⟩
      ∧ (t.tile p).syn.cur = some (e, .bar scope slot count ids true none false))
    ∧ (r.arrived.length + 1 = want → ∃ t, exec (.barrierArrival p) s = .next t ∧ t.mem = s.mem
      ∧ t.roots.get .reset key = ⟨!r.sense, [], 0, 0⟩
      ∧ (t.tile p).syn.cur = some (e, .bar scope slot count ids true (some 0) false)
      ∧ ∀ q ∈ r.arrived, ∀ e' count' ids' dead, (s.tile q).syn.cur = some (e', .bar scope slot count' ids' true none dead) →
          s.rootOf q scope slot = key → q ≠ p →
          (t.tile q).syn.cur = some (e', .bar scope slot count' ids' true (some 0) dead)))
  ∧ (∀ (s : State) (p scope slot count code : Nat) (ids : List Nat) (dead : Bool) (e : Entry), scope < 4 → slot < 8 →
    (s.tile p).syn.cur = some (e, .bar scope slot count ids true (some code) dead) →
    ∃ t, exec (.barrierPublicationReceive p .ybar) s = .next t ∧ t.mem = s.mem ∧ s.tilesBut t [p]
      ∧ (t.tile p).syn.cur = some (e, .done)
      ∧ (∀ n, bit (t.tile p).syn.sense n = if n = 8 * scope + slot then !bit (s.tile p).syn.sense n else bit (s.tile p).syn.sense n)
      ∧ (code ≠ 0 → t.flag .SYN_STATUS_BAR_ERROR p = true) ∧ (code = 0 → t.cp = s.cp))
  ∧ (∀ (s : State) (p b : Nat) (y : Block), (s.tile p).block? b = some y → y.groups ≠ [] → y.groups.Nodup →
    (∀ g ∈ y.groups, g ∈ y.arrived ∧ ∃ x, (s.tile p).group? g = some x ∧ x.haltPending = false ∧ x.stepping = false) →
    ∃ t, exec (.barrierPublicationReceive p (.barb b)) s = .next t ∧ s.onlyTiles t ∧ s.tilesBut t [p]
      ∧ (t.tile p).block? b = some { y with arrived := [] }
      ∧ (t.tile p).thr.promo = (s.tile p).thr.promo ++ y.groups
      ∧ ∀ g ∈ y.groups, ∃ x, (t.tile p).group? g = some x ∧ x.wait = .none)

/-- Fences only rise. The `n` oldest signals leave every slot at the greatest of its value and those signalled to it; none
of them changes another slot (R217). A YFWAIT, or a descriptor's wait, goes on once its fence has reached its value (R219). -/
def Clause.Fences : Prop :=
  (∀ (s : State) (n : Nat), (∀ x ∈ s.fenceQueue, x.value < 2 ^ 64) →
    ∃ t, exec (.fenceSignal n) s = .next t ∧ t.mem = s.mem ∧ t.tiles = s.tiles ∧ t.fenceQueue = s.fenceQueue.drop n
      ∧ ∀ slot, t.fences.get 0 slot =
          ((s.fenceQueue.take n).filter fun x => x.slot == slot).foldl (fun v x => max v x.value) (s.fences.get 0 slot))
  ∧ (∀ (s : State) (p slot value : Nat) (e : Entry), (s.tile p).syn.cur = some (e, .fwait slot value) →
    (value ≤ s.fences.get 0 slot → ∃ t, exec (.fenceWaitSatisfied (.tile p)) s = .next t ∧ s.onlyTiles t ∧ s.tilesBut t [p]
      ∧ (t.tile p).syn.cur = some (e, .done))
    ∧ (s.fences.get 0 slot < value → exec (.fenceWaitSatisfied (.tile p)) s = .next s))
  ∧ (∀ (s : State) (q n : Nat) (d : Desc), s.desc? q n = some d → d.waitEn = true → d.malformed = false → d.poisoned = false →
    d.q64 4 ≤ s.fences.get 0 (bits (d.w 2) 15 0) →
    ∃ t, exec (.fenceWaitSatisfied (.descriptor q n)) s = .next t ∧ t.mem = s.mem ∧ t.tiles = s.tiles ∧ t.fences = s.fences
      ∧ t.desc? q n = some { d with waitDone := true })

/-- Barriers and fence signals.
Rests also on choices of the model: notes/assumptions/51.md. -/
def Obligations.BarriersAndFences : Prop := Clause.Barriers ∧ Clause.Fences

/-! ### Part memory (09_context_memory.md; 07_hexist_encodings.md R186) -/

/-- A stack controller's read answers the 64 bytes of its line and whether the line carries an eyespot, and changes no byte;
an uncorrectable error sets the line's eyespot, which is counted (R227, R229). Its write stores exactly the bytes of its mask;
a full line clears the eyespot, a part of one leaves it (R231). -/
def Clause.StackReadsAndWrites : Prop :=
  (∀ (s : State) (k line odecc : Nat) (err : CellErr), s.stackPresent k = true → line < 2 ^ 30 → s.serves (k * 2 ^ 36) = true →
    let l := k * 2 ^ 30 + line
    ∃ t, exec (.stackRead k line err odecc) s = .next t ∧ t.mem = s.mem ∧ t.tiles = s.tiles
      ∧ (t.stack k).reply = some (s.memBytes (l * 64) 64, t.eye l)
      ∧ t.eye l = (s.eye l || err == .uncorrectable) ∧ ∀ j, j ≠ l → t.eye j = s.eye j)
  ∧ (∀ (s : State) (k line : Nat) (mask : W64) (data : List Byte), s.stackPresent k = true → line < 2 ^ 30 →
    s.serves (k * 2 ^ 36) = true → data.length = 64 →
    let l := k * 2 ^ 30 + line
    ∃ t, exec (.stackWrite k line mask data .none) s = .next t ∧ t.tiles = s.tiles
      ∧ (∀ i, i < 64 → t.memByte (64 * l + i) = if mask.getLsbD i = true then nth 0 data i else s.memByte (64 * l + i))
      ∧ (∀ a, a / 64 ≠ l → t.memByte a = s.memByte a)
      ∧ t.eye l = (s.eye l && mask != BitVec.allOnes 64) ∧ ∀ j, j ≠ l → t.eye j = s.eye j)

/-- STACK_ATOMIC applies its operation of R186 to the 4 or 8 bytes at its offset and answers their old value; a line with an
eyespot is left as it is and answers zero (R67, R186, R230). -/
def Clause.StackAtomics : Prop :=
  ∀ (s : State) (k off : Nat) (op : BitVec 4) (wide : Bool) (a b : W64), s.stackPresent k = true → off < 2 ^ 36 →
    s.serves (k * 2 ^ 36) = true → off % (if wide then 8 else 4) = 0 → op.toNat < 10 →
    let n := if wide then 8 else 4
    let c := k * 2 ^ 36 + off
    let old := fromLE (s.memBytes c n)
    let x := BitVec.ofNat (8 * n) old
    let y := a.setWidth (8 * n)
    let z := atomicResult (8 * n) op.toNat x y (b.setWidth (8 * n))
    (s.eye (c / 64) = false → ∃ t, exec (.stackAtomic k off op wide a b .none) s = .next t ∧ t.tiles = s.tiles ∧ s.memBut t c n
      ∧ fromLE (t.memBytes c n) = z.toNat ∧ (t.stack k).reply = some (toLE n old, false) ∧ ∀ j, t.eye j = s.eye j)
    ∧ (s.eye (c / 64) = true → ∃ t, exec (.stackAtomic k off op wide a b .none) s = .next t ∧ t.mem = s.mem
      ∧ (t.stack k).reply = some (toLE n 0, true))

/-- Reads, writes and atomics at the stack controllers.
Rests also on choices of the model: notes/assumptions/7.md, notes/assumptions/18.md. -/
def Obligations.StackAccesses : Prop := Clause.StackReadsAndWrites ∧ Clause.StackAtomics

/-- Health of the stacks. A scrub read takes the next line in turn and changes no byte (R228); the third failed read of a
sensor and a reading at the trip temperature trip the stack, a reading below sets its level at once where it rises (R239 to
R241); the end of a row copy puts the spare row to use (R236); a report of an eyespot outside every reloadable object is
taken without effect, and one inside reads its 4 KiB granule from the host copy (R233).
Rests also on choices of the model: notes/assumptions/14.md, notes/assumptions/60.md. -/
def Obligations.StackHealth : Prop :=
  (∀ (s : State) (k : Nat) (err : CellErr), s.stackPresent k = true → s.f .HBM_SETUP_SCRUB_HOURS k ≠ 0 →
    s.serves (k * 2 ^ 36) = true →
    let l := k * 2 ^ 30 + (s.stack k).scrub
    ∃ t, exec (.scrubRead k err) s = .next t ∧ t.mem = s.mem ∧ t.tiles = s.tiles
      ∧ (t.stack k).scrub = ((s.stack k).scrub + 1) % 2 ^ 30 ∧ t.eye l = (s.eye l || err == .uncorrectable)
      ∧ ∀ j, j ≠ l → t.eye j = s.eye j)
  ∧ (∀ (s : State) (k x : Nat), s.stackPresent k = true → x < 115 → s.flag .HBM_STATUS_TRIPPED k = false →
    s.flag .HBM_STATUS_SENSOR_LOST k = false → s.chl.waiting = [] → s.fab.heldPeers = [] →
    let low := s.f .HBM_SETUP_THROTTLE_C k
    let trip := s.f .HBM_SETUP_TRIP_C k
    (trip ≤ x → ∃ t, exec (.stackTemperatureRead k (some x) 0) s = .next t ∧ t.mem = s.mem ∧ t.tiles = s.tiles
      ∧ t.flag .HBM_STATUS_TRIPPED k = true ∧ t.f .HBM_STATUS_TEMP_C k = x ∧ (t.stack k).failedReads = 0)
    ∧ (x < trip → ∀ n, n = (if low + 6 ≤ x then 3 else if low + 3 ≤ x then 2 else if low ≤ x then 1 else 0) →
        s.f .HBM_STATUS_LEVEL k ≤ n →
        ∃ t, exec (.stackTemperatureRead k (some x) 0) s = .next t ∧ t.mem = s.mem ∧ t.tiles = s.tiles
          ∧ t.flag .HBM_STATUS_TRIPPED k = false ∧ t.f .HBM_STATUS_TEMP_C k = x ∧ t.f .HBM_STATUS_LEVEL k = n))
  ∧ (∀ (s : State) (k : Nat), s.stackPresent k = true → 2 ≤ (s.stack k).failedReads → s.flag .HBM_STATUS_SENSOR_LOST k = false →
    s.chl.waiting = [] → s.fab.heldPeers = [] →
    ∃ t, exec (.stackTemperatureRead k none 0) s = .next t ∧ t.mem = s.mem ∧ t.flag .HBM_STATUS_SENSOR_LOST k = true
      ∧ t.flag .HBM_STATUS_TRIPPED k = true ∧ (t.stack k).failedReads = (s.stack k).failedReads + 1)
  ∧ (∀ (s : State) (k : Nat) (c : RowCopy) (rest : List RowCopy), (s.stack k).copies = c :: rest →
    ∃ t, exec (.rowRemapComplete k []) s = .next t ∧ t.mem = s.mem ∧ t.eyes = s.eyes ∧ t.tiles = s.tiles
      ∧ (t.stack k).copies = rest ∧ (t.stack k).spares.get none c.entry = some c.spare)
  ∧ (∀ (s : State) (d line : Nat) (rest : List Nat), (s.die d).reports = line :: rest →
    (s.reloadOf d line = none → ∃ t, exec (.refetch d) s = .next t ∧ t.mem = s.mem ∧ t.chl = s.chl ∧ t.tiles = s.tiles
      ∧ (t.die d).reports = rest)
    ∧ (∀ r a, s.reloadOf d line = some (r, a) → (∀ i < 64, s.hostDead (r.backing + (a / 4096 * 4096 - r.base) + 64 * i) = false) → ∃ t x, exec (.refetch d) s = .next t ∧ t.mem = s.mem ∧ t.tiles = s.tiles
      ∧ (t.die d).reports = rest ∧ (t.die d).refetches = (s.die d).refetches ++ [x] ∧ x.line = line ∧ x.handle = r.handle
      ∧ t.nextId = s.nextId + 64
      ∧ (t.chl.reqs.drop s.chl.reqs.length).map (·.addr) =
          (List.range 64).map fun i => r.backing + (a / 4096 * 4096 - r.base) + 64 * i))

/-! ### Translation and faults (10_translation_and_faults.md) -/

/-- The oldest miss of a tile reaches its die's walker and starts a walk unless one for its 64 KiB page runs, which it then
joins, or 64 do (R249). A walk that finds a translation leaves it in the tile's cache; one that faults waits for an entry of
the die's table, which the oldest takes at its lowest free place (R248, R250); an address beyond the context's VA_BITS faults
with kind 3 (R243, R247). -/
def Clause.Walks : Prop :=
  (∀ (s : State) (p : Nat) (m : Miss) (rest : List Miss), (s.tile p).misses = m :: rest →
    ∃ t, exec (.walkRequest p) s = .next t ∧ t.mem = s.mem ∧ s.tilesBut t [p] ∧ (t.tile p).misses = rest
      ∧ (t.tile p).sent = (s.tile p).sent ++ [m]
      ∧ (if (∃ w ∈ (s.die m.die).walks, w.ctx = m.ctx ∧ w.va / 65536 = m.va / 65536) ∨ 64 ≤ (s.die m.die).walks.length
         then (t.die m.die).queued = (s.die m.die).queued ++ [m] ∧ (t.die m.die).walks = (s.die m.die).walks
         else (t.die m.die).walks = (s.die m.die).walks ++ [m] ∧ (t.die m.die).queued = (s.die m.die).queued))
  ∧ (∀ (s s₁ : State) (p d k : Nat) (m : Miss) (hs : HostMem) (r : Except XFault XEntry), (s.die d).walks[k]? = some m → m.die = d →
    State.tileOf m.who = some p → m ∈ (s.tile p).sent → (s.die d).queued = [] →
    let s₀ := s.modDie d fun x => { x with walks := x.walks.eraseIdx k, queued := [] }
    (∀ f, (s.walk d hs m.ctx m.va m.acc).2 = .error f → f ≠ walkWait) → s₀.walk d hs m.ctx m.va m.acc = (s₁, r) →
    (∀ e, r = .ok e → ∃ t, exec (.walkComplete d k hs) s = .next t ∧ t.mem = s.mem ∧ s.tilesBut t [p] ∧ e ∈ (t.tile p).xc
      ∧ (t.tile p).sent = (s.tile p).sent.erase m ∧ (t.die d).walks = (s.die d).walks.eraseIdx k)
    ∧ (∀ f, r = .error f → f ≠ walkWait → ∃ t, exec (.walkComplete d k hs) s = .next t ∧ t.mem = s.mem ∧ s.tilesBut t [p]
      ∧ (t.tile p).sent = (s.tile p).sent.erase m ∧ (t.tile p).xc = (s.tile p).xc
      ∧ (t.die d).faultQueue = (s.die d).faultQueue ++ [(m, f)] ∧ (t.die d).walks = (s.die d).walks.eraseIdx k))
  ∧ (∀ (s : State) (p d k : Nat) (m : Miss) (hs : HostMem), (s.die d).walks[k]? = some m → m.die = d →
    State.tileOf m.who = some p → m ∈ (s.tile p).sent → (s.die d).queued = [] → 2 ^ s.f .CTX_SETUP_VA_BITS m.ctx ≤ m.va →
    ∃ t, exec (.walkComplete d k hs) s = .next t ∧ t.mem = s.mem
      ∧ (t.die d).faultQueue = (s.die d).faultQueue ++ [(m, ⟨3, 0, 0, 0⟩)])
  ∧ (∀ (s : State) (d waited i : Nat) (m : Miss) (f : XFault) (rest : List (Miss × XFault)), (s.die d).faultQueue = (m, f) :: rest →
    i < 512 → i ∉ FMap.keys (s.die d).entries → (∀ j, j < i → j ∈ FMap.keys (s.die d).entries) →
    ∃ t, exec (.faultEntryAllocate d waited) s = .next t ∧ t.mem = s.mem ∧ t.tiles = s.tiles ∧ (t.die d).faultQueue = rest
      ∧ (t.die d).entries.get none i = some ⟨m, f, s.nextId, none, false⟩
      ∧ ∀ j, j ≠ i → (t.die d).entries.get none j = (s.die d).entries.get none j)

/-- The fault ring. Command processor 0 writes the oldest unreported fault at the next place of the ring, words 1 to 15 first
(R251, R252; word 0 follows as Obligations.Records says). RETRY frees the entry, drops what the caches held for the page and lets the group replay
(R253, R254); UNSERVICEABLE halts the requester's tile and shows it in the context's fault state (R255); a response that
answers nothing is ignored and counted (R253); XLT_RING_RETRY ends a ring fault (R256). -/
def Clause.FaultRing : Prop :=
  (∀ (s s₁ : State) (d i o a : Nat) (e : FaultEntry) (hs : HostMem), s.nextReport = some (o, d, i, e) →
    s.flag .XLT_STATUS_RING_FAULT = false → s.fringRoom = true → s.procRunning 2 = true →
    (s.die d).entries.get none i = some e →
    let n := s.f .XLT_FRING_NEXT_SEQUENCE
    s.ringAddr 0 hs (s.f .XLT_FRING_BASE_ADDR * 4096 + 64 * (n % 2 ^ s.f .XLT_SETUP_FRING_LOG2)) .store = (s₁, .at a) →
    s.cp.faultWriting = none → s₁.hostDead a = false → s₁.hostDead (a + 4) = false →
    ∃ t, exec (.faultRecordWrite hs) s = .next t ∧ t.mem = s₁.mem ∧ t.tiles = s.tiles
      ∧ (t.die d).entries.get none i = some { e with seq := some n } ∧ t.f .XLT_FRING_NEXT_SEQUENCE = (n + 1) % 2 ^ 32
      ∧ (t.chl.reqs.drop s.chl.reqs.length).map (fun r => (r.kind, r.addr, r.len, r.owner)) = [(.wrp, a + 4, 60, .fring)]
      ∧ ∃ id, t.cp.faultWriting = some ⟨a, n, [id], false, 0⟩)
  ∧ (∀ (s s₁ : State) (d i a : Nat) (e : FaultEntry) (p g : Nat) (x : Group) (resp : BitVec 128) (hs : HostMem),
    s.flag .XLT_STATUS_RING_FAULT = false → s.procRunning 2 = true →
    let r := s.f .XLT_RRING_NEXT_COUNT
    s.cp.rringProducer ≠ r →
    s.ringAddr 0 hs (s.f .XLT_RRING_BASE_ADDR * 4096 + 16 * (r % 2 ^ s.f .XLT_SETUP_RRING_LOG2)) .read = (s₁, .at a) →
    (s₁.setF .XLT_RRING_NEXT_COUNT 0 ((r + 1) % 2 ^ 32)).answered? resp.toNat = some (d, i, e) → e.miss.who = .group p g →
    e.miss.die = d → p / 104 = d → (s.tile p).seq.halt = none → (s.tile p).group? g = some x →
    (resp.toNat / 2 ^ 48 % 4 = 1 → ∃ t, exec (.retry resp hs) s = .next t ∧ t.mem = s₁.mem ∧ s.tilesBut t [p]
      ∧ (t.die d).entries.get none i = none ∧ t.f .XLT_RRING_NEXT_COUNT = (r + 1) % 2 ^ 32 ∧ (t.die d).w2 = []
      ∧ ∀ y ∈ (t.tile p).xc, y.covers e.miss.ctx e.miss.va = false)
    ∧ (resp.toNat / 2 ^ 48 % 4 = 2 → ∃ t, exec (.unserviceable resp hs) s = .next t ∧ t.mem = s₁.mem ∧ s.tilesBut t [p]
      ∧ (t.die d).entries.get none i = none ∧ t.flag .CTX_FAULT_UNSERVICEABLE e.miss.ctx = true
      ∧ HaltedAt t p 0x000C 1 g e.miss.instr))
  ∧ (∀ (s s₁ : State) (a : Nat) (resp : BitVec 128) (hs : HostMem), s.flag .XLT_STATUS_RING_FAULT = false → s.procRunning 2 = true →
    let r := s.f .XLT_RRING_NEXT_COUNT
    s.cp.rringProducer ≠ r →
    s.ringAddr 0 hs (s.f .XLT_RRING_BASE_ADDR * 4096 + 16 * (r % 2 ^ s.f .XLT_SETUP_RRING_LOG2)) .read = (s₁, .at a) →
    (s₁.setF .XLT_RRING_NEXT_COUNT 0 ((r + 1) % 2 ^ 32)).answered? resp.toNat = none → resp.toNat / 2 ^ 48 % 4 = 1 →
    s.f .XLT_RESP_IGNORED_COUNT + 1 < 2 ^ 64 →
    ∃ t, exec (.retry resp hs) s = .next t ∧ t.mem = s₁.mem ∧ t.tiles = s.tiles
      ∧ t.f .XLT_RESP_IGNORED_COUNT = s.f .XLT_RESP_IGNORED_COUNT + 1)
  ∧ (∀ s : State, ∃ t, exec .xltRingRetry s = .next t ∧ s.onlyFields t ∧ t.flag .XLT_STATUS_RING_FAULT = false
      ∧ s.fieldsBut t [(.XLT_STATUS_RING_FAULT, 0)])

/-- Participants acknowledge an invalidation in the order of arrival, each once its old accesses are settled; it completes
with the last acknowledgement, and is then counted and ends its item (R259, R260). -/
def Clause.Invalidations : Prop :=
  ∀ (s : State) (i : Inval) (who : InvParticipant), s.invals.find? (·.waitingFor.contains who) = some i → s.invalBusy i who = false →
    (i.waitingFor ≠ [who] → i.waitingFor.Nodup → (s.invals.map (·.id)).Nodup →
      ∃ t, exec (.invalidationAck i.id who) s = .next t ∧ t = { s with invals := t.invals }
        ∧ t.invals.length = s.invals.length ∧ ∃ j ∈ t.invals, j.id = i.id ∧ j.waitingFor = i.waitingFor.erase who
          ∧ who ∉ j.waitingFor)
    ∧ (i.waitingFor = [who] → i.destroys = none → (s.invals.map (·.id)).Nodup →
      ∃ t, exec (.invalidationAck i.id who) s = .next t ∧ t.mem = s.mem ∧ t.tiles = s.tiles
        ∧ t.invals = s.invals.filter (·.id != i.id)
        ∧ (s.f .XLT_INVALIDATIONS_COUNT + 1 < 2 ^ 64 → t.f .XLT_INVALIDATIONS_COUNT = s.f .XLT_INVALIDATIONS_COUNT + 1))

/-- Walks, the fault ring and invalidations.
Rests also on choices of the model: notes/assumptions/9.md, notes/assumptions/44.md, notes/assumptions/52.md, notes/assumptions/53.md. -/
def Obligations.Translation : Prop := Clause.Walks ∧ Clause.FaultRing ∧ Clause.Invalidations

/-! ### Contexts, queues, descriptors and objects (11_host_queues_and_objects.md) -/

/-- The context actions of R265: OPEN takes FREE to OPEN, START takes OPEN to LIVE, and an action that the table does not
list for the state has no effect. DESTROY disables the context's completion queues and sends a context invalidation (R267);
CONTEXT_STOPPED takes an ABORTING context with nothing left to STOPPED and leaves a CTX_ABORTED record (R266). -/
def Clause.Contexts : Prop :=
  (∀ (s : State) (c : Nat), c < 64 → s.f .CTX_STATUS_STATE c = 0 →
    ∃ t, exec (.openCtx c) s = .next t ∧ s.onlyFields t ∧ s.fieldsBut t [(.CTX_STATUS_STATE, c)] ∧ t.f .CTX_STATUS_STATE c = 1)
  ∧ (∀ (s : State) (c : Nat), c < 64 → s.f .CTX_STATUS_STATE c = 1 →
    ∃ t, exec (.start c) s = .next t ∧ s.onlyFields t ∧ s.fieldsBut t [(.CTX_STATUS_STATE, c)] ∧ t.f .CTX_STATUS_STATE c = 2)
  ∧ (∀ (s : State) (c : Nat) (bells : List (Nat × BitVec 32)),
    (s.f .CTX_STATUS_STATE c ≠ 0 → exec (.openCtx c) s = .next s)
    ∧ (s.f .CTX_STATUS_STATE c ≠ 1 → exec (.start c) s = .next s)
    ∧ (s.f .CTX_STATUS_STATE c ≠ 2 → exec (.abort c bells) s = .next s)
    ∧ (s.f .CTX_STATUS_STATE c ≠ 1 → s.f .CTX_STATUS_STATE c ≠ 4 → exec (.destroy c) s = .next s))
  ∧ (∀ (s : State) (c : Nat), c < 64 → s.f .CTX_STATUS_STATE c = 1 ∨ s.f .CTX_STATUS_STATE c = 4 →
    (∀ i ∈ s.invals, i.destroys ≠ some c) →
    ∃ t i, exec (.destroy c) s = .next t ∧ t.mem = s.mem ∧ t.invals = s.invals ++ [i] ∧ i.kind = 2 ∧ i.ctx = c
      ∧ i.destroys = some c ∧ i.waitingFor = s.participants ∧ t.f .CTX_STATUS_STATE c = s.f .CTX_STATUS_STATE c
      ∧ (∀ q, q < 1024 → t.flag .QUE_CQ_CTRL_ENABLE q = true →
          s.flag .QUE_CQ_CTRL_ENABLE q = true ∧ s.f .QUE_CQ_SETUP_CONTEXT q ≠ c)
      ∧ ∀ p, p < 104 * s.variant.dies → ∀ e, e ∈ (t.tile p).xc ↔ e ∈ (s.tile p).xc ∧ e.ctx ≠ c)
  ∧ (∀ (s : State) (i : Inval) (who : InvParticipant) (c : Nat), s.invals.find? (·.waitingFor.contains who) = some i →
    s.invalBusy i who = false → i.waitingFor = [who] → i.destroys = some c → i.desc = none → s.liveSlots = [] →
    ∃ t, exec (.invalidationAck i.id who) s = .next t ∧ t.mem = s.mem ∧ t.tiles = s.tiles ∧ t.f .CTX_STATUS_STATE c = 0
      ∧ t.f .CTX_S1_ROOT_ADDR c = 0 ∧ t.flag .CTX_FAULT_HALT c = false ∧ t.flag .CTX_FAULT_DEST_DEAD c = false
      ∧ t.flag .CTX_FAULT_UNSERVICEABLE c = false
      ∧ ∀ q, t.f .QUE_SQ_SETUP_CONTEXT q = s.f .QUE_SQ_SETUP_CONTEXT q
          ∧ t.f .CTX_ITEMS_DONE_COUNT q = s.f .CTX_ITEMS_DONE_COUNT q)
  ∧ (∀ (s : State) (c : Nat), s.settleItems = s → s.f .CTX_STATUS_STATE c = 3 → s.sqsOf c = [] → (∀ d ∈ s.cp.descs, d.ctx ≠ c) →
    (∀ r ∈ s.fab.reqs, r.ctx ≠ some c ∨ r.status ≠ .waiting) → s.cp.errs.length < 256 →
    ∃ t, exec (.contextStopped c) s = .next t ∧ t = { s with fields := t.fields, cp := t.cp }
      ∧ s.fieldsBut t [(.CTX_STATUS_STATE, c)] ∧ t.f .CTX_STATUS_STATE c = 4
      ∧ t.cp = { s.cp with errs := s.cp.errs ++ [⟨6, some c, s.time, [s.cp.aborted.get 0 c]⟩] })

/-- ABORT of a LIVE context none of whose items runs (R266, steps 1 and 2): each of its enabled queues whose doorbell line
shows a legal producer index latches it, and every item of a descriptor fetched and not started fails; the descriptors
complete. The items of other contexts keep what they have. -/
def Clause.AbortOfWaitingWork : Prop :=
  ∀ (s : State) (c : Nat) (bells : List (Nat × BitVec 32)), c < 64 → s.f .CTX_STATUS_STATE c = 2 →
    (s.cp.descs.map fun d => (d.q, d.n)).Nodup →
    (∀ d ∈ s.cp.descs, d.ctx = c → d.stage = .fetched ∧ d.items ≠ [] ∧ ∀ it ∈ d.items, it.stage = .fresh) →
    (∀ p, (s.tile p).seq.kernel = none ∧ (s.tile p).seq.inbox = none) →
    ∃ t, exec (.abort c bells) s = .next t ∧ t.mem = s.mem ∧ t.f .CTX_STATUS_STATE c = 3
      ∧ (∀ q ∈ s.sqsOf c, ∀ v, bells.find? (·.1 == q) = some (q, v) → s.f .QUE_SQ_STATUS_STATE q = 1 →
          (v.toNat + 2 ^ 32 - s.f .QUE_SQ_CONSUMER_INDEX q) % 2 ^ 32 ≤ 2 ^ s.f .QUE_SQ_SETUP_SIZE_LOG2 q →
          (t.cp.sqs.get ⟨0, false, none⟩ q).latched = some v.toNat)
      ∧ (∀ q n d, s.desc? q n = some d → d.ctx = c → ∃ e, t.desc? q n = some e ∧ e.stage = .complete
          ∧ e.items.length = d.items.length
          ∧ ∀ (i : Nat) (a b : Item), d.items[i]? = some a → e.items[i]? = some b → b.code = (if a.code = 0 then 0x0021 else a.code))
      ∧ (∀ q n d, s.desc? q n = some d → d.ctx ≠ c → t.desc? q n = some d)
      ∧ ∀ k x, k < 8 → x ∈ (t.die k).faultQueue → x.1.ctx ≠ c

/-- Contexts and the abort of their work.
Rests also on choices of the model: notes/assumptions/54.md. -/
def Obligations.ContextLife : Prop := Clause.Contexts ∧ Clause.AbortOfWaitingWork

/-- A write of 1 to QUE_SQ_CTRL.ENABLE takes effect where the conditions of R273 hold and else sets SETUP_ERROR; a write of 0
stops fetching, and STATE reads 2 while descriptors are in flight. The same of a completion queue, whose disabling is ignored
while an enabled submission queue names it (R273, R275). -/
def Clause.QueueSetup : Prop :=
  (∀ (s : State) (q : Nat), q < 1024 → s.flag .QUE_SQ_CTRL_ENABLE q = false →
    let c := s.f .QUE_SQ_SETUP_CONTEXT q
    let cq := s.f .QUE_SQ_SETUP_CQ q
    let ok : Prop := s.f .CTX_STATUS_STATE c = 2 ∧ s.flag .QUE_CQ_CTRL_ENABLE cq = true ∧ s.f .QUE_CQ_SETUP_CONTEXT cq = c
      ∧ s.variant.hasDie (s.f .QUE_SQ_SETUP_SERVE_DIE q) = true
      ∧ s.f .QUE_SQ_BASE_ADDR q * 4096 % (64 * 2 ^ s.f .QUE_SQ_SETUP_SIZE_LOG2 q) = 0 ∧ (s.sqsOf c).length < 16
    ∃ t, exec (.sqEnable q) s = .next t ∧ t = { s with fields := t.fields, cp := t.cp }
      ∧ (ok → t.flag .QUE_SQ_CTRL_ENABLE q = true ∧ t.f .QUE_SQ_STATUS_STATE q = 1
          ∧ s.fieldsBut t [(.QUE_SQ_CTRL_ENABLE, q), (.QUE_SQ_STATUS_STATE, q)])
      ∧ (¬ ok → t.flag .QUE_SQ_CTRL_SETUP_ERROR q = true ∧ s.fieldsBut t [(.QUE_SQ_CTRL_SETUP_ERROR, q)] ∧ t.cp = s.cp))
  ∧ (∀ (s : State) (q : Nat), q < 1024 → s.flag .QUE_SQ_CTRL_ENABLE q = true →
    ∃ t, exec (.sqDisable q) s = .next t ∧ t = { s with fields := t.fields, cp := t.cp } ∧ t.cp.descs = s.cp.descs
      ∧ t.flag .QUE_SQ_CTRL_ENABLE q = false ∧ t.f .QUE_SQ_STATUS_STATE q = (if s.inflight q = 0 then 0 else 2)
      ∧ s.fieldsBut t [(.QUE_SQ_CTRL_ENABLE, q), (.QUE_SQ_STATUS_STATE, q)])
  ∧ (∀ (s : State) (q : Nat), q < 1024 → s.flag .QUE_CQ_CTRL_ENABLE q = false ∨ s.f .QUE_CQ_STATUS_STATE q = 2 →
    let c := s.f .QUE_CQ_SETUP_CONTEXT q
    let ok : Prop := s.f .CTX_STATUS_STATE c = 2 ∧ s.f .QUE_CQ_BASE_ADDR q * 2048 % (32 * 2 ^ s.f .QUE_CQ_SETUP_SIZE_LOG2 q) = 0
      ∧ (s.flag .QUE_CQ_CTRL_ENABLE q = true ∨ (s.cqsOf c).length < 16)
    ∃ t, exec (.cqEnable q) s = .next t ∧ t = { s with fields := t.fields, cp := t.cp }
      ∧ (∀ k, k ≠ q → t.cp.cqs.get .reset k = s.cp.cqs.get .reset k)
      ∧ (t.cp.cqs.get .reset q).held = (s.cp.cqs.get .reset q).held ∧ (t.cp.cqs.get .reset q).writing = (s.cp.cqs.get .reset q).writing
      ∧ (ok → t.flag .QUE_CQ_CTRL_ENABLE q = true ∧ t.f .QUE_CQ_STATUS_STATE q = 1
          ∧ s.fieldsBut t [(.QUE_CQ_CTRL_ENABLE, q), (.QUE_CQ_STATUS_STATE, q)])
      ∧ (¬ ok → t.flag .QUE_CQ_CTRL_SETUP_ERROR q = true ∧ s.fieldsBut t [(.QUE_CQ_CTRL_SETUP_ERROR, q)]))
  ∧ (∀ (s : State) (q : Nat), q < 1024 → s.flag .QUE_CQ_CTRL_ENABLE q = true →
    ((∃ k, k < 1024 ∧ s.flag .QUE_SQ_CTRL_ENABLE k = true ∧ s.f .QUE_SQ_SETUP_CQ k = q) → exec (.cqDisable q) s = .next s)
    ∧ ((∀ k, k < 1024 → s.flag .QUE_SQ_CTRL_ENABLE k = true → s.f .QUE_SQ_SETUP_CQ k ≠ q) →
      ∃ t, exec (.cqDisable q) s = .next t ∧ t = { s with fields := t.fields, cp := t.cp } ∧ t.cp.cqs = s.cp.cqs
        ∧ t.flag .QUE_CQ_CTRL_ENABLE q = false ∧ t.f .QUE_CQ_STATUS_STATE q = 0
        ∧ s.fieldsBut t [(.QUE_CQ_CTRL_ENABLE, q), (.QUE_CQ_STATUS_STATE, q)]))

/-- A doorbell line read again is held shared and gives the producer index, its first four bytes; an index out of the ring's
window stops the queue with cause 2, a read that fails with cause 1, and an error record is written (R269, R270). -/
def Clause.Doorbells : Prop :=
  ∀ (s s₁ : State) (q : Nat) (hs : HostMem) (r : Option (Nat × List Byte × Bool)), s.flag .QUE_SQ_CTRL_ENABLE q = true →
    s.f .QUE_SQ_STATUS_STATE q = 1 → s.procRunning (2 + s.f .QUE_SQ_SETUP_SERVE_DIE q) = true →
    (∀ x ∈ s.cp.lines, x.1 ≠ .doorbell q) →
    s.ringRead (s.f .QUE_SQ_SETUP_SERVE_DIE q) hs (s.f .QUE_SQ_DOORBELL_ADDR q * 64) 64 = (s₁, some r) →
    s₁.cp.errs.length < 256 →
    let rec_ := fun cause => (⟨3, some (s₁.f .QUE_SQ_SETUP_CONTEXT q), s₁.time, [q + cause * 4096]⟩ : ErrRec)
    ∃ t, exec (.hostLineReread (.doorbell q) hs) s = .next t ∧ t = { s₁ with fields := t.fields, cp := t.cp }
      ∧ s₁.fieldsBut t [(.QUE_SQ_STATUS_STATE, q)]
      ∧ (∀ a bs poison, r = some (a, bs, poison) →
          let p := fromLE (bs.take 4)
          let x := t.cp.sqs.get ⟨0, false, none⟩ q
          (.doorbell q, a) ∈ t.cp.lines ∧ x.producer = p ∧ x.known = true
          ∧ (if x.latched = none ∧ 2 ^ s₁.f .QUE_SQ_SETUP_SIZE_LOG2 q < (p + 2 ^ 32 - s₁.f .QUE_SQ_CONSUMER_INDEX q) % 2 ^ 32
             then t.f .QUE_SQ_STATUS_STATE q = 3 ∧ t.cp.errs = s₁.cp.errs ++ [rec_ 2]
             else t.f .QUE_SQ_STATUS_STATE q = s₁.f .QUE_SQ_STATUS_STATE q ∧ t.cp.errs = s₁.cp.errs))
      ∧ (r = none → t.f .QUE_SQ_STATUS_STATE q = 3 ∧ t.cp.errs = s₁.cp.errs ++ [rec_ 1] ∧ t.cp.lines = s₁.cp.lines)

/-- Queue set-up and doorbells.
Rests also on choices of the model: notes/assumptions/9.md, notes/assumptions/75.md. -/
def Obligations.QueuesAndDoorbells : Prop := Clause.QueueSetup ∧ Clause.Doorbells

/-- A descriptor is fetched from slot n mod size of its queue's ring, in ring order. One that breaks its layout completes at
once with every item failed DESC_MALFORMED; one read as poison completes with ITEMS_MINUS_1 of 0, FAILED_MASK of 1, TAG 0 and
MEM_POISON (R269, R271, R272, R287). -/
def Clause.DescriptorFetches : Prop :=
  ∀ (s s₁ : State) (q a : Nat) (hs : HostMem) (bs : List Byte) (poison : Bool),
    let x := s.cp.sqs.get ⟨0, false, none⟩ q
    let n := s.f .QUE_SQ_CONSUMER_INDEX q
    let size := 2 ^ s.f .QUE_SQ_SETUP_SIZE_LOG2 q
    let ahead := (x.producer + 2 ^ 32 - n) % 2 ^ 32
    let die := s.f .QUE_SQ_SETUP_SERVE_DIE q
    q < 1024 → s.flag .QUE_SQ_CTRL_ENABLE q = true → s.f .QUE_SQ_STATUS_STATE q = 1 → x.known = true → x.latched = none →
    n ≠ x.producer → ahead ≤ size → s.inflight q < 256 → s.procRunning (2 + die) = true → s.stacksOpen die = true →
    s.ringRead die hs (s.f .QUE_SQ_BASE_ADDR q * 4096 + 64 * (n % size)) 64 = (s₁, some (some (a, bs, poison))) →
    (s₁.cp.sqs.get ⟨0, false, none⟩ q).latched = none → s₁.f .CTX_STATUS_STATE (s.f .QUE_SQ_SETUP_CONTEXT q) ≠ 3 →
    s₁.desc? q n = none → s₁.f .QUE_SQ_STATUS_STATE q = 1 →
    ∃ t d, exec (.descriptorFetch q hs) s = .next t ∧ t = { s₁ with fields := t.fields, cp := t.cp }
      ∧ t.desc? q n = some d ∧ t.cp.descs.length = s₁.cp.descs.length + 1 ∧ t.f .QUE_SQ_CONSUMER_INDEX q = (n + 1) % 2 ^ 32
      ∧ s₁.fieldsBut t ((.QUE_SQ_CONSUMER_INDEX, q) :: d.doneFields)
      ∧ d.q = q ∧ d.n = n ∧ d.ctx = s.f .QUE_SQ_SETUP_CONTEXT q ∧ d.cq = s.f .QUE_SQ_SETUP_CQ q ∧ d.words = bytesWords 16 bs
      ∧ (if poison = true then d.stage = .complete ∧ RecordHeld s₁ t d (d.recordOf 1 0 0 1 0x0010) false
         else if d.wellFormed = true then d.stage = .fetched ∧ t.cp.cqs = s₁.cp.cqs ∧ d.items.length = d.count
         else d.stage = .complete ∧ RecordHeld s₁ t d (d.recordOf (2 ^ d.count - 1) 0 (d.w 1) d.count 0x0001) d.irq)

/-- The checks made for a whole descriptor at its start, in the order of R441: each fails every item with its code, and the
descriptor completes. -/
def Clause.StartChecks : Prop :=
  ∀ (s s₁ : State) (q n op code : Nat) (d : Desc) (hs : HostMem), StartsAt s q n op s₁ d →
    let die := d.w 13 % 8
    let width := d.w 13 / 2 ^ 8 % 16
    let unit : Prop := if op = 2 then s₁.variant.hasDie die = true else s₁.variant.hasCodec die = true
    let stale : Prop := ∃ h ∈ [d.w 14, d.w 15], h ≠ 0 ∧
      let w := nth 0 (s₁.objEntry (h % 2 ^ 20)) 0
      w / 2 ^ 12 % 2 = 0 ∨ w % 2 ^ 12 ≠ h / 2 ^ 20 % 2 ^ 12
    (op = 1 ∧ code = 0x0004 ∧ ∃ k, k < 8 ∧ bit (d.w 12) k = true ∧ s₁.variant.hasDie k = false)
    ∨ ((op = 2 ∨ op = 3 ∨ op = 4) ∧
        ((code = 0x0004 ∧ ¬ unit)
        ∨ (op = 3 ∧ code = 0x0040 ∧ unit ∧ width ≠ 4 ∧ width ≠ 8)
        ∨ (code = 0x0005 ∧ unit ∧ (op = 3 → width = 4 ∨ width = 8) ∧ s₁.flag .OBJ_STATUS_READY = true ∧ stale))) →
    ∃ t, exec (if op = 1 then .launch q n hs else if op = 2 then .copy q n hs else if op = 3 then .compress q n hs
        else .decompress q n hs) s = .next t
      ∧ Completes s₁ t d (2 ^ d.count - 1) d.result code

/-- Fetching descriptors and the checks at their start.
Rests also on choices of the model: notes/assumptions/9.md, notes/assumptions/75.md. -/
def Obligations.DescriptorStarts : Prop := Clause.DescriptorFetches ∧ Clause.StartChecks

/-- A LAUNCH of one item with a legal kernel header and record and no objects: the header's four program counters, stream
enables and gang size are kept for the launch message, and the item waits for tiles of the lowest die of DIE_MASK. A header
that breaks R282 fails every item LAUNCH_INVALID, one read as poison MEM_POISON (R272, R280, R282). -/
def Clause.Launches : Prop :=
  ∀ (s s₁ s₂ : State) (q n : Nat) (d : Desc) (hs : HostMem) (hb : List Byte) (poison : Bool), StartsAt s q n 1 s₁ d → d.pcs = [] →
    (∀ k, k < 8 → bit (d.w 12) k = true → s₁.variant.hasDie k = true) →
    (s₁.begin_ d).vRead (.cp q n 64) d.die d.ctx (d.q64 8) 64 hs = (s₂, .got hb 0 poison) → s₂.desc? q n = (s₁.begin_ d).desc? q n →
    let w := fun k => fromLE ((hb.drop (4 * k)).take 4)
    let pc := fun k => w (2 * k) + 2 ^ 32 * w (2 * k + 1)
    let en := w 8 % 16
    let bad : Prop := en = 0 ∨ w 8 / 16 % 8 = 7 ∨ (∃ k, k < 4 ∧ bit en k = true ∧ pc k % 8 ≠ 0) ∨ w 8 / 2 ^ 7 ≠ 0
      ∨ ∃ k, 9 ≤ k ∧ k < 16 ∧ w k ≠ 0
    let pcs := (List.range 4).map fun k => pc k % 2 ^ 56
    (poison = true → ∃ t e, exec (.launch q n hs) s = .next t ∧ t.desc? q n = some e ∧ e.stage = .complete
      ∧ ∀ it ∈ e.items, it.code = 0x0010)
    ∧ (poison = false → bad → ∃ t e, exec (.launch q n hs) s = .next t ∧ t.desc? q n = some e ∧ e.stage = .complete
      ∧ RecordHeld s₂ t d (d.recordOf (2 ^ d.count - 1) d.result (d.w 1) d.count 0x0003) d.irq ∧ ∀ it ∈ e.items, it.code = 0x0003)
    ∧ (poison = false → ¬ bad → d.count = 1 → d.w 14 = 0 → d.w 15 = 0 →
      ∀ (s₃ : State) (ib : List Byte),
        (s₂.modDesc q n fun e => { e with pcs := pcs, enables := en, gangLog2 := w 8 / 16 % 8 }).vRead (.cp q n 0) d.die d.ctx
          (d.q64 10 % 2 ^ 64) 32 hs = (s₃, .got ib 0 false) → ib.length = 32 → fromLE (ib.take 4) = 0 →
        ∀ k, k < 8 → bit (d.w 12) k = true → (∀ j, j < k → bit (d.w 12) j = false) →
        ∃ t, exec (.launch q n hs) s = .next t ∧ t = { s₃ with cp := t.cp, dies := t.dies }
          ∧ (t.die k).waiting = (s₃.die k).waiting ++ [(d.priority, q, n, 0)] ∧ (∀ j, j ≠ k → t.die j = s₃.die j)
          ∧ ∀ e, s₃.desc? q n = some e → t.desc? q n = some (e.modItem 0 fun it => { it with stage := .waiting, src := 0, dst := 0 }))

/-- A COPY without a list and without objects: item i waits for a tile of its die, to copy ITEM_BYTES from SRC + i × ITEM_BYTES
to DST + i × ITEM_BYTES (R272, R283). A COMPRESS or DECOMPRESS of one frame, whose entry keeps its layout, waits for its
die's codec engine (R284). -/
def Clause.CopiesAndCodecs : Prop :=
  (∀ (s s₁ : State) (q n : Nat) (d : Desc) (hs : HostMem), StartsAt s q n 2 s₁ d → bit (d.w 12) 31 = false →
    s₁.variant.hasDie (d.w 13 % 8) = true → d.w 14 = 0 → d.w 15 = 0 →
    let die := d.w 13 % 8
    let bytes := d.w 12 % 2 ^ 31
    ∃ t, exec (.copy q n hs) s = .next t ∧ t = { s₁ with cp := t.cp, dies := t.dies }
      ∧ (t.die die).waiting = (s₁.die die).waiting ++ (List.range d.count).map (fun i => (d.priority, q, n, i))
      ∧ (∀ j, j ≠ die → t.die j = s₁.die j)
      ∧ ∀ i, i < d.count → ((t.desc? q n).bind (·.items[i]?)).map (fun it => (it.stage, it.src, it.dst)) =
          some (.waiting, (d.q64 8 + i * bytes) % 2 ^ 64, (d.q64 10 + i * bytes) % 2 ^ 64))
  ∧ (∀ (s s₁ s₂ : State) (q n op : Nat) (d : Desc) (hs : HostMem) (bs : List Byte), op = 3 ∨ op = 4 → StartsAt s q n op s₁ d →
    d.count = 1 → s₁.variant.hasCodec (d.w 13 % 8) = true → (op = 3 → d.w 13 / 2 ^ 8 % 16 = 4 ∨ d.w 13 / 2 ^ 8 % 16 = 8) →
    d.w 14 = 0 → d.w 15 = 0 → (s₁.begin_ d).vRead (.cp q n 0) d.die d.ctx (d.q64 8 % 2 ^ 64) 64 hs = (s₂, .got bs 0 false) →
    bs.length = 64 →
    let w := fun k => fromLE ((bs.drop (4 * k)).take 4)
    w 12 = 0 → w 13 = 0 → w 14 = 0 → (op = 4 → w 8 = 0 ∧ w 9 = 0 ∧ w 10 = 0 ∧ w 11 = 0) →
    s₂.desc? q n = (s₁.begin_ d).desc? q n →
    let die := d.w 13 % 8
    ∃ t, exec (if op = 3 then .compress q n hs else .decompress q n hs) s = .next t ∧ t = { s₂ with cp := t.cp, dies := t.dies }
      ∧ (t.die die).codec = (s₂.die die).codec ++ [(q, n, 0)]
      ∧ ((t.desc? q n).bind (·.items[0]?)).map (fun it => (it.stage, it.entry)) = some (.waiting, (List.range 16).map w))

/-- LAUNCH, COPY and codec descriptors.
Rests also on choices of the model: notes/assumptions/55.md, notes/assumptions/75.md. -/
def Obligations.DescriptorWork : Prop := Clause.Launches ∧ Clause.CopiesAndCodecs

/-- A FENCE completes at once with its one item OK (R278). An INVALIDATE is sent to every participant: what each tile's cache
holds of what it names is gone, no walk is left under way, and its item runs until the last acknowledges (R258 to R260). -/
def Clause.FenceAndInvalidate : Prop :=
  (∀ (s s₁ : State) (q n : Nat) (d : Desc), StartsAt s q n 5 s₁ d → d.count = 1 →
    ∃ t, exec (.fence q n) s = .next t ∧ Completes s₁ t d 0 d.result 0)
  ∧ (∀ (s s₁ : State) (q n : Nat) (d : Desc), StartsAt s q n 6 s₁ d → d.count = 1 →
    let kind := d.w 8 % 4
    let ctx := d.w 8 / 4 % 64
    let start := d.q64 10
    let length := d.q64 12
    let gone := fun (e : XEntry) =>
      (kind = 0 ∧ e.ctx = ctx ∧ e.va < start + length ∧ start < e.va + 2 ^ e.bits)
      ∨ (kind = 1 ∧ e.ipa < start + length ∧ start < e.ipa + 2 ^ e.bits) ∨ (kind = 2 ∧ e.ctx = ctx) ∨ kind = 3
    ∃ t i, exec (.invalidate q n) s = .next t ∧ t.mem = s₁.mem ∧ t.invals = s₁.invals ++ [i]
      ∧ i.kind = kind ∧ i.ctx = ctx ∧ i.start = start ∧ i.length = length ∧ i.waitingFor = s₁.participants
      ∧ i.desc = some (q, n) ∧ i.destroys = none
      ∧ (∀ p, p < 104 * s₁.variant.dies → (∀ e, e ∈ (t.tile p).xc ↔ e ∈ (s₁.tile p).xc ∧ ¬ gone e)
          ∧ (t.tile p).misses = (s₁.tile p).sent ++ (s₁.tile p).misses ∧ (t.tile p).sent = [])
      ∧ (∀ j, j < s₁.variant.dies → (t.die j).walks = [] ∧ (t.die j).queued = [])
      ∧ ((t.desc? q n).bind (·.items[0]?)).map (·.stage) = some .running)

/-- OBJ_REGISTER of a slot neither live nor retired, the object not reloadable, writes the slot's entry live and answers its
handle, slot and instar; a live slot gives OBJ_SLOT_BUSY, a retired one OBJ_SLOT_RETIRED. OBJ_RELEASE of a live object clears
LIVE and raises INSTAR by one; a handle that is stale, or 0, gives OBJ_STALE (R292 to R296). -/
def Clause.Objects : Prop :=
  (∀ (s s₁ : State) (q n c : Nat) (d : Desc) (hs : HostMem), StartsAt s q n 7 s₁ d → d.count = 1 →
    s₁.flag .OBJ_STATUS_READY = true → s₁.xlWaiting (.cp q n 0) d.die none = false →
    let slot := d.w 14 % 2 ^ 20
    let w := nth 0 (s₁.objEntry slot) 0
    s₁.cellOf (s₁.f .OBJ_TABLE_BASE_ADDR * 2 ^ 25 + 32 * slot) = some c → c % 32 = 0 →
    (bit w 12 = true → ∃ t, exec (.objRegister q n hs) s = .next t ∧ Completes s₁ t d 1 d.result 0x0006)
    ∧ (bit w 12 = false → bit w 14 = true → ∃ t, exec (.objRegister q n hs) s = .next t ∧ Completes s₁ t d 1 d.result 0x0007)
    ∧ (bit w 12 = false → bit w 14 = false → bit (d.w 14) 20 = false → (∀ k, d.w k < 2 ^ 32) → d.ctx < 64 →
      ∃ t, exec (.objRegister q n hs) s = .next t ∧ t.tiles = s₁.tiles ∧ s₁.memBut t c 32
        ∧ bytesWords 8 (t.memBytes c 32) =
            [w % 2 ^ 12 + 2 ^ 12 + d.ctx * 2 ^ 15, 0, d.w 8, d.w 9, d.w 10, d.w 11, d.w 12, d.w 13]
        ∧ RecordHeld s₁ t d (d.recordOf 0 (slot + w % 2 ^ 12 * 2 ^ 20) (d.w 1) 1 0) d.irq))
  ∧ (∀ (s s₁ : State) (q n c : Nat) (d : Desc), StartsAt s q n 8 s₁ d → d.count = 1 → s₁.flag .OBJ_STATUS_READY = true →
    let h := d.w 8
    let slot := h % 2 ^ 20
    let w := nth 0 (s₁.objEntry slot) 0
    let live : Prop := h ≠ 0 ∧ bit w 12 = true ∧ w % 2 ^ 12 = h / 2 ^ 20 % 2 ^ 12
    s₁.cellOf (s₁.f .OBJ_TABLE_BASE_ADDR * 2 ^ 25 + 32 * slot) = some c → c % 32 = 0 →
    (¬ live → ∃ t, exec (.objRelease q n) s = .next t ∧ Completes s₁ t d 1 d.result 0x0005)
    ∧ (live → ∃ t, exec (.objRelease q n) s = .next t ∧ t.tiles = s₁.tiles ∧ s₁.memBut t c 32
        ∧ bit (fromLE (t.memBytes c 4)) 12 = false ∧ fromLE (t.memBytes c 4) % 2 ^ 12 = (w + 1) % 2 ^ 12
        ∧ RecordHeld s₁ t d (d.recordOf 0 d.result (d.w 1) 1 0) d.irq))
  ∧ (∀ (s : State) (v : W64), s.flag .CLK_LOCK_SETUP_LOCK = false →
    ∃ t, exec (.objTableBaseWrite v) s = .next t ∧ t.mem = s.mem ∧ t.tiles = s.tiles ∧ t.flag .OBJ_STATUS_READY = false
      ∧ t.f .OBJ_TABLE_BASE_ADDR = v.toNat / 2 ^ 25 % 2 ^ 27 ∧ t.cp = { s.cp with tableZeroing := true }
      ∧ s.fieldsBut t [(.OBJ_TABLE_BASE_ADDR, 0), (.OBJ_STATUS_READY, 0)] ∧ ∀ d, d < 8 → (t.die d).reloads = [])
  ∧ (∀ s : State, s.cp.tableZeroing = true → s.listedSlots = [] →
    ∃ t, exec .objectTableReady s = .next t ∧ t = { s with fields := t.fields, cp := { s.cp with tableZeroing := false } }
      ∧ t.flag .OBJ_STATUS_READY = true ∧ s.fieldsBut t [(.OBJ_STATUS_READY, 0)])

/-- FENCE, INVALIDATE and object descriptors.
Rests also on choices of the model: notes/assumptions/52.md. -/
def Obligations.DescriptorServices : Prop := Clause.FenceAndInvalidate ∧ Clause.Objects

/-- The die's next item, the oldest of the highest class, takes the lowest-numbered idle gang of its size: its launch message,
with the item, the four program counters, the enables and the rank of each tile, goes to every tile of the gang (R36, R39,
R272). -/
def Clause.ItemDispatches : Prop :=
  ∀ (s : State) (die pr q n i l : Nat) (d : Desc) (hs : HostMem), s.procRunning (2 + die) = true →
    bit (s.f .MGT_MOULT_CTRL_QUIESCE) die = false → (pr, q, n, i) ∈ (s.die die).waiting → (s.die die).waiting.Nodup →
    (∀ y ∈ (s.die die).waiting, y.1 ≤ pr) → (∀ y ∈ (s.die die).waiting.takeWhile (· ≠ (pr, q, n, i)), y.1 < pr) →
    s.desc? q n = some d →
    let size := 2 ^ (if d.opcode = 1 then d.gangLog2 else 0)
    l % size = 0 → l + size ≤ 96 → (∀ k, k < size → s.tileIdle (s.physOf die (l + k)) = true) →
    (∀ m, m < l → m % size = 0 → ∃ k, k < size ∧ s.tileIdle (s.physOf die (m + k)) = false) →
    ((List.range size).map fun k => s.physOf die (l + k)).Nodup →
    ∃ t, exec (.itemDispatch die hs) s = .next t ∧ t = { s with cp := t.cp, dies := t.dies, tiles := t.tiles }
      ∧ (t.die die).waiting = (s.die die).waiting.erase (pr, q, n, i)
      ∧ t.desc? q n = some (d.modItem i fun it => { it with stage := .running })
      ∧ (∀ r, r < size → (t.tile (s.physOf die (l + r))).seq.inbox =
          some ⟨⟨d.ctx, q, n, i, d.opcode == 2⟩, d.pcs, d.enables, (d.q64 10 + i * d.stride) % 2 ^ 64,
            if d.opcode = 1 then d.gangLog2 else 0, s.physOf die l, r⟩)
      ∧ ∀ p, p ∉ (List.range size).map (fun k => s.physOf die (l + k)) → t.tile p = s.tile p

/-- A frame is what R157 and R158 say: decoding the blocks that coding made of whole 64-byte blocks gives them back, in both
formats, and the header tells the format, the original and the coded length and the CRC-32C of the original bytes. -/
def Obligations.CodecRoundTrip : Prop :=
  ∀ (width n : Nat) (bs : List Byte) (tag : List Nat), width = 4 ∨ width = 8 → bs.length = 64 * n → bs.length < 2 ^ 32 →
    decodeBlocks width n (codeBlocks width n bs) = some bs
    ∧ (codeBlocks width n bs).length ≤ 66 * n
    ∧ frameHeader ((codeFrame width bs tag).take 64) = some (width, bs.length, (codeBlocks width n bs).length, crc32c bs)
    ∧ (codeFrame width bs tag).drop 64 = codeBlocks width n bs

/-- The item in front of a codec engine: lengths out of range and capacities too small fail it before anything is written; a
COMPRESS whose bytes are read and written ends with its stores (R157, R284). -/
def Clause.CodecItems : Prop :=
  ∀ (s : State) (die q n i : Nat) (d : Desc) (it : Item) (rest : List (Nat × Nat × Nat)) (hs : HostMem),
    (s.die die).codec = (q, n, i) :: rest → s.desc? q n = some d → d.q = q → d.n = n → d.items[i]? = some it → it.stage = .waiting →
    it.code = 0 →
    s.owned (· == .item q n i) = [] →
    let w := fun k => nth 0 it.entry k
    let len := w 4 + 2 ^ 32 * w 5
    let cap := w 6 + 2 ^ 32 * w 7
    let ends := fun (t : State) (code : Nat) => t.mem = s.mem ∧ t.tiles = s.tiles ∧ (t.die die).codec = rest
      ∧ ((t.desc? q n).bind (·.items[i]?)).map (fun x => (x.stage, x.code)) = some (.ended, code)
    (d.opcode = 3 → len % 64 ≠ 0 ∨ len < 64 ∨ 2 ^ 32 - 64 < len →
      ∃ t, exec (.codecFrameComplete die hs) s = .next t ∧ ends t 0x0040)
    ∧ (d.opcode = 3 → len % 64 = 0 → 64 ≤ len → len ≤ 2 ^ 32 - 64 → cap < 64 + 66 * (len / 64) →
      ∃ t, exec (.codecFrameComplete die hs) s = .next t ∧ ends t 0x0041)
    ∧ (d.opcode = 4 → len < 64 → ∃ t, exec (.codecFrameComplete die hs) s = .next t ∧ ends t 0x0040)
    ∧ (d.opcode = 3 → len % 64 = 0 → 64 ≤ len → len ≤ 2 ^ 32 - 64 → 64 + 66 * (len / 64) ≤ cap →
      ∀ (s₂ s₃ : State) (bs : List Byte),
        State.vReadRuns (.codec die) die d.ctx hs (runsOf (w 0 + 2 ^ 32 * w 1) len)
          (s.modDesc q n fun y => y.modItem i fun it => { it with stage := .running }) = (s₂, some (bs, 0, false)) →
        let f := codeFrame (d.w 13 / 2 ^ 8 % 16) bs ((it.entry.drop 8).take 4)
        State.vWriteRuns (.codec die) die d.ctx hs (q, n, i) (runsOf (w 2 + 2 ^ 32 * w 3) f.length) f s₂ = (s₃, true) →
        ∃ t, exec (.codecFrameComplete die hs) s = .next t ∧ t.mem = s₃.mem ∧ (t.die die).codec = ((s₃.die die).codec).drop 1)

/-- Dispatch of items and the work of the codec engine.
Rests also on choices of the model: notes/assumptions/55.md. -/
def Obligations.ItemsAndCodec : Prop := Clause.ItemDispatches ∧ Clause.CodecItems

/-- The oldest record that a completion queue holds is written at slot k mod size, word 7 with PHASE 1 while k div size is
even, when its items' STATUS words are written and the ring has room; the descriptor's fence signal follows its record
(R274, R275, R286, R298). A held error record goes to the error ring in the same way (R290). Once the write is performed the
record is held no longer and its queue's producer index counts it; a fault or error record's word 0 is written after the rest
has been performed, and the record ends with it (R252, R290).
Rests also on choices of the model: notes/assumptions/75.md. -/
def Obligations.Records : Prop :=
  (∀ (s s₁ s₂ : State) (cq a : Nat) (r : HeldRec) (rest : List HeldRec) (d e : Desc) (hs : HostMem), s.settleItems = s →
    (s.cp.cqs.get .reset cq).held = r :: rest → (s.cp.cqs.get .reset cq).writing = false → r.words.length = 8 → s.desc? r.q r.n = some d → s.procRunning (2 + d.die) = true →
    s₁ = (if d.malformed || d.poisoned then s else s.writeStatuses d hs) → s₁.desc? r.q r.n = some e → e.q = r.q → e.n = r.n →
    (e.malformed = true ∨ e.poisoned = true ∨ s₁.statusesDone e = true) → s₁.flag .QUE_CQ_CTRL_ENABLE cq = true →
    s₁.f .QUE_CQ_STATUS_STATE cq = 1 →
    let k := s.f .QUE_CQ_PRODUCER_INDEX cq
    let size := 2 ^ s.f .QUE_CQ_SETUP_SIZE_LOG2 cq
    ∀ c, (s.cp.cqs.get .reset cq).consumer = some c → (k + 2 ^ 32 - c) % 2 ^ 32 < size →
    s₁.ringAddr e.die hs (s₁.f .QUE_CQ_BASE_ADDR cq * 2048 + 32 * (k % size)) .store = (s₂, .at a) →
    s₂.desc? r.q r.n = some e → s₂.hostDead a = false →
    ∃ t h m, exec (.completionRecordWrite cq hs) s = .next t ∧ t.mem = s₂.mem ∧ t.tiles = s₂.tiles
      ∧ t.cp.cqs.get .reset cq = { s.cp.cqs.get .reset cq with writing := true } ∧ s₂.f .QUE_CQ_PRODUCER_INDEX cq = t.f .QUE_CQ_PRODUCER_INDEX cq
      ∧ t.chl.reqs = s₂.chl.reqs ++ [h] ∧ h.kind = .wrp ∧ h.addr = a ∧ h.len = 32 ∧ h.owner = .cq cq ∧ h.item = some (r.q, r.n, 0)
      ∧ m ∈ (t.port (s₂.homePort a)).out ++ ((t.port (s₂.homePort a)).queue.map (·.2)) ∧ Msg.addr m.hdr = a % 2 ^ 52
      ∧ m.data = wordBytes (r.words.take 7 ++ [nth 0 r.words 7 + (if k / size % 2 = 0 then 2 ^ 31 else 0)]))
  ∧ (∀ (s : State) (q n : Nat) (d : Desc), s.desc? q n = some d → d.stage = .performed →
    ∃ t, exec (.descriptorFenceSignal q n) s = .next t ∧ t = { s with cp := t.cp, fenceQueue := t.fenceQueue }
      ∧ t.desc? q n = none ∧ t.fenceQueue = s.fenceQueue ++ [⟨d.w 2 / 2 ^ 16 % 2 ^ 16, d.q64 6, 1, q, none⟩])
  ∧ (∀ (s s₁ : State) (a : Nat) (r : ErrRec) (rest : List ErrRec) (hs : HostMem), s.cp.errs = r :: rest →
    s.flag .QUE_ERING_SETUP_ENABLE = true → s.flag .QUE_ERING_STATUS_RING_FAULT = false → s.procRunning 2 = true →
    let k := s.f .QUE_ERING_NEXT_SEQUENCE
    let size := 2 ^ s.f .QUE_ERING_SETUP_SIZE_LOG2
    ∀ c, s.cp.errConsumer = some c → (k + 2 ^ 32 - c) % 2 ^ 32 < size → s.cp.errWriting = none →
    s.ringAddr 0 hs (s.f .QUE_ERING_BASE_ADDR * 4096 + 128 * (k % size)) .store = (s₁, .at a) → s₁.cp = s.cp →
    (∀ b ∈ [a, a + 4, a + 64], s₁.hostDead b = false) →
    ∃ t, exec (.errorRecordWrite hs) s = .next t ∧ t.mem = s₁.mem ∧ t.tiles = s₁.tiles ∧ t.cp.errs = r :: rest
      ∧ t.f .QUE_ERING_NEXT_SEQUENCE = (k + 1) % 2 ^ 32
      ∧ t.cp.errWriting = some ⟨a, k, [s₁.nextId, s₁.nextId + 1], false, s.cp.errDropped⟩
      ∧ (t.chl.reqs.drop s₁.chl.reqs.length).map (fun x => (x.kind, x.addr, x.len, x.owner)) =
          [(.wrp, a + 4, 60, .ering), (.wrl, a + 64, 0, .ering)])
  ∧ (∀ (s : State) (k cq : Nat) (hdr : BitVec 128) (h : HostReq) (r : HeldRec) (rest : List HeldRec) (d : Desc),
    Msg.type hdr.toNat = 0x20 → s.hostByTag k (Msg.tag hdr.toNat) = some h → h.kind = .wrp → h.owner = .cq cq → s.chl.later = [] →
    (s.cp.cqs.get .reset cq).held = r :: rest → s.desc? r.q r.n = some d → (s.cp.descs.map fun d => (d.q, d.n)).Nodup →
    ∃ t, exec (.chlCmp k hdr) s = .next t ∧ t.mem = s.mem ∧ t.tiles = s.tiles
      ∧ t.f .QUE_CQ_PRODUCER_INDEX cq = (s.f .QUE_CQ_PRODUCER_INDEX cq + 1) % 2 ^ 32
      ∧ t.cp.cqs.get .reset cq = { s.cp.cqs.get .reset cq with held := rest, writing := false }
      ∧ (if bit (d.w 0) 17 = true ∧ d.malformed = false ∧ d.poisoned = false then t.desc? r.q r.n = some { d with stage := .performed }
         else t.desc? r.q r.n = none)
      ∧ (s.flag .QUE_CQ_SETUP_IRQ_EN cq = false → t.chl.ports = s.chl.ports))
  ∧ (∀ (s : State) (k : Nat) (hdr : BitVec 128) (h : HostReq) (o : Owner) (w : RingWrite),
    Msg.type hdr.toNat = 0x20 → s.hostByTag k (Msg.tag hdr.toNat) = some h → h.kind = .wrl ∨ h.kind = .wrp → h.owner = o →
    s.chl.later = [] → s.ringWriting o = some w → w.ids = [h.id] → s.hostDead w.addr = false →
    (w.last = false → s.ringStopped o = false → ∃ t x, exec (.chlCmp k hdr) s = .next t ∧ t.mem = s.mem ∧ t.tiles = s.tiles
      ∧ t.chl.reqs = s.chl.reqs.filter (fun y => y.id != h.id) ++ [x] ∧ x.kind = .wrp ∧ x.addr = w.addr ∧ x.len = 4 ∧ x.owner = o
      ∧ t.ringWriting o = some { w with ids := [s.nextId], last := true })
    ∧ (w.last = true → o = .ering → ∃ t, exec (.chlCmp k hdr) s = .next t ∧ t.mem = s.mem ∧ t.tiles = s.tiles
      ∧ t.cp.errs = s.cp.errs.tail ∧ t.cp.errWriting = none ∧ t.cp.errDropped = s.cp.errDropped - w.dropped)
    ∧ (w.last = true → o = .fring → s.f .XLT_FAULTS_COUNT + 1 < 2 ^ 64 → ∃ t, exec (.chlCmp k hdr) s = .next t ∧ t.mem = s.mem
      ∧ t.tiles = s.tiles ∧ t.cp.faultWriting = none ∧ t.f .XLT_FAULTS_COUNT = s.f .XLT_FAULTS_COUNT + 1))
  ∧ (∀ s : State, ∃ t, exec .eringRingRetry s = .next t ∧ s.onlyFields t ∧ t.flag .QUE_ERING_STATUS_RING_FAULT = false
      ∧ s.fieldsBut t [(.QUE_ERING_STATUS_RING_FAULT, 0)])
  ∧ (∀ (s : State) (src : IrqSource), src ∈ s.cp.holding →
    ∃ t, exec (.interruptHoldoffExpiry src) s = .next t ∧ t.mem = s.mem ∧ t.tiles = s.tiles ∧ src ∉ t.cp.heldIrqs
      ∧ (src ∉ s.cp.heldIrqs → t = { s with cp := t.cp } ∧ src ∉ t.cp.holding))

/-! ### Chautlink (12_chautlink.md) -/

/-- The host's reads of part memory. RDS and RDO are answered with the line's 64 bytes, RDNC with the bytes it names, each
poisoned where the line carries an eyespot; RDS makes the port present in the snoop filter, RDO makes it the only one and
the owner; no byte of memory changes (R302, R307, R312, R313). -/
def Clause.HostReads : Prop :=
  ∀ (s : State) (k pa c ty : Nat) (hdr : BitVec 128), ty = 1 ∨ ty = 2 ∨ ty = 3 → HostReaches s k ty hdr.toNat pa c →
    s.blockers c (some k) (ty == 2) = [] → (ty ≠ 3 → s.victim (pa / 64) = none) →
    let line := c / 64
    let data := if ty = 3 then ((s.memBytes (64 * line) 64).drop (c % 64)).take (Msg.length hdr.toNat) else s.memBytes (64 * line) 64
    ∃ t, exec (if ty = 1 then .rds k hdr else if ty = 2 then .rdo k hdr else .rdnc k hdr) s = .next t ∧ t.mem = s.mem
      ∧ t.eyes = s.eyes ∧ t.tiles = s.tiles ∧ MsgSent s t k (Msg.Is 0x30 (Msg.tag hdr.toNat) data (s.eye line))
      ∧ (∀ l, ty = 3 ∨ l ≠ pa / 64 → t.filterAt l = s.filterAt l)
      ∧ (ty ≠ 3 → ∃ e, t.filterAt (pa / 64) = some e ∧ (if k = 0 then e.p0 else e.p1) = true
          ∧ (if ty = 2 then e.owned = true ∧ (if k = 0 then e.p1 else e.p0) = false
             else e.owned = ((s.filterAt (pa / 64)).map (·.owned)).getD false))

/-- The host's writes and atomics of part memory: WRL stores its 64 bytes and WRP those that it names, each answered with
CMP; poisoned data leave an eyespot and a clean full line clears one. An atomic at a line without an eyespot stores the
result of R186 and is answered with the old value (R186, R231, R307, R313). -/
def Clause.HostWrites : Prop :=
  (∀ (s : State) (k pa c ty : Nat) (hdr : BitVec 128) (data : List Byte), ty = 4 ∨ ty = 5 → HostReaches s k ty hdr.toNat pa c →
    s.blockers c (some k) true = [] → ¬ (2 ^ 41 ≤ pa) →
    data.length = (if ty = 4 then 64 else Msg.length hdr.toNat) →
    let line := c / 64
    ∃ t, exec (if ty = 4 then .wrl k hdr data else .wrp k hdr data) s = .next t ∧ t.tiles = s.tiles
      ∧ t.memBytes c data.length = data ∧ s.memBut t c data.length ∧ t.chl.filter = s.chl.filter
      ∧ MsgSent s t k (Msg.Is 0x20 (Msg.tag hdr.toNat) [] false)
      ∧ t.eye line = (Msg.poison hdr.toNat || (s.eye line && decide (data.length < 64))) ∧ ∀ j, j ≠ line → t.eye j = s.eye j)
  ∧ (∀ (s : State) (k pa c : Nat) (hdr : BitVec 128) (data : List Byte), HostReaches s k 6 hdr.toNat pa c →
    s.blockers c (some k) true = [] → s.eye (c / 64) = false → data.length = 16 →
    let n := if Msg.wide hdr.toNat then 8 else 4
    let old := fromLE (s.memBytes c n)
    ∃ t, exec (.chlAtom k hdr data) s = .next t ∧ t.tiles = s.tiles ∧ s.memBut t c n ∧ t.eyes = s.eyes
      ∧ fromLE (t.memBytes c n) = (atomicResult (8 * n) (Msg.atomOp hdr.toNat) (BitVec.ofNat (8 * n) old)
          (BitVec.ofNat (8 * n) (fromLE (data.take 8))) (BitVec.ofNat (8 * n) (fromLE (data.drop 8)))).toNat
      ∧ MsgSent s t k fun m => Msg.Is 0x30 (Msg.tag hdr.toNat) m.data false m ∧ fromLE (m.data.take 8) = old)

/-- The fence window, a request that must wait, and one that is refused. A WRP of 8 bytes to a slot's address signals its
fence and an RDNC of 8 reads it (R220, R309). A request to a line that another port owns, or that it takes from one that
shares it, waits, and every such holder has been snooped (R313). A request that breaks its type's rules, reaches no home, or
comes while MEM_EN is 0 gets NOHOME, CODE 1, and is counted (R309, R318). -/
def Clause.HostRequestsElsewhere : Prop :=
  (∀ (s : State) (k slot : Nat) (hdr : BitVec 128) (data : List Byte), k < 2 → s.portUp k = true → (s.port k).memEn = true →
    slot < 65536 → Msg.addr hdr.toNat = (s.port k).aperture + 2 ^ 41 + 8 * slot → Msg.length hdr.toNat = 8 → data.length = 8 →
    (Msg.requestOk 5 hdr.toNat = true → ∃ t, exec (.wrp k hdr data) s = .next t ∧ t = { s with fenceQueue := t.fenceQueue }
      ∧ t.fenceQueue = s.fenceQueue ++ [⟨slot, fromLE data, 2, k, some (k, Msg.tag hdr.toNat)⟩])
    ∧ (Msg.requestOk 3 hdr.toNat = true → ∃ t, exec (.rdnc k hdr) s = .next t ∧ t.mem = s.mem ∧ t.fenceQueue = s.fenceQueue
      ∧ MsgSent s t k (Msg.Is 0x30 (Msg.tag hdr.toNat) (toLE 8 (s.fences.get 0 slot)) false)))
  ∧ (∀ (s : State) (k pa c ty : Nat) (hdr : BitVec 128) (data : List Byte) (i : Instr),
    (ty, i, data) ∈ [(1, Instr.rds k hdr, []), (2, .rdo k hdr, []), (3, .rdnc k hdr, []), (4, .wrl k hdr data, data),
      (5, .wrp k hdr data, data), (6, .chlAtom k hdr data, data)] → HostReaches s k ty hdr.toNat pa c →
    s.blockers c (some k) (ty != 1 && ty != 3) ≠ [] →
    ∃ t, exec i s = .next t ∧ t.mem = s.mem ∧ t.eyes = s.eyes ∧ t.tiles = s.tiles ∧ t.chl.filter = s.chl.filter
      ∧ t.chl.waiting = s.chl.waiting ++ [(k, ⟨hdr.toNat, data⟩)]
      ∧ ∀ x ∈ s.blockers c (some k) (ty != 1 && ty != 3), t.snooped x.1 = true)
  ∧ (∀ (s : State) (k ty : Nat) (hdr : BitVec 128) (data : List Byte) (i : Instr),
    (ty, i) ∈ [(1, Instr.rds k hdr), (2, .rdo k hdr), (3, .rdnc k hdr), (4, .wrl k hdr data), (5, .wrp k hdr data),
      (6, .chlAtom k hdr data)] → k < 2 → s.portUp k = true →
    let a := Msg.addr hdr.toNat
    let ap := (s.port k).aperture
    Msg.requestOk ty hdr.toNat = false ∨ (s.port k).memEn = false ∨ a < ap ∨ ap + 2 ^ 42 ≤ a
      ∨ (ap ≤ a ∧ ¬ (2 ^ 41 ≤ a - ap ∧ a - ap < 2 ^ 41 + 0x80000) ∧ s.cellOf (a - ap) = none) →
    ∃ t, exec i s = .next t ∧ t.mem = s.mem ∧ t.tiles = s.tiles ∧ t.fenceQueue = s.fenceQueue ∧ t.chl.filter = s.chl.filter
      ∧ (s.f .CHL_PORT_NOHOME_COUNT k + 1 < 2 ^ 64 → t.f .CHL_PORT_NOHOME_COUNT k = s.f .CHL_PORT_NOHOME_COUNT k + 1)
      ∧ MsgSent s t k fun m => Msg.Is 0x22 (Msg.tag hdr.toNat) [] false m ∧ m.hdr / 2 ^ 108 % 2 ^ 4 = 1)

/-- Reads by the host and its requests elsewhere.
Rests also on choices of the model: notes/assumptions/45.md, notes/assumptions/49.md. -/
def Obligations.HostReadsAndRequests : Prop := Clause.HostReads ∧ Clause.HostRequestsElsewhere

/-- WB stores the host's modified line and EVICT nothing; both free the filter entry of a line that the port owns and get CMP
(R312). -/
def Clause.HostGivesUpLines : Prop :=
  ∀ (s : State) (k pa c ty : Nat) (hdr : BitVec 128) (data : List Byte), ty = 7 ∨ ty = 8 → k < 2 → s.portUp k = true →
    Msg.requestOk ty hdr.toNat = true → (s.port k).memEn = true → (s.port k).aperture % 64 = 0 → (s.port k).aperture + pa = Msg.addr hdr.toNat → pa < 2 ^ 41 →
    s.cellOf pa = some c → (∀ x ∈ s.chl.snoops, x.line ≠ pa / 64) → data.length = 64 →
    ∃ t, exec (if ty = 7 then .wb k hdr data else .evict k hdr) s = .next t ∧ t.tiles = s.tiles
      ∧ (ty = 7 → t.memBytes c 64 = data ∧ s.memBut t c 64 ∧ t.eye (c / 64) = Msg.poison hdr.toNat)
      ∧ (ty = 8 → t.mem = s.mem ∧ t.eyes = s.eyes) ∧ MsgSent s t k (Msg.Is 0x20 (Msg.tag hdr.toNat) [] false)
      ∧ t.filterAt (pa / 64) = (match s.filterAt (pa / 64) with
        | some e => if e.owned = true ∧ (if k = 0 then e.p0 else e.p1) = true then none else some e
        | none => none)
      ∧ ∀ l, l ≠ pa / 64 → t.filterAt l = s.filterAt l

/-- Writes by the host and the lines it gives up.
Rests also on choices of the model: notes/assumptions/45.md, notes/assumptions/49.md. -/
def Obligations.HostWritesAndLines : Prop := Clause.HostWrites ∧ Clause.HostGivesUpLines

/-- The host's answers to snoops, with nothing waiting behind them: ACK takes the line from the port that it was sent to,
or, where the port owned the line, leaves the snoop open until its WB; ACKD stores its data as a WB does. SNPINV is answered
with ACK, and the part then holds no copy of the line and reads it again where a command processor watched it (R270, R310,
R312, R313). -/
def Clause.SnoopAnswers : Prop :=
  (∀ (s : State) (k tag : Nat) (hdr : BitVec 128) (x : Snoop) (e : FilterEntry), k < 2 → Msg.type hdr.toNat = 0x21 →
    Msg.tag hdr.toNat = tag → s.chl.snoops.find? (fun y => y.port == k && y.tag == tag) = some x → s.filterAt x.line = some e →
    s.chl.waiting = [] → s.chl.later = [] → s.fab.heldPeers = [] → x.data = false → (s.chl.snoops.map (·.id)).Nodup →
    (e.owned = false → ∃ t, exec (.chlAck k hdr) s = .next t ∧ t.mem = s.mem ∧ t.tiles = s.tiles
      ∧ t.chl.snoops = s.chl.snoops.filter (fun y => y.id != x.id)
      ∧ t.filterAt x.line = (if (e.p0 && k != 0) || (e.p1 && k != 1) then some ⟨e.p0 && k != 0, e.p1 && k != 1, false, e.order⟩ else none)
      ∧ ∀ l, l ≠ x.line → t.filterAt l = s.filterAt l)
    ∧ (e.owned = true → ∃ t, exec (.chlAck k hdr) s = .next t ∧ t.mem = s.mem ∧ t.chl.filter = s.chl.filter
      ∧ t.chl.snoops.map (·.id) = s.chl.snoops.map (·.id) ∧ ∃ y ∈ t.chl.snoops, y.id = x.id ∧ y.wb = true))
  ∧ (∀ (s : State) (k tag c : Nat) (hdr : BitVec 128) (data : List Byte) (x : Snoop) (e : FilterEntry), k < 2 →
    Msg.type hdr.toNat = 0x31 → Msg.tag hdr.toNat = tag → s.chl.snoops.find? (fun y => y.port == k && y.tag == tag) = some x →
    s.filterAt x.line = some e → s.cellOf (64 * x.line) = some c → s.chl.waiting = [] → s.chl.later = [] → s.fab.heldPeers = [] → data.length = 64 →
    ∃ t, exec (.ackd k hdr data) s = .next t ∧ t.tiles = s.tiles ∧ t.memBytes c 64 = data ∧ s.memBut t c 64
      ∧ t.eye (c / 64) = Msg.poison hdr.toNat ∧ t.chl.snoops = s.chl.snoops.filter (fun y => y.id != x.id)
      ∧ (x.data = true → e.p0 = true ∨ e.p1 = true → t.filterAt x.line = some { e with owned := false }))
  ∧ (∀ (s : State) (k : Nat) (hdr : BitVec 128), s.portUp k = true → Msg.type hdr.toNat = 0x10 →
    ∃ t, exec (.snpinv k hdr) s = .next t ∧ t.mem = s.mem ∧ t.tiles = s.tiles
      ∧ (∀ x ∈ t.cp.lines, x.2 / 64 ≠ Msg.addr hdr.toNat / 64)
      ∧ (∀ x ∈ s.cp.lines, if x.2 / 64 = Msg.addr hdr.toNat / 64 then x.1 ∈ t.cp.stale else x ∈ t.cp.lines)
      ∧ MsgSent s t k (Msg.Is 0x21 (Msg.tag hdr.toNat) [] false))

/-- Responses to a request of the part, by its tag on the port: DATA completes a read with its bytes, CMP a write, NOHOME or
the completion limit fails it, a failed read delivering zero and the item taking HOST_ACCESS_FAILED; a timeout is counted,
and a response to no request that waits is discarded (R307, R315). No request waits for a tag. -/
def Clause.HostResponses : Prop :=
  (∀ (s : State) (k : Nat) (hdr : BitVec 128) (data : List Byte), s.chl.later = [] →
    s.chl.reqs.find? (fun x => x.port == k && x.tag == Msg.tag hdr.toNat && x.status == .waiting) = none →
    ∃ t, exec (.chlData k hdr data) s = .next t ∧ t = { s with chl := { s.chl with late := t.chl.late } })
  ∧ ∀ (s : State) (k : Nat) (hdr : BitVec 128) (r : HostReq), let tag := Msg.tag hdr.toNat
    s.chl.reqs.find? (fun x => x.port == k && x.tag == tag && x.status == .waiting) = some r → (s.chl.reqs.map (·.id)).Nodup →
    s.chl.later = [] →
    let isRead : Prop := r.kind = .rds ∨ r.kind = .rdnc ∨ r.kind = .atom
    let kept : Prop := (∃ p g, r.owner = .group p g) ∨ (∃ p q, r.owner = .stream p q) ∨ (∃ p, r.owner = .gather p) ∨ ∃ p, r.owner = .sync p
    let fails := fun (i : Instr) => ∃ t x, exec i s = .next t ∧ t.mem = s.mem ∧ t.tiles = s.tiles ∧ x ∈ t.chl.reqs
      ∧ x = { r with status := .failed, reply := List.replicate r.len 0 } ∧ (∀ y ∈ s.chl.reqs, y.id ≠ r.id → y ∈ t.chl.reqs)
      ∧ (∀ q n i d it, r.item = some (q, n, i) → s.desc? q n = some d → d.items[i]? = some it → it.code = 0 → it.stage ≠ .ended →
          ((t.desc? q n).bind (·.items[i]?)).map (·.code) = some 0x0014)
    (∀ data, Msg.type hdr.toNat = 0x30 → isRead → kept →
      ∃ t x, exec (.chlData k hdr data) s = .next t ∧ t = { s with chl := { s.chl with reqs := t.chl.reqs } } ∧ x ∈ t.chl.reqs
        ∧ x = { r with status := .done, reply := data, poison := Msg.poison hdr.toNat }
        ∧ ∀ y ∈ s.chl.reqs, y.id ≠ r.id → y ∈ t.chl.reqs)
    ∧ (∀ p who, Msg.type hdr.toNat = 0x20 → ¬ isRead → r.owner = .store p who →
      ∃ t, exec (.chlCmp k hdr) s = .next t ∧ t = { s with chl := { s.chl with reqs := t.chl.reqs } }
        ∧ t.chl.reqs = s.chl.reqs.filter fun x => x.id != r.id)
    ∧ (Msg.type hdr.toNat = 0x22 → kept → fails (.nohome k hdr))
    ∧ (kept → fails (.chlCompletionTimeout k tag)
      ∧ (s.f .CHL_PORT_TIMEOUTS_COUNT k + 1 < 2 ^ 64 → ∃ t, exec (.chlCompletionTimeout k tag) s = .next t
        ∧ t.f .CHL_PORT_TIMEOUTS_COUNT k = s.f .CHL_PORT_TIMEOUTS_COUNT k + 1))
    ∧ (∀ q, r.owner = .cq q → s.cp.errs.length < 256 →
      ∃ t, exec (.chlCompletionTimeout k tag) s = .next t ∧ t.mem = s.mem ∧ t.f .QUE_CQ_STATUS_STATE q = 2
        ∧ t.cp.errs = s.cp.errs ++ [⟨3, some (s.f .QUE_CQ_SETUP_CONTEXT q), s.time, [q + 1024 + 4096]⟩])

/-- Answers of the host to snoops and to requests of the part.
Rests also on choices of the model: notes/assumptions/76.md. -/
def Obligations.SnoopsAndResponses : Prop := Clause.SnoopAnswers ∧ Clause.HostResponses

/-- The link layer. A flit whose CRC fails is counted and discarded with every later one until the replay, NAKed once with
the last good SEQ; the next in sequence is taken, and its ACK or NAK drops what it acknowledges; eight replays in a row
without progress send the port into recovery (R304). Credits add to their channel's (R305). RETRAIN sends an UP port into
RECOVERY, a snoop unanswered for the completion limit sends its port to FAILED, cause 3, with eyespots on the lines that it
owned (R316, R318).
Rests also on choices of the model: notes/assumptions/13.md, notes/assumptions/72.md. -/
def Obligations.Ports : Prop :=
  (∀ (s : State) (k : Nat) (fl : Flit), k < 2 → s.portUp k = true →
    let p := s.port k
    let h := fl.header.toNat
    let next : Prop := h % 2 ^ 10 = (p.rxSeq + 1) % 1024
    (fl.crcOk = false → ∃ t, exec (.flitReceive k fl) s = .next t ∧ t.mem = s.mem
      ∧ t.port k = { p with discarding := true, naks := p.naks ++ [p.rxSeq] }
      ∧ (s.f .CHL_PORT_CRC_ERRORS_COUNT k + 1 < 2 ^ 64 → t.f .CHL_PORT_CRC_ERRORS_COUNT k = s.f .CHL_PORT_CRC_ERRORS_COUNT k + 1))
    ∧ (fl.crcOk = true → ¬ next → ∃ t, exec (.flitReceive k fl) s = .next t ∧ t.mem = s.mem
      ∧ t.port k = (if p.discarding then p else { p with discarding := true, naks := p.naks ++ [p.rxSeq] }))
    ∧ (fl.crcOk = true → next → bit h 20 = false → bit h 21 = false → p.queue = [] →
      ∃ t, exec (.flitReceive k fl) s = .next t ∧ t.mem = s.mem ∧ t.port k = { p with rxSeq := h % 2 ^ 10, discarding := false })
    ∧ (∀ old rest, fl.crcOk = true → next → bit h 20 = true → bit h 21 = false → p.queue = [] →
      p.unacked = old ++ [h / 2 ^ 10 % 2 ^ 10] ++ rest → h / 2 ^ 10 % 2 ^ 10 ∉ old →
      ∃ t, exec (.flitReceive k fl) s = .next t ∧ t.mem = s.mem
        ∧ t.port k = { p with rxSeq := h % 2 ^ 10, discarding := false, unacked := rest, replays := 0 })
    ∧ (fl.crcOk = true → next → bit h 21 = true → p.queue = [] → h / 2 ^ 10 % 2 ^ 10 ∉ p.unacked → p.replays = 7 →
      ∃ t, exec (.flitReceive k fl) s = .next t ∧ t.mem = s.mem ∧ t.f .CHL_PORT_STATUS_STATE k = 3
        ∧ (t.port k).unacked = p.unacked
        ∧ (s.f .CHL_PORT_REPLAYS_COUNT k + 1 < 2 ^ 64 → t.f .CHL_PORT_REPLAYS_COUNT k = s.f .CHL_PORT_REPLAYS_COUNT k + 1)))
  ∧ (∀ (s : State) (k n : Nat) (c : Channel), s.portUp k = true → (s.port k).queue = [] →
    ∃ t, exec (.credit k c n) s = .next t ∧ t = { s with chl := { s.chl with ports := t.chl.ports } }
      ∧ t.port k = { s.port k with credits := (t.port k).credits } ∧ ∀ e, (t.port k).credits.get e =
          if e = c then (s.port k).credits.get c + n else (s.port k).credits.get e)
  ∧ (∀ (s : State) (k : Nat), k < 2 →
    (s.portUp k = true → ∃ t, exec (.chlPortRetrain k) s = .next t ∧ t.mem = s.mem ∧ t.f .CHL_PORT_STATUS_STATE k = 3
      ∧ (t.port k).queue = (s.port k).queue ∧ (t.port k).unacked = (s.port k).unacked)
    ∧ (k = 1 → s.f .CHL_PORT_STATUS_STATE 1 = 4 → ∃ t, exec (.chlPortRetrain k) s = .next t ∧ s.onlyFields t
      ∧ t.f .CHL_PORT_STATUS_STATE 1 = 1 ∧ s.fieldsBut t [(.CHL_PORT_STATUS_STATE, 1)]))
  ∧ (∀ (s : State) (k : Nat) (x : Snoop), k < 2 → x ∈ s.chl.snoops → x.port = k → s.chl.waiting = [] → s.fab.heldPeers = [] →
    (s.chl.reqs.map (·.id)).Nodup → (∀ r ∈ s.chl.reqs, r.port = k → r.status = .waiting → ∃ p g, r.owner = .group p g) →
    ∃ t, exec (.snoopTimeout k) s = .next t ∧ t.mem = s.mem ∧ t.tiles = s.tiles ∧ t.f .CHL_PORT_STATUS_STATE k = 4
      ∧ t.f .CHL_PORT_STATUS_FAIL_CAUSE k = 3 ∧ (∀ y ∈ t.chl.snoops, y.port ≠ k)
      ∧ (∀ r ∈ s.chl.reqs, r.port = k → r.status = .waiting →
          ∃ r' ∈ t.chl.reqs, r'.id = r.id ∧ r'.status = .failed ∧ r'.reply = List.replicate r.len 0)
      ∧ (∀ l e, t.filterAt l = some e → (if k = 0 then e.p0 else e.p1) = false)
      ∧ ∀ l e c, s.filterAt l = some e → e.owned = true → (if k = 0 then e.p0 else e.p1) = true → s.cellOf (64 * l) = some c →
          t.eye (c / 64) = true)

/-! ### The Kyolor fabric (13_kyolor_fabric.md) -/

/-- A peer's PUT stores its bytes and is answered with ACK; a GET is answered with the bytes and a poison bit for each line
that carries an eyespot; an ATOM stores the result of R186 and is answered with the old value. One that breaks its type's
rules gets FAIL, CODE 2, one that finds no memory FAIL, CODE 1, counted (R335, R338). While the transport is off a request
from the fabric is discarded and counted (R341).
Rests also on choices of the model: notes/assumptions/47.md, notes/assumptions/57.md. -/
def Obligations.PeerRequests : Prop :=
  (∀ (s : State) (pk : Packet) (c : Nat), let h := pk.hdr.toNat
    PeerReaches s 1 h c (Pk.len h) → pk.data.length = Pk.len h →
    ∃ t, exec (.put pk) s = .next t ∧ t.tiles = s.tiles ∧ t.memBytes c (Pk.len h) = pk.data ∧ s.memBut t c (Pk.len h)
      ∧ (∀ l, t.eye l = (s.eye l && !(decide (c ≤ 64 * l) && decide (64 * l + 64 ≤ c + Pk.len h))))
      ∧ PacketOut t (Pk.AnswerTo h 8 0))
  ∧ (∀ (s : State) (pk : Packet) (c : Nat), let h := pk.hdr.toNat
    PeerReaches s 2 h c (Pk.len h) →
    ∃ t, exec (.get pk) s = .next t ∧ t.tiles = s.tiles ∧ t.mem = s.mem ∧ t.eyes = s.eyes
      ∧ PacketOut t fun x => Pk.AnswerTo h 9 0 x ∧ x.data = s.memBytes c (Pk.len h)
          ∧ ∀ i, i < 4 → bit (Pk.poison x.hdr.toNat) i = (decide (64 * (c / 64 + i) < c + Pk.len h) && s.eye (c / 64 + i)))
  ∧ (∀ (s : State) (pk : Packet) (c : Nat), let h := pk.hdr.toNat
    let n := if Pk.wide h then 8 else 4
    let old := fromLE (s.memBytes c n)
    PeerReaches s 3 h c n → pk.data.length = 16 → s.eye (c / 64) = false →
    ∃ t, exec (.fabAtom pk) s = .next t ∧ t.tiles = s.tiles ∧ s.memBut t c n ∧ t.eyes = s.eyes
      ∧ fromLE (t.memBytes c n) = (atomicResult (8 * n) (Pk.op h) (BitVec.ofNat (8 * n) old)
          (BitVec.ofNat (8 * n) (fromLE (pk.data.take 8))) (BitVec.ofNat (8 * n) (fromLE (pk.data.drop 8)))).toNat
      ∧ PacketOut t fun x => Pk.AnswerTo h 9 0 x ∧ fromLE (x.data.take 8) = old)
  ∧ (∀ (s : State) (pk : Packet) (ty : Nat) (i : Instr), (ty, i) ∈ [(1, Instr.put pk), (2, .get pk), (3, .fabAtom pk)] →
    let h := pk.hdr.toNat
    Pk.type h = ty → Pk.source h ≠ s.endpoint →
    (s.fabOn = false → s.f .FAB_UNROUTABLE_COUNT + 1 < 2 ^ 64 → ∃ t, exec i s = .next t ∧ s.onlyFields t
      ∧ s.fieldsBut t [(.FAB_UNROUTABLE_COUNT, 0)] ∧ t.f .FAB_UNROUTABLE_COUNT = s.f .FAB_UNROUTABLE_COUNT + 1)
    ∧ (s.fabOn = true → s.fab.heldPeers = [] → (∃ j, s.route (Pk.source h) = some j ∧ s.dirAlive j = true) →
      (Pk.requestOk h = false → ∃ t, exec i s = .next t ∧ t.mem = s.mem ∧ t.tiles = s.tiles ∧ PacketOut t (Pk.AnswerTo h 10 2))
      ∧ (Pk.requestOk h = true → s.cellOf (Pk.addr h) = none → s.f .FAB_RX_FAILED_COUNT + 1 < 2 ^ 64 →
        ∃ t, exec i s = .next t ∧ t.mem = s.mem ∧ t.tiles = s.tiles ∧ PacketOut t (Pk.AnswerTo h 10 1)
          ∧ t.f .FAB_RX_FAILED_COUNT = s.f .FAB_RX_FAILED_COUNT + 1)))

/-- Responses to this part's requests, matched by source, entry and generation. An ACK performs its PUT once every earlier
PUT of its flow is performed; DATA completes a GET or ATOM; FAIL fails it, a read returning zero, and advances the entry's
generation; any other is discarded and counted (R338, R339). -/
def Obligations.FabricResponses : Prop :=
  ∀ (s : State) (pk : Packet) (r : FabReq), let h := pk.hdr.toNat
    s.fabOn = true → (∀ x ∈ s.fab.reqs, x.sent = true) → (s.fab.reqs.map (·.id)).Nodup →
    let flow := s.fab.reqs.filter fun x => x.dest == r.dest && (Pk.type x.pk.hdr.toNat != 2 && Pk.type x.pk.hdr.toNat != 3)
    let rt := Pk.type r.pk.hdr.toNat
    (s.matchFab h = some r → Pk.type h = 8 → rt = 1 → ∀ rest, flow = r :: rest → (∀ x ∈ rest, x.acked = false) →
      ∃ t, exec (.fabAck pk) s = .next t ∧ t.mem = s.mem ∧ t.tiles = s.tiles ∧ t.fab.reqs = s.fab.reqs.filter (·.id != r.id))
    ∧ (s.matchFab h = some r → Pk.type h = 8 → rt = 1 → ∀ x rest, flow = x :: rest → x.acked = false → x.id ≠ r.id →
      ∃ t, exec (.fabAck pk) s = .next t ∧ t.mem = s.mem ∧ t.tiles = s.tiles ∧ { r with acked := true } ∈ t.fab.reqs
        ∧ t.fab.reqs.map (·.id) = s.fab.reqs.map (·.id))
    ∧ (s.matchFab h = some r → Pk.type h = 9 → rt = 2 ∨ rt = 3 → (∃ p g, r.owner = .group p g) →
      ∃ t, exec (.fabData pk) s = .next t ∧ t = { s with fab := { s.fab with reqs := t.fab.reqs } }
        ∧ { r with status := .done, reply := pk.data, poison := decide (Pk.poison h ≠ 0) } ∈ t.fab.reqs
        ∧ ∀ x ∈ s.fab.reqs, x.id ≠ r.id → x ∈ t.fab.reqs)
    ∧ (s.matchFab h = some r → Pk.type h = 10 → rt = 2 ∨ rt = 3 → (∃ p g, r.owner = .group p g) →
      (∀ x ∈ flow, x.acked = false) →
      ∃ t, exec (.fail pk) s = .next t ∧ t.mem = s.mem ∧ t.tiles = s.tiles
        ∧ { r with status := .failed, reply := List.replicate (Pk.len r.pk.hdr.toNat) 0 } ∈ t.fab.reqs
        ∧ t.fab.gens.get 0 (r.io * 4096 + r.entry) = (r.gen + 1) % 4
        ∧ ∀ q n i d it, r.item = some (q, n, i) → s.desc? q n = some d → d.items[i]? = some it → it.code = 0 → it.stage ≠ .ended →
            ((t.desc? q n).bind (·.items[i]?)).map (·.code) = some (if Pk.code h = 3 then 0x0022 else 0x0011))
    ∧ (s.matchFab h = none → s.f .FAB_LATE_RESPONSES_COUNT + 1 < 2 ^ 64 →
      ∀ i, (Pk.type h = 8 ∧ i = Instr.fabAck pk) ∨ (Pk.type h = 9 ∧ i = .fabData pk) ∨ (Pk.type h = 10 ∧ i = .fail pk) →
      ∃ t, exec i s = .next t ∧ s.onlyFields t ∧ s.fieldsBut t [(.FAB_LATE_RESPONSES_COUNT, 0)]
        ∧ t.f .FAB_LATE_RESPONSES_COUNT = s.f .FAB_LATE_RESPONSES_COUNT + 1)

/-- A request that has waited too long declares its destination dead: its FAB_DEAD bit is set, and no request of the part to
it is left waiting, while requests to others keep what they have (R341, R342). A write of 1 to the bit clears it (R343). -/
def Clause.DeadDestinations : Prop :=
  (∀ (s : State) (io entry : Nat) (r : FabReq),
    s.fab.reqs.find? (fun r => r.sent && r.io == io && r.entry == entry && r.status == .waiting && !r.acked) = some r →
    (s.fab.reqs.map (·.id)).Nodup →
    ∃ t, exec (.destDeadTimeout io entry) s = .next t ∧ t.mem = s.mem ∧ t.isDead r.dest = true
      ∧ (∀ x ∈ t.fab.reqs, x.dest = r.dest → x.status ≠ .waiting) ∧ (∀ x ∈ s.fab.reqs, x.dest ≠ r.dest →
          ∃ y ∈ t.fab.reqs, y.id = x.id ∧ y.dest = x.dest ∧ y.status = x.status ∧ (x.sent = true → y = x))
      ∧ (∀ e, e ≠ r.dest → t.isDead e = s.isDead e)
      ∧ (s.f .FAB_DEAD_DECLARED_COUNT + 1 < 2 ^ 64 → t.f .FAB_DEAD_DECLARED_COUNT = s.f .FAB_DEAD_DECLARED_COUNT + 1))
  ∧ (∀ (s : State) (e : BitVec 18), ∃ t, exec (.fabDeadClear e) s = .next t ∧ s.onlyFields t ∧ t.isDead e.toNat = false
      ∧ ∀ d, d ≠ e.toNat → t.isDead d = s.isDead d)

/-- The states of a link that holds no unacknowledged frame (R327): enabling starts its training, whose end gives the peer's
endpoint and link, the credits of R324 and UP, or DOWN with cause 1; RETRAIN of an UP link, and back to UP; four attempts
that fail lead to DOWN with cause 2; a DOWN link that is enabled trains again; disabling leads to DISABLED. Frames that are
not acknowledged are kept through RETRAIN. -/
def Clause.LinkStates : Prop :=
  ∀ (s : State) (l : Nat), s.variant.hasLink l = true → s.fab.queue = [] →
    let k := s.link l
    (s.linkState l = 0 → ∃ t, exec (.linkEnable l) s = .next t ∧ s.onlyFields t ∧ t.linkState l = 2
      ∧ t.flag .FAB_LINK_CTRL_ENABLE l = true ∧ s.fieldsBut t [(.FAB_LINK_CTRL_ENABLE, l), (.FAB_LINK_STATUS_STATE, l)])
    ∧ (s.linkState l ≠ 0 → k.unacked = [] → ∃ t, exec (.linkDisable l) s = .next t ∧ t.mem = s.mem ∧ t.linkState l = 0
      ∧ t.flag .FAB_LINK_CTRL_ENABLE l = false
      ∧ (s.linkState l = 3 ∨ s.linkState l = 4 → t.flag .FAB_LINK_STATUS_WENT_DOWN l = true))
    ∧ (s.linkState l = 3 → ∃ t, exec (.fabLinkRetrain l) s = .next t ∧ t.mem = s.mem ∧ t.linkState l = 4
      ∧ (t.link l).unacked = k.unacked
      ∧ (s.f .FAB_LINK_RETRAINS_COUNT l + 1 < 2 ^ 64 → t.f .FAB_LINK_RETRAINS_COUNT l = s.f .FAB_LINK_RETRAINS_COUNT l + 1))
    ∧ (∀ e n sp, s.linkState l = 2 → s.power.vcblOff.get false (l / 4) = false →
      ∃ t, exec (.linkTrainingComplete l (some (e, n, sp))) s = .next t ∧ t.mem = s.mem ∧ t.linkState l = 3
        ∧ t.f .FAB_LINK_PEER_PEER_ENDPOINT l = e.toNat ∧ t.f .FAB_LINK_PEER_PEER_LINK l = n.toNat
        ∧ t.flag .FAB_LINK_PEER_PEER_VALID l = true ∧ t.flag .FAB_LINK_STATUS_SPARE_OK l = sp
        ∧ (t.link l).credits = ⟨1024, 1024, 512, 512⟩ ∧ (t.link l).unacked = [])
    ∧ (s.linkState l = 2 → k.unacked = [] → ∃ t, exec (.linkTrainingComplete l none) s = .next t ∧ t.mem = s.mem ∧ t.linkState l = 1
      ∧ t.f .FAB_LINK_STATUS_DOWN_CAUSE l = 1)
    ∧ (∀ x, s.linkState l = 4 → s.power.vcblOff.get false (l / 4) = false →
      ∃ t, exec (.linkTrainingComplete l (some x)) s = .next t ∧ t.mem = s.mem ∧ t.linkState l = 3
        ∧ (t.link l).unacked = k.unacked ∧ (t.link l).attempts = 0)
    ∧ (s.linkState l = 4 → k.attempts < 3 → ∃ t, exec (.retrainAttemptTimeout l) s = .next t ∧ t.mem = s.mem ∧ t.linkState l = 4
      ∧ t.link l = { k with attempts := k.attempts + 1 })
    ∧ (s.linkState l = 4 → k.attempts = 3 → k.unacked = [] → ∃ t, exec (.retrainAttemptTimeout l) s = .next t ∧ t.mem = s.mem
      ∧ t.linkState l = 1 ∧ t.f .FAB_LINK_STATUS_DOWN_CAUSE l = 2 ∧ t.flag .FAB_LINK_STATUS_WENT_DOWN l = true)
    ∧ (s.linkState l = 1 → s.flag .FAB_LINK_CTRL_ENABLE l = true → ∃ t, exec (.linkDownRetry l) s = .next t ∧ s.onlyFields t
      ∧ t.linkState l = 2 ∧ s.fieldsBut t [(.FAB_LINK_STATUS_STATE, l)])

/-- Frames and lanes of an UP link. A frame whose CRC fails is counted and NAKed with the last good SEQ; the next in sequence
brings its credits and drops what it acknowledges (R323, R324). A failing lane brings in the good spare lane; a second
failing lane of the direction sends the link DOWN with cause 3, two lanes without lock send it into RETRAIN (R325 to R327).
Rests also on choices of the model: notes/assumptions/13.md, notes/assumptions/15.md. -/
def Obligations.FramesAndLanes : Prop :=
  ∀ (s : State) (l : Nat), s.linkState l = 3 → s.fab.queue = [] →
    let k := s.link l
    (∀ f : Frame, f.fec = [] →
      let h := f.header.toNat
      let c := f.credits.toNat
      let next : Prop := h % 2 ^ 12 = (k.rxSeq + 1) % 4096
      (f.crcOk = false → ∃ t, exec (.frameReceive l f) s = .next t ∧ t.mem = s.mem
        ∧ t.link l = { k with discarding := true, naks := k.naks ++ [k.rxSeq] }
        ∧ (s.f .FAB_LINK_CRC_ERRORS_COUNT l + 1 < 2 ^ 64 → t.f .FAB_LINK_CRC_ERRORS_COUNT l = s.f .FAB_LINK_CRC_ERRORS_COUNT l + 1))
      ∧ (f.crcOk = true → next → bit h 25 = false → h / 2 ^ 26 % 4 = 0 → f.packets = [] →
        (bit h 24 = true → ∃ old, k.unacked.map (·.1) = old ++ [h / 2 ^ 12 % 2 ^ 12] ++ (k.unacked.map (·.1)).drop (old.length + 1)
          ∧ h / 2 ^ 12 % 2 ^ 12 ∉ old) →
        ∃ t, exec (.frameReceive l f) s = .next t ∧ t.mem = s.mem ∧ (t.link l).rxSeq = h % 2 ^ 12 ∧ (t.link l).discarding = false
          ∧ (t.link l).credits = ⟨k.credits.req0 + c % 2 ^ 8, k.credits.req1 + c / 2 ^ 8 % 2 ^ 8, k.credits.rsp0 + c / 2 ^ 16 % 2 ^ 8,
              k.credits.rsp1 + c / 2 ^ 24 % 2 ^ 8⟩
          ∧ (bit h 24 = false → (t.link l).unacked = k.unacked)
          ∧ (bit h 24 = true → ∃ old, k.unacked = old ++ (t.link l).unacked ∧ (old.map (·.1)).getLast? = some (h / 2 ^ 12 % 2 ^ 12))))
    ∧ (∀ lane, lane < 4 → k.rx.lost = [] → k.rx.spared = none → k.rx.bringing = none → k.spareOk = true →
      ∃ t, exec (.laneLockLoss l true lane) s = .next t ∧ t.mem = s.mem ∧ t.linkState l = 3
        ∧ t.link l = { k with rx := { k.rx with lost := [lane], bringing := some lane } })
    ∧ (∀ lane other, lane < 4 → k.rx.lost = [other] → other ≠ lane →
      ∃ t, exec (.laneLockLoss l true lane) s = .next t ∧ t.mem = s.mem ∧ t.linkState l = 4 ∧ (t.link l).unacked = k.unacked)
    ∧ (∀ lane corrected uncorrectable, lane < 4 → k.tx.spared = none → k.tx.bringing = none → k.spareOk = true →
      ((2 ^ s.f .FAB_SETUP_SPARE_LOG2 < corrected ∨ (0 < uncorrectable ∧ lane ∈ k.tx.bad)) →
        ∃ t, exec (.fecWindowEnd l false lane corrected uncorrectable) s = .next t ∧ t.mem = s.mem ∧ t.linkState l = 3
          ∧ (t.link l).tx.bringing = some lane)
      ∧ (corrected ≤ 2 ^ s.f .FAB_SETUP_SPARE_LOG2 → lane ∉ k.tx.bad →
        ∃ t, exec (.fecWindowEnd l false lane corrected uncorrectable) s = .next t ∧ t = { s with fab := { s.fab with links := t.fab.links } }
          ∧ (t.link l).tx.bringing = none ∧ (lane ∈ (t.link l).tx.bad ↔ 0 < uncorrectable)))
    ∧ (∀ lane a uncorrectable corrected, lane < 4 → k.rx.spared = some a → a ≠ lane → k.rx.bringing = none → k.unacked = [] →
      2 ^ s.f .FAB_SETUP_SPARE_LOG2 < corrected →
      ∃ t, exec (.fecWindowEnd l true lane corrected uncorrectable) s = .next t ∧ t.mem = s.mem ∧ t.linkState l = 1
        ∧ t.f .FAB_LINK_STATUS_DOWN_CAUSE l = 3)

/-- A write of FAB_SETUP with ENABLE 1 starts the transport where the five conditions of R330 hold, else ENABLE stays 0 and
SETUP_ERROR is set; SPARE_LOG2 is clamped to 8 to 24; a locked part ignores the write. -/
def Clause.FabricSetup : Prop :=
  ∀ (s : State) (v : BitVec 32),
    let e := v.toNat % 2 ^ 18
    let named := fun j l => bit (s.f .FAB_DIR_LINKS j) l = true
    let ok : Prop := s.partsN ≤ 262080 ∧ e < s.partsN
      ∧ (∀ j l m, j < 12 → l < 36 → m < 36 → named j l → named j m → s.variant.hasLink l = true ∧ l / 9 = m / 9)
      ∧ (∀ i j l, i < 12 → j < 12 → l < 36 → named i l → named j l → i = j)
      ∧ (∀ j l, j < 12 → l < 36 → s.dims.length ≤ j / 2 → ¬ named j l)
      ∧ ∀ d, d < 6 → s.dims.length ≤ d → s.f .FAB_DIM_SIZE d = 0
    (s.flag .CLK_LOCK_SETUP_LOCK = true → exec (.fabSetupEnable v) s = .next s)
    ∧ (s.flag .CLK_LOCK_SETUP_LOCK = false → ∃ t, exec (.fabSetupEnable v) s = .next t ∧ s.onlyFields t
      ∧ t.f .FAB_SETUP_ENDPOINT = e ∧ t.f .FAB_SETUP_SPARE_LOG2 = min 24 (max 8 (v.toNat / 2 ^ 19 % 2 ^ 5))
      ∧ (v.toNat / 2 ^ 18 % 2 = 0 → t.flag .FAB_SETUP_ENABLE = false ∧ t.fabOn = false)
      ∧ (v.toNat / 2 ^ 18 % 2 = 1 → ok → t.flag .FAB_SETUP_ENABLE = true ∧ t.fabOn = true)
      ∧ (v.toNat / 2 ^ 18 % 2 = 1 → ¬ ok → t.flag .FAB_SETUP_ENABLE = false ∧ t.flag .FAB_STATUS_SETUP_ERROR = true)
      ∧ s.fieldsBut t [(.FAB_SETUP_ENDPOINT, 0), (.FAB_SETUP_SPARE_LOG2, 0), (.FAB_SETUP_COLL_LIMIT_LOG2, 0), (.FAB_SETUP_ENABLE, 0),
          (.FAB_STATUS_RUNNING, 0), (.FAB_STATUS_SETUP_ERROR, 0)])

/-- The set-up of the fabric endpoint, its dead destinations and the states of its links.
Rests also on choices of the model: notes/assumptions/43.md. -/
def Obligations.FabricSetupAndStates : Prop := Clause.FabricSetup ∧ Clause.DeadDestinations ∧ Clause.LinkStates

/-- Routing brings every packet home: for two parts of the fabric's shape, a part has no direction exactly for itself; else
its direction is that of the lowest dimension in which the coordinates differ, and the neighbour there is one step nearer,
on a ring the shorter way round (R329, R331). -/
def Obligations.RoutesConverge : Prop :=
  ∀ (s : State) (dest : Nat), s.endpoint < s.partsN → dest < s.partsN →
    let own := State.coords s.dims s.endpoint
    let dst := State.coords s.dims dest
    let dist := fun (wrap : Bool) (n a b : Nat) =>
      if wrap then min ((b + n - a) % n) ((a + n - b) % n) else if a < b then b - a else a - b
    (s.route dest = none ↔ dest = s.endpoint)
    ∧ ∀ j, s.route dest = some j →
      let d := j / 2
      let n := nth 1 s.dims d
      let a := nth 0 own d
      let b := nth 0 dst d
      let a' := if j % 2 = 0 then (a + 1) % n else (a + n - 1) % n
      let wrap := s.flag .FAB_DIM_WRAP d
      d < s.dims.length ∧ a ≠ b ∧ (∀ i, i < d → nth 0 own i = nth 0 dst i) ∧ dist wrap n a' b + 1 = dist wrap n a b
      ∧ (wrap = false → (j % 2 = 0 ↔ a < b)) ∧ (wrap = true → (j % 2 = 0 ↔ (b + n - a) % n ≤ n - (b + n - a) % n))

/-- Combining a chunk under INT32 gives, in whatever order the engine takes the contributions, the sum modulo 2^32 of each
element under SUM, and its smallest or largest value under MIN and MAX (R346).
Rests also on choices of the model: notes/assumptions/58.md. -/
def Obligations.CollectiveElements : Prop :=
  ∀ (s : State) (ds : List (List Byte)) (e : Nat), ds ≠ [] → (∀ d ∈ ds, d.length = 64) → e < 16 →
    let elem := fun (d : List Byte) => fromLE ((d.drop (4 * e)).take 4)
    let out := fun op => elem (s.combineChunks op 0 ds).2
    let val := fun (x : Nat) => (BitVec.ofNat 32 x).toInt
    out 0 = (ds.map elem).sum % 2 ^ 32
    ∧ (out 1 ∈ ds.map elem ∧ ∀ d ∈ ds, val (out 1) ≤ val (elem d))
    ∧ (out 2 ∈ ds.map elem ∧ ∀ d ∈ ds, val (elem d) ≤ val (out 2))

/-- Collective groups. Enabling one checks R344. A local PUT of one chunk to an enabled group counts toward its chunk and is
acknowledged; one that breaks R345 fails with SYNC_MISMATCH. A child's partial counts in the same way and gets ACK, one of
another round FAIL, CODE 3. A round that holds something fails with CAUSE 1 at its limit; one whose chunks are all written
and performed writes its status line, raises ROUND and signals its fence (R344 to R348).
Rests also on choices of the model: notes/assumptions/48.md, notes/assumptions/58.md. -/
def Obligations.CollectiveGroups : Prop :=
  (∀ (s : State) (g : Nat), g < 64 → s.flag .FAB_COLL_SETUP_ENABLE g = false →
    let io := s.f .FAB_COLL_SETUP_IO_DIE g
    let chunks := s.f .FAB_COLL_SETUP_CHUNKS g
    let children := s.f .FAB_COLL_SETUP_CHILDREN g
    let used := (((List.range 64).filter fun k => s.flag .FAB_COLL_SETUP_ENABLE k && s.f .FAB_COLL_SETUP_IO_DIE k == io).map
      fun k => 128 * s.f .FAB_COLL_SETUP_CHUNKS k).sum
    let ok : Prop := s.variant.hasIo io = true ∧ 1 ≤ chunks ∧ chunks ≤ 16384 ∧ s.f .FAB_COLL_SETUP_LOCAL g + children ≠ 0
      ∧ children ≤ 12 ∧ (s.flag .FAB_COLL_SETUP_ROOT g = true ∨ s.f .FAB_COLL_SETUP_PARENT g < s.partsN)
      ∧ used + 128 * chunks ≤ 8 * 2 ^ 20
    (ok → ∃ t, exec (.fabCollEnable g) s = .next t ∧ t.mem = s.mem ∧ t.flag .FAB_COLL_SETUP_ENABLE g = true
      ∧ t.round g false = .reset ∧ t.round g true = .reset ∧ s.fieldsBut t [(.FAB_COLL_SETUP_ENABLE, g)])
    ∧ (¬ ok → ∃ t, exec (.fabCollEnable g) s = .next t ∧ s.onlyFields t ∧ t.flag .FAB_COLL_STATUS_SETUP_ERROR g = true
      ∧ s.fieldsBut t [(.FAB_COLL_STATUS_SETUP_ERROR, g)]))
  ∧ (∀ (s : State) (g addr : Nat) (data : List Byte) (r : FabReq) (p : Nat) (who : List (Nat × Nat)),
    s.fab.reqs.find? (fun r => r.dest == 0x3FFC0 + g && r.status == .waiting && Pk.addr r.pk.hdr.toNat == addr && r.pk.data == data)
      = some r → r.owner = .store p who → Pk.type r.pk.hdr.toNat = 1 → data.length = 64 →
    let c := addr % 2 ^ 20 / 64
    let parity := bit addr 20
    let ok : Prop := g < 64 ∧ s.flag .FAB_COLL_SETUP_ENABLE g = true ∧ addr < 2 ^ 21 ∧ addr % 64 = 0 ∧ c < s.f .FAB_COLL_SETUP_CHUNKS g
    let held := ((s.round g parity).chunks.get .reset c).parts
    (ok → (held.filter (·.source.isNone)).length + 1 < s.f .FAB_COLL_SETUP_LOCAL g →
      (∀ y ∈ held, y.agent ≠ some (p, (who.head?.map (·.1)).getD 0)) →
      ∃ t, exec (.collectiveContribution g addr data) s = .next t ∧ t.mem = s.mem ∧ t.tiles = s.tiles
        ∧ t.fab.reqs = s.fab.reqs.filter (·.id != r.id) ∧ (t.round g parity).opened = true
        ∧ ((t.round g parity).chunks.get .reset c).parts.map (fun x => (x.source, x.data)) =
            held.map (fun x => (x.source, x.data)) ++ [(none, data)])
    ∧ (¬ ok → r.sent = false → ∃ t, exec (.collectiveContribution g addr data) s = .next t ∧ t.mem = s.mem
      ∧ t.fab.reqs = s.fab.reqs.filter (·.id != r.id) ∧ t.fab.even = s.fab.even ∧ t.fab.odd = s.fab.odd
      ∧ ∀ q n i d it, r.item = some (q, n, i) → s.desc? q n = some d → d.items[i]? = some it → it.code = 0 → it.stage ≠ .ended →
          ((t.desc? q n).bind (·.items[i]?)).map (·.code) = some 0x0022))
  ∧ (∀ (s : State) (pk : Packet) (j : Nat), let h := pk.hdr.toNat
    let g := Pk.coll h
    let a := Pk.addr h
    let parity := bit a 20
    let c := a % 2 ^ 20 / 64
    Pk.type h = 4 → Pk.requestOk h = true → Pk.code h = 0 → s.fabOn = true → Pk.source h ≠ s.endpoint →
    s.route (Pk.source h) = some j → s.dirAlive j = true → s.flag .FAB_COLL_SETUP_ENABLE g = true → Pk.len h = 64 → a % 64 = 0 →
    c < s.f .FAB_COLL_SETUP_CHUNKS g → Pk.source h ∈ s.collChildren g → pk.data.length = 64 →
    let held := ((s.round g parity).chunks.get .reset c).parts
    (held.filter (·.source.isNone)).length < s.f .FAB_COLL_SETUP_LOCAL g →
    (a / 2 ^ 21 = s.openRound g parity % 2 ^ 20 → ∃ t, exec (.cput pk) s = .next t ∧ t.mem = s.mem ∧ t.tiles = s.tiles
      ∧ PacketOut t (Pk.AnswerTo h 8 0)
      ∧ ((t.round g parity).chunks.get .reset c).parts = held ++ [⟨c, some (Pk.source h), none, pk.data⟩])
    ∧ (a / 2 ^ 21 ≠ s.openRound g parity % 2 ^ 20 → ∃ t, exec (.cput pk) s = .next t ∧ t.mem = s.mem ∧ t.tiles = s.tiles
      ∧ PacketOut t (Pk.AnswerTo h 10 3) ∧ t.round g parity = s.round g parity))
  ∧ (∀ (s : State) (g : Nat) (parity : Bool), (s.round g parity).opened = true → (s.round g parity).cause = 0 →
    ∃ t, exec (.collectiveRoundTimeout g parity) s = .next t ∧ t.mem = s.mem ∧ t.round g parity = { s.round g parity with cause := 1 }
      ∧ t.round g (!parity) = s.round g (!parity))
  ∧ (∀ (s : State) (g c : Nat) (parity : Bool), g < 64 → s.flag .FAB_COLL_SETUP_ENABLE g = true →
    let n := s.f .FAB_COLL_ROUND_ROUND g
    let r := s.round g parity
    let pa := s.f .FAB_COLL_RESULT_RESULT g * 64 + (2 * s.f .FAB_COLL_SETUP_CHUNKS g * 64 + 64 * (n % 2))
    (n % 2 = 1 ↔ parity = true) → r.cause = 0 → r.status = false → r.held = [] → n + 1 < 2 ^ 64 →
    (∀ k x, r.chunks.get .reset k = x → (x.result ≠ none ∨ k < s.f .FAB_COLL_SETUP_CHUNKS g) → x.written = true) →
    s.chl.snoops = [] → s.cellOf pa = some c → s.serves c = true → (∀ l ∈ s.aliases c, s.filterAt l = none) →
    ∃ t, exec (.collectiveRoundComplete g parity) s = .next t ∧ t.tiles = s.tiles ∧ s.memBut t c 64
      ∧ t.memBytes c 64 = toLE 8 n ++ List.replicate 56 0 ∧ t.f .FAB_COLL_ROUND_ROUND g = n + 1
      ∧ t.flag .FAB_COLL_STATUS_ERROR g = s.flag .FAB_COLL_STATUS_ERROR g
      ∧ t.fenceQueue = s.fenceQueue ++ (if s.flag .FAB_COLL_FENCE_SIGNAL_EN g then [⟨s.f .FAB_COLL_FENCE_SLOT g, n + 1, 3, g, none⟩] else []))

/-- LOAD. The mailbox command in progress ends with BAD_COMMAND, UNIT_ABSENT, PREREQUISITE or FETCH_FAILED under R353, R354
and R369, and nothing else changes; else the ROM holds the image in its staging memory and goes on (R353).
Rests also on choices of the model: notes/assumptions/9.md, notes/assumptions/65.md. -/
def Obligations.ImageFetches : Prop :=
  ∀ (s : State) (image : Option (List Byte)), s.running = true → s.sec.busy = some 1 → s.sec.dirty = false → s.sec.staging = none →
    let i := s.secArg 0 % 32
    let addr := s.secArg 2 + s.secArg 3 * 2 ^ 32
    let len := s.secArg 4
    let bad : Prop := 21 < i ∨ addr % 64 ≠ 0
    let absent : Prop := s.procPresent i = false
    let early : Prop := 2 ≤ i ∧ i < 10 ∧ ∃ d, d < s.variant.dies ∧ s.procRunning (10 + d) = false
    let ends := fun (n : Nat) => ∃ t, exec (.load image) s = .next t ∧ SecEnds s t n
      ∧ t = { s with sec := t.sec, fields := t.fields } ∧ s.fieldsBut t [(.SEC_MBX_STATUS_BUSY, 0), (.SEC_MBX_STATUS_DONE, 0), (.SEC_MBX_STATUS_STATUS, 0)]
    (bad → ends 1) ∧ (¬ bad → absent → ends 2) ∧ (¬ bad → ¬ absent → early → ends 6)
    ∧ (¬ bad → ¬ absent → ¬ early → image = none → ends 3)
    ∧ (∀ bs, ¬ bad → ¬ absent → ¬ early → image = some bs → bs.length = len → len ≤ 2097152 → s.fetchable addr len = true →
      exec (.load image) s = .next { s with sec := { s.sec with staging := some bs } })

/-- IMAGE_CHECK. The verdict is that of Table Signature verdicts. An image that is started extends its digest into the
measurement register of its processor, which then runs its code from ENTRY, any watchdog flag of a running one cleared; one
that is not started leaves registers and processors alone. Both are logged, counted and end the command (R352, R354 to R357).
Rests also on choices of the model: notes/assumptions/17.md, notes/assumptions/56.md. -/
def Obligations.ImageVerdicts : Prop :=
  ∀ (s : State) (img : List Byte), s.sec.busy = some 1 → s.sec.staging = some img → s.sec.dirty = false → s.secArg 0 % 32 < 22 →
    s.f .SEC_LOADS_COUNT + 1 < 2 ^ 64 → s.f .SEC_REJECTS_COUNT + 1 < 2 ^ 64 → s.sec.log.length < 1024 →
    let i := s.secArg 0 % 32
    let kind := if i = 0 then 1 else if i = 1 then 2 else if i < 10 then 3 else if i < 18 then 4 else 5
    let word := fun w => fromLE ((img.drop (4 * w)).take 4)
    let signed := word 3 % 2 = 1
    let code := word 4
    let modulus := (img.drop 64).take 512
    let body := img.take (640 + code)
    let known : Prop := Config.sha512 modulus = Config.vendorDigest
      ∨ (s.fuses.ownerWritten = true ∧ digestBytes (Config.sha512 modulus) = s.fuses.ownerDigest)
    let good := Config.signatureValid img modulus = true
    let malformed : Prop := img.length < 640 ∨ word 0 ≠ 0xD1F7 + 2 ^ 16 + kind * 2 ^ 24 ∨ word 1 = 0 ∨ 1 < word 3
      ∨ (∃ w, ((6 ≤ w ∧ w < 16) ∨ (145 ≤ w ∧ w < 160)) ∧ word w ≠ 0)
      ∨ code % 64 ≠ 0 ∨ code < 64
      ∨ (if i = 1 then 1048576 else if i < 10 then 524288 else 262144) < code
      ∨ word 5 % 4 ≠ 0 ∨ code ≤ word 5 ∨ (signed ∧ word 144 ≠ 65537)
      ∨ (signed ∧ img.length ≠ 640 + code + 512) ∨ (¬ signed ∧ img.length ≠ 640 + code)
    ∃ t v, exec .imageCheck s = .next t ∧ t.f .SEC_MBX_STATUS_VERDICT = v ∧ s.sameMem t ∧ t.tiles = s.tiles
      ∧ (malformed → v = 6) ∧ (¬ malformed → ¬ signed → v = 3) ∧ (¬ malformed → signed → ¬ known → v = 5)
      ∧ (¬ malformed → signed → known → ¬ good → v = 4)
      ∧ (¬ malformed → signed → good → Config.sha512 modulus = Config.vendorDigest → v = 1)
      ∧ (¬ malformed → signed → good → known → Config.sha512 modulus ≠ Config.vendorDigest → v = 2)
      ∧ let started : Prop := v = 1 ∨ v = 2 ∨ (s.fuses.signedBlown = false ∧ v ≠ 6)
        let digest := if v = 6 then rep 64 0 else digestBytes (Config.sha512 body)
        (∃ e, t.sec.log = s.sec.log ++ [e] ∧ e.length = 128 ∧ (e.drop 32).take 64 = digest
          ∧ fromLE (e.take 4) = s.f .SEC_LOG_COUNT_COUNT % 2 ^ 32
          ∧ bit (fromLE ((e.drop 4).take 4)) 16 = decide started)
        ∧ (started → SecEnds s t 0 ∧ t.sec.procs.get ⟨[], 0⟩ i = ⟨(img.drop 640).take code, word 5⟩
          ∧ t.f .SEC_PROC_STATUS_STATE i = 2 ∧ t.f .SEC_PROC_STATUS_VERDICT i = v ∧ t.f .SEC_PROC_ABI_ABI_ID i = word 1
          ∧ t.mr kind = Config.sha512 (digestBytes (s.mr kind) ++ digest) ∧ (∀ k, k ≠ kind → t.mr k = s.mr k)
          ∧ (s.procRunning i = true → t.flag .SEC_PROC_STATUS_WATCHDOG i = false)
          ∧ (i = 1 → s.running = true → t.mgt.waiting = [] ∧ t.mgt.responses.length = s.mgt.responses.length + s.mgt.waiting.length)
          ∧ t.f .SEC_LOADS_COUNT = s.f .SEC_LOADS_COUNT + 1)
        ∧ (¬ started → SecEnds s t (if v = 6 then 4 else 5) ∧ t.sec.procs = s.sec.procs ∧ t.sec.mrs = s.sec.mrs
          ∧ t.f .SEC_REJECTS_COUNT = s.f .SEC_REJECTS_COUNT + 1
          ∧ ∀ j, t.f .SEC_PROC_STATUS_STATE j = s.f .SEC_PROC_STATUS_STATE j)

/-- The other mailbox commands, each on its arguments in SEC_MBX_DATA, and the watchdog: what they answer, the statuses of
R370, and what they change (R356, R358, R361, R365, R369).
Rests also on choices of the model: notes/assumptions/17.md, notes/assumptions/65.md. -/
def Obligations.MailboxCommands : Prop :=
  (∀ s : State, s.running = true → s.sec.busy = some 2 → s.sec.dirty = false → s.f .SEC_REPORTS_COUNT + 1 < 2 ^ 64 →
    ∃ t, exec .report s = .next t ∧ SecEnds s t 0 ∧ t.sec.mrs = s.sec.mrs ∧ t.f .SEC_REPORTS_COUNT = s.f .SEC_REPORTS_COUNT + 1
      ∧ t.secArg 0 = 0xD1A7 + 2 ^ 16 ∧ t.secArg 2 + t.secArg 3 * 2 ^ 32 = s.fuses.deviceId % 2 ^ 64
      ∧ t.secArg 6 = s.f .SEC_LOG_COUNT_COUNT % 2 ^ 32 ∧ t.secArg 7 = s.secArg 0 % 2 ^ 16
      ∧ (∀ w, w < 8 → t.secArg (8 + w) = s.secArg (8 + w) % 2 ^ 32)
      ∧ ∀ k w, k < 16 → w < 16 → t.secArg (32 + 16 * k + w) =
          if bit (s.secArg 0) k = true then (s.mr k).toNat / 2 ^ (32 * w) % 2 ^ 32 else 0)
  ∧ (∀ s : State, s.running = true → s.sec.busy = some 3 → s.sec.dirty = false → (∀ e ∈ s.sec.log, e.length = 128) →
    let a := s.secArg 0
    let n := s.secArg 1
    ∃ t, exec .readLog s = .next t ∧ t.sec.log = s.sec.log
      ∧ ((n = 0 ∨ 32 < n) → SecEnds s t 1) ∧ (0 < n → n ≤ 32 → s.sec.log.length < a + n → SecEnds s t 9)
      ∧ (0 < n → n ≤ 32 → a + n ≤ s.sec.log.length → SecEnds s t 0
        ∧ ∀ j w, j < n → w < 32 → t.secArg (32 * j + w) = fromLE ((((nth [] s.sec.log (a + j))).drop (4 * w)).take 4)))
  ∧ (∀ s : State, s.running = true → s.sec.busy = some 4 → s.sec.dirty = false →
    let a := s.secArg 0
    let n := s.secArg 1
    let has := s.flag .SEC_STATUS_CHAIN_VALID = true
    ∃ t, exec .readChain s = .next t ∧ (¬ has → SecEnds s t 8)
      ∧ (has → (n = 0 ∨ 4096 < n) → SecEnds s t 1) ∧ (has → 0 < n → n ≤ 4096 → s.sec.chain.length < a + n → SecEnds s t 9)
      ∧ (has → 0 < n → n ≤ 4096 → a + n ≤ s.sec.chain.length → SecEnds s t 0
        ∧ ∀ j, j < n → BitVec.ofNat 8 (t.secArg (j / 4) / 2 ^ (8 * (j % 4))) = nth 0 s.sec.chain (a + j)))
  ∧ (∀ s : State, s.running = true → s.sec.busy = some 5 → s.sec.dirty = false →
    let k := s.secArg 0 % 16
    (k < 8 → ∃ t, exec .extend s = .next t ∧ SecEnds s t 9 ∧ t.sec.mrs = s.sec.mrs ∧ t.sec.log = s.sec.log)
    ∧ (8 ≤ k → ∃ t, exec .extend s = .next t ∧ SecEnds s t 0 ∧ (∀ j, j ≠ k → t.mr j = s.mr j)
      ∧ t.mr k = Config.sha512 (digestBytes (s.mr k) ++ s.secDigest 16)
      ∧ t.f .SEC_LOG_COUNT_COUNT = min (2 ^ 32 - 1) (s.f .SEC_LOG_COUNT_COUNT + 1)
      ∧ (s.sec.log.length < 1024 → ∃ e, t.sec.log = s.sec.log ++ [e] ∧ (e.drop 32).take 64 = s.secDigest 16)
      ∧ (1024 ≤ s.sec.log.length → t.sec.log = s.sec.log ∧ t.flag .SEC_STATUS_LOG_FULL = true)))
  ∧ (∀ s : State, s.running = true → s.sec.busy = some 6 → s.sec.dirty = false →
    let n := s.secArg 0
    let key := s.secArg 1 = 0x5EC0F05E
    ∃ t, exec .programFuse s = .next t ∧ t.sec.mrs = s.sec.mrs
      ∧ ((¬ key ∨ (n ≠ 1 ∧ n ≠ 2)) → SecEnds s t 1 ∧ t.fuses = s.fuses)
      ∧ (key → (n = 1 ∧ s.fuses.signedBlown = true ∨ n = 2 ∧ s.fuses.ownerWritten = true) → SecEnds s t 7 ∧ t.fuses = s.fuses)
      ∧ (key → n = 1 → s.fuses.signedBlown = false → SecEnds s t 0 ∧ t.fuses = { s.fuses with signedBlown := true })
      ∧ (key → n = 2 → s.fuses.ownerWritten = false → SecEnds s t 0
        ∧ t.fuses = { s.fuses with ownerWritten := true, ownerDigest := s.secDigest 16 }))
  ∧ (∀ (s : State) (i : Nat), i < 22 → s.procRunning i = true → s.f .SEC_SETUP_WDOG_LOG2 ≠ 0 → s.f .SEC_WATCHDOGS_COUNT + 1 < 2 ^ 64 →
    ∃ t, exec (.watchdogExpiry i) s = .next t ∧ s.sameMem t ∧ t.tiles = s.tiles ∧ t.sec.procs = s.sec.procs ∧ t.sec.mrs = s.sec.mrs
      ∧ t.f .SEC_PROC_STATUS_STATE i = 3 ∧ t.flag .SEC_PROC_STATUS_WATCHDOG i = true ∧ t.flag .SEC_STATUS_COCOON_EVENT = true
      ∧ t.f .SEC_WATCHDOGS_COUNT = s.f .SEC_WATCHDOGS_COUNT + 1
      ∧ ∀ j, j ≠ i → t.f .SEC_PROC_STATUS_STATE j = s.f .SEC_PROC_STATUS_STATE j)

/-- SPDM. While the SEP firmware runs, each request of Table SPDM requests supported that comes in the connection's order is
answered with its response code, and with the content the table names; any other request with ERROR, UnsupportedRequest.
While it does not run nothing is answered (R364). Byte places are those of DSP0274 (notes/assumptions/12.md). -/
def Obligations.Spdm : Prop :=
  ∀ (s : State) (req : List Byte), s.running = true →
    let code := byteAt req 1
    let v12 := byteAt req 0 = 0x12
    let x := s.sec
    (s.procRunning 0 = false → ∀ c ∈ [Instr.getVersion req, .getCapabilities req, .negotiateAlgorithms req, .getDigests req,
      .getCertificate req, .challenge req, .getMeasurements req, .spdmUnsupportedRequest req], exec c s = .next s)
    ∧ (s.procRunning 0 = true →
      (code = 0x84 → byteAt req 0 = 0x10 → ∃ t, exec (.getVersion req) s = .next t
        ∧ SecAnswers s t (fun bs => byteAt bs 1 = 0x04 ∧ byteAt bs 5 = 1 ∧ byteAt bs 7 = 0x12)
        ∧ t.sec.spdmVersion = true ∧ t.sec.spdmCaps = false ∧ t.sec.spdmAlgs = false)
      ∧ (code = 0xE1 → v12 → x.spdmVersion = true → ∃ t, exec (.getCapabilities req) s = .next t
        ∧ SecAnswers s t (fun bs => byteAt bs 1 = 0x61 ∧ byteAt bs 5 = 20) ∧ t.sec.spdmCaps = true)
      ∧ (code = 0xE3 → v12 → x.spdmCaps = true →
        (bit (byteAt req 6) 0 = true ∧ bit (fieldAt req 8 4) 5 = true ∧ bit (fieldAt req 12 4) 2 = true →
          ∃ t, exec (.negotiateAlgorithms req) s = .next t ∧ SecAnswers s t (fun bs => byteAt bs 1 = 0x63) ∧ t.sec.spdmAlgs = true)
        ∧ (bit (fieldAt req 8 4) 5 = false ∨ bit (fieldAt req 12 4) 2 = false →
          ∃ t, exec (.negotiateAlgorithms req) s = .next t
            ∧ SecAnswers s t (fun bs => byteAt bs 1 = 0x7F ∧ byteAt bs 2 = 0x01) ∧ t.sec.spdmAlgs = x.spdmAlgs))
      ∧ (code = 0x81 → v12 → x.spdmAlgs = true → ∃ t, exec (.getDigests req) s = .next t
        ∧ SecAnswers s t (fun bs => byteAt bs 1 = 0x01
          ∧ (s.flag .SEC_STATUS_CHAIN_VALID = true → x.chain ≠ [] → byteAt bs 3 = 1
            ∧ bs.drop 4 = digestBytes (Config.sha512 x.chain))
          ∧ (s.flag .SEC_STATUS_CHAIN_VALID = false → byteAt bs 3 = 0 ∧ bs.length = 4)))
      ∧ (code = 0x82 → v12 → x.spdmAlgs = true → byteAt req 2 = 0 → s.flag .SEC_STATUS_CHAIN_VALID = true →
        fieldAt req 4 2 < x.chain.length →
        ∃ t, exec (.getCertificate req) s = .next t ∧ SecAnswers s t (fun bs => byteAt bs 1 = 0x02
          ∧ bs.drop 8 = (x.chain.drop (fieldAt req 4 2)).take (fieldAt req 6 2)))
      ∧ (code = 0x83 → v12 → x.spdmAlgs = true → byteAt req 2 = 0 → byteAt req 3 = 0xFF → s.f .SEC_REPORTS_COUNT + 1 < 2 ^ 64 →
        ∃ t, exec (.challenge req) s = .next t ∧ SecAnswers s t (fun bs => byteAt bs 1 = 0x03
          ∧ (bs.drop 100).take 64 = digestBytes (Config.sha512 s.measurementBlocks) ∧ bs.length = 166 + 512)
          ∧ t.f .SEC_REPORTS_COUNT = s.f .SEC_REPORTS_COUNT + 1)
      ∧ (code = 0xE0 → v12 → x.spdmAlgs = true → byteAt req 3 = 0xFF → ∃ t, exec (.getMeasurements req) s = .next t
        ∧ SecAnswers s t (fun bs => byteAt bs 1 = 0x60 ∧ byteAt bs 4 = 16 ∧ ∀ k, k < 16 →
          let b := bs.drop (8 + 71 * k)
          byteAt b 0 = k + 1 ∧ byteAt b 4 = (if k = 0 then 0 else if k < 8 then 1 else 3) ∧ (b.drop 7).take 64 = digestBytes (s.mr k)))
      ∧ (code ∉ [0x84, 0xE1, 0xE3, 0x81, 0x82, 0x83, 0xE0] → ∃ t, exec (.spdmUnsupportedRequest req) s = .next t
        ∧ SecAnswers s t (fun bs => byteAt bs 1 = 0x7F ∧ byteAt bs 2 = 0x07)))

/-- MCTP control: the endpoint ID is set and read, versions of the supported types and the types SPDM and PLDM besides control
are given (R363). The I3C target takes the dynamic address that the board's controller assigns (R427). -/
def Clause.MctpControl : Prop :=
  ∀ (s : State) (req : List Byte), s.running = true →
    let code := byteAt req 1
    (∀ kind addr, exec (.dynamicAddressAssignment kind addr) s = .next { s with i3c := some addr.toNat })
    ∧ (s.procRunning 0 = true →
      (code = 1 → byteAt req 2 % 4 < 2 → 0 < byteAt req 3 → byteAt req 3 < 255 → ∃ t, exec (.setEndpointId req) s = .next t
        ∧ SecAnswers s t (fun bs => byteAt bs 1 = 1 ∧ byteAt bs 2 = 0 ∧ byteAt bs 4 = byteAt req 3) ∧ t.sec.eid = byteAt req 3)
      ∧ (code = 1 → (byteAt req 3 = 0 ∨ byteAt req 3 = 255) → ∃ t, exec (.setEndpointId req) s = .next t
        ∧ SecAnswers s t (fun bs => byteAt bs 2 ≠ 0) ∧ t.sec.eid = s.sec.eid)
      ∧ (code = 2 → s.sec.eid < 256 → ∃ t, exec (.getEndpointId req) s = .next t
        ∧ SecAnswers s t (fun bs => byteAt bs 1 = 2 ∧ byteAt bs 2 = 0 ∧ byteAt bs 3 = s.sec.eid) ∧ t.sec.eid = s.sec.eid)
      ∧ (code = 4 → byteAt req 2 ∈ [255, 0, 1, 5] → ∃ t, exec (.getMctpVersionSupport req) s = .next t
        ∧ SecAnswers s t (fun bs => byteAt bs 1 = 4 ∧ byteAt bs 2 = 0 ∧ 1 ≤ byteAt bs 3))
      ∧ (code = 5 → ∃ t, exec (.getMessageTypeSupport req) s = .next t
        ∧ SecAnswers s t (fun bs => byteAt bs 1 = 5 ∧ byteAt bs 2 = 0 ∧ byteAt bs 3 = 2 ∧ ∀ y ∈ [1, 5], y ∈ [byteAt bs 4, byteAt bs 5])))

/-- PLDM. While the management processor runs it answers the commands of R389: the terminus ID, the types 0 and 2, the present
sensors as PDRs, a reading of each present sensor and the state of sensor 0x0500; any other command gets the error. While it is
in cocoon a request waits (R366). -/
def Clause.Pldm : Prop :=
  (∀ (s : State) (req : List Byte), s.running = true → s.procRunning 1 = true →
    let type := byteAt req 1 % 64
    let cmd := byteAt req 2
    let ok := fun (bs : List Byte) => byteAt bs 1 = byteAt req 1 ∧ byteAt bs 2 = cmd ∧ byteAt bs 3 = 0
    let idle := s.mgt.tid < 256
    (type = 0 → cmd = 2 → idle → ∃ t, exec (.getTid req) s = .next t ∧ MgtAnswers s t (fun bs => ok bs ∧ byteAt bs 4 = s.mgt.tid))
    ∧ (type = 0 → cmd = 1 → 0 < byteAt req 3 → byteAt req 3 < 255 → ∃ t, exec (.setTid req) s = .next t ∧ MgtAnswers s t ok
      ∧ t.mgt.tid = byteAt req 3)
    ∧ (type = 0 → cmd = 1 → (byteAt req 3 = 0 ∨ byteAt req 3 = 255) → ∃ t, exec (.setTid req) s = .next t
      ∧ MgtAnswers s t (fun bs => byteAt bs 3 ≠ 0) ∧ t.mgt.tid = s.mgt.tid)
    ∧ (type = 0 → cmd = 3 → (byteAt req 8 = 0 ∨ byteAt req 8 = 2) → ∃ t, exec (.getPldmVersion req) s = .next t ∧ MgtAnswers s t ok)
    ∧ (type = 0 → cmd = 4 → ∃ t, exec (.getPldmTypes req) s = .next t
      ∧ MgtAnswers s t (fun bs => ok bs ∧ ∀ k, k < 64 → (bit (fieldAt bs 4 8) k = true ↔ k = 0 ∨ k = 2)))
    ∧ (type = 0 → cmd = 5 → (byteAt req 3 = 0 ∨ byteAt req 3 = 2) → ∃ t, exec (.getPldmCommands req) s = .next t
      ∧ MgtAnswers s t (fun bs => ok bs ∧ ∀ k, k < 256 → (bit (fieldAt bs 4 32) k = true ↔
        k ∈ if byteAt req 3 = 0 then [1, 2, 3, 4, 5] else [0x11, 0x21, 0x50, 0x51])))
    ∧ (type = 2 → cmd = 0x50 → ∃ t, exec (.getPdrRepositoryInfo req) s = .next t
      ∧ MgtAnswers s t (fun bs => ok bs ∧ fieldAt bs 31 4 = s.pdrIds.length))
    ∧ (∀ before id rest, type = 2 → cmd = 0x51 → s.pdrIds = before ++ id :: rest → id ∉ before → fieldAt req 3 4 = id →
      105 ≤ fieldAt req 12 2 → ∃ t, exec (.getPdr req) s = .next t
        ∧ MgtAnswers s t (fun bs => ok bs ∧ fieldAt bs 4 4 = rest.headD 0 ∧ fieldAt bs 15 4 = id))
    ∧ (type = 2 → cmd = 0x11 → (s.reading (fieldAt req 3 2)).2 < 2 → ∃ t, exec (.getSensorReading req) s = .next t
      ∧ MgtAnswers s t (fun bs => ok bs ∧ ((s.reading (fieldAt req 3 2)).2 = 1 ↔ byteAt bs 5 = 2)
        ∧ fieldAt bs 10 4 = ((s.reading (fieldAt req 3 2)).1 % 2 ^ 32).toNat))
    ∧ (type = 2 → cmd = 0x21 → fieldAt req 3 2 = 0x0500 → ∃ t, exec (.getStateSensorReadings req) s = .next t
      ∧ MgtAnswers s t (fun bs => ok bs ∧ byteAt bs 4 = 1
        ∧ let thr := ∃ d, d < s.variant.dies ∧ s.mclk d < s.f .MGT_LIMITS_MCLK_CEILING
          let trip := ∃ d, d < s.variant.dies ∧ (s.die d).hardTrip = true
          let warn := s.flag .MGT_STATUS_POWER_WARN = true
          match byteAt bs 6 with
          | 1 => ¬ thr ∧ ¬ trip ∧ ¬ warn
          | 2 => thr
          | 3 => trip
          | 4 => warn
          | _ => False))
    ∧ ((type, cmd) ∉ [(0, 1), (0, 2), (0, 3), (0, 4), (0, 5), (2, 0x11), (2, 0x21), (2, 0x50), (2, 0x51)] →
      ∃ t, exec (.pldmUnsupportedCommand req) s = .next t ∧ MgtAnswers s t (fun bs => byteAt bs 3 = 5)))
  ∧ (∀ (s : State) (req : List Byte), s.running = true → s.f .SEC_PROC_STATUS_STATE 1 = 3 →
    let waits : State := { s with mgt := { s.mgt with waiting := s.mgt.waiting ++ [req] } }
    ∀ type cmd c, (type, cmd, c) ∈ [(0, 2, Instr.getTid req), (0, 1, .setTid req), (0, 3, .getPldmVersion req), (0, 4, .getPldmTypes req),
        (0, 5, .getPldmCommands req), (2, 0x50, .getPdrRepositoryInfo req), (2, 0x51, .getPdr req), (2, 0x11, .getSensorReading req),
        (2, 0x21, .getStateSensorReadings req), (63, 0, .pldmUnsupportedCommand req)] →
      byteAt req 1 % 64 = type → byteAt req 2 = cmd → exec c s = .next waits)

/-- The sideband: MCTP control, PLDM and the I3C address.
Rests also on choices of the model: notes/assumptions/12.md, notes/assumptions/71.md. -/
def Obligations.SidebandManagement : Prop := Clause.MctpControl ∧ Clause.Pldm

/-- The management mailbox. Sensor readings with their status, LOG_INFO and LOG_READ, NOT_READY before LOG_READY, RANGE for a sequence
no longer kept, BAD_COMMAND for a count out of range (the model's choice: notes/assumptions/65.md); MOULT_NOMINATE names a tile of a present die (R390, R381). -/
def Clause.ManagementMailbox : Prop :=
  ∀ s : State, s.procRunning 1 = true → s.mgt.dirty = false →
    let a := s.mgtArg 0
    let n := s.mgtArg 1
    let ready := s.flag .MGT_STATUS_LOG_READY = true
    (s.mgt.busy = some 1 → ∃ t, exec .sensorRead s = .next t ∧ t = { s with mgt := t.mgt, fields := t.fields }
      ∧ t.mgt.sensors = s.mgt.sensors ∧ ((n = 0 ∨ 256 < n) → MgtEnds s t 1)
      ∧ (0 < n → n ≤ 256 → MgtEnds s t 0 ∧ ∀ i, i < n →
        t.mgtArg (2 * i) = ((s.reading (a % 2 ^ 16 + i)).1 % 2 ^ 32).toNat
        ∧ t.mgtArg (2 * i + 1) = (s.reading (a % 2 ^ 16 + i)).2 % 2 ^ 32))
    ∧ (s.mgt.busy = some 2 → ∃ t, exec .logInfo s = .next t ∧ t = { s with mgt := t.mgt, fields := t.fields } ∧ t.mgt.flash = s.mgt.flash
      ∧ (¬ ready → MgtEnds s t 4)
      ∧ (ready → MgtEnds s t 0 ∧ t.mgtArg 0 = s.oldestSeq % 2 ^ 32 ∧ t.mgtArg 1 = (s.mgt.seq + 2 ^ 32 - 1) % 2 ^ 32
        ∧ t.mgtArg 2 = s.repairs.length % 2 ^ 32 ∧ t.mgtArg 3 = (s.mgt.startCount - 1) % 2 ^ 32))
    ∧ (s.mgt.busy = some 3 → ∃ t, exec .logRead s = .next t ∧ t = { s with mgt := t.mgt, fields := t.fields } ∧ t.mgt.flash = s.mgt.flash
      ∧ (¬ ready → MgtEnds s t 4) ∧ (ready → (n = 0 ∨ 15 < n) → MgtEnds s t 1)
      ∧ (ready → 0 < n → n ≤ 15 → a < s.oldestSeq → s.oldestSeq < 2 ^ 31 → MgtEnds s t 3)
      ∧ (ready → 0 < n → n ≤ 15 → s.oldestSeq ≤ a → a < 2 ^ 31 → MgtEnds s t 0 ∧ ∀ i w, i < n → w < 64 →
        t.mgtArg (64 * i + w) = match s.logRecords.find? (fun r => r.seq == a + i) with
          | some r => fromLE ((r.bytes.drop (4 * w)).take 4)
          | none => 0))
    ∧ (s.mgt.busy = some 4 →
      let d := a % 8
      let l := a / 8 % 128
      let p := s.physOf d l
      (s.variant.hasDie d = false → ∃ t, exec .moultNominate s = .next t ∧ MgtEnds s t 2 ∧ t.mgt.nominees = s.mgt.nominees)
      ∧ (s.variant.hasDie d = true → 95 < l → ∃ t, exec .moultNominate s = .next t ∧ MgtEnds s t 3 ∧ t.mgt.nominees = s.mgt.nominees)
      ∧ (s.variant.hasDie d = true → l ≤ 95 → (s.localOf p).isSome = true → (∀ x ∈ s.mgt.nominees, x.p ≠ p) → p / 104 = d →
        ∃ t, exec .moultNominate s = .next t ∧ MgtEnds s t 0 ∧ s.sameMem t ∧ t.tiles = s.tiles
          ∧ t.mgt.nominees = if (s.nomineesOf d).length < (s.reserve d).length then s.mgt.nominees ++ [⟨p, 4⟩] else s.mgt.nominees))

/-- Sensor samples. A sample outside −40 to 150 °C or without a value fails a die sensor at once, a PMBus sensor after three
reads; a valid one puts it back in use. A compute-die reading of 110 °C or more begins the hard trip, which ends when all read
105 °C or less; one of 120 °C or more begins the shutdown (R372 to R374, R378, R380). -/
def Clause.Sensors : Prop :=
  (∀ (s : State) (d k : Nat), s.variant.hasDie d = true → k < 16 →
    let id := 0x100 + 16 * d + k
    (∀ r : Int, -160 ≤ r → r ≤ 600 → ∃ t, exec (.dieSensorSample false d k (some r)) s = .next t ∧ s.sameMem t ∧ t.tiles = s.tiles
      ∧ t.sensor id = ⟨r, false, 0⟩ ∧ (∀ j, j ≠ id → t.sensor j = s.sensor j)
      ∧ (440 ≤ r → (t.die d).hardTrip = true) ∧ ((∀ v ∈ t.dieReadings d, v ≤ 420) → (t.die d).hardTrip = false)
      ∧ (r < 440 → 420 < r → (∀ v ∈ t.dieReadings d, v < 440) → (t.die d).hardTrip = (s.die d).hardTrip)
      ∧ t.mgt.shutdown = if 480 ≤ r ∧ s.mgt.shutdown = none then some (1, d, r) else s.mgt.shutdown)
    ∧ (∀ x : Option Int, (∀ r, x = some r → r < -160 ∨ 600 < r) → ∃ t, exec (.dieSensorSample false d k x) s = .next t ∧ s.sameMem t
      ∧ t.tiles = s.tiles ∧ (t.sensor id).failed = true ∧ (t.sensor id).value = (s.sensor id).value
      ∧ (∀ j, j ≠ id → t.sensor j = s.sensor j) ∧ t.die d = s.die d ∧ t.mgt.shutdown = s.mgt.shutdown))
  ∧ (∀ (s : State) (d k : Nat) (r : Int), s.variant.hasIo d = true → k < 4 → -160 ≤ r → r ≤ 600 →
    ∃ t, exec (.dieSensorSample true d k (some r)) s = .next t ∧ t.sensor (0x200 + 4 * d + k) = ⟨r, false, 0⟩
      ∧ t.mgt.shutdown = if 480 ≤ r ∧ s.mgt.shutdown = none then some (2, d, r) else s.mgt.shutdown)
  ∧ (∀ (s : State) (x : PmbusSensor) (v : Option Int), s.procRunning 1 = true →
    (match x with | .railVoltage r | .railCurrent r | .regTemp r => s.variant.hasRail r = true | _ => True) →
    let id := pmbusId x
    let n := (s.sensor id).attempts + 1
    ∃ t, exec (.pmbusRead x v) s = .next t ∧ s.sameMem t ∧ t.tiles = s.tiles ∧ (∀ j, j ≠ id → t.sensor j = s.sensor j)
      ∧ (∀ r, v = some r → t.sensor id = ⟨r, false, 0⟩)
      ∧ (v = none → t.sensor id = { s.sensor id with attempts := n, failed := (s.sensor id).failed || decide (3 ≤ n) }))

/-- MCLK. At an evaluation the level goes one step of 50 MHz down when a cause of R375 holds, one up after ten quiet evaluations
with power and temperature to spare and no stack tripped, never below 200 MHz or above the ceiling. While the fast current
limit holds no die runs above 350 MHz, under its hard trip none above 200 MHz (R375 to R377). -/
def Clause.ClocksUnderLoad : Prop :=
  (∀ (s : State) (d : Nat), s.variant.hasDie d = true → s.procRunning (10 + d) = true → 200 ≤ s.f .MGT_LIMITS_MCLK_CEILING →
    let lvl := (s.die d).level
    let top := s.f .MGT_LIMITS_MCLK_CEILING
    let limit : Int := s.f .MGT_LIMITS_POWER_LIMIT
    let throttle : Int := s.f .MGT_SETUP_DIE_THROTTLE_C
    let own : List Nat := [2 * d, 2 * d + 1]
    let cause : Prop := (∃ w, s.inputPower = some w ∧ limit * 1000 < w) ∨ (∃ v, s.dieTemp d = some v ∧ throttle * 4 ≤ v)
      ∨ (∃ k ∈ own, s.stackPresent k = true ∧ (2 ≤ s.f .HBM_STATUS_LEVEL k ∨ s.flag .HBM_STATUS_TRIPPED k = true))
      ∨ (s.dieReadings d).length < 12 ∨ 10 ≤ s.mgt.unreadMs
    ∃ t, exec (.dieEvaluation d) s = .next t ∧ s.sameMem t ∧ t.tiles = s.tiles ∧ (∀ e, e ≠ d → t.die e = s.die e)
      ∧ (cause → (t.die d).level = min top (max 200 (lvl - 50)) ∧ (t.die d).quiet = 0)
      ∧ (¬ cause → (s.die d).quiet + 1 < 10 → (t.die d).level = max 200 (min lvl top) ∧ (t.die d).quiet = (s.die d).quiet + 1)
      ∧ (∀ w v, ¬ cause → 10 ≤ (s.die d).quiet + 1 → s.inputPower = some w → w * 100 ≤ limit * 97000 → s.dieTemp d = some v →
          v + 12 ≤ throttle * 4 → (∀ k ∈ own, s.flag .HBM_STATUS_TRIPPED k = false) → 150 ≤ lvl → lvl + 50 ≤ top →
          (t.die d).level = lvl + 50 ∧ (t.die d).quiet = 0))
  ∧ (∀ s : State, s.flag .MGT_STATUS_FAST_LIMIT = false → s.f .MGT_FAST_LIMITS_COUNT + 1 < 2 ^ 64 →
    ∃ t, exec .fastCurrentLimit s = .next t ∧ s.onlyFields t ∧ t.flag .MGT_STATUS_FAST_LIMIT = true ∧ (∀ d, t.mclk d ≤ 350)
      ∧ t.f .MGT_FAST_LIMITS_COUNT = s.f .MGT_FAST_LIMITS_COUNT + 1
      ∧ s.fieldsBut t [(.MGT_STATUS_FAST_LIMIT, 0), (.MGT_FAST_LIMITS_COUNT, 0)])
  ∧ (∀ s : State, ∃ t, exec .fastLimitRelease s = .next t ∧ s.onlyFields t ∧ s.fieldsBut t [(.MGT_STATUS_FAST_LIMIT, 0)]
    ∧ ∀ d, t.mclk d = if (s.die d).hardTrip = true then min (s.die d).level 200 else (s.die d).level)

/-- Sensors and MCLK under load.
Rests also on choices of the model: notes/assumptions/16.md, notes/assumptions/50.md. -/
def Obligations.HealthAndClocks : Prop := Clause.Sensors ∧ Clause.ClocksUnderLoad

/-- The management log. The next record, a repair record ahead of others, is programmed at the head and gets the next sequence
number; a sector whose records are not current repairs is erased; a power warning writes its record (R386, R387, R391). -/
def Clause.ManagementLog : Prop :=
  (∀ (s : State) (r : LogRec) (before after : List LogRec), s.procRunning 1 = true → s.flag .MGT_STATUS_LOG_READY = true →
    s.mgt.flash.get none s.mgt.head = none → s.mgt.queue = before ++ r :: after → (∀ x ∈ before, x.repair = false) →
    (r.repair = true ∨ (before = [] ∧ ∀ x ∈ after, x.repair = false)) → s.mgt.held = [] → s.mgt.dropped = 0 →
    s.carriedNext.length < s.headRoom →
    s.f .MGT_LOG_RECORDS_COUNT + 1 < 2 ^ 64 →
    ∃ t, exec .logRecordProgram s = .next t ∧ t = { s with mgt := t.mgt, fields := t.fields } ∧ t.mgt.queue = before ++ after
      ∧ t.mgt.head = (s.mgt.head + 1) % 524032 ∧ t.mgt.seq = (s.mgt.seq + 1) % 2 ^ 32
      ∧ (∀ x, t.mgt.flash.get none x = if x = s.mgt.head then
          some { r with seq := s.mgt.seq, orig := if r.carried then r.orig else s.mgt.seq,
                          start := if r.carried then r.start else s.mgt.startCount } else s.mgt.flash.get none x)
      ∧ t.f .MGT_LOG_RECORDS_COUNT = s.f .MGT_LOG_RECORDS_COUNT + 1 ∧ s.fieldsBut t [(.MGT_LOG_RECORDS_COUNT, 0)])
  ∧ (∀ s : State, s.procRunning 1 = true → s.flag .MGT_STATUS_LOG_READY = true → s.flag .MGT_STATUS_POWER_WARN = false →
    let sector := (s.mgt.head / 256 + 1) % 2047
    (∀ x ∈ s.mgt.flash, x.1 / 256 = sector → ∀ r, x.2 = some r → r ∉ s.repairs) →
    ∃ t, exec .logSectorErase s = .next t ∧ t = { s with mgt := { s.mgt with flash := t.mgt.flash } }
      ∧ ∀ x, t.mgt.flash.get none x = if x / 256 = sector then none else s.mgt.flash.get none x)
  ∧ (∀ (s : State) (mv : Nat), s.power.pwrGood = true → s.flag .MGT_STATUS_POWER_WARN = false → s.f .MGT_POWER_WARNINGS_COUNT + 1 < 2 ^ 64 →
    ∃ t, exec (.powerWarning mv) s = .next t ∧ s.sameMem t ∧ t.tiles = s.tiles ∧ t.flag .MGT_STATUS_POWER_WARN = true
      ∧ t.flag .MGT_STATUS_POWER_WARN_EVENT = true ∧ t.f .MGT_POWER_WARNINGS_COUNT = s.f .MGT_POWER_WARNINGS_COUNT + 1
      ∧ (s.procRunning 1 = true → s.flag .MGT_STATUS_LOG_READY = true → s.mgt.flash.get none s.mgt.head = none →
        (t.mgt.flash.get none s.mgt.head).map (fun r => (r.kind, r.body)) = some (2, [mv])))
  ∧ (∀ s : State, ∃ t, exec .powerWarningClear s = .next t ∧ s.onlyFields t ∧ t.flag .MGT_STATUS_POWER_WARN = false
    ∧ s.fieldsBut t [(.MGT_STATUS_POWER_WARN, 0)])
  ∧ (∀ s : State, exec .tileErrorPeriodEnd s = .next { s with mgt := { s.mgt with ce := [] } })

/-- The management log and its mailbox.
Rests also on choices of the model: notes/assumptions/5.md, notes/assumptions/65.md. -/
def Obligations.Management : Prop := Clause.ManagementMailbox ∧ Clause.ManagementLog

/-- Moult. A write of QUIESCE holds while the die has a moult pending; at the quiesce the nominated tile's logical ID goes to the
lowest reserve tile that is not retired, with its sense bits, the old tile is retired and QUIESCE clears; without a reserve
tile the nomination ends without effect (R382, R383). The die controller opens its stacks, retiring reserve tiles that fail
(R382, R407).
Rests also on choices of the model: notes/assumptions/59.md. -/
def Obligations.Moults : Prop :=
  ∀ (s : State) (d : Nat), d < 8 → s.variant.hasDie d = true →
    (s.running = true → ∃ t, exec (.quiesce d) s = .next t ∧ s.onlyFields t ∧ s.fieldsBut t [(.MGT_MOULT_CTRL_QUIESCE, 0)]
      ∧ bit (t.f .MGT_MOULT_CTRL_QUIESCE) d = !(s.nomineesOf d).isEmpty
      ∧ ∀ e, e < 8 → e ≠ d → bit (t.f .MGT_MOULT_CTRL_QUIESCE) e = bit (s.f .MGT_MOULT_CTRL_QUIESCE) e)
    ∧ (∀ x l, s.procRunning (10 + d) = true → bit (s.f .MGT_MOULT_CTRL_QUIESCE) d = true ∨ s.flag .MGT_SETUP_MOULT_AUTO = true →
      (∀ p, p / 104 = d → s.tileQuiet p = true) → s.nomineesOf d = [x] → s.localOf x.p = some l →
      (∀ new rest, s.reserve d = new :: rest → s.f .MGT_MOULTS_COUNT + 1 < 2 ^ 64 →
        ∃ t, exec (.moult d) s = .next t ∧ s.sameMem t ∧ t.physOf d l = new ∧ (∀ m, m ≠ l → t.physOf d m = s.physOf d m)
          ∧ t.mgt.repair.retired.get false x.p = true ∧ (∀ p, p ≠ x.p → t.mgt.repair.retired.get false p = s.mgt.repair.retired.get false p)
          ∧ (t.tile new).syn.sense = (s.tile x.p).syn.sense ∧ (t.tile new).xc = [] ∧ t.nomineesOf d = []
          ∧ bit (t.f .MGT_MOULT_CTRL_QUIESCE) d = false ∧ t.f .MGT_MOULTS_COUNT = s.f .MGT_MOULTS_COUNT + 1)
      ∧ (s.reserve d = [] → ∃ t, exec (.moult d) s = .next t ∧ s.sameMem t ∧ t.tiles = s.tiles ∧ t.mgt.repair = s.mgt.repair
          ∧ t.nomineesOf d = [] ∧ bit (t.f .MGT_MOULT_CTRL_QUIESCE) d = false))
    ∧ (∀ rows bad, s.procRunning 1 = true → s.flag .MGT_STATUS_LOG_READY = true → s.procRunning (10 + d) = true →
      s.stacksOpen d = false → s.repairs = [] →
      ∃ t, exec (.stacksOpen d rows bad) s = .next t ∧ s.sameMem t ∧ t.tiles = s.tiles ∧ t.stacksOpen d = true
        ∧ (∀ e, e < 8 → e ≠ d → t.stacksOpen e = s.stacksOpen e) ∧ t.mgt.repair.phys = s.mgt.repair.phys
        ∧ (∀ p, t.mgt.repair.retired.get false p = (s.mgt.repair.retired.get false p || (decide (p ∈ s.reserve d) && decide (p ∈ bad)))))

/-- Part resets. RESET_N, an accepted CLK_RESET_CTRL write after its delay, REF lost and PLL lost each reset the running part and
record their cause; what R401 keeps keeps its value, every other register field takes its reset value, work and firmware are
lost. Of several causes within one REF cycle the lowest is recorded; another one during a reset starts nothing but that REF lost
holds it. A write of CLK_RESET_CTRL without PART_RESET and its key has no effect (R398, R400 to R402, R405).
Rests also on choices of the model: notes/assumptions/71.md, notes/assumptions/78.md. -/
def Obligations.PartResets : Prop :=
  ∀ s : State, s.power.pwrGood = true →
    (s.running = true →
      (∃ t, exec .partReset s = .next t ∧ PartReset s t 2 0 0 ∧ t.power.resetN = true ∧ t.power.start = .inReset)
      ∧ (∃ t, exec .refLost s = .next t ∧ PartReset s t 4 0 0 ∧ t.power.start = .refLost)
      ∧ (s.power.resetPending = true → ∃ t, exec .partResetDelayExpiry s = .next t ∧ PartReset s t 3 0 0 ∧ t.power.start = .inReset)
      ∧ (∀ (m : BitVec 5) (n : BitVec 9), n.toNat < 362 → domainOf n.toNat = m.toNat → hasPll m.toNat = true →
        s.variant.hasClock m.toNat (n.toNat - domainBase m.toNat) = true →
        ∃ t, exec (.pllLost m n false) s = .next t ∧ PartReset s t 5 m.toNat n.toNat ∧ t.power.start = .inReset)
      ∧ (∀ v : BitVec 32, exec (.partResetKeyWrite v) s = .next (if v.getLsbD 0 = true ∧ v.toNat / 2 ^ 16 = 0xD5E7
          then { s with power := { s.power with resetPending := true } } else s)))
    ∧ (s.power.start = .inReset → s.power.resetAt ≠ some s.time →
      (∃ t, exec .partReset s = .next t ∧ t = { s with power := { s.power with resetN := true } })
      ∧ (∃ t, exec .refLost s = .next t ∧ t = { s with power := { s.power with start := .refLost } }))
    ∧ (s.power.start = .inReset → s.power.resetAt = some s.time →
      let cause := s.f .CLK_RESET_CAUSE_CAUSE
      (∃ t, exec .partReset s = .next t ∧ t.f .CLK_RESET_CAUSE_CAUSE = min 2 cause ∧ t.power.resetN = true ∧ t.power.start = .inReset)
      ∧ (∃ t, exec .refLost s = .next t ∧ t.f .CLK_RESET_CAUSE_CAUSE = min 4 cause ∧ t.power.start = .refLost)
      ∧ (s.power.resetPending = true → ∃ t, exec .partResetDelayExpiry s = .next t ∧ t.f .CLK_RESET_CAUSE_CAUSE = min 3 cause
          ∧ t.power.start = .inReset))
    ∧ (s.power.start = .refLost → ∃ t, exec .refReturn s = .next t ∧ t = { s with power := { s.power with start := .inReset } })

/-- The hardware start. The ROM extends MR0 with its own digest and that of the 128-byte fuse block, laid out as R359 says;
the PLLs lock, the certificate chain is
checked, ports and stacks are trained or failed, every present processor waits for its image, HW_READY is set; a PLL that does
not lock at the third start in succession turns the converters off (R222, R356, R359, R360, R398, R406). The set-up lock is set by a
write of 1 (R412); a port's training ends UP or FAILED (R318).
Rests also on choices of the model: notes/assumptions/17.md, notes/assumptions/61.md. -/
def Obligations.HardwareStart : Prop :=
  (∀ f : Fuses, f.block.length = 128 ∧ f.block[0]? = some (if f.signedBlown = true then 1 else 0)
    ∧ (∀ i, 1 ≤ i → i < 8 → f.block[i]? = some 0) ∧ fromLE ((f.block.drop 8).take 8) = f.deviceId % 2 ^ 64
    ∧ (f.ownerDigest.length = 64 → (f.block.drop 16).take 64 = f.ownerDigest) ∧ ∀ i, 80 ≤ i → i < 128 → f.block[i]? = some 0) ∧
  (∀ (s : State) (r : StartResult), s.power.start = .inReset → s.sec.log = [] → s.f .SEC_LOG_COUNT_COUNT = 0 → s.chl = .reset →
    let failed := fun k => s.f .HBM_STATUS_STATE k = 3
    ∃ t, exec (.hardwareStart r) s = .next t ∧ s.sameMem t ∧ t.tiles = s.tiles ∧ t.running = true ∧ t.power.resetN = false
      ∧ t.flag .CLK_STATUS_PLLS_LOCKED = true ∧ t.flag .CLK_STATUS_HW_READY = true
      ∧ t.f .CLK_RESET_TIME_TIME = s.time % 2 ^ 64
      ∧ t.mr 0 = Config.sha512 (digestBytes (Config.sha512 (digestBytes (s.mr 0) ++ digestBytes Config.romDigest))
          ++ digestBytes (Config.sha512 s.fuses.block))
      ∧ t.sec.log.length = 2 ∧ t.sec.chain = r.chain
      ∧ (t.flag .SEC_STATUS_CHAIN_VALID = true ↔ digestBytes (Config.sha512 r.chain) = s.fuses.chainDigest)
      ∧ (∀ x, r.port0 = some x → t.portUp 0 = true) ∧ (∀ x, r.port1 = some x → t.portUp 1 = true)
      ∧ (r.port0 = none → t.f .CHL_PORT_STATUS_STATE 0 = 4 ∧ t.f .CHL_PORT_STATUS_FAIL_CAUSE 0 = 1)
      ∧ (∀ k, k < 16 → s.variant.fitted k = true → ¬ failed k →
        t.f .HBM_STATUS_STATE k = if r.fast.getLsbD k = true then 1 else if r.slow.getLsbD k = true then 2 else 3)
      ∧ (∀ k, k < 16 → failed k → t.f .HBM_STATUS_STATE k = 3)
      ∧ (∀ i, i < 22 → s.procPresent i = true → t.f .SEC_PROC_STATUS_STATE i = 1))
  ∧ (∀ (s : State) (m : BitVec 5) (n : BitVec 9), s.power.start = .inReset → n.toNat < 362 → domainOf n.toNat = m.toNat →
    hasPll m.toNat = true → s.variant.hasClock m.toNat (n.toNat - domainBase m.toNat) = true →
    let fails := s.power.lockFailures.get 0 n.toNat
    (fails < 2 → ∃ t, exec (.pllLost m n true) s = .next t ∧ PartReset s t 5 m.toNat n.toNat ∧ t.power.start = .inReset
      ∧ t.power.lockFailures.get 0 n.toNat = fails + 1)
    ∧ (2 ≤ fails → ∃ t, exec (.pllLost m n true) s = .next t ∧ PowerLost s t ∧ t.power.converters = false ∧ t.power.latchedOff = true))
  ∧ (∀ s : State, s.running = true → ∃ t, exec .setupLock s = .next t ∧ s.onlyFields t ∧ t.flag .CLK_LOCK_SETUP_LOCK = true
    ∧ s.fieldsBut t [(.CLK_LOCK_SETUP_LOCK, 0)])
  ∧ (∀ (s : State) (k : Nat) (w r l : Bool), k < 2 →
    (s.f .CHL_PORT_STATUS_STATE k = 1 → ∃ t, exec (.chlPortTrainingComplete k (some (w, r, l))) s = .next t ∧ s.sameMem t
      ∧ t.portUp k = true ∧ t.flag .CHL_PORT_STATUS_WIDTH k = w ∧ t.flag .CHL_PORT_STATUS_RATE k = r
      ∧ t.flag .CHL_PORT_STATUS_LANES_REVERSED k = l)
    ∧ (s.f .CHL_PORT_STATUS_STATE k = 1 → s.chl.reqs = [] → s.chl.filter = [] → s.chl.waiting = [] → s.chl.snoops = [] →
      ∃ t, exec (.chlPortTrainingComplete k none) s = .next t ∧ t.f .CHL_PORT_STATUS_STATE k = 4
        ∧ t.f .CHL_PORT_STATUS_FAIL_CAUSE k = 1)
    ∧ (s.f .CHL_PORT_STATUS_STATE k = 3 → ∃ t, exec (.chlPortTrainingComplete k (some (w, r, l))) s = .next t ∧ s.sameMem t ∧ t.portUp k = true)
    ∧ (s.f .CHL_PORT_STATUS_STATE k = 3 → (s.port k).recoveries < 3 →
      ∃ t, exec (.chlPortTrainingComplete k none) s = .next t ∧ s.sameMem t ∧ t.f .CHL_PORT_STATUS_STATE k = 3
        ∧ t.port k = { s.port k with recoveries := (s.port k).recoveries + 1 }))

/-- Power. Everything but the fuses, the straps and the programmed log records is lost when power is: PWR_EN deasserted, a rail out of
regulation, over- and undervoltage, the input current limit, the rails' start timeout, the shutdown, whose record goes first; the
module then starts again only as R419 says. PWR_GOOD starts the part from reset values, POWER_LIMIT from TDP (R380, R392, R400,
R406, R414, R417 to R420). A connector whose VCBL draws too much stays off (R431).
Rests also on choices of the model: notes/assumptions/62.md, notes/assumptions/63.md, notes/assumptions/73.md, notes/assumptions/78.md. -/
def Obligations.ModulePower : Prop :=
  (∀ s : State, s.power.pwrEn = true → ∃ t, exec .pwrEnDeassert s = .next t ∧ PowerLost s t ∧ t.power.pwrEn = false
    ∧ t.power.converters = false ∧ t.power.latchedOff = s.power.latchedOff)
  ∧ (∀ (s : State) (ms : Nat), s.power.pwrEn = false → ∃ t, exec (.pwrEnAssert ms) s = .next t
    ∧ t = { s with power := { s.power with pwrEn := true, latchedOff := false, converters := s.power.converters || s.power.charged } })
  ∧ (∀ s : State, ∃ t, exec .vinApplied s = .next t
    ∧ t = { s with power := { s.power with
        vin := true, charged := true, converters := s.power.converters || (s.power.pwrEn && !s.power.latchedOff) } })
  ∧ (∀ s : State, s.power.converters = true → s.power.pwrGood = false → ∃ t, exec .powerOnReset s = .next t
    ∧ t.power.pwrGood = true ∧ t.power.resetN = true ∧ t.power.start = .inReset ∧ t.time = 0 ∧ t.sec = .reset ∧ t.cp = .reset
    ∧ t.fuses = s.fuses ∧ t.mgt.flash = s.mgt.flash ∧ t.f .CLK_RESET_CAUSE_CAUSE = 1
    ∧ ∀ x i, t.f x i = if (x, i) = (.MGT_LIMITS_POWER_LIMIT, 0) then s.variant.tdp else x.info.reset)
  ∧ (∀ (s : State) (r : Nat), s.power.pwrGood = true → s.variant.hasRail r = true →
    ∃ t, exec (.railOutOfRegulation r) s = .next t ∧ PowerLost s t)
  ∧ (∀ s : State, s.power.converters = true → s.power.pwrGood = false → ∃ t, exec .railStartTimeout s = .next t
    ∧ PowerLost s t ∧ t.power.converters = false ∧ t.power.latchedOff = true)
  ∧ (∀ s : State, s.power.vin = true → ∃ t, exec .vinOvervoltage s = .next t ∧ PowerLost s t ∧ t.power.converters = false
    ∧ t.power.latchedOff = true)
  ∧ (∀ s : State, ∃ t, exec .vinUndervoltage s = .next t ∧ PowerLost s t ∧ t.power.converters = false
    ∧ t.power.latchedOff = s.power.latchedOff)
  ∧ (∀ s : State, s.power.converters = true → ∃ t, exec .inputCurrentLimitTimeout s = .next t ∧ PowerLost s t
    ∧ t.power.converters = false ∧ t.power.latchedOff = true ∧ t.mgt.flash = s.mgt.flash)
  ∧ (∀ (s : State) (cause unit : Nat) (r : Int), s.mgt.shutdown = some (cause, unit, r) →
    ∃ t, exec .shutdownPowerOff s = .next t ∧ t.power.pwrGood = false ∧ t.power.converters = false ∧ t.power.latchedOff = true
      ∧ t.time = 0 ∧ t.cp = .reset ∧ t.tiles = []
      ∧ (s.procRunning 1 = true → s.flag .MGT_STATUS_LOG_READY = true → s.mgt.flash.get none s.mgt.head = none →
        (t.mgt.flash.get none s.mgt.head).map (fun x => (x.kind, x.body)) = some (3, [cause, unit, (r % 2 ^ 32).toNat])))
  ∧ (∀ (s : State) (k : Nat), s.running = true → k < s.variant.connectors →
    ∃ t, exec (.vcblOvercurrent k) s = .next t ∧ t = { s with power := { s.power with vcblOff := t.power.vcblOff } }
      ∧ ∀ j, t.power.vcblOff.get false j = (s.power.vcblOff.get false j || j == k))

/-- Register accesses over port 0. An access that breaks R10 reads all ones or is discarded and counts one access error; a read
shows each field in its place; a write sets the fields of a register without other effects by their access codes: RO kept, RW
set, RWL set until the lock, W1C cleared where 1 is written, within the field's clamp (R8, R10, R11, R309).
Rests also on choices of the model: notes/assumptions/69.md. -/
def Obligations.RegisterAccesses : Prop :=
  (∀ r : Reg, r.info.bytes = 4 ∨ r.info.bytes = 8) ∧
  (∀ (s : State) (h : BitVec 128) (o n : Nat), s.portUp 0 = true → State.regMsgOk 0x38 h.toNat = true → Msg.cfg h.toNat = false →
    Msg.length h.toNat = n → s.windowOffset 0 (Msg.addr h.toNat) = some o →
    let reads := fun v => ∃ t, exec (.mmrd 0 h) s = .next t ∧ s.sameMem t ∧ t.tiles = s.tiles
      ∧ MsgSent s t 0 (Msg.Is 0x3A (Msg.tag h.toNat) (toLE 16 v) false)
    ((o % n ≠ 0 ∨ (∃ r i, regAt o = some (r, i) ∧ r.info.bytes ≠ n) ∨ (n = 8 ∧ regAt o = none ∧ regAt (o + 4) ≠ none)) →
      reads (2 ^ (8 * n) - 1) ∧ ∃ t, exec (.mmrd 0 h) s = .next t
        ∧ (s.f .GLB_ACCESS_ERRORS_COUNT + 1 < 2 ^ 64 → t.f .GLB_ACCESS_ERRORS_COUNT = s.f .GLB_ACCESS_ERRORS_COUNT + 1))
    ∧ (∀ r i, regAt o = some (r, i) → o % n = 0 → r.info.bytes = n → s.regPresent r i = false → reads 0)
    ∧ (regAt o = none → o % n = 0 → (n = 8 → regAt (o + 4) = none) → reads 0)
    ∧ (∀ r i, regAt o = some (r, i) → o % n = 0 → r.info.bytes = n → s.regPresent r i = true →
      (∀ x ∈ r.fields, (s.fieldValue x i).isSome = true) →
      reads ((r.fields.map fun x => (s.fieldValue x i).getD 0 % 2 ^ x.width * 2 ^ x.info.lo).sum)))
  ∧ (∀ (s : State) (h : BitVec 128) (v : W64) (o n : Nat), s.portUp 0 = true → State.regMsgOk 0x39 h.toNat = true →
    Msg.cfg h.toNat = false → Msg.poison h.toNat = false → Msg.length h.toNat = n → s.windowOffset 0 (Msg.addr h.toNat) = some o →
    ((o % n ≠ 0 ∨ (∃ r i, regAt o = some (r, i) ∧ r.info.bytes ≠ n) ∨ (n = 8 ∧ regAt o = none ∧ regAt (o + 4) ≠ none)) →
      ∃ t, exec (.registerWrite 0 h v) s = .next t ∧ s.onlyFields t
      ∧ s.fieldsBut t (withWraps [(.GLB_ACCESS_ERRORS_COUNT, 0)])
      ∧ (s.f .GLB_ACCESS_ERRORS_COUNT + 1 < 2 ^ 64 → t.f .GLB_ACCESS_ERRORS_COUNT = s.f .GLB_ACCESS_ERRORS_COUNT + 1))
    ∧ (∀ r i, regAt o = some (r, i) → o % n = 0 → r.info.bytes = n → s.regPresent r i = false → exec (.registerWrite 0 h v) s = .next s)
    ∧ (regAt o = none → o % n = 0 → (n = 8 → regAt (o + 4) = none) → exec (.registerWrite 0 h v) s = .next s)
    ∧ (∀ r i, regAt o = some (r, i) → o % n = 0 → r.info.bytes = n → s.regPresent r i = true → s.writeHeld r i = false →
      r ∉ actingRegs → (r = .SEQ_SETUP → ∀ q ∈ s.gangTiles i, (s.tile q).seq.halt = none) →
      ∃ t, exec (.registerWrite 0 h v) s = .next t ∧ s.onlyFields t ∧ s.fieldsBut t (r.fields.map (·, i))
        ∧ ∀ x ∈ r.fields, x ≠ .HBM_SETUP_TRIP_C →
          let w := v.toNat / 2 ^ x.info.lo % 2 ^ x.width
          match x.info.acc with
          | .ro | .wo => t.f x i = s.f x i
          | .rw => t.f x i = s.clampField x i w % 2 ^ x.width
          | .rwl => t.f x i = if s.flag .CLK_LOCK_SETUP_LOCK = true then s.f x i else s.clampField x i w % 2 ^ x.width
          | .w1c => ∀ b, b < x.width → bit (t.f x i) b = (bit (s.f x i) b && !bit w b)))

/-- The link configuration space and what has no register. A configuration write sets the port's APERTURE, REG_BASE and enables; a
configuration read shows them; an access outside REG_BASE or on port 1 is answered with NOHOME, CODE 3, one with a reserved
field with CODE 1 (R302, R309).
Rests also on choices of the model: notes/assumptions/45.md, notes/assumptions/46.md. -/
def Obligations.LinkConfiguration : Prop :=
  ∀ (s : State) (k : Nat) (h : BitVec 128), k < 2 → s.portUp k = true →
    let a := Msg.addr h.toNat
    let cfg := Msg.cfg h.toNat = true
    let nohome := fun (c : Instr) (code : Nat) => ∃ t, exec c s = .next t ∧ s.sameMem t ∧ t.tiles = s.tiles
      ∧ MsgSent s t k (fun m => Msg.Is 0x22 (Msg.tag h.toNat) [] false m ∧ m.hdr / 2 ^ 108 % 2 ^ 4 = code)
    (∀ v : W64, State.regMsgOk 0x39 h.toNat = true → Msg.poison h.toNat = false → cfg →
      (Msg.length h.toNat = 8 → a = 8 → ∃ t, exec (.registerWrite k h v) s = .next t
        ∧ t = { s with chl := { s.chl with ports := t.chl.ports } } ∧ (∀ j, j ≠ k → t.port j = s.port j)
        ∧ t.port k = { s.port k with aperture := v.toNat / 2 ^ 42 % 2 ^ 10 * 2 ^ 42 })
      ∧ (Msg.length h.toNat = 8 → a = 16 → k = 0 → ∃ t, exec (.registerWrite k h v) s = .next t
        ∧ t = { s with chl := { s.chl with ports := t.chl.ports } } ∧ (∀ j, j ≠ k → t.port j = s.port j)
        ∧ t.port k = { s.port k with regBase := v.toNat / 2 ^ 26 % 2 ^ 26 * 2 ^ 26 })
      ∧ (Msg.length h.toNat = 4 → a = 24 → ∃ t, exec (.registerWrite k h v) s = .next t ∧ s.sameMem t ∧ t.tiles = s.tiles
        ∧ (t.port k).memEn = v.getLsbD 0 ∧ (t.port k).regEn = (v.getLsbD 1 && k == 0) ∧ (t.port k).reqEn = v.getLsbD 2
        ∧ (t.port k).intrEn = v.getLsbD 3))
    ∧ (∀ x n, State.regMsgOk 0x38 h.toNat = true → cfg → Msg.length h.toNat = n →
      (a, n, x) ∈ [(0, 4, 0x5A71 + k * 2 ^ 16), (8, 8, (s.port k).aperture), (16, 8, (s.port k).regBase),
        (24, 4, b2n (s.port k).memEn + b2n (s.port k).regEn * 2 + b2n (s.port k).reqEn * 4 + b2n (s.port k).intrEn * 8)] →
      ∃ t, exec (.mmrd k h) s = .next t ∧ s.sameMem t ∧ MsgSent s t k (Msg.Is 0x3A (Msg.tag h.toNat) (toLE 16 x) false))
    ∧ (State.regMsgOk 0x38 h.toNat = true → ¬ cfg → (k = 1 ∨ a / 2 ^ 26 * 2 ^ 26 ≠ (s.port 0).regBase) → nohome (.mmrd k h) 3)
    ∧ (∀ v, State.regMsgOk 0x39 h.toNat = true → Msg.poison h.toNat = false → ¬ cfg → (k = 1 ∨ a / 2 ^ 26 * 2 ^ 26 ≠ (s.port 0).regBase) →
      nohome (.registerWrite k h v) 3)
    ∧ (State.regMsgOk 0x38 h.toNat = false → nohome (.mmrd k h) 1)
    ∧ (∀ v, State.regMsgOk 0x39 h.toNat = false → nohome (.registerWrite k h v) 1)

/-- The JTAG port. IDCODE captures the identification of R428; SAMPLE/PRELOAD samples and loads the cells; EXTEST, CLAMP and HIGHZ
take over the contacts while the part does not run, and are refused while it runs, which R428 leaves undefined; a register
access follows the rules of a port-0 access, its data captured next, and before the start reads all ones; a TAP reset resets the
JTAG logic alone (R400, R428, R429).
Rests also on choices of the model: notes/assumptions/70.md. -/
def Obligations.JtagPort : Prop :=
  ∀ s : State, s.power.pwrGood = true →
    let part := match s.variant with
      | .dnq880 => 0x0880 | .dnq860 => 0x0860 | .dnq840 => 0x0840 | .dnq480 => 0x0480 | .dnq440 => 0x0440 | .dnq220 => 0x0220
    let only := fun (t : State) => t = { s with jtag := t.jtag, freeIx := t.freeIx }
    (∃ t, exec .idcode s = .next t ∧ only t
      ∧ t.jtag = { s.jtag with
          ir := 1, captured := 1 + 0x3B5 * 2 + part * 2 ^ 12 + s.fuses.stepping % 16 * 2 ^ 28, driven := none, floated := false })
    ∧ (∃ t, exec .bypass s = .next t ∧ only t
      ∧ t.jtag = { s.jtag with ir := 0x3F, captured := 0, driven := none, floated := false })
    ∧ (∀ cells : BitVec 11, ∃ t, exec (.samplePreload cells) s = .next t ∧ only t ∧ t.jtag.ir = 2 ∧ t.jtag.cells = cells.toNat
      ∧ t.jtag.driven = none ∧ bit t.jtag.captured 0 = s.power.pwrEn ∧ bit t.jtag.captured 1 = true
      ∧ bit t.jtag.captured 3 = !s.power.resetN)
    ∧ (s.running = false →
      (∃ t, exec .extest s = .next t ∧ only t ∧ t.jtag.ir = 0 ∧ t.jtag.driven = some s.jtag.cells)
      ∧ (∃ t, exec .clamp s = .next t ∧ only t ∧ t.jtag.ir = 3 ∧ t.jtag.driven = some s.jtag.cells ∧ t.jtag.captured = 0)
      ∧ (∃ t, exec .highz s = .next t ∧ only t ∧ t.jtag.ir = 4 ∧ t.jtag.driven = none ∧ t.jtag.floated = true)
      ∧ (∀ dr : BitVec 98, ∃ t, exec (.registerAccess dr) s = .next t ∧ only t
        ∧ (dr.getLsbD 97 = false → t.jtag.readData = 2 ^ (if dr.getLsbD 96 = true then 64 else 32) - 1)
        ∧ (dr.getLsbD 97 = true → t.jtag.readData = s.jtag.readData)))
    ∧ (s.running = true → ∀ c ∈ [Instr.extest, .clamp, .highz], exec c s = .refused .boundaryScanWhileRunning)
    ∧ (s.running = true → ∀ dr : BitVec 98,
      let o := dr.toNat / 2 ^ 64 % 2 ^ 32
      let n := if dr.getLsbD 96 = true then 8 else 4
      let u := { s with jtag := { s.jtag with ir := 0x20, captured := s.jtag.readData, driven := none, floated := false } }
      (dr.getLsbD 97 = true → exec (.registerAccess dr) s = .next (u.regWrite o n (dr.toNat % 2 ^ 64)))
      ∧ (∀ r i, dr.getLsbD 97 = false → regAt o = some (r, i) → o % n = 0 → r.info.bytes = n → s.regPresent r i = false →
        ∃ t, exec (.registerAccess dr) s = .next t ∧ only t ∧ t.jtag.ir = 0x20 ∧ t.jtag.captured = s.jtag.readData
          ∧ t.jtag.readData = 0)
      ∧ (dr.getLsbD 97 = false → o % n ≠ 0 → ∃ t, exec (.registerAccess dr) s = .next t ∧ t.jtag.readData = 2 ^ (8 * n) - 1
          ∧ t = { s with jtag := t.jtag, fields := t.fields }
          ∧ (s.f .GLB_ACCESS_ERRORS_COUNT + 1 < 2 ^ 64 → t.f .GLB_ACCESS_ERRORS_COUNT = s.f .GLB_ACCESS_ERRORS_COUNT + 1)))
    ∧ exec .tapReset s = .next { s with jtag := .reset } ∧ Jtag.reset.ir = 1

/-! ### The block (00_scope.md, 16_clocks_reset_and_time.md) -/

/-- A step takes the command at the front of the queue and runs it on the state with the rest of the queue. On an empty queue of a
part with power and REF one REF cycle passes: GLB_POWERED_TIME counts it (R410; the model's choice, notes/assumptions/3.md). -/
def Obligations.StepRunsTheFrontCommand : Prop :=
  (∀ (s : State) (c : Instr) (rest : List Instr), s.pending = c :: rest → step s = exec c { s with pending := rest })
  ∧ (∀ s : State, s.pending = [] → s.power.pwrGood = true → s.power.start ≠ .refLost → s.time + 1 < 2 ^ 64 →
    ∃ t, step s = .next t ∧ t.time = s.time + 1 ∧ s.sameMem t ∧ t.tiles = s.tiles ∧ t.pending = [])
  ∧ (∀ s : State, s.pending = [] → (s.power.pwrGood = false ∨ s.power.start = .refLost) → step s = .next s)

/-- The state before RESET_N is released after power-on: every register field has its reset value, POWER_LIMIT is TDP, the cause is
power-on, every tile is idle, every context FREE, every link DISABLED, MCLK at 700 MHz, no command waits; and the maps of State
are canonical (R375, R400, R406).
Rests also on choices of the model: notes/assumptions/1.md, notes/assumptions/2.md, notes/assumptions/5.md, notes/assumptions/6.md, notes/assumptions/7.md. -/
def Obligations.ResetState : Prop :=
  (∀ x i, State.reset.f x i = if (x, i) = (.MGT_LIMITS_POWER_LIMIT, 0) then State.reset.variant.tdp else x.info.reset)
  ∧ State.reset.f .CLK_RESET_CAUSE_CAUSE = 1 ∧ State.reset.time = 0 ∧ State.reset.pending = [] ∧ State.reset.running = false
  ∧ (∀ p, (State.reset.tile p).seq.run = .idle) ∧ (∀ c, State.reset.ctxState c = 0) ∧ (∀ l, State.reset.linkState l = 0)
  ∧ (∀ d, State.reset.mclk d = 700) ∧ (∀ k, State.reset.mr k = 0) ∧ State.reset.canonical

/-- Every step keeps part memory, eyespots and register fields in canonical form: keys rise strictly, no entry has the value of an
unlisted key, and every register field lies within its width. -/
def Obligations.StepKeepsCanonicalForm : Prop :=
  ∀ s t : State, s.canonical → step s = .next t → t.canonical

/-- Instruction words carry every operand. CLASS, OP and the fields of a thread word are read back from the word that they make,
and every 64-bit word is the word of what is read from it; the same holds of the S-R and S-I formats (R164, R181). -/
def Obligations.InstructionWords : Prop :=
  (∀ (cls op : Nat) (f : ThreadFields), cls < 16 → op < 64 →
    let w := f.word cls op
    w < 2 ^ 64 ∧ threadClass w = cls ∧ threadOp w = op ∧ ThreadFields.ofWord w = f)
  ∧ (∀ w, w < 2 ^ 64 → (ThreadFields.ofWord w).word (threadClass w) (threadOp w) = w)
  ∧ (∀ (op : Nat) (f : ScalarR), op < 64 → ScalarR.ofWord (f.word op) = f ∧ streamOpcode (f.word op) = op ∧ f.word op < 2 ^ 64)
  ∧ (∀ (op : Nat) (f : ScalarI), op < 64 → ScalarI.ofWord (f.word op) = f ∧ streamOpcode (f.word op) = op ∧ f.word op < 2 ^ 64)
end

