-- ==== Sys2Proof/Decode.lean ====
section
/-!
DEFINITION. The decoder that the host asks for. spec/opcode_table.json gives none of its rows any bits: the commands of
the block are events, so no word spells one. The words of the streams' and threads' instructions (07) are decoded in
Sys2Proof/Machine/Hexist.lean.
-/
namespace Sys2Proof

/-- No word spells a command. -/
def decodeTableWord (_nbits _w : Nat) : Option Instr := none

end Sys2Proof
end

