-- ==== Sys2Proof/Laws/FMap.lean ====
section
/-!
SUPPORT. Laws of finite maps: a value read after a write, and the canonical form, which every operation keeps.
-/
namespace Sys2Proof.Machine

variable {α : Type}

@[simp] theorem FMap.get_nil (d : α) (k : Nat) : FMap.get d [] k = d := rfl

theorem FMap.get_erase_self (d : α) (m : FMap α) (k : Nat) : (m.erase k).get d k = d := by
  induction m with
  | nil => rfl
  | cons x m ih =>
    obtain ⟨j, v⟩ := x
    by_cases h : j = k <;> simp [FMap.erase, FMap.get, h, ih]

theorem FMap.get_erase_other (d : α) (m : FMap α) {k j : Nat} (h : j ≠ k) : (m.erase k).get d j = m.get d j := by
  induction m with
  | nil => rfl
  | cons x m ih =>
    obtain ⟨i, v⟩ := x
    by_cases hi : i = k
    · have : i ≠ j := fun e => h (e ▸ hi)
      simp [FMap.erase, FMap.get, hi, ih, hi ▸ this]
    · simp [FMap.erase, FMap.get, hi, ih]

theorem FMap.get_insert_other (d : α) (m : FMap α) {k j : Nat} (v : α) (h : j ≠ k) :
    (m.insert k v).get d j = m.get d j := by
  induction m with
  | nil => simp [FMap.insert, FMap.get, Ne.symm h]
  | cons x m ih =>
    obtain ⟨i, w⟩ := x
    by_cases hi : k < i <;> simp [FMap.insert, FMap.get, hi, ih, Ne.symm h]

theorem FMap.get_insert_erase (d : α) (m : FMap α) (k : Nat) (v : α) : ((m.erase k).insert k v).get d k = v := by
  induction m with
  | nil => simp [FMap.erase, FMap.insert, FMap.get]
  | cons x m ih =>
    obtain ⟨i, w⟩ := x
    by_cases hi : i = k
    · simpa [FMap.erase, hi] using ih
    · by_cases hk : k < i <;> simp [FMap.erase, FMap.insert, FMap.get, hi, hk, ih]

variable [DecidableEq α]

/-- A key reads what was last put there, in any map. -/
@[simp] theorem FMap.get_put_self (d : α) (m : FMap α) (k : Nat) (v : α) : (m.put d k v).get d k = v := by
  by_cases h : v = d
  · simp [FMap.put, h, FMap.get_erase_self]
  · simp [FMap.put, h, FMap.get_insert_erase]

/-- A put leaves every other key alone. -/
theorem FMap.get_put_other (d : α) (m : FMap α) {k j : Nat} (v : α) (h : j ≠ k) :
    (m.put d k v).get d j = m.get d j := by
  by_cases hv : v = d
  · simp [FMap.put, hv, FMap.get_erase_other d m h]
  · simp [FMap.put, hv, FMap.get_insert_other d _ v h, FMap.get_erase_other d m h]

theorem FMap.get_put (d : α) (m : FMap α) (k j : Nat) (v : α) :
    (m.put d k v).get d j = if j = k then v else m.get d j := by
  by_cases h : j = k
  · simp [h]
  · simp [h, FMap.get_put_other d m v h]

@[simp] theorem FMap.get_upd_self (d : α) (m : FMap α) (k : Nat) (f : α → α) :
    (m.upd d k f).get d k = f (m.get d k) := by simp [FMap.upd]

theorem FMap.get_upd_other (d : α) (m : FMap α) {k j : Nat} (f : α → α) (h : j ≠ k) :
    (m.upd d k f).get d j = m.get d j := by simp [FMap.upd, FMap.get_put_other d m _ h]

/-- What a list stored from `k` on leaves at a key: its own byte, or what was there. -/
theorem FMap.get_putList (d : α) (bs : List α) (m : FMap α) (k j : Nat) :
    (m.putList d k bs).get d j = if k ≤ j ∧ j < k + bs.length then bs.getD (j - k) d else m.get d j := by
  induction bs generalizing m k with
  | nil => simp [FMap.putList]
  | cons b bs ih =>
    rw [FMap.putList, ih, FMap.get_put]
    rcases Nat.lt_trichotomy j k with h | h | h
    · rw [if_neg (by omega), if_neg (by omega), if_neg (by simp; omega)]
    · subst h
      rw [if_neg (by omega), if_pos rfl, if_pos (by simp)]
      simp
    · by_cases hj : j < k + 1 + bs.length
      · rw [if_pos (by omega), if_pos (by simp; omega)]
        obtain ⟨n, rfl⟩ : ∃ n, j = k + 1 + n := ⟨j - (k + 1), by omega⟩
        have h1 : k + 1 + n - (k + 1) = n := by omega
        have h2 : k + 1 + n - k = n + 1 := by omega
        rw [h1, h2]; rfl
      · rw [if_neg (by omega), if_neg (by omega), if_neg (by simp; omega)]

/-! ### The canonical form -/

theorem FMap.wfBy_mono (ok : Nat → α → Bool) {m : FMap α} {b c : Nat} (hb : b ≤ c) (h : FMap.wfBy ok c m = true) :
    FMap.wfBy ok b m = true := by
  cases m with
  | nil => rfl
  | cons x m =>
    obtain ⟨j, v⟩ := x
    simp only [FMap.wfBy, Bool.and_eq_true, decide_eq_true_eq] at h ⊢
    exact ⟨⟨by omega, h.1.2⟩, h.2⟩

theorem FMap.wfBy_erase (ok : Nat → α → Bool) {m : FMap α} (k b : Nat) (h : FMap.wfBy ok b m = true) :
    FMap.wfBy ok b (m.erase k) = true := by
  induction m generalizing b with
  | nil => exact h
  | cons x m ih =>
    obtain ⟨j, v⟩ := x
    simp only [FMap.wfBy, Bool.and_eq_true, decide_eq_true_eq] at h
    by_cases hj : j = k
    · simp only [FMap.erase, hj, if_pos]
      exact FMap.wfBy_mono ok (by omega) (ih _ h.2)
    · simp only [FMap.erase, hj, if_neg, FMap.wfBy, Bool.and_eq_true, decide_eq_true_eq, not_false_eq_true]
      exact ⟨h.1, ih _ h.2⟩

theorem FMap.wfBy_insert (ok : Nat → α → Bool) {m : FMap α} (k b : Nat) (v : α) (hv : ok k v = true) (hb : b ≤ k)
    (h : FMap.wfBy ok b m = true) (hk : ∀ x ∈ m, x.1 ≠ k) : FMap.wfBy ok b (m.insert k v) = true := by
  induction m generalizing b with
  | nil => simp [FMap.insert, FMap.wfBy, hv, hb]
  | cons x m ih =>
    obtain ⟨j, w⟩ := x
    have hj : j ≠ k := hk (j, w) (List.mem_cons_self ..)
    simp only [FMap.wfBy, Bool.and_eq_true, decide_eq_true_eq] at h
    by_cases hlt : k < j
    · simp only [FMap.insert, hlt, if_pos, FMap.wfBy, Bool.and_eq_true, decide_eq_true_eq]
      exact ⟨⟨hb, hv⟩, ⟨by omega, h.1.2⟩, h.2⟩
    · simp only [FMap.insert, hlt, if_neg, FMap.wfBy, Bool.and_eq_true, decide_eq_true_eq, not_false_eq_true]
      exact ⟨h.1, ih _ (by omega) h.2 fun x hx => hk x (List.mem_cons_of_mem _ hx)⟩

omit [DecidableEq α] in
theorem FMap.erase_ne (m : FMap α) (k : Nat) : ∀ x ∈ m.erase k, x.1 ≠ k := by
  induction m with
  | nil => simp [FMap.erase]
  | cons y m ih =>
    obtain ⟨j, v⟩ := y
    by_cases h : j = k
    · simpa [FMap.erase, h] using ih
    · simp only [FMap.erase, h, if_neg, not_false_eq_true, List.mem_cons, forall_eq_or_imp, ne_eq]
      exact ⟨trivial, ih⟩

/-- A put keeps the canonical form. -/
theorem FMap.wf_put (d : α) {m : FMap α} (k : Nat) (v : α) (h : m.wf d = true) : (m.put d k v).wf d = true := by
  by_cases hv : v = d
  · simpa [FMap.put, hv, FMap.wf] using FMap.wfBy_erase _ k 0 h
  · simp only [FMap.put, hv, if_neg, not_false_eq_true, FMap.wf]
    exact FMap.wfBy_insert _ k 0 v (by simpa using hv) (Nat.zero_le _) (FMap.wfBy_erase _ k 0 h) (FMap.erase_ne m k)

theorem FMap.wf_upd (d : α) {m : FMap α} (k : Nat) (f : α → α) (h : m.wf d = true) : (m.upd d k f).wf d = true :=
  FMap.wf_put d k _ h

theorem FMap.wf_putList (d : α) (bs : List α) {m : FMap α} (k : Nat) (h : m.wf d = true) :
    (m.putList d k bs).wf d = true := by
  induction bs generalizing m k with
  | nil => exact h
  | cons b bs ih => exact ih _ (FMap.wf_put d k b h)

/-- Filtering keeps the canonical form. -/
theorem FMap.wfBy_filter (ok : Nat → α → Bool) (q : Nat × α → Bool) {m : FMap α} (b : Nat) (h : FMap.wfBy ok b m = true) :
    FMap.wfBy ok b (List.filter q m) = true := by
  induction m generalizing b with
  | nil => exact h
  | cons x m ih =>
    obtain ⟨j, v⟩ := x
    simp only [FMap.wfBy, Bool.and_eq_true, decide_eq_true_eq] at h
    by_cases hq : q (j, v) = true
    · rw [List.filter_cons_of_pos hq]
      simp only [FMap.wfBy, Bool.and_eq_true, decide_eq_true_eq]
      exact ⟨h.1, ih _ h.2⟩
    · rw [List.filter_cons_of_neg hq]
      exact FMap.wfBy_mono ok (by omega) (ih _ h.2)

theorem FMap.wf_filter (d : α) (q : Nat × α → Bool) {m : FMap α} (h : m.wf d = true) :
    FMap.wf d (List.filter q m) = true := FMap.wfBy_filter _ q 0 h

/-- Two maps in canonical form that read alike are equal. -/
theorem FMap.wfBy_get_low (d : α) {m : FMap α} {b k : Nat} (h : FMap.wfBy (fun _ v => decide (v ≠ d)) b m = true) (hk : k < b) :
    m.get d k = d := by
  induction m generalizing b with
  | nil => rfl
  | cons x m ih =>
    obtain ⟨j, v⟩ := x
    simp only [FMap.wfBy, Bool.and_eq_true, decide_eq_true_eq] at h
    rw [FMap.get, if_neg (by omega)]
    exact ih h.2 (by omega)

end Sys2Proof.Machine
end

