-- ==== Sys2Proof/Laws/State.lean ====
section
/-!
SUPPORT. Laws of the state: for each named update, every component of State that it leaves alone, and what the
components it changes read as afterwards.
-/
namespace Sys2Proof.Machine.State

variable (s : State)

/-! ### What an update leaves alone -/

@[simp] theorem setF_fuses (x : Fld) (i v : Nat) : (s.setF x i v).fuses = s.fuses := rfl
@[simp] theorem setF_straps (x : Fld) (i v : Nat) : (s.setF x i v).straps = s.straps := rfl
@[simp] theorem setF_mem (x : Fld) (i v : Nat) : (s.setF x i v).mem = s.mem := rfl
@[simp] theorem setF_eyes (x : Fld) (i v : Nat) : (s.setF x i v).eyes = s.eyes := rfl
@[simp] theorem setF_hbm (x : Fld) (i v : Nat) : (s.setF x i v).hbm = s.hbm := rfl
@[simp] theorem setF_tiles (x : Fld) (i v : Nat) : (s.setF x i v).tiles = s.tiles := rfl
@[simp] theorem setF_dies (x : Fld) (i v : Nat) : (s.setF x i v).dies = s.dies := rfl
@[simp] theorem setF_invals (x : Fld) (i v : Nat) : (s.setF x i v).invals = s.invals := rfl
@[simp] theorem setF_cp (x : Fld) (i v : Nat) : (s.setF x i v).cp = s.cp := rfl
@[simp] theorem setF_chl (x : Fld) (i v : Nat) : (s.setF x i v).chl = s.chl := rfl
@[simp] theorem setF_fab (x : Fld) (i v : Nat) : (s.setF x i v).fab = s.fab := rfl
@[simp] theorem setF_sec (x : Fld) (i v : Nat) : (s.setF x i v).sec = s.sec := rfl
@[simp] theorem setF_mgt (x : Fld) (i v : Nat) : (s.setF x i v).mgt = s.mgt := rfl
@[simp] theorem setF_power (x : Fld) (i v : Nat) : (s.setF x i v).power = s.power := rfl
@[simp] theorem setF_jtag (x : Fld) (i v : Nat) : (s.setF x i v).jtag = s.jtag := rfl
@[simp] theorem setF_i3c (x : Fld) (i v : Nat) : (s.setF x i v).i3c = s.i3c := rfl
@[simp] theorem setF_roots (x : Fld) (i v : Nat) : (s.setF x i v).roots = s.roots := rfl
@[simp] theorem setF_fences (x : Fld) (i v : Nat) : (s.setF x i v).fences = s.fences := rfl
@[simp] theorem setF_fenceQueue (x : Fld) (i v : Nat) : (s.setF x i v).fenceQueue = s.fenceQueue := rfl
@[simp] theorem setF_time (x : Fld) (i v : Nat) : (s.setF x i v).time = s.time := rfl
@[simp] theorem setF_nextId (x : Fld) (i v : Nat) : (s.setF x i v).nextId = s.nextId := rfl
@[simp] theorem setF_freeIx (x : Fld) (i v : Nat) : (s.setF x i v).freeIx = s.freeIx := rfl
@[simp] theorem setF_pending (x : Fld) (i v : Nat) : (s.setF x i v).pending = s.pending := rfl

@[simp] theorem setFlag_fuses (x : Fld) (i : Nat) (b : Bool) : (s.setFlag x i b).fuses = s.fuses := rfl
@[simp] theorem setFlag_straps (x : Fld) (i : Nat) (b : Bool) : (s.setFlag x i b).straps = s.straps := rfl
@[simp] theorem setFlag_mem (x : Fld) (i : Nat) (b : Bool) : (s.setFlag x i b).mem = s.mem := rfl
@[simp] theorem setFlag_eyes (x : Fld) (i : Nat) (b : Bool) : (s.setFlag x i b).eyes = s.eyes := rfl
@[simp] theorem setFlag_hbm (x : Fld) (i : Nat) (b : Bool) : (s.setFlag x i b).hbm = s.hbm := rfl
@[simp] theorem setFlag_tiles (x : Fld) (i : Nat) (b : Bool) : (s.setFlag x i b).tiles = s.tiles := rfl
@[simp] theorem setFlag_dies (x : Fld) (i : Nat) (b : Bool) : (s.setFlag x i b).dies = s.dies := rfl
@[simp] theorem setFlag_invals (x : Fld) (i : Nat) (b : Bool) : (s.setFlag x i b).invals = s.invals := rfl
@[simp] theorem setFlag_cp (x : Fld) (i : Nat) (b : Bool) : (s.setFlag x i b).cp = s.cp := rfl
@[simp] theorem setFlag_chl (x : Fld) (i : Nat) (b : Bool) : (s.setFlag x i b).chl = s.chl := rfl
@[simp] theorem setFlag_fab (x : Fld) (i : Nat) (b : Bool) : (s.setFlag x i b).fab = s.fab := rfl
@[simp] theorem setFlag_sec (x : Fld) (i : Nat) (b : Bool) : (s.setFlag x i b).sec = s.sec := rfl
@[simp] theorem setFlag_mgt (x : Fld) (i : Nat) (b : Bool) : (s.setFlag x i b).mgt = s.mgt := rfl
@[simp] theorem setFlag_power (x : Fld) (i : Nat) (b : Bool) : (s.setFlag x i b).power = s.power := rfl
@[simp] theorem setFlag_jtag (x : Fld) (i : Nat) (b : Bool) : (s.setFlag x i b).jtag = s.jtag := rfl
@[simp] theorem setFlag_i3c (x : Fld) (i : Nat) (b : Bool) : (s.setFlag x i b).i3c = s.i3c := rfl
@[simp] theorem setFlag_roots (x : Fld) (i : Nat) (b : Bool) : (s.setFlag x i b).roots = s.roots := rfl
@[simp] theorem setFlag_fences (x : Fld) (i : Nat) (b : Bool) : (s.setFlag x i b).fences = s.fences := rfl
@[simp] theorem setFlag_fenceQueue (x : Fld) (i : Nat) (b : Bool) : (s.setFlag x i b).fenceQueue = s.fenceQueue := rfl
@[simp] theorem setFlag_time (x : Fld) (i : Nat) (b : Bool) : (s.setFlag x i b).time = s.time := rfl
@[simp] theorem setFlag_nextId (x : Fld) (i : Nat) (b : Bool) : (s.setFlag x i b).nextId = s.nextId := rfl
@[simp] theorem setFlag_freeIx (x : Fld) (i : Nat) (b : Bool) : (s.setFlag x i b).freeIx = s.freeIx := rfl
@[simp] theorem setFlag_pending (x : Fld) (i : Nat) (b : Bool) : (s.setFlag x i b).pending = s.pending := rfl

@[simp] theorem orBit_fuses (x : Fld) (i n : Nat) : (s.orBit x i n).fuses = s.fuses := rfl
@[simp] theorem orBit_straps (x : Fld) (i n : Nat) : (s.orBit x i n).straps = s.straps := rfl
@[simp] theorem orBit_mem (x : Fld) (i n : Nat) : (s.orBit x i n).mem = s.mem := rfl
@[simp] theorem orBit_eyes (x : Fld) (i n : Nat) : (s.orBit x i n).eyes = s.eyes := rfl
@[simp] theorem orBit_hbm (x : Fld) (i n : Nat) : (s.orBit x i n).hbm = s.hbm := rfl
@[simp] theorem orBit_tiles (x : Fld) (i n : Nat) : (s.orBit x i n).tiles = s.tiles := rfl
@[simp] theorem orBit_dies (x : Fld) (i n : Nat) : (s.orBit x i n).dies = s.dies := rfl
@[simp] theorem orBit_invals (x : Fld) (i n : Nat) : (s.orBit x i n).invals = s.invals := rfl
@[simp] theorem orBit_cp (x : Fld) (i n : Nat) : (s.orBit x i n).cp = s.cp := rfl
@[simp] theorem orBit_chl (x : Fld) (i n : Nat) : (s.orBit x i n).chl = s.chl := rfl
@[simp] theorem orBit_fab (x : Fld) (i n : Nat) : (s.orBit x i n).fab = s.fab := rfl
@[simp] theorem orBit_sec (x : Fld) (i n : Nat) : (s.orBit x i n).sec = s.sec := rfl
@[simp] theorem orBit_mgt (x : Fld) (i n : Nat) : (s.orBit x i n).mgt = s.mgt := rfl
@[simp] theorem orBit_power (x : Fld) (i n : Nat) : (s.orBit x i n).power = s.power := rfl
@[simp] theorem orBit_jtag (x : Fld) (i n : Nat) : (s.orBit x i n).jtag = s.jtag := rfl
@[simp] theorem orBit_i3c (x : Fld) (i n : Nat) : (s.orBit x i n).i3c = s.i3c := rfl
@[simp] theorem orBit_roots (x : Fld) (i n : Nat) : (s.orBit x i n).roots = s.roots := rfl
@[simp] theorem orBit_fences (x : Fld) (i n : Nat) : (s.orBit x i n).fences = s.fences := rfl
@[simp] theorem orBit_fenceQueue (x : Fld) (i n : Nat) : (s.orBit x i n).fenceQueue = s.fenceQueue := rfl
@[simp] theorem orBit_time (x : Fld) (i n : Nat) : (s.orBit x i n).time = s.time := rfl
@[simp] theorem orBit_nextId (x : Fld) (i n : Nat) : (s.orBit x i n).nextId = s.nextId := rfl
@[simp] theorem orBit_freeIx (x : Fld) (i n : Nat) : (s.orBit x i n).freeIx = s.freeIx := rfl
@[simp] theorem orBit_pending (x : Fld) (i n : Nat) : (s.orBit x i n).pending = s.pending := rfl

@[simp] theorem bump_fuses (c : Fld) (i n : Nat) : (s.bump c i n).fuses = s.fuses := by unfold State.bump; dsimp only; split <;> (try split) <;> rfl
@[simp] theorem bump_straps (c : Fld) (i n : Nat) : (s.bump c i n).straps = s.straps := by unfold State.bump; dsimp only; split <;> (try split) <;> rfl
@[simp] theorem bump_mem (c : Fld) (i n : Nat) : (s.bump c i n).mem = s.mem := by unfold State.bump; dsimp only; split <;> (try split) <;> rfl
@[simp] theorem bump_eyes (c : Fld) (i n : Nat) : (s.bump c i n).eyes = s.eyes := by unfold State.bump; dsimp only; split <;> (try split) <;> rfl
@[simp] theorem bump_hbm (c : Fld) (i n : Nat) : (s.bump c i n).hbm = s.hbm := by unfold State.bump; dsimp only; split <;> (try split) <;> rfl
@[simp] theorem bump_tiles (c : Fld) (i n : Nat) : (s.bump c i n).tiles = s.tiles := by unfold State.bump; dsimp only; split <;> (try split) <;> rfl
@[simp] theorem bump_dies (c : Fld) (i n : Nat) : (s.bump c i n).dies = s.dies := by unfold State.bump; dsimp only; split <;> (try split) <;> rfl
@[simp] theorem bump_invals (c : Fld) (i n : Nat) : (s.bump c i n).invals = s.invals := by unfold State.bump; dsimp only; split <;> (try split) <;> rfl
@[simp] theorem bump_cp (c : Fld) (i n : Nat) : (s.bump c i n).cp = s.cp := by unfold State.bump; dsimp only; split <;> (try split) <;> rfl
@[simp] theorem bump_chl (c : Fld) (i n : Nat) : (s.bump c i n).chl = s.chl := by unfold State.bump; dsimp only; split <;> (try split) <;> rfl
@[simp] theorem bump_fab (c : Fld) (i n : Nat) : (s.bump c i n).fab = s.fab := by unfold State.bump; dsimp only; split <;> (try split) <;> rfl
@[simp] theorem bump_sec (c : Fld) (i n : Nat) : (s.bump c i n).sec = s.sec := by unfold State.bump; dsimp only; split <;> (try split) <;> rfl
@[simp] theorem bump_mgt (c : Fld) (i n : Nat) : (s.bump c i n).mgt = s.mgt := by unfold State.bump; dsimp only; split <;> (try split) <;> rfl
@[simp] theorem bump_power (c : Fld) (i n : Nat) : (s.bump c i n).power = s.power := by unfold State.bump; dsimp only; split <;> (try split) <;> rfl
@[simp] theorem bump_jtag (c : Fld) (i n : Nat) : (s.bump c i n).jtag = s.jtag := by unfold State.bump; dsimp only; split <;> (try split) <;> rfl
@[simp] theorem bump_i3c (c : Fld) (i n : Nat) : (s.bump c i n).i3c = s.i3c := by unfold State.bump; dsimp only; split <;> (try split) <;> rfl
@[simp] theorem bump_roots (c : Fld) (i n : Nat) : (s.bump c i n).roots = s.roots := by unfold State.bump; dsimp only; split <;> (try split) <;> rfl
@[simp] theorem bump_fences (c : Fld) (i n : Nat) : (s.bump c i n).fences = s.fences := by unfold State.bump; dsimp only; split <;> (try split) <;> rfl
@[simp] theorem bump_fenceQueue (c : Fld) (i n : Nat) : (s.bump c i n).fenceQueue = s.fenceQueue := by unfold State.bump; dsimp only; split <;> (try split) <;> rfl
@[simp] theorem bump_time (c : Fld) (i n : Nat) : (s.bump c i n).time = s.time := by unfold State.bump; dsimp only; split <;> (try split) <;> rfl
@[simp] theorem bump_nextId (c : Fld) (i n : Nat) : (s.bump c i n).nextId = s.nextId := by unfold State.bump; dsimp only; split <;> (try split) <;> rfl
@[simp] theorem bump_freeIx (c : Fld) (i n : Nat) : (s.bump c i n).freeIx = s.freeIx := by unfold State.bump; dsimp only; split <;> (try split) <;> rfl
@[simp] theorem bump_pending (c : Fld) (i n : Nat) : (s.bump c i n).pending = s.pending := by unfold State.bump; dsimp only; split <;> (try split) <;> rfl

@[simp] theorem bumpSat_fuses (c : Fld) (i n : Nat) : (s.bumpSat c i n).fuses = s.fuses := rfl
@[simp] theorem bumpSat_straps (c : Fld) (i n : Nat) : (s.bumpSat c i n).straps = s.straps := rfl
@[simp] theorem bumpSat_mem (c : Fld) (i n : Nat) : (s.bumpSat c i n).mem = s.mem := rfl
@[simp] theorem bumpSat_eyes (c : Fld) (i n : Nat) : (s.bumpSat c i n).eyes = s.eyes := rfl
@[simp] theorem bumpSat_hbm (c : Fld) (i n : Nat) : (s.bumpSat c i n).hbm = s.hbm := rfl
@[simp] theorem bumpSat_tiles (c : Fld) (i n : Nat) : (s.bumpSat c i n).tiles = s.tiles := rfl
@[simp] theorem bumpSat_dies (c : Fld) (i n : Nat) : (s.bumpSat c i n).dies = s.dies := rfl
@[simp] theorem bumpSat_invals (c : Fld) (i n : Nat) : (s.bumpSat c i n).invals = s.invals := rfl
@[simp] theorem bumpSat_cp (c : Fld) (i n : Nat) : (s.bumpSat c i n).cp = s.cp := rfl
@[simp] theorem bumpSat_chl (c : Fld) (i n : Nat) : (s.bumpSat c i n).chl = s.chl := rfl
@[simp] theorem bumpSat_fab (c : Fld) (i n : Nat) : (s.bumpSat c i n).fab = s.fab := rfl
@[simp] theorem bumpSat_sec (c : Fld) (i n : Nat) : (s.bumpSat c i n).sec = s.sec := rfl
@[simp] theorem bumpSat_mgt (c : Fld) (i n : Nat) : (s.bumpSat c i n).mgt = s.mgt := rfl
@[simp] theorem bumpSat_power (c : Fld) (i n : Nat) : (s.bumpSat c i n).power = s.power := rfl
@[simp] theorem bumpSat_jtag (c : Fld) (i n : Nat) : (s.bumpSat c i n).jtag = s.jtag := rfl
@[simp] theorem bumpSat_i3c (c : Fld) (i n : Nat) : (s.bumpSat c i n).i3c = s.i3c := rfl
@[simp] theorem bumpSat_roots (c : Fld) (i n : Nat) : (s.bumpSat c i n).roots = s.roots := rfl
@[simp] theorem bumpSat_fences (c : Fld) (i n : Nat) : (s.bumpSat c i n).fences = s.fences := rfl
@[simp] theorem bumpSat_fenceQueue (c : Fld) (i n : Nat) : (s.bumpSat c i n).fenceQueue = s.fenceQueue := rfl
@[simp] theorem bumpSat_time (c : Fld) (i n : Nat) : (s.bumpSat c i n).time = s.time := rfl
@[simp] theorem bumpSat_nextId (c : Fld) (i n : Nat) : (s.bumpSat c i n).nextId = s.nextId := rfl
@[simp] theorem bumpSat_freeIx (c : Fld) (i n : Nat) : (s.bumpSat c i n).freeIx = s.freeIx := rfl
@[simp] theorem bumpSat_pending (c : Fld) (i n : Nat) : (s.bumpSat c i n).pending = s.pending := rfl

@[simp] theorem setTile_fuses (p : Nat) (t : Tile) : (s.setTile p t).fuses = s.fuses := rfl
@[simp] theorem setTile_straps (p : Nat) (t : Tile) : (s.setTile p t).straps = s.straps := rfl
@[simp] theorem setTile_fields (p : Nat) (t : Tile) : (s.setTile p t).fields = s.fields := rfl
@[simp] theorem setTile_mem (p : Nat) (t : Tile) : (s.setTile p t).mem = s.mem := rfl
@[simp] theorem setTile_eyes (p : Nat) (t : Tile) : (s.setTile p t).eyes = s.eyes := rfl
@[simp] theorem setTile_hbm (p : Nat) (t : Tile) : (s.setTile p t).hbm = s.hbm := rfl
@[simp] theorem setTile_dies (p : Nat) (t : Tile) : (s.setTile p t).dies = s.dies := rfl
@[simp] theorem setTile_invals (p : Nat) (t : Tile) : (s.setTile p t).invals = s.invals := rfl
@[simp] theorem setTile_cp (p : Nat) (t : Tile) : (s.setTile p t).cp = s.cp := rfl
@[simp] theorem setTile_chl (p : Nat) (t : Tile) : (s.setTile p t).chl = s.chl := rfl
@[simp] theorem setTile_fab (p : Nat) (t : Tile) : (s.setTile p t).fab = s.fab := rfl
@[simp] theorem setTile_sec (p : Nat) (t : Tile) : (s.setTile p t).sec = s.sec := rfl
@[simp] theorem setTile_mgt (p : Nat) (t : Tile) : (s.setTile p t).mgt = s.mgt := rfl
@[simp] theorem setTile_power (p : Nat) (t : Tile) : (s.setTile p t).power = s.power := rfl
@[simp] theorem setTile_jtag (p : Nat) (t : Tile) : (s.setTile p t).jtag = s.jtag := rfl
@[simp] theorem setTile_i3c (p : Nat) (t : Tile) : (s.setTile p t).i3c = s.i3c := rfl
@[simp] theorem setTile_roots (p : Nat) (t : Tile) : (s.setTile p t).roots = s.roots := rfl
@[simp] theorem setTile_fences (p : Nat) (t : Tile) : (s.setTile p t).fences = s.fences := rfl
@[simp] theorem setTile_fenceQueue (p : Nat) (t : Tile) : (s.setTile p t).fenceQueue = s.fenceQueue := rfl
@[simp] theorem setTile_time (p : Nat) (t : Tile) : (s.setTile p t).time = s.time := rfl
@[simp] theorem setTile_nextId (p : Nat) (t : Tile) : (s.setTile p t).nextId = s.nextId := rfl
@[simp] theorem setTile_freeIx (p : Nat) (t : Tile) : (s.setTile p t).freeIx = s.freeIx := rfl
@[simp] theorem setTile_pending (p : Nat) (t : Tile) : (s.setTile p t).pending = s.pending := rfl

@[simp] theorem modTile_fuses (p : Nat) (g : Tile → Tile) : (s.modTile p g).fuses = s.fuses := rfl
@[simp] theorem modTile_straps (p : Nat) (g : Tile → Tile) : (s.modTile p g).straps = s.straps := rfl
@[simp] theorem modTile_fields (p : Nat) (g : Tile → Tile) : (s.modTile p g).fields = s.fields := rfl
@[simp] theorem modTile_mem (p : Nat) (g : Tile → Tile) : (s.modTile p g).mem = s.mem := rfl
@[simp] theorem modTile_eyes (p : Nat) (g : Tile → Tile) : (s.modTile p g).eyes = s.eyes := rfl
@[simp] theorem modTile_hbm (p : Nat) (g : Tile → Tile) : (s.modTile p g).hbm = s.hbm := rfl
@[simp] theorem modTile_dies (p : Nat) (g : Tile → Tile) : (s.modTile p g).dies = s.dies := rfl
@[simp] theorem modTile_invals (p : Nat) (g : Tile → Tile) : (s.modTile p g).invals = s.invals := rfl
@[simp] theorem modTile_cp (p : Nat) (g : Tile → Tile) : (s.modTile p g).cp = s.cp := rfl
@[simp] theorem modTile_chl (p : Nat) (g : Tile → Tile) : (s.modTile p g).chl = s.chl := rfl
@[simp] theorem modTile_fab (p : Nat) (g : Tile → Tile) : (s.modTile p g).fab = s.fab := rfl
@[simp] theorem modTile_sec (p : Nat) (g : Tile → Tile) : (s.modTile p g).sec = s.sec := rfl
@[simp] theorem modTile_mgt (p : Nat) (g : Tile → Tile) : (s.modTile p g).mgt = s.mgt := rfl
@[simp] theorem modTile_power (p : Nat) (g : Tile → Tile) : (s.modTile p g).power = s.power := rfl
@[simp] theorem modTile_jtag (p : Nat) (g : Tile → Tile) : (s.modTile p g).jtag = s.jtag := rfl
@[simp] theorem modTile_i3c (p : Nat) (g : Tile → Tile) : (s.modTile p g).i3c = s.i3c := rfl
@[simp] theorem modTile_roots (p : Nat) (g : Tile → Tile) : (s.modTile p g).roots = s.roots := rfl
@[simp] theorem modTile_fences (p : Nat) (g : Tile → Tile) : (s.modTile p g).fences = s.fences := rfl
@[simp] theorem modTile_fenceQueue (p : Nat) (g : Tile → Tile) : (s.modTile p g).fenceQueue = s.fenceQueue := rfl
@[simp] theorem modTile_time (p : Nat) (g : Tile → Tile) : (s.modTile p g).time = s.time := rfl
@[simp] theorem modTile_nextId (p : Nat) (g : Tile → Tile) : (s.modTile p g).nextId = s.nextId := rfl
@[simp] theorem modTile_freeIx (p : Nat) (g : Tile → Tile) : (s.modTile p g).freeIx = s.freeIx := rfl
@[simp] theorem modTile_pending (p : Nat) (g : Tile → Tile) : (s.modTile p g).pending = s.pending := rfl

@[simp] theorem modDie_fuses (d : Nat) (g : Die → Die) : (s.modDie d g).fuses = s.fuses := rfl
@[simp] theorem modDie_straps (d : Nat) (g : Die → Die) : (s.modDie d g).straps = s.straps := rfl
@[simp] theorem modDie_fields (d : Nat) (g : Die → Die) : (s.modDie d g).fields = s.fields := rfl
@[simp] theorem modDie_mem (d : Nat) (g : Die → Die) : (s.modDie d g).mem = s.mem := rfl
@[simp] theorem modDie_eyes (d : Nat) (g : Die → Die) : (s.modDie d g).eyes = s.eyes := rfl
@[simp] theorem modDie_hbm (d : Nat) (g : Die → Die) : (s.modDie d g).hbm = s.hbm := rfl
@[simp] theorem modDie_tiles (d : Nat) (g : Die → Die) : (s.modDie d g).tiles = s.tiles := rfl
@[simp] theorem modDie_invals (d : Nat) (g : Die → Die) : (s.modDie d g).invals = s.invals := rfl
@[simp] theorem modDie_cp (d : Nat) (g : Die → Die) : (s.modDie d g).cp = s.cp := rfl
@[simp] theorem modDie_chl (d : Nat) (g : Die → Die) : (s.modDie d g).chl = s.chl := rfl
@[simp] theorem modDie_fab (d : Nat) (g : Die → Die) : (s.modDie d g).fab = s.fab := rfl
@[simp] theorem modDie_sec (d : Nat) (g : Die → Die) : (s.modDie d g).sec = s.sec := rfl
@[simp] theorem modDie_mgt (d : Nat) (g : Die → Die) : (s.modDie d g).mgt = s.mgt := rfl
@[simp] theorem modDie_power (d : Nat) (g : Die → Die) : (s.modDie d g).power = s.power := rfl
@[simp] theorem modDie_jtag (d : Nat) (g : Die → Die) : (s.modDie d g).jtag = s.jtag := rfl
@[simp] theorem modDie_i3c (d : Nat) (g : Die → Die) : (s.modDie d g).i3c = s.i3c := rfl
@[simp] theorem modDie_roots (d : Nat) (g : Die → Die) : (s.modDie d g).roots = s.roots := rfl
@[simp] theorem modDie_fences (d : Nat) (g : Die → Die) : (s.modDie d g).fences = s.fences := rfl
@[simp] theorem modDie_fenceQueue (d : Nat) (g : Die → Die) : (s.modDie d g).fenceQueue = s.fenceQueue := rfl
@[simp] theorem modDie_time (d : Nat) (g : Die → Die) : (s.modDie d g).time = s.time := rfl
@[simp] theorem modDie_nextId (d : Nat) (g : Die → Die) : (s.modDie d g).nextId = s.nextId := rfl
@[simp] theorem modDie_freeIx (d : Nat) (g : Die → Die) : (s.modDie d g).freeIx = s.freeIx := rfl
@[simp] theorem modDie_pending (d : Nat) (g : Die → Die) : (s.modDie d g).pending = s.pending := rfl

@[simp] theorem modStack_fuses (k : Nat) (g : Stack → Stack) : (s.modStack k g).fuses = s.fuses := rfl
@[simp] theorem modStack_straps (k : Nat) (g : Stack → Stack) : (s.modStack k g).straps = s.straps := rfl
@[simp] theorem modStack_fields (k : Nat) (g : Stack → Stack) : (s.modStack k g).fields = s.fields := rfl
@[simp] theorem modStack_mem (k : Nat) (g : Stack → Stack) : (s.modStack k g).mem = s.mem := rfl
@[simp] theorem modStack_eyes (k : Nat) (g : Stack → Stack) : (s.modStack k g).eyes = s.eyes := rfl
@[simp] theorem modStack_tiles (k : Nat) (g : Stack → Stack) : (s.modStack k g).tiles = s.tiles := rfl
@[simp] theorem modStack_dies (k : Nat) (g : Stack → Stack) : (s.modStack k g).dies = s.dies := rfl
@[simp] theorem modStack_invals (k : Nat) (g : Stack → Stack) : (s.modStack k g).invals = s.invals := rfl
@[simp] theorem modStack_cp (k : Nat) (g : Stack → Stack) : (s.modStack k g).cp = s.cp := rfl
@[simp] theorem modStack_chl (k : Nat) (g : Stack → Stack) : (s.modStack k g).chl = s.chl := rfl
@[simp] theorem modStack_fab (k : Nat) (g : Stack → Stack) : (s.modStack k g).fab = s.fab := rfl
@[simp] theorem modStack_sec (k : Nat) (g : Stack → Stack) : (s.modStack k g).sec = s.sec := rfl
@[simp] theorem modStack_mgt (k : Nat) (g : Stack → Stack) : (s.modStack k g).mgt = s.mgt := rfl
@[simp] theorem modStack_power (k : Nat) (g : Stack → Stack) : (s.modStack k g).power = s.power := rfl
@[simp] theorem modStack_jtag (k : Nat) (g : Stack → Stack) : (s.modStack k g).jtag = s.jtag := rfl
@[simp] theorem modStack_i3c (k : Nat) (g : Stack → Stack) : (s.modStack k g).i3c = s.i3c := rfl
@[simp] theorem modStack_roots (k : Nat) (g : Stack → Stack) : (s.modStack k g).roots = s.roots := rfl
@[simp] theorem modStack_fences (k : Nat) (g : Stack → Stack) : (s.modStack k g).fences = s.fences := rfl
@[simp] theorem modStack_fenceQueue (k : Nat) (g : Stack → Stack) : (s.modStack k g).fenceQueue = s.fenceQueue := rfl
@[simp] theorem modStack_time (k : Nat) (g : Stack → Stack) : (s.modStack k g).time = s.time := rfl
@[simp] theorem modStack_nextId (k : Nat) (g : Stack → Stack) : (s.modStack k g).nextId = s.nextId := rfl
@[simp] theorem modStack_freeIx (k : Nat) (g : Stack → Stack) : (s.modStack k g).freeIx = s.freeIx := rfl
@[simp] theorem modStack_pending (k : Nat) (g : Stack → Stack) : (s.modStack k g).pending = s.pending := rfl

@[simp] theorem modPort_fuses (k : Nat) (g : Port → Port) : (s.modPort k g).fuses = s.fuses := rfl
@[simp] theorem modPort_straps (k : Nat) (g : Port → Port) : (s.modPort k g).straps = s.straps := rfl
@[simp] theorem modPort_fields (k : Nat) (g : Port → Port) : (s.modPort k g).fields = s.fields := rfl
@[simp] theorem modPort_mem (k : Nat) (g : Port → Port) : (s.modPort k g).mem = s.mem := rfl
@[simp] theorem modPort_eyes (k : Nat) (g : Port → Port) : (s.modPort k g).eyes = s.eyes := rfl
@[simp] theorem modPort_hbm (k : Nat) (g : Port → Port) : (s.modPort k g).hbm = s.hbm := rfl
@[simp] theorem modPort_tiles (k : Nat) (g : Port → Port) : (s.modPort k g).tiles = s.tiles := rfl
@[simp] theorem modPort_dies (k : Nat) (g : Port → Port) : (s.modPort k g).dies = s.dies := rfl
@[simp] theorem modPort_invals (k : Nat) (g : Port → Port) : (s.modPort k g).invals = s.invals := rfl
@[simp] theorem modPort_cp (k : Nat) (g : Port → Port) : (s.modPort k g).cp = s.cp := rfl
@[simp] theorem modPort_fab (k : Nat) (g : Port → Port) : (s.modPort k g).fab = s.fab := rfl
@[simp] theorem modPort_sec (k : Nat) (g : Port → Port) : (s.modPort k g).sec = s.sec := rfl
@[simp] theorem modPort_mgt (k : Nat) (g : Port → Port) : (s.modPort k g).mgt = s.mgt := rfl
@[simp] theorem modPort_power (k : Nat) (g : Port → Port) : (s.modPort k g).power = s.power := rfl
@[simp] theorem modPort_jtag (k : Nat) (g : Port → Port) : (s.modPort k g).jtag = s.jtag := rfl
@[simp] theorem modPort_i3c (k : Nat) (g : Port → Port) : (s.modPort k g).i3c = s.i3c := rfl
@[simp] theorem modPort_roots (k : Nat) (g : Port → Port) : (s.modPort k g).roots = s.roots := rfl
@[simp] theorem modPort_fences (k : Nat) (g : Port → Port) : (s.modPort k g).fences = s.fences := rfl
@[simp] theorem modPort_fenceQueue (k : Nat) (g : Port → Port) : (s.modPort k g).fenceQueue = s.fenceQueue := rfl
@[simp] theorem modPort_time (k : Nat) (g : Port → Port) : (s.modPort k g).time = s.time := rfl
@[simp] theorem modPort_nextId (k : Nat) (g : Port → Port) : (s.modPort k g).nextId = s.nextId := rfl
@[simp] theorem modPort_freeIx (k : Nat) (g : Port → Port) : (s.modPort k g).freeIx = s.freeIx := rfl
@[simp] theorem modPort_pending (k : Nat) (g : Port → Port) : (s.modPort k g).pending = s.pending := rfl

@[simp] theorem modLink_fuses (k : Nat) (g : Link → Link) : (s.modLink k g).fuses = s.fuses := rfl
@[simp] theorem modLink_straps (k : Nat) (g : Link → Link) : (s.modLink k g).straps = s.straps := rfl
@[simp] theorem modLink_fields (k : Nat) (g : Link → Link) : (s.modLink k g).fields = s.fields := rfl
@[simp] theorem modLink_mem (k : Nat) (g : Link → Link) : (s.modLink k g).mem = s.mem := rfl
@[simp] theorem modLink_eyes (k : Nat) (g : Link → Link) : (s.modLink k g).eyes = s.eyes := rfl
@[simp] theorem modLink_hbm (k : Nat) (g : Link → Link) : (s.modLink k g).hbm = s.hbm := rfl
@[simp] theorem modLink_tiles (k : Nat) (g : Link → Link) : (s.modLink k g).tiles = s.tiles := rfl
@[simp] theorem modLink_dies (k : Nat) (g : Link → Link) : (s.modLink k g).dies = s.dies := rfl
@[simp] theorem modLink_invals (k : Nat) (g : Link → Link) : (s.modLink k g).invals = s.invals := rfl
@[simp] theorem modLink_cp (k : Nat) (g : Link → Link) : (s.modLink k g).cp = s.cp := rfl
@[simp] theorem modLink_chl (k : Nat) (g : Link → Link) : (s.modLink k g).chl = s.chl := rfl
@[simp] theorem modLink_sec (k : Nat) (g : Link → Link) : (s.modLink k g).sec = s.sec := rfl
@[simp] theorem modLink_mgt (k : Nat) (g : Link → Link) : (s.modLink k g).mgt = s.mgt := rfl
@[simp] theorem modLink_power (k : Nat) (g : Link → Link) : (s.modLink k g).power = s.power := rfl
@[simp] theorem modLink_jtag (k : Nat) (g : Link → Link) : (s.modLink k g).jtag = s.jtag := rfl
@[simp] theorem modLink_i3c (k : Nat) (g : Link → Link) : (s.modLink k g).i3c = s.i3c := rfl
@[simp] theorem modLink_roots (k : Nat) (g : Link → Link) : (s.modLink k g).roots = s.roots := rfl
@[simp] theorem modLink_fences (k : Nat) (g : Link → Link) : (s.modLink k g).fences = s.fences := rfl
@[simp] theorem modLink_fenceQueue (k : Nat) (g : Link → Link) : (s.modLink k g).fenceQueue = s.fenceQueue := rfl
@[simp] theorem modLink_time (k : Nat) (g : Link → Link) : (s.modLink k g).time = s.time := rfl
@[simp] theorem modLink_nextId (k : Nat) (g : Link → Link) : (s.modLink k g).nextId = s.nextId := rfl
@[simp] theorem modLink_freeIx (k : Nat) (g : Link → Link) : (s.modLink k g).freeIx = s.freeIx := rfl
@[simp] theorem modLink_pending (k : Nat) (g : Link → Link) : (s.modLink k g).pending = s.pending := rfl

@[simp] theorem modMgt_fuses (g : Mgt → Mgt) : (s.modMgt g).fuses = s.fuses := rfl
@[simp] theorem modMgt_straps (g : Mgt → Mgt) : (s.modMgt g).straps = s.straps := rfl
@[simp] theorem modMgt_fields (g : Mgt → Mgt) : (s.modMgt g).fields = s.fields := rfl
@[simp] theorem modMgt_mem (g : Mgt → Mgt) : (s.modMgt g).mem = s.mem := rfl
@[simp] theorem modMgt_eyes (g : Mgt → Mgt) : (s.modMgt g).eyes = s.eyes := rfl
@[simp] theorem modMgt_hbm (g : Mgt → Mgt) : (s.modMgt g).hbm = s.hbm := rfl
@[simp] theorem modMgt_tiles (g : Mgt → Mgt) : (s.modMgt g).tiles = s.tiles := rfl
@[simp] theorem modMgt_dies (g : Mgt → Mgt) : (s.modMgt g).dies = s.dies := rfl
@[simp] theorem modMgt_invals (g : Mgt → Mgt) : (s.modMgt g).invals = s.invals := rfl
@[simp] theorem modMgt_cp (g : Mgt → Mgt) : (s.modMgt g).cp = s.cp := rfl
@[simp] theorem modMgt_chl (g : Mgt → Mgt) : (s.modMgt g).chl = s.chl := rfl
@[simp] theorem modMgt_fab (g : Mgt → Mgt) : (s.modMgt g).fab = s.fab := rfl
@[simp] theorem modMgt_sec (g : Mgt → Mgt) : (s.modMgt g).sec = s.sec := rfl
@[simp] theorem modMgt_power (g : Mgt → Mgt) : (s.modMgt g).power = s.power := rfl
@[simp] theorem modMgt_jtag (g : Mgt → Mgt) : (s.modMgt g).jtag = s.jtag := rfl
@[simp] theorem modMgt_i3c (g : Mgt → Mgt) : (s.modMgt g).i3c = s.i3c := rfl
@[simp] theorem modMgt_roots (g : Mgt → Mgt) : (s.modMgt g).roots = s.roots := rfl
@[simp] theorem modMgt_fences (g : Mgt → Mgt) : (s.modMgt g).fences = s.fences := rfl
@[simp] theorem modMgt_fenceQueue (g : Mgt → Mgt) : (s.modMgt g).fenceQueue = s.fenceQueue := rfl
@[simp] theorem modMgt_time (g : Mgt → Mgt) : (s.modMgt g).time = s.time := rfl
@[simp] theorem modMgt_nextId (g : Mgt → Mgt) : (s.modMgt g).nextId = s.nextId := rfl
@[simp] theorem modMgt_freeIx (g : Mgt → Mgt) : (s.modMgt g).freeIx = s.freeIx := rfl
@[simp] theorem modMgt_pending (g : Mgt → Mgt) : (s.modMgt g).pending = s.pending := rfl

@[simp] theorem modCp_fuses (g : Cp → Cp) : (s.modCp g).fuses = s.fuses := rfl
@[simp] theorem modCp_straps (g : Cp → Cp) : (s.modCp g).straps = s.straps := rfl
@[simp] theorem modCp_fields (g : Cp → Cp) : (s.modCp g).fields = s.fields := rfl
@[simp] theorem modCp_mem (g : Cp → Cp) : (s.modCp g).mem = s.mem := rfl
@[simp] theorem modCp_eyes (g : Cp → Cp) : (s.modCp g).eyes = s.eyes := rfl
@[simp] theorem modCp_hbm (g : Cp → Cp) : (s.modCp g).hbm = s.hbm := rfl
@[simp] theorem modCp_tiles (g : Cp → Cp) : (s.modCp g).tiles = s.tiles := rfl
@[simp] theorem modCp_dies (g : Cp → Cp) : (s.modCp g).dies = s.dies := rfl
@[simp] theorem modCp_invals (g : Cp → Cp) : (s.modCp g).invals = s.invals := rfl
@[simp] theorem modCp_chl (g : Cp → Cp) : (s.modCp g).chl = s.chl := rfl
@[simp] theorem modCp_fab (g : Cp → Cp) : (s.modCp g).fab = s.fab := rfl
@[simp] theorem modCp_sec (g : Cp → Cp) : (s.modCp g).sec = s.sec := rfl
@[simp] theorem modCp_mgt (g : Cp → Cp) : (s.modCp g).mgt = s.mgt := rfl
@[simp] theorem modCp_power (g : Cp → Cp) : (s.modCp g).power = s.power := rfl
@[simp] theorem modCp_jtag (g : Cp → Cp) : (s.modCp g).jtag = s.jtag := rfl
@[simp] theorem modCp_i3c (g : Cp → Cp) : (s.modCp g).i3c = s.i3c := rfl
@[simp] theorem modCp_roots (g : Cp → Cp) : (s.modCp g).roots = s.roots := rfl
@[simp] theorem modCp_fences (g : Cp → Cp) : (s.modCp g).fences = s.fences := rfl
@[simp] theorem modCp_fenceQueue (g : Cp → Cp) : (s.modCp g).fenceQueue = s.fenceQueue := rfl
@[simp] theorem modCp_time (g : Cp → Cp) : (s.modCp g).time = s.time := rfl
@[simp] theorem modCp_nextId (g : Cp → Cp) : (s.modCp g).nextId = s.nextId := rfl
@[simp] theorem modCp_freeIx (g : Cp → Cp) : (s.modCp g).freeIx = s.freeIx := rfl
@[simp] theorem modCp_pending (g : Cp → Cp) : (s.modCp g).pending = s.pending := rfl

@[simp] theorem modSec_fuses (g : Sec → Sec) : (s.modSec g).fuses = s.fuses := rfl
@[simp] theorem modSec_straps (g : Sec → Sec) : (s.modSec g).straps = s.straps := rfl
@[simp] theorem modSec_fields (g : Sec → Sec) : (s.modSec g).fields = s.fields := rfl
@[simp] theorem modSec_mem (g : Sec → Sec) : (s.modSec g).mem = s.mem := rfl
@[simp] theorem modSec_eyes (g : Sec → Sec) : (s.modSec g).eyes = s.eyes := rfl
@[simp] theorem modSec_hbm (g : Sec → Sec) : (s.modSec g).hbm = s.hbm := rfl
@[simp] theorem modSec_tiles (g : Sec → Sec) : (s.modSec g).tiles = s.tiles := rfl
@[simp] theorem modSec_dies (g : Sec → Sec) : (s.modSec g).dies = s.dies := rfl
@[simp] theorem modSec_invals (g : Sec → Sec) : (s.modSec g).invals = s.invals := rfl
@[simp] theorem modSec_cp (g : Sec → Sec) : (s.modSec g).cp = s.cp := rfl
@[simp] theorem modSec_chl (g : Sec → Sec) : (s.modSec g).chl = s.chl := rfl
@[simp] theorem modSec_fab (g : Sec → Sec) : (s.modSec g).fab = s.fab := rfl
@[simp] theorem modSec_mgt (g : Sec → Sec) : (s.modSec g).mgt = s.mgt := rfl
@[simp] theorem modSec_power (g : Sec → Sec) : (s.modSec g).power = s.power := rfl
@[simp] theorem modSec_jtag (g : Sec → Sec) : (s.modSec g).jtag = s.jtag := rfl
@[simp] theorem modSec_i3c (g : Sec → Sec) : (s.modSec g).i3c = s.i3c := rfl
@[simp] theorem modSec_roots (g : Sec → Sec) : (s.modSec g).roots = s.roots := rfl
@[simp] theorem modSec_fences (g : Sec → Sec) : (s.modSec g).fences = s.fences := rfl
@[simp] theorem modSec_fenceQueue (g : Sec → Sec) : (s.modSec g).fenceQueue = s.fenceQueue := rfl
@[simp] theorem modSec_time (g : Sec → Sec) : (s.modSec g).time = s.time := rfl
@[simp] theorem modSec_nextId (g : Sec → Sec) : (s.modSec g).nextId = s.nextId := rfl
@[simp] theorem modSec_freeIx (g : Sec → Sec) : (s.modSec g).freeIx = s.freeIx := rfl
@[simp] theorem modSec_pending (g : Sec → Sec) : (s.modSec g).pending = s.pending := rfl

@[simp] theorem modPower_fuses (g : Power → Power) : (s.modPower g).fuses = s.fuses := rfl
@[simp] theorem modPower_straps (g : Power → Power) : (s.modPower g).straps = s.straps := rfl
@[simp] theorem modPower_fields (g : Power → Power) : (s.modPower g).fields = s.fields := rfl
@[simp] theorem modPower_mem (g : Power → Power) : (s.modPower g).mem = s.mem := rfl
@[simp] theorem modPower_eyes (g : Power → Power) : (s.modPower g).eyes = s.eyes := rfl
@[simp] theorem modPower_hbm (g : Power → Power) : (s.modPower g).hbm = s.hbm := rfl
@[simp] theorem modPower_tiles (g : Power → Power) : (s.modPower g).tiles = s.tiles := rfl
@[simp] theorem modPower_dies (g : Power → Power) : (s.modPower g).dies = s.dies := rfl
@[simp] theorem modPower_invals (g : Power → Power) : (s.modPower g).invals = s.invals := rfl
@[simp] theorem modPower_cp (g : Power → Power) : (s.modPower g).cp = s.cp := rfl
@[simp] theorem modPower_chl (g : Power → Power) : (s.modPower g).chl = s.chl := rfl
@[simp] theorem modPower_fab (g : Power → Power) : (s.modPower g).fab = s.fab := rfl
@[simp] theorem modPower_sec (g : Power → Power) : (s.modPower g).sec = s.sec := rfl
@[simp] theorem modPower_mgt (g : Power → Power) : (s.modPower g).mgt = s.mgt := rfl
@[simp] theorem modPower_jtag (g : Power → Power) : (s.modPower g).jtag = s.jtag := rfl
@[simp] theorem modPower_i3c (g : Power → Power) : (s.modPower g).i3c = s.i3c := rfl
@[simp] theorem modPower_roots (g : Power → Power) : (s.modPower g).roots = s.roots := rfl
@[simp] theorem modPower_fences (g : Power → Power) : (s.modPower g).fences = s.fences := rfl
@[simp] theorem modPower_fenceQueue (g : Power → Power) : (s.modPower g).fenceQueue = s.fenceQueue := rfl
@[simp] theorem modPower_time (g : Power → Power) : (s.modPower g).time = s.time := rfl
@[simp] theorem modPower_nextId (g : Power → Power) : (s.modPower g).nextId = s.nextId := rfl
@[simp] theorem modPower_freeIx (g : Power → Power) : (s.modPower g).freeIx = s.freeIx := rfl
@[simp] theorem modPower_pending (g : Power → Power) : (s.modPower g).pending = s.pending := rfl

@[simp] theorem setEye_fuses (l : Nat) (b : Bool) : (s.setEye l b).fuses = s.fuses := rfl
@[simp] theorem setEye_straps (l : Nat) (b : Bool) : (s.setEye l b).straps = s.straps := rfl
@[simp] theorem setEye_fields (l : Nat) (b : Bool) : (s.setEye l b).fields = s.fields := rfl
@[simp] theorem setEye_mem (l : Nat) (b : Bool) : (s.setEye l b).mem = s.mem := rfl
@[simp] theorem setEye_hbm (l : Nat) (b : Bool) : (s.setEye l b).hbm = s.hbm := rfl
@[simp] theorem setEye_tiles (l : Nat) (b : Bool) : (s.setEye l b).tiles = s.tiles := rfl
@[simp] theorem setEye_dies (l : Nat) (b : Bool) : (s.setEye l b).dies = s.dies := rfl
@[simp] theorem setEye_invals (l : Nat) (b : Bool) : (s.setEye l b).invals = s.invals := rfl
@[simp] theorem setEye_cp (l : Nat) (b : Bool) : (s.setEye l b).cp = s.cp := rfl
@[simp] theorem setEye_chl (l : Nat) (b : Bool) : (s.setEye l b).chl = s.chl := rfl
@[simp] theorem setEye_fab (l : Nat) (b : Bool) : (s.setEye l b).fab = s.fab := rfl
@[simp] theorem setEye_sec (l : Nat) (b : Bool) : (s.setEye l b).sec = s.sec := rfl
@[simp] theorem setEye_mgt (l : Nat) (b : Bool) : (s.setEye l b).mgt = s.mgt := rfl
@[simp] theorem setEye_power (l : Nat) (b : Bool) : (s.setEye l b).power = s.power := rfl
@[simp] theorem setEye_jtag (l : Nat) (b : Bool) : (s.setEye l b).jtag = s.jtag := rfl
@[simp] theorem setEye_i3c (l : Nat) (b : Bool) : (s.setEye l b).i3c = s.i3c := rfl
@[simp] theorem setEye_roots (l : Nat) (b : Bool) : (s.setEye l b).roots = s.roots := rfl
@[simp] theorem setEye_fences (l : Nat) (b : Bool) : (s.setEye l b).fences = s.fences := rfl
@[simp] theorem setEye_fenceQueue (l : Nat) (b : Bool) : (s.setEye l b).fenceQueue = s.fenceQueue := rfl
@[simp] theorem setEye_time (l : Nat) (b : Bool) : (s.setEye l b).time = s.time := rfl
@[simp] theorem setEye_nextId (l : Nat) (b : Bool) : (s.setEye l b).nextId = s.nextId := rfl
@[simp] theorem setEye_freeIx (l : Nat) (b : Bool) : (s.setEye l b).freeIx = s.freeIx := rfl
@[simp] theorem setEye_pending (l : Nat) (b : Bool) : (s.setEye l b).pending = s.pending := rfl

@[simp] theorem putBytes_fuses (c : Nat) (bs : List Byte) : (s.putBytes c bs).fuses = s.fuses := rfl
@[simp] theorem putBytes_straps (c : Nat) (bs : List Byte) : (s.putBytes c bs).straps = s.straps := rfl
@[simp] theorem putBytes_fields (c : Nat) (bs : List Byte) : (s.putBytes c bs).fields = s.fields := rfl
@[simp] theorem putBytes_eyes (c : Nat) (bs : List Byte) : (s.putBytes c bs).eyes = s.eyes := rfl
@[simp] theorem putBytes_hbm (c : Nat) (bs : List Byte) : (s.putBytes c bs).hbm = s.hbm := rfl
@[simp] theorem putBytes_tiles (c : Nat) (bs : List Byte) : (s.putBytes c bs).tiles = s.tiles := rfl
@[simp] theorem putBytes_dies (c : Nat) (bs : List Byte) : (s.putBytes c bs).dies = s.dies := rfl
@[simp] theorem putBytes_invals (c : Nat) (bs : List Byte) : (s.putBytes c bs).invals = s.invals := rfl
@[simp] theorem putBytes_cp (c : Nat) (bs : List Byte) : (s.putBytes c bs).cp = s.cp := rfl
@[simp] theorem putBytes_chl (c : Nat) (bs : List Byte) : (s.putBytes c bs).chl = s.chl := rfl
@[simp] theorem putBytes_fab (c : Nat) (bs : List Byte) : (s.putBytes c bs).fab = s.fab := rfl
@[simp] theorem putBytes_sec (c : Nat) (bs : List Byte) : (s.putBytes c bs).sec = s.sec := rfl
@[simp] theorem putBytes_mgt (c : Nat) (bs : List Byte) : (s.putBytes c bs).mgt = s.mgt := rfl
@[simp] theorem putBytes_power (c : Nat) (bs : List Byte) : (s.putBytes c bs).power = s.power := rfl
@[simp] theorem putBytes_jtag (c : Nat) (bs : List Byte) : (s.putBytes c bs).jtag = s.jtag := rfl
@[simp] theorem putBytes_i3c (c : Nat) (bs : List Byte) : (s.putBytes c bs).i3c = s.i3c := rfl
@[simp] theorem putBytes_roots (c : Nat) (bs : List Byte) : (s.putBytes c bs).roots = s.roots := rfl
@[simp] theorem putBytes_fences (c : Nat) (bs : List Byte) : (s.putBytes c bs).fences = s.fences := rfl
@[simp] theorem putBytes_fenceQueue (c : Nat) (bs : List Byte) : (s.putBytes c bs).fenceQueue = s.fenceQueue := rfl
@[simp] theorem putBytes_time (c : Nat) (bs : List Byte) : (s.putBytes c bs).time = s.time := rfl
@[simp] theorem putBytes_nextId (c : Nat) (bs : List Byte) : (s.putBytes c bs).nextId = s.nextId := rfl
@[simp] theorem putBytes_freeIx (c : Nat) (bs : List Byte) : (s.putBytes c bs).freeIx = s.freeIx := rfl
@[simp] theorem putBytes_pending (c : Nat) (bs : List Byte) : (s.putBytes c bs).pending = s.pending := rfl

@[simp] theorem setFilter_fuses (l : Nat) (e : Option FilterEntry) : (s.setFilter l e).fuses = s.fuses := rfl
@[simp] theorem setFilter_straps (l : Nat) (e : Option FilterEntry) : (s.setFilter l e).straps = s.straps := rfl
@[simp] theorem setFilter_fields (l : Nat) (e : Option FilterEntry) : (s.setFilter l e).fields = s.fields := rfl
@[simp] theorem setFilter_mem (l : Nat) (e : Option FilterEntry) : (s.setFilter l e).mem = s.mem := rfl
@[simp] theorem setFilter_eyes (l : Nat) (e : Option FilterEntry) : (s.setFilter l e).eyes = s.eyes := rfl
@[simp] theorem setFilter_hbm (l : Nat) (e : Option FilterEntry) : (s.setFilter l e).hbm = s.hbm := rfl
@[simp] theorem setFilter_tiles (l : Nat) (e : Option FilterEntry) : (s.setFilter l e).tiles = s.tiles := rfl
@[simp] theorem setFilter_dies (l : Nat) (e : Option FilterEntry) : (s.setFilter l e).dies = s.dies := rfl
@[simp] theorem setFilter_invals (l : Nat) (e : Option FilterEntry) : (s.setFilter l e).invals = s.invals := rfl
@[simp] theorem setFilter_cp (l : Nat) (e : Option FilterEntry) : (s.setFilter l e).cp = s.cp := rfl
@[simp] theorem setFilter_fab (l : Nat) (e : Option FilterEntry) : (s.setFilter l e).fab = s.fab := rfl
@[simp] theorem setFilter_sec (l : Nat) (e : Option FilterEntry) : (s.setFilter l e).sec = s.sec := rfl
@[simp] theorem setFilter_mgt (l : Nat) (e : Option FilterEntry) : (s.setFilter l e).mgt = s.mgt := rfl
@[simp] theorem setFilter_power (l : Nat) (e : Option FilterEntry) : (s.setFilter l e).power = s.power := rfl
@[simp] theorem setFilter_jtag (l : Nat) (e : Option FilterEntry) : (s.setFilter l e).jtag = s.jtag := rfl
@[simp] theorem setFilter_i3c (l : Nat) (e : Option FilterEntry) : (s.setFilter l e).i3c = s.i3c := rfl
@[simp] theorem setFilter_roots (l : Nat) (e : Option FilterEntry) : (s.setFilter l e).roots = s.roots := rfl
@[simp] theorem setFilter_fences (l : Nat) (e : Option FilterEntry) : (s.setFilter l e).fences = s.fences := rfl
@[simp] theorem setFilter_fenceQueue (l : Nat) (e : Option FilterEntry) : (s.setFilter l e).fenceQueue = s.fenceQueue := rfl
@[simp] theorem setFilter_time (l : Nat) (e : Option FilterEntry) : (s.setFilter l e).time = s.time := rfl
@[simp] theorem setFilter_nextId (l : Nat) (e : Option FilterEntry) : (s.setFilter l e).nextId = s.nextId := rfl
@[simp] theorem setFilter_freeIx (l : Nat) (e : Option FilterEntry) : (s.setFilter l e).freeIx = s.freeIx := rfl
@[simp] theorem setFilter_pending (l : Nat) (e : Option FilterEntry) : (s.setFilter l e).pending = s.pending := rfl

@[simp] theorem modDesc_fuses (q n : Nat) (g : Desc → Desc) : (s.modDesc q n g).fuses = s.fuses := rfl
@[simp] theorem modDesc_straps (q n : Nat) (g : Desc → Desc) : (s.modDesc q n g).straps = s.straps := rfl
@[simp] theorem modDesc_fields (q n : Nat) (g : Desc → Desc) : (s.modDesc q n g).fields = s.fields := rfl
@[simp] theorem modDesc_mem (q n : Nat) (g : Desc → Desc) : (s.modDesc q n g).mem = s.mem := rfl
@[simp] theorem modDesc_eyes (q n : Nat) (g : Desc → Desc) : (s.modDesc q n g).eyes = s.eyes := rfl
@[simp] theorem modDesc_hbm (q n : Nat) (g : Desc → Desc) : (s.modDesc q n g).hbm = s.hbm := rfl
@[simp] theorem modDesc_tiles (q n : Nat) (g : Desc → Desc) : (s.modDesc q n g).tiles = s.tiles := rfl
@[simp] theorem modDesc_dies (q n : Nat) (g : Desc → Desc) : (s.modDesc q n g).dies = s.dies := rfl
@[simp] theorem modDesc_invals (q n : Nat) (g : Desc → Desc) : (s.modDesc q n g).invals = s.invals := rfl
@[simp] theorem modDesc_chl (q n : Nat) (g : Desc → Desc) : (s.modDesc q n g).chl = s.chl := rfl
@[simp] theorem modDesc_fab (q n : Nat) (g : Desc → Desc) : (s.modDesc q n g).fab = s.fab := rfl
@[simp] theorem modDesc_sec (q n : Nat) (g : Desc → Desc) : (s.modDesc q n g).sec = s.sec := rfl
@[simp] theorem modDesc_mgt (q n : Nat) (g : Desc → Desc) : (s.modDesc q n g).mgt = s.mgt := rfl
@[simp] theorem modDesc_power (q n : Nat) (g : Desc → Desc) : (s.modDesc q n g).power = s.power := rfl
@[simp] theorem modDesc_jtag (q n : Nat) (g : Desc → Desc) : (s.modDesc q n g).jtag = s.jtag := rfl
@[simp] theorem modDesc_i3c (q n : Nat) (g : Desc → Desc) : (s.modDesc q n g).i3c = s.i3c := rfl
@[simp] theorem modDesc_roots (q n : Nat) (g : Desc → Desc) : (s.modDesc q n g).roots = s.roots := rfl
@[simp] theorem modDesc_fences (q n : Nat) (g : Desc → Desc) : (s.modDesc q n g).fences = s.fences := rfl
@[simp] theorem modDesc_fenceQueue (q n : Nat) (g : Desc → Desc) : (s.modDesc q n g).fenceQueue = s.fenceQueue := rfl
@[simp] theorem modDesc_time (q n : Nat) (g : Desc → Desc) : (s.modDesc q n g).time = s.time := rfl
@[simp] theorem modDesc_nextId (q n : Nat) (g : Desc → Desc) : (s.modDesc q n g).nextId = s.nextId := rfl
@[simp] theorem modDesc_freeIx (q n : Nat) (g : Desc → Desc) : (s.modDesc q n g).freeIx = s.freeIx := rfl
@[simp] theorem modDesc_pending (q n : Nat) (g : Desc → Desc) : (s.modDesc q n g).pending = s.pending := rfl

@[simp] theorem failItem_fuses (q n i c : Nat) : (s.failItem q n i c).fuses = s.fuses := rfl
@[simp] theorem failItem_straps (q n i c : Nat) : (s.failItem q n i c).straps = s.straps := rfl
@[simp] theorem failItem_fields (q n i c : Nat) : (s.failItem q n i c).fields = s.fields := rfl
@[simp] theorem failItem_mem (q n i c : Nat) : (s.failItem q n i c).mem = s.mem := rfl
@[simp] theorem failItem_eyes (q n i c : Nat) : (s.failItem q n i c).eyes = s.eyes := rfl
@[simp] theorem failItem_hbm (q n i c : Nat) : (s.failItem q n i c).hbm = s.hbm := rfl
@[simp] theorem failItem_tiles (q n i c : Nat) : (s.failItem q n i c).tiles = s.tiles := rfl
@[simp] theorem failItem_dies (q n i c : Nat) : (s.failItem q n i c).dies = s.dies := rfl
@[simp] theorem failItem_invals (q n i c : Nat) : (s.failItem q n i c).invals = s.invals := rfl
@[simp] theorem failItem_chl (q n i c : Nat) : (s.failItem q n i c).chl = s.chl := rfl
@[simp] theorem failItem_fab (q n i c : Nat) : (s.failItem q n i c).fab = s.fab := rfl
@[simp] theorem failItem_sec (q n i c : Nat) : (s.failItem q n i c).sec = s.sec := rfl
@[simp] theorem failItem_mgt (q n i c : Nat) : (s.failItem q n i c).mgt = s.mgt := rfl
@[simp] theorem failItem_power (q n i c : Nat) : (s.failItem q n i c).power = s.power := rfl
@[simp] theorem failItem_jtag (q n i c : Nat) : (s.failItem q n i c).jtag = s.jtag := rfl
@[simp] theorem failItem_i3c (q n i c : Nat) : (s.failItem q n i c).i3c = s.i3c := rfl
@[simp] theorem failItem_roots (q n i c : Nat) : (s.failItem q n i c).roots = s.roots := rfl
@[simp] theorem failItem_fences (q n i c : Nat) : (s.failItem q n i c).fences = s.fences := rfl
@[simp] theorem failItem_fenceQueue (q n i c : Nat) : (s.failItem q n i c).fenceQueue = s.fenceQueue := rfl
@[simp] theorem failItem_time (q n i c : Nat) : (s.failItem q n i c).time = s.time := rfl
@[simp] theorem failItem_nextId (q n i c : Nat) : (s.failItem q n i c).nextId = s.nextId := rfl
@[simp] theorem failItem_freeIx (q n i c : Nat) : (s.failItem q n i c).freeIx = s.freeIx := rfl
@[simp] theorem failItem_pending (q n i c : Nat) : (s.failItem q n i c).pending = s.pending := rfl

@[simp] theorem modSlot_fuses (p k : Nat) (g : Slot → Slot) : (s.modSlot p k g).fuses = s.fuses := rfl
@[simp] theorem modSlot_straps (p k : Nat) (g : Slot → Slot) : (s.modSlot p k g).straps = s.straps := rfl
@[simp] theorem modSlot_fields (p k : Nat) (g : Slot → Slot) : (s.modSlot p k g).fields = s.fields := rfl
@[simp] theorem modSlot_mem (p k : Nat) (g : Slot → Slot) : (s.modSlot p k g).mem = s.mem := rfl
@[simp] theorem modSlot_eyes (p k : Nat) (g : Slot → Slot) : (s.modSlot p k g).eyes = s.eyes := rfl
@[simp] theorem modSlot_hbm (p k : Nat) (g : Slot → Slot) : (s.modSlot p k g).hbm = s.hbm := rfl
@[simp] theorem modSlot_dies (p k : Nat) (g : Slot → Slot) : (s.modSlot p k g).dies = s.dies := rfl
@[simp] theorem modSlot_invals (p k : Nat) (g : Slot → Slot) : (s.modSlot p k g).invals = s.invals := rfl
@[simp] theorem modSlot_cp (p k : Nat) (g : Slot → Slot) : (s.modSlot p k g).cp = s.cp := rfl
@[simp] theorem modSlot_chl (p k : Nat) (g : Slot → Slot) : (s.modSlot p k g).chl = s.chl := rfl
@[simp] theorem modSlot_fab (p k : Nat) (g : Slot → Slot) : (s.modSlot p k g).fab = s.fab := rfl
@[simp] theorem modSlot_sec (p k : Nat) (g : Slot → Slot) : (s.modSlot p k g).sec = s.sec := rfl
@[simp] theorem modSlot_mgt (p k : Nat) (g : Slot → Slot) : (s.modSlot p k g).mgt = s.mgt := rfl
@[simp] theorem modSlot_power (p k : Nat) (g : Slot → Slot) : (s.modSlot p k g).power = s.power := rfl
@[simp] theorem modSlot_jtag (p k : Nat) (g : Slot → Slot) : (s.modSlot p k g).jtag = s.jtag := rfl
@[simp] theorem modSlot_i3c (p k : Nat) (g : Slot → Slot) : (s.modSlot p k g).i3c = s.i3c := rfl
@[simp] theorem modSlot_roots (p k : Nat) (g : Slot → Slot) : (s.modSlot p k g).roots = s.roots := rfl
@[simp] theorem modSlot_fences (p k : Nat) (g : Slot → Slot) : (s.modSlot p k g).fences = s.fences := rfl
@[simp] theorem modSlot_fenceQueue (p k : Nat) (g : Slot → Slot) : (s.modSlot p k g).fenceQueue = s.fenceQueue := rfl
@[simp] theorem modSlot_time (p k : Nat) (g : Slot → Slot) : (s.modSlot p k g).time = s.time := rfl
@[simp] theorem modSlot_nextId (p k : Nat) (g : Slot → Slot) : (s.modSlot p k g).nextId = s.nextId := rfl
@[simp] theorem modSlot_freeIx (p k : Nat) (g : Slot → Slot) : (s.modSlot p k g).freeIx = s.freeIx := rfl
@[simp] theorem modSlot_pending (p k : Nat) (g : Slot → Slot) : (s.modSlot p k g).pending = s.pending := rfl

@[simp] theorem modQueue_fuses (p k : Nat) (g : Queue → Queue) : (s.modQueue p k g).fuses = s.fuses := rfl
@[simp] theorem modQueue_straps (p k : Nat) (g : Queue → Queue) : (s.modQueue p k g).straps = s.straps := rfl
@[simp] theorem modQueue_fields (p k : Nat) (g : Queue → Queue) : (s.modQueue p k g).fields = s.fields := rfl
@[simp] theorem modQueue_mem (p k : Nat) (g : Queue → Queue) : (s.modQueue p k g).mem = s.mem := rfl
@[simp] theorem modQueue_eyes (p k : Nat) (g : Queue → Queue) : (s.modQueue p k g).eyes = s.eyes := rfl
@[simp] theorem modQueue_hbm (p k : Nat) (g : Queue → Queue) : (s.modQueue p k g).hbm = s.hbm := rfl
@[simp] theorem modQueue_dies (p k : Nat) (g : Queue → Queue) : (s.modQueue p k g).dies = s.dies := rfl
@[simp] theorem modQueue_invals (p k : Nat) (g : Queue → Queue) : (s.modQueue p k g).invals = s.invals := rfl
@[simp] theorem modQueue_cp (p k : Nat) (g : Queue → Queue) : (s.modQueue p k g).cp = s.cp := rfl
@[simp] theorem modQueue_chl (p k : Nat) (g : Queue → Queue) : (s.modQueue p k g).chl = s.chl := rfl
@[simp] theorem modQueue_fab (p k : Nat) (g : Queue → Queue) : (s.modQueue p k g).fab = s.fab := rfl
@[simp] theorem modQueue_sec (p k : Nat) (g : Queue → Queue) : (s.modQueue p k g).sec = s.sec := rfl
@[simp] theorem modQueue_mgt (p k : Nat) (g : Queue → Queue) : (s.modQueue p k g).mgt = s.mgt := rfl
@[simp] theorem modQueue_power (p k : Nat) (g : Queue → Queue) : (s.modQueue p k g).power = s.power := rfl
@[simp] theorem modQueue_jtag (p k : Nat) (g : Queue → Queue) : (s.modQueue p k g).jtag = s.jtag := rfl
@[simp] theorem modQueue_i3c (p k : Nat) (g : Queue → Queue) : (s.modQueue p k g).i3c = s.i3c := rfl
@[simp] theorem modQueue_roots (p k : Nat) (g : Queue → Queue) : (s.modQueue p k g).roots = s.roots := rfl
@[simp] theorem modQueue_fences (p k : Nat) (g : Queue → Queue) : (s.modQueue p k g).fences = s.fences := rfl
@[simp] theorem modQueue_fenceQueue (p k : Nat) (g : Queue → Queue) : (s.modQueue p k g).fenceQueue = s.fenceQueue := rfl
@[simp] theorem modQueue_time (p k : Nat) (g : Queue → Queue) : (s.modQueue p k g).time = s.time := rfl
@[simp] theorem modQueue_nextId (p k : Nat) (g : Queue → Queue) : (s.modQueue p k g).nextId = s.nextId := rfl
@[simp] theorem modQueue_freeIx (p k : Nat) (g : Queue → Queue) : (s.modQueue p k g).freeIx = s.freeIx := rfl
@[simp] theorem modQueue_pending (p k : Nat) (g : Queue → Queue) : (s.modQueue p k g).pending = s.pending := rfl

@[simp] theorem modGroup_fuses (p k : Nat) (g : Group → Group) : (s.modGroup p k g).fuses = s.fuses := rfl
@[simp] theorem modGroup_straps (p k : Nat) (g : Group → Group) : (s.modGroup p k g).straps = s.straps := rfl
@[simp] theorem modGroup_fields (p k : Nat) (g : Group → Group) : (s.modGroup p k g).fields = s.fields := rfl
@[simp] theorem modGroup_mem (p k : Nat) (g : Group → Group) : (s.modGroup p k g).mem = s.mem := rfl
@[simp] theorem modGroup_eyes (p k : Nat) (g : Group → Group) : (s.modGroup p k g).eyes = s.eyes := rfl
@[simp] theorem modGroup_hbm (p k : Nat) (g : Group → Group) : (s.modGroup p k g).hbm = s.hbm := rfl
@[simp] theorem modGroup_dies (p k : Nat) (g : Group → Group) : (s.modGroup p k g).dies = s.dies := rfl
@[simp] theorem modGroup_invals (p k : Nat) (g : Group → Group) : (s.modGroup p k g).invals = s.invals := rfl
@[simp] theorem modGroup_cp (p k : Nat) (g : Group → Group) : (s.modGroup p k g).cp = s.cp := rfl
@[simp] theorem modGroup_chl (p k : Nat) (g : Group → Group) : (s.modGroup p k g).chl = s.chl := rfl
@[simp] theorem modGroup_fab (p k : Nat) (g : Group → Group) : (s.modGroup p k g).fab = s.fab := rfl
@[simp] theorem modGroup_sec (p k : Nat) (g : Group → Group) : (s.modGroup p k g).sec = s.sec := rfl
@[simp] theorem modGroup_mgt (p k : Nat) (g : Group → Group) : (s.modGroup p k g).mgt = s.mgt := rfl
@[simp] theorem modGroup_power (p k : Nat) (g : Group → Group) : (s.modGroup p k g).power = s.power := rfl
@[simp] theorem modGroup_jtag (p k : Nat) (g : Group → Group) : (s.modGroup p k g).jtag = s.jtag := rfl
@[simp] theorem modGroup_i3c (p k : Nat) (g : Group → Group) : (s.modGroup p k g).i3c = s.i3c := rfl
@[simp] theorem modGroup_roots (p k : Nat) (g : Group → Group) : (s.modGroup p k g).roots = s.roots := rfl
@[simp] theorem modGroup_fences (p k : Nat) (g : Group → Group) : (s.modGroup p k g).fences = s.fences := rfl
@[simp] theorem modGroup_fenceQueue (p k : Nat) (g : Group → Group) : (s.modGroup p k g).fenceQueue = s.fenceQueue := rfl
@[simp] theorem modGroup_time (p k : Nat) (g : Group → Group) : (s.modGroup p k g).time = s.time := rfl
@[simp] theorem modGroup_nextId (p k : Nat) (g : Group → Group) : (s.modGroup p k g).nextId = s.nextId := rfl
@[simp] theorem modGroup_freeIx (p k : Nat) (g : Group → Group) : (s.modGroup p k g).freeIx = s.freeIx := rfl
@[simp] theorem modGroup_pending (p k : Nat) (g : Group → Group) : (s.modGroup p k g).pending = s.pending := rfl

@[simp] theorem modThr_fuses (p : Nat) (g : Thr → Thr) : (s.modThr p g).fuses = s.fuses := rfl
@[simp] theorem modThr_straps (p : Nat) (g : Thr → Thr) : (s.modThr p g).straps = s.straps := rfl
@[simp] theorem modThr_fields (p : Nat) (g : Thr → Thr) : (s.modThr p g).fields = s.fields := rfl
@[simp] theorem modThr_mem (p : Nat) (g : Thr → Thr) : (s.modThr p g).mem = s.mem := rfl
@[simp] theorem modThr_eyes (p : Nat) (g : Thr → Thr) : (s.modThr p g).eyes = s.eyes := rfl
@[simp] theorem modThr_hbm (p : Nat) (g : Thr → Thr) : (s.modThr p g).hbm = s.hbm := rfl
@[simp] theorem modThr_dies (p : Nat) (g : Thr → Thr) : (s.modThr p g).dies = s.dies := rfl
@[simp] theorem modThr_invals (p : Nat) (g : Thr → Thr) : (s.modThr p g).invals = s.invals := rfl
@[simp] theorem modThr_cp (p : Nat) (g : Thr → Thr) : (s.modThr p g).cp = s.cp := rfl
@[simp] theorem modThr_chl (p : Nat) (g : Thr → Thr) : (s.modThr p g).chl = s.chl := rfl
@[simp] theorem modThr_fab (p : Nat) (g : Thr → Thr) : (s.modThr p g).fab = s.fab := rfl
@[simp] theorem modThr_sec (p : Nat) (g : Thr → Thr) : (s.modThr p g).sec = s.sec := rfl
@[simp] theorem modThr_mgt (p : Nat) (g : Thr → Thr) : (s.modThr p g).mgt = s.mgt := rfl
@[simp] theorem modThr_power (p : Nat) (g : Thr → Thr) : (s.modThr p g).power = s.power := rfl
@[simp] theorem modThr_jtag (p : Nat) (g : Thr → Thr) : (s.modThr p g).jtag = s.jtag := rfl
@[simp] theorem modThr_i3c (p : Nat) (g : Thr → Thr) : (s.modThr p g).i3c = s.i3c := rfl
@[simp] theorem modThr_roots (p : Nat) (g : Thr → Thr) : (s.modThr p g).roots = s.roots := rfl
@[simp] theorem modThr_fences (p : Nat) (g : Thr → Thr) : (s.modThr p g).fences = s.fences := rfl
@[simp] theorem modThr_fenceQueue (p : Nat) (g : Thr → Thr) : (s.modThr p g).fenceQueue = s.fenceQueue := rfl
@[simp] theorem modThr_time (p : Nat) (g : Thr → Thr) : (s.modThr p g).time = s.time := rfl
@[simp] theorem modThr_nextId (p : Nat) (g : Thr → Thr) : (s.modThr p g).nextId = s.nextId := rfl
@[simp] theorem modThr_freeIx (p : Nat) (g : Thr → Thr) : (s.modThr p g).freeIx = s.freeIx := rfl
@[simp] theorem modThr_pending (p : Nat) (g : Thr → Thr) : (s.modThr p g).pending = s.pending := rfl

@[simp] theorem modMat_fuses (p : Nat) (g : Mat → Mat) : (s.modMat p g).fuses = s.fuses := rfl
@[simp] theorem modMat_straps (p : Nat) (g : Mat → Mat) : (s.modMat p g).straps = s.straps := rfl
@[simp] theorem modMat_fields (p : Nat) (g : Mat → Mat) : (s.modMat p g).fields = s.fields := rfl
@[simp] theorem modMat_mem (p : Nat) (g : Mat → Mat) : (s.modMat p g).mem = s.mem := rfl
@[simp] theorem modMat_eyes (p : Nat) (g : Mat → Mat) : (s.modMat p g).eyes = s.eyes := rfl
@[simp] theorem modMat_hbm (p : Nat) (g : Mat → Mat) : (s.modMat p g).hbm = s.hbm := rfl
@[simp] theorem modMat_dies (p : Nat) (g : Mat → Mat) : (s.modMat p g).dies = s.dies := rfl
@[simp] theorem modMat_invals (p : Nat) (g : Mat → Mat) : (s.modMat p g).invals = s.invals := rfl
@[simp] theorem modMat_cp (p : Nat) (g : Mat → Mat) : (s.modMat p g).cp = s.cp := rfl
@[simp] theorem modMat_chl (p : Nat) (g : Mat → Mat) : (s.modMat p g).chl = s.chl := rfl
@[simp] theorem modMat_fab (p : Nat) (g : Mat → Mat) : (s.modMat p g).fab = s.fab := rfl
@[simp] theorem modMat_sec (p : Nat) (g : Mat → Mat) : (s.modMat p g).sec = s.sec := rfl
@[simp] theorem modMat_mgt (p : Nat) (g : Mat → Mat) : (s.modMat p g).mgt = s.mgt := rfl
@[simp] theorem modMat_power (p : Nat) (g : Mat → Mat) : (s.modMat p g).power = s.power := rfl
@[simp] theorem modMat_jtag (p : Nat) (g : Mat → Mat) : (s.modMat p g).jtag = s.jtag := rfl
@[simp] theorem modMat_i3c (p : Nat) (g : Mat → Mat) : (s.modMat p g).i3c = s.i3c := rfl
@[simp] theorem modMat_roots (p : Nat) (g : Mat → Mat) : (s.modMat p g).roots = s.roots := rfl
@[simp] theorem modMat_fences (p : Nat) (g : Mat → Mat) : (s.modMat p g).fences = s.fences := rfl
@[simp] theorem modMat_fenceQueue (p : Nat) (g : Mat → Mat) : (s.modMat p g).fenceQueue = s.fenceQueue := rfl
@[simp] theorem modMat_time (p : Nat) (g : Mat → Mat) : (s.modMat p g).time = s.time := rfl
@[simp] theorem modMat_nextId (p : Nat) (g : Mat → Mat) : (s.modMat p g).nextId = s.nextId := rfl
@[simp] theorem modMat_freeIx (p : Nat) (g : Mat → Mat) : (s.modMat p g).freeIx = s.freeIx := rfl
@[simp] theorem modMat_pending (p : Nat) (g : Mat → Mat) : (s.modMat p g).pending = s.pending := rfl

@[simp] theorem modGat_fuses (p : Nat) (g : Gat → Gat) : (s.modGat p g).fuses = s.fuses := rfl
@[simp] theorem modGat_straps (p : Nat) (g : Gat → Gat) : (s.modGat p g).straps = s.straps := rfl
@[simp] theorem modGat_fields (p : Nat) (g : Gat → Gat) : (s.modGat p g).fields = s.fields := rfl
@[simp] theorem modGat_mem (p : Nat) (g : Gat → Gat) : (s.modGat p g).mem = s.mem := rfl
@[simp] theorem modGat_eyes (p : Nat) (g : Gat → Gat) : (s.modGat p g).eyes = s.eyes := rfl
@[simp] theorem modGat_hbm (p : Nat) (g : Gat → Gat) : (s.modGat p g).hbm = s.hbm := rfl
@[simp] theorem modGat_dies (p : Nat) (g : Gat → Gat) : (s.modGat p g).dies = s.dies := rfl
@[simp] theorem modGat_invals (p : Nat) (g : Gat → Gat) : (s.modGat p g).invals = s.invals := rfl
@[simp] theorem modGat_cp (p : Nat) (g : Gat → Gat) : (s.modGat p g).cp = s.cp := rfl
@[simp] theorem modGat_chl (p : Nat) (g : Gat → Gat) : (s.modGat p g).chl = s.chl := rfl
@[simp] theorem modGat_fab (p : Nat) (g : Gat → Gat) : (s.modGat p g).fab = s.fab := rfl
@[simp] theorem modGat_sec (p : Nat) (g : Gat → Gat) : (s.modGat p g).sec = s.sec := rfl
@[simp] theorem modGat_mgt (p : Nat) (g : Gat → Gat) : (s.modGat p g).mgt = s.mgt := rfl
@[simp] theorem modGat_power (p : Nat) (g : Gat → Gat) : (s.modGat p g).power = s.power := rfl
@[simp] theorem modGat_jtag (p : Nat) (g : Gat → Gat) : (s.modGat p g).jtag = s.jtag := rfl
@[simp] theorem modGat_i3c (p : Nat) (g : Gat → Gat) : (s.modGat p g).i3c = s.i3c := rfl
@[simp] theorem modGat_roots (p : Nat) (g : Gat → Gat) : (s.modGat p g).roots = s.roots := rfl
@[simp] theorem modGat_fences (p : Nat) (g : Gat → Gat) : (s.modGat p g).fences = s.fences := rfl
@[simp] theorem modGat_fenceQueue (p : Nat) (g : Gat → Gat) : (s.modGat p g).fenceQueue = s.fenceQueue := rfl
@[simp] theorem modGat_time (p : Nat) (g : Gat → Gat) : (s.modGat p g).time = s.time := rfl
@[simp] theorem modGat_nextId (p : Nat) (g : Gat → Gat) : (s.modGat p g).nextId = s.nextId := rfl
@[simp] theorem modGat_freeIx (p : Nat) (g : Gat → Gat) : (s.modGat p g).freeIx = s.freeIx := rfl
@[simp] theorem modGat_pending (p : Nat) (g : Gat → Gat) : (s.modGat p g).pending = s.pending := rfl

@[simp] theorem modSyn_fuses (p : Nat) (g : Syn → Syn) : (s.modSyn p g).fuses = s.fuses := rfl
@[simp] theorem modSyn_straps (p : Nat) (g : Syn → Syn) : (s.modSyn p g).straps = s.straps := rfl
@[simp] theorem modSyn_fields (p : Nat) (g : Syn → Syn) : (s.modSyn p g).fields = s.fields := rfl
@[simp] theorem modSyn_mem (p : Nat) (g : Syn → Syn) : (s.modSyn p g).mem = s.mem := rfl
@[simp] theorem modSyn_eyes (p : Nat) (g : Syn → Syn) : (s.modSyn p g).eyes = s.eyes := rfl
@[simp] theorem modSyn_hbm (p : Nat) (g : Syn → Syn) : (s.modSyn p g).hbm = s.hbm := rfl
@[simp] theorem modSyn_dies (p : Nat) (g : Syn → Syn) : (s.modSyn p g).dies = s.dies := rfl
@[simp] theorem modSyn_invals (p : Nat) (g : Syn → Syn) : (s.modSyn p g).invals = s.invals := rfl
@[simp] theorem modSyn_cp (p : Nat) (g : Syn → Syn) : (s.modSyn p g).cp = s.cp := rfl
@[simp] theorem modSyn_chl (p : Nat) (g : Syn → Syn) : (s.modSyn p g).chl = s.chl := rfl
@[simp] theorem modSyn_fab (p : Nat) (g : Syn → Syn) : (s.modSyn p g).fab = s.fab := rfl
@[simp] theorem modSyn_sec (p : Nat) (g : Syn → Syn) : (s.modSyn p g).sec = s.sec := rfl
@[simp] theorem modSyn_mgt (p : Nat) (g : Syn → Syn) : (s.modSyn p g).mgt = s.mgt := rfl
@[simp] theorem modSyn_power (p : Nat) (g : Syn → Syn) : (s.modSyn p g).power = s.power := rfl
@[simp] theorem modSyn_jtag (p : Nat) (g : Syn → Syn) : (s.modSyn p g).jtag = s.jtag := rfl
@[simp] theorem modSyn_i3c (p : Nat) (g : Syn → Syn) : (s.modSyn p g).i3c = s.i3c := rfl
@[simp] theorem modSyn_roots (p : Nat) (g : Syn → Syn) : (s.modSyn p g).roots = s.roots := rfl
@[simp] theorem modSyn_fences (p : Nat) (g : Syn → Syn) : (s.modSyn p g).fences = s.fences := rfl
@[simp] theorem modSyn_fenceQueue (p : Nat) (g : Syn → Syn) : (s.modSyn p g).fenceQueue = s.fenceQueue := rfl
@[simp] theorem modSyn_time (p : Nat) (g : Syn → Syn) : (s.modSyn p g).time = s.time := rfl
@[simp] theorem modSyn_nextId (p : Nat) (g : Syn → Syn) : (s.modSyn p g).nextId = s.nextId := rfl
@[simp] theorem modSyn_freeIx (p : Nat) (g : Syn → Syn) : (s.modSyn p g).freeIx = s.freeIx := rfl
@[simp] theorem modSyn_pending (p : Nat) (g : Syn → Syn) : (s.modSyn p g).pending = s.pending := rfl

@[simp] theorem advance_fuses (p k n : Nat) : (s.advance p k n).fuses = s.fuses := rfl
@[simp] theorem advance_straps (p k n : Nat) : (s.advance p k n).straps = s.straps := rfl
@[simp] theorem advance_fields (p k n : Nat) : (s.advance p k n).fields = s.fields := rfl
@[simp] theorem advance_mem (p k n : Nat) : (s.advance p k n).mem = s.mem := rfl
@[simp] theorem advance_eyes (p k n : Nat) : (s.advance p k n).eyes = s.eyes := rfl
@[simp] theorem advance_hbm (p k n : Nat) : (s.advance p k n).hbm = s.hbm := rfl
@[simp] theorem advance_dies (p k n : Nat) : (s.advance p k n).dies = s.dies := rfl
@[simp] theorem advance_invals (p k n : Nat) : (s.advance p k n).invals = s.invals := rfl
@[simp] theorem advance_cp (p k n : Nat) : (s.advance p k n).cp = s.cp := rfl
@[simp] theorem advance_chl (p k n : Nat) : (s.advance p k n).chl = s.chl := rfl
@[simp] theorem advance_fab (p k n : Nat) : (s.advance p k n).fab = s.fab := rfl
@[simp] theorem advance_sec (p k n : Nat) : (s.advance p k n).sec = s.sec := rfl
@[simp] theorem advance_mgt (p k n : Nat) : (s.advance p k n).mgt = s.mgt := rfl
@[simp] theorem advance_power (p k n : Nat) : (s.advance p k n).power = s.power := rfl
@[simp] theorem advance_jtag (p k n : Nat) : (s.advance p k n).jtag = s.jtag := rfl
@[simp] theorem advance_i3c (p k n : Nat) : (s.advance p k n).i3c = s.i3c := rfl
@[simp] theorem advance_roots (p k n : Nat) : (s.advance p k n).roots = s.roots := rfl
@[simp] theorem advance_fences (p k n : Nat) : (s.advance p k n).fences = s.fences := rfl
@[simp] theorem advance_fenceQueue (p k n : Nat) : (s.advance p k n).fenceQueue = s.fenceQueue := rfl
@[simp] theorem advance_time (p k n : Nat) : (s.advance p k n).time = s.time := rfl
@[simp] theorem advance_nextId (p k n : Nat) : (s.advance p k n).nextId = s.nextId := rfl
@[simp] theorem advance_freeIx (p k n : Nat) : (s.advance p k n).freeIx = s.freeIx := rfl
@[simp] theorem advance_pending (p k n : Nat) : (s.advance p k n).pending = s.pending := rfl

@[simp] theorem setQ_fuses (p k r v : Nat) : (s.setQ p k r v).fuses = s.fuses := rfl
@[simp] theorem setQ_straps (p k r v : Nat) : (s.setQ p k r v).straps = s.straps := rfl
@[simp] theorem setQ_fields (p k r v : Nat) : (s.setQ p k r v).fields = s.fields := rfl
@[simp] theorem setQ_mem (p k r v : Nat) : (s.setQ p k r v).mem = s.mem := rfl
@[simp] theorem setQ_eyes (p k r v : Nat) : (s.setQ p k r v).eyes = s.eyes := rfl
@[simp] theorem setQ_hbm (p k r v : Nat) : (s.setQ p k r v).hbm = s.hbm := rfl
@[simp] theorem setQ_dies (p k r v : Nat) : (s.setQ p k r v).dies = s.dies := rfl
@[simp] theorem setQ_invals (p k r v : Nat) : (s.setQ p k r v).invals = s.invals := rfl
@[simp] theorem setQ_cp (p k r v : Nat) : (s.setQ p k r v).cp = s.cp := rfl
@[simp] theorem setQ_chl (p k r v : Nat) : (s.setQ p k r v).chl = s.chl := rfl
@[simp] theorem setQ_fab (p k r v : Nat) : (s.setQ p k r v).fab = s.fab := rfl
@[simp] theorem setQ_sec (p k r v : Nat) : (s.setQ p k r v).sec = s.sec := rfl
@[simp] theorem setQ_mgt (p k r v : Nat) : (s.setQ p k r v).mgt = s.mgt := rfl
@[simp] theorem setQ_power (p k r v : Nat) : (s.setQ p k r v).power = s.power := rfl
@[simp] theorem setQ_jtag (p k r v : Nat) : (s.setQ p k r v).jtag = s.jtag := rfl
@[simp] theorem setQ_i3c (p k r v : Nat) : (s.setQ p k r v).i3c = s.i3c := rfl
@[simp] theorem setQ_roots (p k r v : Nat) : (s.setQ p k r v).roots = s.roots := rfl
@[simp] theorem setQ_fences (p k r v : Nat) : (s.setQ p k r v).fences = s.fences := rfl
@[simp] theorem setQ_fenceQueue (p k r v : Nat) : (s.setQ p k r v).fenceQueue = s.fenceQueue := rfl
@[simp] theorem setQ_time (p k r v : Nat) : (s.setQ p k r v).time = s.time := rfl
@[simp] theorem setQ_nextId (p k r v : Nat) : (s.setQ p k r v).nextId = s.nextId := rfl
@[simp] theorem setQ_freeIx (p k r v : Nat) : (s.setQ p k r v).freeIx = s.freeIx := rfl
@[simp] theorem setQ_pending (p k r v : Nat) : (s.setQ p k r v).pending = s.pending := rfl

/-! ### Register fields -/

theorem key_inj {x y : Fld} {i j : Nat} (h : key x i = key y j) : x = y ∧ i = j := by
  have hx : x.ctorIdx < 1024 := by cases x <;> decide
  have hy : y.ctorIdx < 1024 := by cases y <;> decide
  simp only [key, Fld.idx] at h
  have hi : i = j := by omega
  have hk : x.ctorIdx = y.ctorIdx := by omega
  exact ⟨by rw [← Fld.ofNat_ctorIdx x, hk, Fld.ofNat_ctorIdx], hi⟩

/-- A field reads the value set, cut to its width. -/
@[simp] theorem f_setF_self (x : Fld) (i v : Nat) : (s.setF x i v).f x i = v % 2 ^ x.width := by
  simp [State.setF, State.f]

/-- Setting a field leaves every other field, and every other instance, alone. -/
theorem f_setF_other {x y : Fld} {i j : Nat} (v : Nat) (h : (y, j) ≠ (x, i)) : (s.setF x i v).f y j = s.f y j := by
  have hk : key y j ≠ key x i := fun e => h (by obtain ⟨a, b⟩ := key_inj e; rw [a, b])
  simp only [State.setF, State.f]
  unfold FMap.put
  split
  · exact FMap.get_erase_other _ _ hk
  · rw [FMap.get_insert_other _ _ _ hk, FMap.get_erase_other _ _ hk]

@[simp] theorem f_setFlag_self (x : Fld) (i : Nat) (b : Bool) : (s.setFlag x i b).f x i = b2n b % 2 ^ x.width :=
  s.f_setF_self x i _

theorem f_setFlag_other {x y : Fld} {i j : Nat} (b : Bool) (h : (y, j) ≠ (x, i)) : (s.setFlag x i b).f y j = s.f y j :=
  s.f_setF_other _ h

/-- A counter below its wrap counts up. -/
theorem f_bump_self (c : Fld) (i n : Nat) (hw : c.width = 64) (h : s.f c i + n < 2 ^ 64) :
    (s.bump c i n).f c i = s.f c i + n := by
  unfold State.bump
  dsimp only
  rw [if_pos h, f_setF_self, hw, Nat.mod_eq_of_lt h]

/-- Counting leaves every field alone but the counter and its wrap bit. -/
theorem f_bump_other {c y : Fld} {i j : Nat} (n : Nat) (h : (y, j) ≠ (c, i))
    (hw : ∀ w k b, c.wrap i = some (w, k, b) → (y, j) ≠ (w, k)) : (s.bump c i n).f y j = s.f y j := by
  unfold State.bump
  dsimp only
  split
  · exact f_setF_other s _ h
  · split
    · rename_i e
      rw [State.orBit, f_setF_other _ _ (hw _ _ _ e), f_setF_other _ _ h]
    · exact f_setF_other s _ h

/-! ### Units -/

@[simp] theorem tile_setTile_self (p : Nat) (t : Tile) : (s.setTile p t).tile p = t := by simp [State.setTile, State.tile]

theorem tile_setTile_other {p q : Nat} (t : Tile) (h : q ≠ p) : (s.setTile p t).tile q = s.tile q := by
  simp [State.setTile, State.tile, FMap.get_put_other _ _ _ h]

@[simp] theorem tile_modTile_self (p : Nat) (g : Tile → Tile) : (s.modTile p g).tile p = g (s.tile p) := by
  simp [State.modTile]

theorem tile_modTile_other {p q : Nat} (g : Tile → Tile) (h : q ≠ p) : (s.modTile p g).tile q = s.tile q := by
  simp [State.modTile, tile_setTile_other s _ h]

@[simp] theorem die_modDie_self (d : Nat) (g : Die → Die) : (s.modDie d g).die d = g (s.die d) := by
  simp [State.modDie, State.die]

theorem die_modDie_other {d e : Nat} (g : Die → Die) (h : e ≠ d) : (s.modDie d g).die e = s.die e := by
  simp [State.modDie, State.die, FMap.get_put_other _ _ _ h]

@[simp] theorem stack_modStack_self (k : Nat) (g : Stack → Stack) : (s.modStack k g).stack k = g (s.stack k) := by
  simp [State.modStack, State.stack]

theorem stack_modStack_other {k e : Nat} (g : Stack → Stack) (h : e ≠ k) : (s.modStack k g).stack e = s.stack e := by
  simp [State.modStack, State.stack, FMap.get_put_other _ _ _ h]

@[simp] theorem port_modPort_self (k : Nat) (g : Port → Port) : (s.modPort k g).port k = g (s.port k) := by
  simp [State.modPort, State.port]

theorem port_modPort_other {k e : Nat} (g : Port → Port) (h : e ≠ k) : (s.modPort k g).port e = s.port e := by
  simp [State.modPort, State.port, FMap.get_put_other _ _ _ h]

@[simp] theorem link_modLink_self (k : Nat) (g : Link → Link) : (s.modLink k g).link k = g (s.link k) := by
  simp [State.modLink, State.link]

theorem link_modLink_other {k e : Nat} (g : Link → Link) (h : e ≠ k) : (s.modLink k g).link e = s.link e := by
  simp [State.modLink, State.link, FMap.get_put_other _ _ _ h]

/-! ### Parts of a tile -/

@[simp] theorem slot_modSlot_self (t : Tile) (k : Nat) (g : Slot → Slot) : (t.modSlot k g).slot k = g (t.slot k) := by
  simp [Tile.modSlot, Tile.slot]

theorem slot_modSlot_other (t : Tile) {k j : Nat} (g : Slot → Slot) (h : j ≠ k) : (t.modSlot k g).slot j = t.slot j := by
  simp [Tile.modSlot, Tile.slot, FMap.get_upd_other _ _ _ h]

@[simp] theorem queue_modQueue_self (t : Tile) (k : Nat) (g : Queue → Queue) : (t.modQueue k g).queue k = g (t.queue k) := by
  simp [Tile.modQueue, Tile.queue]

theorem queue_modQueue_other (t : Tile) {k j : Nat} (g : Queue → Queue) (h : j ≠ k) :
    (t.modQueue k g).queue j = t.queue j := by
  simp [Tile.modQueue, Tile.queue, FMap.get_upd_other _ _ _ h]

@[simp] theorem group_setGroup_self (t : Tile) (g : Nat) (x : Option Group) : (t.setGroup g x).group? g = x := by
  simp [Tile.setGroup, Tile.group?]

theorem group_setGroup_other (t : Tile) {g j : Nat} (x : Option Group) (h : j ≠ g) :
    (t.setGroup g x).group? j = t.group? j := by
  simp [Tile.setGroup, Tile.group?, FMap.get_put_other _ _ _ h]

/-! ### Part memory -/

/-- A byte of part memory after a store of bytes: its own, or what was there. -/
theorem memByte_putBytes (c j : Nat) (bs : List Byte) :
    (s.putBytes c bs).memByte j = if c ≤ j ∧ j < c + bs.length then bs.getD (j - c) memDefault else s.memByte j := by
  simp [State.putBytes, State.memByte, FMap.get_putList]

@[simp] theorem eye_setEye_self (l : Nat) (b : Bool) : (s.setEye l b).eye l = b := by simp [State.setEye, State.eye]

theorem eye_setEye_other {l j : Nat} (b : Bool) (h : j ≠ l) : (s.setEye l b).eye j = s.eye j := by
  simp [State.setEye, State.eye, FMap.get_put_other _ _ _ h]

end Sys2Proof.Machine.State
end

