-- ==== Sys2Proof/Laws/Memory.lean ====
section
/-!
SUPPORT. The canonical form of part memory and scratchpads: every operation that a stack controller performs keeps it, and the memory
of State.reset has it. The operations that only count, mark or log leave memory as it is.
-/
namespace Sys2Proof.Machine.State

variable (s : State)

theorem reset_memory_wf : Memory.wf State.reset.mem = true := rfl

/-- A store of bytes keeps the canonical form. -/
theorem putBytes_memory_wf (c : Nat) (bs : List Byte) (h : Memory.wf s.mem = true) : Memory.wf (s.putBytes c bs).mem = true :=
  FMap.wf_putList memDefault bs c h

/-! ### What leaves memory as it is -/

theorem log_mem (kind : Nat) (r : Bool) (src : Nat) (b : List Nat) : (s.log kind r src b).mem = s.mem := by
  unfold State.log
  split
  · rfl
  · split
    · rfl
    · simp

theorem rowCandidate_mem (k l c : Nat) : (s.rowCandidate k l c).mem = s.mem := by
  simp only [State.rowCandidate]
  split
  · rfl
  · split
    · rfl
    · exact s.log_mem ..

theorem markLine_mem (l : Nat) : (s.markLine l).mem = s.mem := by
  simp only [State.markLine, rowCandidate_mem, modDie_mem]
  split <;> simp

theorem correctLine_mem (l : Nat) : (s.correctLine l).mem = s.mem := by
  simp only [State.correctLine]
  split <;> simp [rowCandidate_mem]

theorem meetErr_mem (l : Nat) (e : CellErr) : (s.meetErr l e).mem = s.mem := by
  cases e <;> simp only [State.meetErr] <;> split <;> simp [markLine_mem, correctLine_mem]

theorem readLine_mem (l : Nat) (e : CellErr) : (s.readLine l e).1.mem = s.mem := by
  simp only [State.readLine, State.when]
  split <;> simp [meetErr_mem]

theorem countAbsent_mem (d : Option Nat) : (s.countAbsent d).mem = s.mem := by
  simp only [State.countAbsent]
  split <;> simp

/-! ### What stores -/

theorem forEach_memory_wf {α : Type} (l : List α) (g : State → α → State)
    (hg : ∀ s x, Memory.wf s.mem = true → Memory.wf (g s x).mem = true) (h : Memory.wf s.mem = true) :
    Memory.wf (s.forEach l g).mem = true := by
  unfold State.forEach
  induction l generalizing s with
  | nil => exact h
  | cons x l ih => exact ih _ (hg s x h)

theorem writeLine_memory_wf (l lo : Nat) (bs : List Byte) (e : CellErr) (h : Memory.wf s.mem = true) :
    Memory.wf (s.writeLine l lo bs e).mem = true := by
  simp only [State.writeLine]
  split <;> exact putBytes_memory_wf _ _ _ (by simpa [meetErr_mem] using h)

theorem writeMasked_memory_wf (l mask : Nat) (bs : List Byte) (e : CellErr) (h : Memory.wf s.mem = true) :
    Memory.wf (s.writeMasked l mask bs e).mem = true := by
  simp only [State.writeMasked]
  split
  · exact s.writeLine_memory_wf _ _ _ _ h
  · exact forEach_memory_wf _ _ _ (fun s x h => s.putBytes_memory_wf _ _ h) (by simpa [meetErr_mem] using h)

theorem atomicAt_memory_wf (c op : Nat) (wide : Bool) (a b : Nat) (e : CellErr) (h : Memory.wf s.mem = true) :
    Memory.wf (s.atomicAt c op wide a b e).1.mem = true := by
  simp only [State.atomicAt]
  split
  · simpa [readLine_mem] using h
  · exact putBytes_memory_wf _ _ _ (by simpa [readLine_mem] using h)

/-- A write by physical address, over the lines it touches. -/
theorem physWrite_memory_wf (d : Option Nat) (pa : Nat) (bs : List Byte) (h : Memory.wf s.mem = true) :
    Memory.wf (s.physWrite d pa bs).1.mem = true := by
  simp only [State.physWrite]
  generalize partsOf pa bs.length = l
  generalize hx : (s, bs, false) = x
  replace h : Memory.wf x.1.mem = true := by rw [← hx]; exact h
  clear hx
  induction l generalizing x with
  | nil => exact h
  | cons y l ih =>
    refine ih _ ?_
    dsimp only
    split
    · simpa [countAbsent_mem] using h
    · exact writeLine_memory_wf _ _ _ _ _ h

/-! ### Scratchpads and eyespots -/

/-- A scratchpad write keeps the canonical form. -/
theorem spadPut_wf (t : Tile) (a : Nat) (bs : List Byte) (h : FMap.wf 0 t.spad = true) : FMap.wf 0 (t.spadPut a bs).spad = true :=
  FMap.wf_putList 0 bs a h

theorem setEye_eyes_wf (l : Nat) (b : Bool) (h : FMap.wf false s.eyes = true) : FMap.wf false (s.setEye l b).eyes = true :=
  FMap.wf_put false l b h

end Sys2Proof.Machine.State
end

