-- ==== Sys2Proof/Laws/Streams.lean ====
section
/-!
SUPPORT. Laws of the streams: what a scalar instruction does once it is fetched and legal, and when it is not.
-/
namespace Sys2Proof.Machine

variable (s : State) (p : Nat) (k : StreamId)

/-- A legal scalar instruction at the stream's program counter runs its body. -/
theorem scalar_runs {n word : Nat} (ok : Bool) (body : State → State) (h : StreamAt s p k n word) (hok : ok = true) :
    s.scalar p k n word ok body = body s := by
  obtain ⟨h1, h2, h3⟩ := h
  simp [State.scalar, h1, h2, h3, hok]

/-- An illegal one halts the tile with ILLEGAL_INSTR (R188). -/
theorem scalar_illegal {n word : Nat} (ok : Bool) (body : State → State) (h1 : s.streamLive p k.num k = true)
    (h2 : s.streamFetched p k.num n word = true) (h3 : ok = false ∨ ((s.tile p).slot k.num).pc % n ≠ 0) :
    s.scalar p k n word ok body = s.haltStream p k.num rIllegal := by
  unfold State.scalar
  rcases h3 with h3 | h3 <;> simp [h1, h2, h3]

/-- One that the stream does not stand at, or cannot execute now, changes nothing. -/
theorem scalar_absent {n word : Nat} (ok : Bool) (body : State → State)
    (h : s.streamLive p k.num k = false ∨ s.streamFetched p k.num n word = false) :
    s.scalar p k n word ok body = s := by
  unfold State.scalar
  rcases h with h | h <;> simp [h]

/-- A change of one slot touches nothing else. -/
theorem slotOnly_modSlot (j : Nat) (g : Slot → Slot) : SlotOnly s (s.modSlot p j g) p j := by
  refine ⟨rfl, ?_, ?_, ?_⟩
  · intro q hq
    exact State.tile_modTile_other s _ (by simpa using hq)
  · simp [State.modSlot, Tile.modSlot]
  · intro i hi
    simp only [State.modSlot, State.tile_modTile_self]
    exact State.slot_modSlot_other _ _ hi

theorem SlotOnly.trans {s t u : State} {p k : Nat} (h : SlotOnly s t p k) (h' : SlotOnly t u p k) : SlotOnly s u p k := by
  obtain ⟨a, b, c, d⟩ := h
  obtain ⟨a', b', c', d'⟩ := h'
  refine ⟨?_, ?_, ?_, ?_⟩
  · unfold State.onlyTiles at *; rw [a']; conv_lhs => rw [a]
  · intro q hq; rw [b' q hq, b q hq]
  · rw [c', c]
  · intro j hj; rw [d' j hj, d j hj]

/-- Writing D and going on: the slot alone changes, D has the value, the stream stands behind the instruction. -/
theorem setQ_advance (j r v n : Nat) :
    SlotOnly s ((s.setQ p j r v).advance p j n) p j
    ∧ SlotNext s ((s.setQ p j r v).advance p j n) p j n
        (fun i => if i = r then v % 2 ^ 64 else s.qreg p j i) := by
  constructor
  · exact (slotOnly_modSlot s p j _).trans (slotOnly_modSlot _ p j _)
  · refine ⟨?_, ?_, ?_⟩
    · simp [State.advance, State.setQ, State.modSlot]
    · simp [State.advance, State.setQ, State.modSlot]
    · intro i
      simp [State.advance, State.setQ, State.modSlot, State.qreg, FMap.get_put]

/-- Going on without writing a register. -/
theorem advance_only (j n : Nat) :
    SlotOnly s (s.advance p j n) p j ∧ SlotNext s (s.advance p j n) p j n (fun i => s.qreg p j i) := by
  constructor
  · exact slotOnly_modSlot s p j _
  · refine ⟨?_, ?_, ?_⟩
    · simp [State.advance, State.modSlot]
    · simp [State.advance, State.modSlot]
    · intro i
      simp [State.advance, State.modSlot, State.qreg]

end Sys2Proof.Machine
end

