-- ==== Sys2Proof/Laws/Threads.lean ====
section
/-!
SUPPORT. Laws of the thread engine: what a legal instruction of a group that can issue does, registers read after
writes, reconvergence, and the frame of an instruction that only changes its group.
-/
namespace Sys2Proof.Machine

variable (s : State) (p g : Nat)

/-- A legal instruction at the group's program counter runs its body. -/
theorem thread_runs {x : Group} {cls op : Nat} {f : ThreadFields} (body : State → Group → State)
    (h : GroupAt s p g x cls op f) : s.thread p g cls op f body = body s x := by
  obtain ⟨h1, h2, h3, h4, h5, h6⟩ := h
  simp [State.thread, State.threadWord, h1, h2, h3, h4, h5, h6]

/-! ### Registers of a group -/

@[simp] theorem vreg_setV (x : Group) (r l : Nat) (w : W32) {r' l' : Nat} (hl : l < 32) (hl' : l' < 32) :
    (x.setV r l w).vreg r' l' = if r' = r ∧ l' = l then w else x.vreg r' l' := by
  simp only [Group.setV, Group.vreg, FMap.get_put]
  by_cases h : r' = r ∧ l' = l
  · obtain ⟨rfl, rfl⟩ := h; simp
  · rw [if_neg (by omega), if_neg h]

@[simp] theorem ureg_setV (x : Group) (r l : Nat) (w : W32) (r' : Nat) : (x.setV r l w).ureg r' = x.ureg r' := rfl
@[simp] theorem vreg_setU (x : Group) (r : Nat) (w : W64) (r' l : Nat) : (x.setU r w).vreg r' l = x.vreg r' l := rfl
@[simp] theorem ureg_setU (x : Group) (r : Nat) (w : W64) (r' : Nat) :
    (x.setU r w).ureg r' = if r' = r then w else x.ureg r' := by
  simp only [Group.setU, Group.ureg, FMap.get_put]
  split <;> simp

/-- The lanes of a mask. -/
theorem mem_lanesOf (m l : Nat) : l ∈ lanesOf m ↔ l < 32 ∧ bit m l = true := by simp [lanesOf]

/-- Everything of a group but its lane registers. -/
def sameButV (x y : Group) : Prop := y = { x with v := y.v }

theorem sameButV_trans {x y z : Group} (h : sameButV x y) (h' : sameButV y z) : sameButV x z := by
  unfold sameButV at *; rw [h', h]

theorem sameButV_setV (x : Group) (r l : Nat) (w : W32) : sameButV x (x.setV r l w) := rfl

/-- Writes of one register in some lanes, with values that do not depend on the writes. -/
theorem foldl_setV (x y : Group) (d : Nat) (h : Nat → W32) (ls : List Nat) (hl : ∀ l ∈ ls, l < 32) (hs : sameButV x y) :
    sameButV x (ls.foldl (fun y l => y.setV d l (h l)) y)
    ∧ ∀ r l, l < 32 → (ls.foldl (fun y l => y.setV d l (h l)) y).vreg r l
        = if r = d ∧ l ∈ ls then h l else y.vreg r l := by
  induction ls generalizing y with
  | nil => exact ⟨hs, fun r l _ => by simp⟩
  | cons a ls ih =>
    have ha : a < 32 := hl a (List.mem_cons_self ..)
    obtain ⟨h1, h2⟩ := ih (y.setV d a (h a)) (fun l m => hl l (List.mem_cons_of_mem _ m)) (sameButV_trans hs (sameButV_setV ..))
    refine ⟨h1, fun r l hl' => ?_⟩
    rw [List.foldl_cons, h2 r l hl', vreg_setV y d a (h a) ha hl']
    by_cases e1 : r = d
    · by_cases e2 : l ∈ ls
      · simp [e1, e2]
      · by_cases e3 : l = a <;> simp [e1, e2, e3]
    · simp [e1]

/-- D takes `h` in the active lanes, and nothing else of the group changes. -/
theorem eachLane_spec (x : Group) (d : Nat) (h : Nat → W32) :
    sameButV x (x.eachLane d h) ∧ ∀ r l, l < 32 → (x.eachLane d h).vreg r l = laneWrite x d h r l := by
  obtain ⟨h1, h2⟩ := foldl_setV x x d h (lanesOf x.mask) (fun l m => ((mem_lanesOf _ _).1 m).1) rfl
  refine ⟨h1, fun r l hl => ?_⟩
  rw [Group.eachLane, h2 r l hl]
  simp [laneWrite, mem_lanesOf, hl]

/-! ### Reconvergence (R63) -/

theorem reconverge_regs (n : Nat) (x : Group) :
    (Group.reconverge n x).v = x.v ∧ (Group.reconverge n x).u = x.u ∧ (Group.reconverge n x).loads = x.loads
    ∧ (Group.reconverge n x).alive = x.alive ∧ (Group.reconverge n x).wait = x.wait := by
  induction n generalizing x with
  | zero => simp [Group.reconverge]
  | succ n ih =>
    unfold Group.reconverge
    split
    · split
      · simp
      · obtain ⟨a, b, c, d, e⟩ := ih { x with pc := _, mask := _, rpc := _, stack := _ }
        exact ⟨a, b, c, d, e⟩
    · simp

/-- A path that has lanes and has not reached its reconvergence address goes on. -/
theorem reconverge_stays (n : Nat) (x : Group) (hm : x.mask ≠ 0) (hr : x.rpc ≠ some x.pc) : Group.reconverge n x = x := by
  cases n with
  | zero => rfl
  | succ n => simp [Group.reconverge, hm, hr]

/-! ### Issue (R59, R60) -/

/-- An instruction that only changes its group: the frame, and the group it leaves. -/
theorem retire_spec {x : Group} (hg : (s.tile p).group? g = some x) (h : Group → Group)
    (hh : ∀ y, (h y).wait = y.wait ∧ (h y).loads = y.loads ∧ (h y).alive = y.alive ∧ (h y).mask = y.mask
      ∧ (h y).stack = y.stack ∧ (h y).rpc = y.rpc ∧ (h y).pc = y.pc) :
    GroupOnly s (s.retire p g h) p g
    ∧ GroupNext (s.retire p g h) p g x (h { x with pc := (x.pc + 8) % 2 ^ 56 }).vreg (h { x with pc := (x.pc + 8) % 2 ^ 56 }).ureg := by
  have hg' : ((s.bump .THR_ISSUE_COUNT p).tile p).group? g = some x := by simpa [State.tile] using hg
  have ht : (s.bump .THR_ISSUE_COUNT p).tile = s.tile := by funext q; simp [State.tile]
  have hf : s.fieldsBut (s.bump .THR_ISSUE_COUNT p) [(.THR_ISSUE_COUNT, p), (.THR_COUNTER_WRAP_ISSUE_WRAPPED, p)] := by
    intro y j hy
    simp only [List.mem_cons, List.not_mem_nil, or_false, not_or] at hy
    refine State.f_bump_other s 1 hy.1 fun w k b e => ?_
    have : (w, k) = (Fld.THR_COUNTER_WRAP_ISSUE_WRAPPED, p) := by
      simp [Fld.wrap] at e; exact Prod.ext e.1.symm e.2.1.symm
    rw [this]; exact hy.2
  have hm : ∀ F : Group → Group, (s.bump .THR_ISSUE_COUNT p).modGroup p g F
      = (s.bump .THR_ISSUE_COUNT p).modTile p (·.setGroup g (some (F x))) := by
    intro F
    have : (s.tile p).modGroup g F = (s.tile p).setGroup g (some (F x)) := by simp [Tile.modGroup, hg]
    simp [State.modGroup, State.modTile, ht, this]
  have ho : ∀ F : Group → Group, GroupOnly s ((s.bump .THR_ISSUE_COUNT p).modGroup p g F) p g := by
    intro F
    rw [hm]
    refine ⟨?_, ?_, ?_, ?_, ?_⟩
    · have : s.onlyFields (s.bump .THR_ISSUE_COUNT p) := by
        unfold State.onlyFields State.bump; dsimp only; split <;> (try split) <;> rfl
      unfold State.onlyFields at this
      unfold State.onlyTilesFields
      rw [this]; rfl
    · intro q hq
      rw [State.tile_modTile_other _ _ (by simpa using hq), ht]
    · simp [ht, Tile.setGroup]
    · intro j hj
      simp [ht, State.group_setGroup_other _ _ hj]
    · intro y j hy; exact hf y j hy
  refine ⟨ho _, ?_⟩
  unfold State.retire
  rw [hm]
  generalize hw : ({ x with pc := (x.pc + 8) % 2 ^ 56 } : Group) = w
  obtain ⟨a1, a2, a3, a4, a5⟩ := reconverge_regs 34 (h w)
  obtain ⟨b1, b2, b3, b4, b5, b6, b7⟩ := hh w
  have hs := reconverge_stays 34 (h w)
  have c : w.wait = x.wait ∧ w.loads = x.loads ∧ w.alive = x.alive ∧ w.mask = x.mask ∧ w.stack = x.stack
      ∧ w.rpc = x.rpc ∧ w.pc = (x.pc + 8) % 2 ^ 56 := by subst hw; simp
  obtain ⟨c1, c2, c3, c4, c5, c6, c7⟩ := c
  have e : ∀ z : Group, ∃ y : Group, (let x := z; if x.stepping ∧ x.wait = .none then
      { x with stepping := false, dbgHalted := true, active := false } else x) = y ∧ y.v = z.v ∧ y.u = z.u
      ∧ y.loads = z.loads ∧ y.alive = z.alive ∧ y.wait = z.wait ∧ y.pc = z.pc ∧ y.mask = z.mask ∧ y.stack = z.stack
      ∧ y.rpc = z.rpc := by
    intro z; refine ⟨_, rfl, ?_⟩; dsimp only; split <;> simp
  obtain ⟨y, hy, d1, d2, d3, d4, d5, d6, d7, d8, d9⟩ := e (Group.reconverge 34 (h w))
  simp only [GroupNext, State.tile_modTile_self, State.group_setGroup_self]
  refine ⟨y, ?_, fun r l _ => ?_, fun r => ?_, ?_, ?_, ?_, ?_⟩
  · rw [← hy]
  · simp [Group.vreg, d1, a1]
  · simp [Group.ureg, d2, a2]
  · rw [d3, a3, b2, c2]
  · rw [d4, a4, b3, c3]
  · rw [d5, a5, b1, c1]
  · unfold Behind
    intro hm hr
    rw [hs (by rw [b4, c4]; exact hm) (by rw [b6, b7, c6, c7]; exact hr)] at d6 d7 d8 d9
    exact ⟨by rw [d6, b7, c7], by rw [d7, b4, c4], by rw [d8, b5, c5], by rw [d9, b6, c6]⟩

end Sys2Proof.Machine
end

