-- ==== Sys2Proof/WellFormed.lean ====
section
/-!
DEFINITION. Well-formed commands: every number names something that some part number has (R9, R22, R302), and data have the
length that their message or event carries. Whether the unit is present on this part is a matter of the state.
-/
namespace Sys2Proof

/-- A physical tile index (R9). -/
def tileOk (p : Nat) : Bool := decide (p < 832)
/-- A group slot of a tile (R58). -/
def groupOk (g : Nat) : Bool := decide (g < 64)
/-- A compute die. -/
def dieOk (d : Nat) : Bool := decide (d < 8)
/-- A Kyolor link (R320). -/
def linkOk (l : Nat) : Bool := decide (l < 36)
/-- A lane of a link: four of data and the spare (R320). -/
def laneOk (n : Nat) : Bool := decide (n < 5)
/-- A Chautlink port. -/
def portOk (k : Nat) : Bool := decide (k < 2)
/-- A context (R8). -/
def ctxOk (c : Nat) : Bool := decide (c < 64)
/-- A submission or completion queue (R8). -/
def queueOk (q : Nat) : Bool := decide (q < 1024)
/-- A memory stack (R222). -/
def stackOk (k : Nat) : Bool := decide (k < 16)
/-- A firmware processor (R350). -/
def procOk (i : Nat) : Bool := decide (i < 22)
/-- A rail of Table Rails (R423). -/
def railOk (r : Nat) : Bool := decide (r < 23)
/-- A fence slot (R297). -/
def slotOk (n : Nat) : Bool := decide (n < 65536)
/-- The 64 bytes of a line. -/
def lineOk (bs : List Byte) : Bool := decide (bs.length = 64)
/-- The data of a message: at most a line. -/
def dataOk (bs : List Byte) : Bool := decide (bs.length ≤ 64)
/-- The data of a packet: at most 256 bytes (R335). -/
def packetOk (pk : Packet) : Bool := decide (pk.data.length ≤ 256)
/-- Replies of the host at 52-bit addresses (R302), and of other parts at an endpoint and a physical address (R329, R223),
which stand from 2^64 on. -/
def hostOk (hs : HostMem) : Bool :=
  hs.all fun x => decide (x.1 < 2 ^ 52) || (decide (2 ^ 64 ≤ x.1) && decide (x.1 < 2 ^ 64 + 2 ^ 59))

def Fetcher.wf : Fetcher → Bool
  | .stream _ => true
  | .group g => groupOk g

def Waiter.wf : Waiter → Bool
  | .stream _ | .engine _ => true
  | .group g => groupOk g

def TileErr.wf : TileErr → Bool
  | .none | .corrected | .detected => true
  | .l1 way _ => decide (way < 8)

def HostLine.wf : HostLine → Bool
  | .doorbell q => queueOk q
  | .cqConsumer q => queueOk q
  | .eringConsumer | .fringConsumer | .rringProducer => true

def FenceWaiter.wf : FenceWaiter → Bool
  | .tile p => tileOk p
  | .descriptor q _ => queueOk q

def BarrierKind.wf : BarrierKind → Bool
  | .ybar => true
  | .barb b => decide (b < 16)

def InvParticipant.wf : InvParticipant → Bool
  | .tile p => tileOk p
  | .walker d | .cp d | .codec d => dieOk d

def IrqSource.wf : IrqSource → Bool
  | .cq n => queueOk n
  | .fring | .ering | .fab => true

def PmbusSensor.wf : PmbusSensor → Bool
  | .inputVoltage | .inputCurrent => true
  | .railVoltage r | .railCurrent r | .regTemp r => railOk r

/-- A command is well-formed. DEDUCED: notes/assumptions/80.md. -/
def Instr.wf : Instr → Bool
  | .registerWrite port _ _ => portOk port
  | .mmrd port _ => portOk port
  | .registerAccess _ => true
  | .bypass => true
  | .idcode => true
  | .samplePreload _ => true
  | .extest => true
  | .clamp => true
  | .highz => true
  | .tapReset => true
  | .launchMessage p => tileOk p
  | .kernelEnd p => tileOk p
  | .instructionFetchFill p who => tileOk p && who.wf
  | .engineInstructionPush p _ _ => tileOk p
  | .queueEntryFreed p _ _ => tileOk p
  | .engineInstructionComplete p _ _ => tileOk p
  | .streamStallLimit p w _ => tileOk p && w.wf
  | .broadcastReceive p _ => tileOk p
  | .broadcastCreditReturn p _ _ => tileOk p
  | .gangWaitComplete p _ => tileOk p
  | .gangHalt p => tileOk p
  | .haltRecordsFinal p => tileOk p
  | .haltReq p => tileOk p
  | .seqCtrlResume p => tileOk p
  | .clearHalt p => tileOk p
  | .qnop p _ _ => tileOk p
  | .qend p _ _ => tileOk p
  | .qadd p _ _ => tileOk p
  | .qsub p _ _ => tileOk p
  | .qmul p _ _ => tileOk p
  | .qand p _ _ => tileOk p
  | .qor p _ _ => tileOk p
  | .qxor p _ _ => tileOk p
  | .qshl p _ _ => tileOk p
  | .qshr p _ _ => tileOk p
  | .qsra p _ _ => tileOk p
  | .qmin p _ _ => tileOk p
  | .qmax p _ _ => tileOk p
  | .qminu p _ _ => tileOk p
  | .qmaxu p _ _ => tileOk p
  | .qslt p _ _ => tileOk p
  | .qsltu p _ _ => tileOk p
  | .qaddi p _ _ => tileOk p
  | .qandi p _ _ => tileOk p
  | .qori p _ _ => tileOk p
  | .qxori p _ _ => tileOk p
  | .qshli p _ _ => tileOk p
  | .qshri p _ _ => tileOk p
  | .qmuli p _ _ => tileOk p
  | .qmovi p _ _ => tileOk p
  | .qmovi64 p _ _ => tileOk p
  | .qld p _ _ => tileOk p
  | .qldsp p _ _ => tileOk p
  | .qbr p _ _ => tileOk p
  | .qloop p _ _ => tileOk p
  | .qloopx p _ _ => tileOk p
  | .qloopn p _ _ => tileOk p
  | .qwait p _ _ => tileOk p
  | .tlaunch p => tileOk p
  | .tcarve p => tileOk p
  | .tpreload p ext => tileOk p && hostOk ext
  | .tnop p => tileOk p
  | .groupPromotion p => tileOk p
  | .loadReturn p g _ way => tileOk p && groupOk g && decide (way < 8)
  | .storeBufferDrain p _ err => tileOk p && err.wf
  | .writeBufferDrain p => tileOk p
  | .groupNoProgress p g => tileOk p && groupOk g
  | .wayDisable p w => tileOk p && decide (w < 8)
  | .l1ErrorWindowEnd p w => tileOk p && decide (w < 8)
  | .grpDbgHalt p => tileOk p
  | .grpDbgResume p => tileOk p
  | .grpDbgStep p => tileOk p
  | .mov p g _ => tileOk p && groupOk g
  | .add p g _ => tileOk p && groupOk g
  | .sub p g _ => tileOk p && groupOk g
  | .mul p g _ => tileOk p && groupOk g
  | .mulhi p g _ => tileOk p && groupOk g
  | .mulhiu p g _ => tileOk p && groupOk g
  | .and p g _ => tileOk p && groupOk g
  | .or p g _ => tileOk p && groupOk g
  | .xor p g _ => tileOk p && groupOk g
  | .shl p g _ => tileOk p && groupOk g
  | .shr p g _ => tileOk p && groupOk g
  | .sra p g _ => tileOk p && groupOk g
  | .min p g _ => tileOk p && groupOk g
  | .max p g _ => tileOk p && groupOk g
  | .minu p g _ => tileOk p && groupOk g
  | .maxu p g _ => tileOk p && groupOk g
  | .adds p g _ => tileOk p && groupOk g
  | .subs p g _ => tileOk p && groupOk g
  | .addsu p g _ => tileOk p && groupOk g
  | .subsu p g _ => tileOk p && groupOk g
  | .cmp p g _ => tileOk p && groupOk g
  | .sel p g _ => tileOk p && groupOk g
  | .add64 p g _ => tileOk p && groupOk g
  | .sub64 p g _ => tileOk p && groupOk g
  | .shfl p g _ => tileOk p && groupOk g
  | .fadd p g _ => tileOk p && groupOk g
  | .fsub p g _ => tileOk p && groupOk g
  | .fmul p g _ => tileOk p && groupOk g
  | .ffma p g _ => tileOk p && groupOk g
  | .fmin p g _ => tileOk p && groupOk g
  | .fmax p g _ => tileOk p && groupOk g
  | .fcmp p g _ => tileOk p && groupOk g
  | .fexp2 p g _ => tileOk p && groupOk g
  | .flog2 p g _ => tileOk p && groupOk g
  | .frcp p g _ => tileOk p && groupOk g
  | .frsqrt p g _ => tileOk p && groupOk g
  | .cvt p g _ => tileOk p && groupOk g
  | .ld p g _ err => tileOk p && groupOk g && err.wf
  | .st p g _ => tileOk p && groupOk g
  | .atom p g _ => tileOk p && groupOk g
  | .nop p g _ => tileOk p && groupOk g
  | .bra p g _ => tileOk p && groupOk g
  | .brx p g _ => tileOk p && groupOk g
  | .elect p g _ => tileOk p && groupOk g
  | .vote p g _ => tileOk p && groupOk g
  | .thrEnd p g _ => tileOk p && groupOk g
  | .cinv p g _ => tileOk p && groupOk g
  | .barb p g _ => tileOk p && groupOk g
  | .membar p g _ => tileOk p && groupOk g
  | .semwait p g _ => tileOk p && groupOk g
  | .semsig p g _ => tileOk p && groupOk g
  | .gmma p g _ => tileOk p && groupOk g
  | .umov p g _ => tileOk p && groupOk g
  | .uadd p g _ => tileOk p && groupOk g
  | .usub p g _ => tileOk p && groupOk g
  | .umul p g _ => tileOk p && groupOk g
  | .uand p g _ => tileOk p && groupOk g
  | .uor p g _ => tileOk p && groupOk g
  | .uxor p g _ => tileOk p && groupOk g
  | .ushl p g _ => tileOk p && groupOk g
  | .ushr p g _ => tileOk p && groupOk g
  | .uld p g _ => tileOk p && groupOk g
  | .uins16 p g _ => tileOk p && groupOk g
  | .mldp p _ => tileOk p
  | .mlut p _ => tileOk p
  | .mswap p _ => tileOk p
  | .mstr p _ err => tileOk p && err.wf
  | .mdrn p _ => tileOk p
  | .mzero p _ => tileOk p
  | .mdly p _ => tileOk p
  | .gmmaBegin p _ => tileOk p
  | .gmmaResult p _ => tileOk p
  | .gxfer p => tileOk p
  | .gfill p => tileOk p
  | .gnop p => tileOk p
  | .gatherReadReturn p _ => tileOk p
  | .ynop p => tileOk p
  | .yset p => tileOk p
  | .ybar p => tileOk p
  | .ymembar p => tileOk p
  | .yfsignal p => tileOk p
  | .yfwait p => tileOk p
  | .ypoll p => tileOk p
  | .ypollReread p => tileOk p
  | .semaphoreSignal p _ => tileOk p
  | .barrierArrival p => tileOk p
  | .barrierPublicationReceive p k => tileOk p && k.wf
  | .fenceSignal n => slotOk n
  | .fenceWaitSatisfied w => w.wf
  | .stackRead s line _ _ => stackOk s && decide (line < 2 ^ 30)
  | .stackWrite s line _ data _ => stackOk s && decide (line < 2 ^ 30) && lineOk data
  | .stackAtomic s off _ wide _ _ _ => stackOk s && decide (off < 2 ^ 36 ∧ off % (if wide then 8 else 4) = 0)
  | .scrubRead s _ => stackOk s
  | .stackTemperatureRead s _ _ => stackOk s
  | .rowRemapComplete s _ => stackOk s
  | .refetch d => dieOk d
  | .walkRequest p => tileOk p
  | .walkComplete d _ hs => dieOk d && hostOk hs
  | .faultEntryAllocate d _ => dieOk d
  | .faultRecordWrite hs => hostOk hs
  | .retry _ hs => hostOk hs
  | .unserviceable _ hs => hostOk hs
  | .xltRingRetry => true
  | .invalidationAck _ who => who.wf
  | .openCtx c => ctxOk c
  | .start c => ctxOk c
  | .abort c bells => ctxOk c && bells.all fun x => queueOk x.1
  | .contextStopped c => ctxOk c
  | .destroy c => ctxOk c
  | .sqEnable q => queueOk q
  | .sqDisable q => queueOk q
  | .cqEnable q => queueOk q
  | .cqDisable q => queueOk q
  | .hostLineReread l hs => l.wf && hostOk hs
  | .descriptorFetch q hs => queueOk q && hostOk hs
  | .launch q _ hs => queueOk q && hostOk hs
  | .copy q _ hs => queueOk q && hostOk hs
  | .compress q _ hs => queueOk q && hostOk hs
  | .decompress q _ hs => queueOk q && hostOk hs
  | .fence q _ => queueOk q
  | .invalidate q _ => queueOk q
  | .objRegister q _ hs => queueOk q && hostOk hs
  | .objRelease q _ => queueOk q
  | .itemDispatch d hs => dieOk d && hostOk hs
  | .codecFrameComplete d hs => dieOk d && hostOk hs
  | .completionRecordWrite cq hs => hostOk hs && queueOk cq
  | .descriptorFenceSignal q _ => queueOk q
  | .errorRecordWrite hs => hostOk hs
  | .eringRingRetry => true
  | .objTableBaseWrite _ => true
  | .objectTableReady => true
  | .interruptHoldoffExpiry src => src.wf
  | .flitReceive port _ => portOk port
  | .credit port _ _ => portOk port
  | .rds port _ => portOk port
  | .rdo port _ => portOk port
  | .rdnc port _ => portOk port
  | .wrl port _ data => portOk port && lineOk data
  | .wrp port _ data => portOk port && dataOk data
  | .chlAtom port _ data => portOk port && dataOk data
  | .wb port _ data => portOk port && lineOk data
  | .evict port _ => portOk port
  | .snpinv port _ => portOk port
  | .chlCmp port _ => portOk port
  | .chlAck port _ => portOk port
  | .ackd port _ data => portOk port && lineOk data
  | .nohome port _ => portOk port
  | .chlData port _ data => portOk port && dataOk data
  | .chlCompletionTimeout port _ => portOk port
  | .snoopTimeout port => portOk port
  | .chlPortRetrain port => portOk port
  | .frameReceive l _ => linkOk l
  | .laneLockLoss l _ lane => linkOk l && laneOk lane
  | .fecWindowEnd l _ lane _ _ => linkOk l && laneOk lane
  | .linkEnable l => linkOk l
  | .linkDisable l => linkOk l
  | .fabLinkRetrain l => linkOk l
  | .linkTrainingComplete l _ => linkOk l
  | .linkDownRetry l => linkOk l
  | .retrainAttemptTimeout l => linkOk l
  | .fabSetupEnable _ => true
  | .put pk => packetOk pk
  | .get pk => packetOk pk
  | .fabAtom pk => packetOk pk
  | .cput pk => packetOk pk
  | .fabAck pk => packetOk pk
  | .fabData pk => packetOk pk
  | .fail pk => packetOk pk
  | .destDeadTimeout io entry => decide (io < 4) && decide (entry < 4096)
  | .fabDeadClear _ => true
  | .fabCollEnable g => groupOk g
  | .collectiveContribution g _ data => groupOk g && lineOk data
  | .collectiveRoundComplete g _ => groupOk g
  | .collectiveRoundTimeout g _ => groupOk g
  | .load _ => true
  | .imageCheck => true
  | .report => true
  | .readLog => true
  | .readChain => true
  | .extend => true
  | .programFuse => true
  | .watchdogExpiry i => procOk i
  | .getVersion _ => true
  | .getCapabilities _ => true
  | .negotiateAlgorithms _ => true
  | .getDigests _ => true
  | .getCertificate _ => true
  | .challenge _ => true
  | .getMeasurements _ => true
  | .spdmUnsupportedRequest _ => true
  | .setEndpointId _ => true
  | .getEndpointId _ => true
  | .getMctpVersionSupport _ => true
  | .getMessageTypeSupport _ => true
  | .getTid _ => true
  | .setTid _ => true
  | .getPldmVersion _ => true
  | .getPldmTypes _ => true
  | .getPldmCommands _ => true
  | .getPdrRepositoryInfo _ => true
  | .getPdr _ => true
  | .getSensorReading _ => true
  | .getStateSensorReadings _ => true
  | .pldmUnsupportedCommand _ => true
  | .sensorRead => true
  | .logInfo => true
  | .logRead => true
  | .moultNominate => true
  | .quiesce d => dieOk d
  | .moult d => dieOk d
  | .dieSensorSample io d k _ => decide (d < if io then 4 else 8) && decide (k < if io then 4 else 16)
  | .shutdownPowerOff => true
  | .pmbusRead sensor _ => sensor.wf
  | .dieEvaluation d => dieOk d
  | .fastCurrentLimit => true
  | .fastLimitRelease => true
  | .tileErrorPeriodEnd => true
  | .logRecordProgram => true
  | .logSectorErase => true
  | .stacksOpen d _ _ => dieOk d
  | .powerWarning _ => true
  | .powerWarningClear => true
  | .powerOnReset => true
  | .partReset => true
  | .hardwareStart _ => true
  | .partResetKeyWrite _ => true
  | .setupLock => true
  | .refLost => true
  | .refReturn => true
  | .pllLost _ _ _ => true
  | .pwrEnAssert _ => true
  | .pwrEnDeassert => true
  | .railOutOfRegulation r => railOk r
  | .railStartTimeout => true
  | .vinOvervoltage => true
  | .vinUndervoltage => true
  | .inputCurrentLimitTimeout => true
  | .vcblOvercurrent k => decide (k < 9)
  | .chlPortTrainingComplete port _ => portOk port
  | .partResetDelayExpiry => true
  | .vinApplied => true
  | .dynamicAddressAssignment _ _ => true

end Sys2Proof
end

