-- ==== Sys2Proof/Tests/Slice0.lean ====
section
/-!
SUPPORT. Tests: ill-formed commands are refused by WellFormed, hypotheses of the statements are met by small states
(the witnesses), and single commands give what the spec's words, tables and worked examples say.
-/
namespace Sys2Proof.Tests

open Sys2Proof Sys2Proof.Machine

set_option maxRecDepth 100000

/-! ### Small states -/

/-- A part whose tile 5 is `t`. -/
def on (t : Tile) : State := { State.reset with tiles := [(5, t)] }

/-- The launch message of a kernel of one tile. -/
def msg : LaunchMsg := ⟨⟨0, 0, 0, 0, false⟩, [0x1000, 0x1000, 0x1000, 0x1000], 15, 7, 0, 5, 0⟩

/-- A stream slot at 0x1000. -/
def slotOn : Slot := { Slot.reset with enabled := true, ended := false, pc := 0x1000 }

/-- A tile that runs a kernel, its stream `k` as `x`, with these bytes at 0x1000 in its instruction caches. -/
def running (k : StreamId) (x : Slot) (bs : List Byte) : Tile :=
  { Tile.reset with seq := { SeqState.reset with
      run := .lead, kernel := some msg, slots := [(k.num, x)], icache := [(0x40, bs ++ rep (64 - bs.length) 0)],
      tcache := [(0x40, bs ++ rep (64 - bs.length) 0)] } }

/-- Stream `k` of tile 5 at an instruction. -/
def scalarAt (k : StreamId) (n word : Nat) : State := on (running k slotOn (toLE n word))

/-- Part memory: both stacks of die 0 have trained. -/
def withStacks (s : State) : State := (s.setF .HBM_STATUS_STATE 0 1).setF .HBM_STATUS_STATE 1 1

/-- A cached translation of a 4 KiB page to part memory. -/
def page (va pa : Nat) : XEntry := ⟨0, va, 12, va, 0, pa, 0, true, true, 3, true, true, 3⟩

/-! ### Streams -/

theorem wit_scalar_register : ∃ (s : State) (p : Nat) (k : StreamId) (f : ScalarR),
    f.len = 0 ∧ f.rsv0 = 0 ∧ f.rsv1 = 0 ∧ StreamAt s p k 8 (f.word 0x11) :=
  ⟨scalarAt .syn 8 (ScalarR.word 0x11 ⟨0, 15, 14, 15, 0, 0⟩), 5, .syn, ⟨0, 15, 14, 15, 0, 0⟩, by decide, by decide, by decide,
    by unfold StreamAt; decide⟩

theorem wit_scalar_immediate : ∃ (s : State) (p : Nat) (k : StreamId) (f : ScalarI), f.len = 0 ∧ f.rsv0 = 0 ∧
    StreamAt s p k 8 (f.word 0x1D) :=
  ⟨scalarAt .thr 8 (ScalarI.word 0x1D ⟨0, 15, 0, 0, 0xFFFFFFFF⟩), 5, .thr, ⟨0, 15, 0, 0, 0xFFFFFFFF⟩, by decide, by decide,
    by unfold StreamAt; decide⟩

theorem wit_qmovi_qloopn : ∃ (s t : State) (p : Nat) (k : StreamId) (f : ScalarI), f.len = 0 ∧ f.rsv0 = 0 ∧ f.a = 0 ∧
    StreamAt s p k 8 (f.word 0x1F) ∧ StreamAt t p k 8 (f.word 0x2B) :=
  ⟨scalarAt .mat 8 (ScalarI.word 0x1F ⟨0, 15, 0, 0, 3⟩), scalarAt .mat 8 (ScalarI.word 0x2B ⟨0, 15, 0, 0, 3⟩), 5, .mat,
    ⟨0, 15, 0, 0, 3⟩, by decide, by decide, by decide, by unfold StreamAt; decide, by unfold StreamAt; decide⟩

theorem wit_qmovi64 : ∃ (s : State) (p : Nat) (k : StreamId) (f : ScalarX), f.len = 1 ∧ f.rsv0 = 0 ∧ f.rsv1 = 0 ∧
    StreamAt s p k 16 (f.word 0x20) :=
  ⟨scalarAt .thr 16 (ScalarX.word 0x20 ⟨1, 15, 0, 0, 0x8000000000000001⟩), 5, .thr, ⟨1, 15, 0, 0, 0x8000000000000001⟩,
    by decide, by decide, by decide, by unfold StreamAt; decide⟩

/-- QBR inside a loop, to the first instruction of its body, and not taken. -/
theorem wit_qbr : ∃ (s : State) (p : Nat) (k : StreamId) (f : ScalarB), f.len = 0 ∧ f.rsv0 = 0 ∧ f.cond ≠ 7 ∧
    (f.cond = 0 → f.a = 0 ∧ f.b = 0) ∧ f.offset.toNat % 8 = 0 ∧ StreamAt s p k 8 (f.word 0x28) ∧
    let x := (s.tile p).slot k.num
    let target := ((BitVec.ofNat 64 x.pc + f.offset.signExtend 64).toNat) % 2 ^ 56
    BitVec.ofNat 64 (s.qreg p k.num f.a.toNat) = BitVec.ofNat 64 (s.qreg p k.num f.b.toNat)
    ∧ ∀ l ls, x.loops = l :: ls → l.first ≤ target ∧ target ≤ l.last :=
  ⟨on (running .thr { slotOn with loops := [⟨0xFF8, 0x1000, 0⟩] } (toLE 8 (ScalarB.word 0x28 ⟨0, 1, 2, 1, 0, 0xFFFFFFF8⟩))), 5,
    .thr, ⟨0, 1, 2, 1, 0, 0xFFFFFFF8⟩, by decide, by decide, by decide, by decide, by decide, by unfold StreamAt; decide,
    by decide, fun l ls h => by
      have : l = ⟨0xFF8, 0x1000, 0⟩ := (List.cons.inj h).1.symm
      subst this; decide⟩

theorem wit_qloop : ∃ (s : State) (p : Nat) (k : StreamId) (f : ScalarL), f.len = 0 ∧ f.rsv0 = 0 ∧ 8 ≤ f.endOff.toInt ∧
    f.endOff.toInt % 8 = 0 ∧ StreamAt s p k 8 (f.word 0x29) ∧
    let x := (s.tile p).slot k.num
    s.qreg p k.num f.count.toNat % 2 ^ 32 ≠ 0 ∧ x.loops.length < 4
    ∧ ∀ l ls, x.loops = l :: ls → (x.pc + f.endOff.toNat) % 2 ^ 56 ≤ l.last :=
  ⟨on (running .thr { slotOn with q := [(15, 0xFFFFFFFF)], loops := rep 3 ⟨0xF00, 0x1008, 0⟩ }
      (toLE 8 (ScalarL.word 0x29 ⟨0, 15, 0, 8⟩))), 5, .thr, ⟨0, 15, 0, 8⟩, by decide, by decide, by decide, by decide,
    by unfold StreamAt; decide, by decide, by decide, fun l ls h => by
      have : l = ⟨0xF00, 0x1008, 0⟩ := (List.cons.inj h).1.symm
      subst this; decide⟩

theorem wit_stream_control : ∃ (s t u : State) (p : Nat) (k : StreamId) (l : LoopLevel) (ls : List LoopLevel) (bs : List Byte),
    StreamAt s p k 8 (ScalarR.word 0x01 ⟨0, 0, 0, 0, 0, 0⟩) ∧ StreamAt t p k 8 (ScalarR.word 0x02 ⟨0, 0, 0, 0, 0, 0⟩)
    ∧ StreamAt u p k 8 (ScalarR.word 0x2A ⟨0, 0, 0, 0, 0, 0⟩) ∧ ((u.tile p).slot k.num).loops = l :: ls
    ∧ cacheBytes (u.tile p).seq.icache l.last 8 = some bs :=
  ⟨scalarAt .gat 8 (ScalarR.word 0x01 ⟨0, 0, 0, 0, 0, 0⟩), scalarAt .gat 8 (ScalarR.word 0x02 ⟨0, 0, 0, 0, 0, 0⟩),
    on (running .gat { slotOn with loops := [⟨0x1000, 0x1008, 2⟩] } (toLE 8 (ScalarR.word 0x2A ⟨0, 0, 0, 0, 0, 0⟩))),
    5, .gat, ⟨0x1000, 0x1008, 2⟩, [], rep 8 0, by unfold StreamAt; decide, by unfold StreamAt; decide,
    by unfold StreamAt; decide, by decide, by decide⟩

/-- QLD of part memory. -/
def qldState : State :=
  withStacks (on { running .thr slotOn (toLE 8 (ScalarI.word 0x21 ⟨0, 1, 2, 0, 0xFF8⟩)) with xc := [page 0 0x2000] })

theorem wit_qld : ∃ (s s₁ s₂ : State) (p : Nat) (k : StreamId) (f : ScalarI) (tgt pa ep : Nat) (bs : List Byte) (poison : Bool),
    f.len = 0 ∧ f.rsv0 = 0 ∧ StreamAt s p k 8 (f.word 0x21) ∧ ((s.tile p).slot k.num).read = none ∧
    let va := (BitVec.ofNat 64 (s.qreg p k.num f.a.toNat) + f.imm.signExtend 64).toNat % 2 ^ 56
    va % 8 = 0 ∧ s.translate p (s.missOf p (.stream p k) va .read ((s.tile p).slot k.num).pc) = (s₁, .ok tgt pa ep)
    ∧ s₁.memRead p tgt pa ep 8 (.stream p k) = (s₂, .data bs poison) :=
  ⟨qldState, (qldState.translate 5 (qldState.missOf 5 (.stream 5 .thr) 0xFF8 .read 0x1000)).1,
    ((qldState.translate 5 (qldState.missOf 5 (.stream 5 .thr) 0xFF8 .read 0x1000)).1.memRead 5 0 0x2FF8 0 8 (.stream 5 .thr)).1,
    5, .thr, ⟨0, 1, 2, 0, 0xFF8⟩, 0, 0x2FF8, 0, rep 8 0, false, by decide, by decide, by unfold StreamAt; decide, by decide,
    by decide, by decide, by decide⟩

/-- A read of the host that has been answered. -/
def replied (id : Nat) (o : Owner) (bs : List Byte) : HostReq := ⟨id, 0, 0, .rdnc, 0x10, bs.length, o, none, .done, bs, false, false⟩

/-- A part whose tile 5 is `t` and which holds these requests to the host. -/
def onReqs (t : Tile) (l : List HostReq) : State := { on t with chl := { Chl.reset with reqs := l } }

theorem wit_qld_reply : ∃ (s s₁ : State) (p : Nat) (k : StreamId) (f : ScalarI) (id : Nat) (bs : List Byte),
    f.len = 0 ∧ f.rsv0 = 0 ∧ StreamAt s p k 8 (f.word 0x21) ∧ ((s.tile p).slot k.num).read = some id ∧
    (BitVec.ofNat 64 (s.qreg p k.num f.a.toNat) + f.imm.signExtend 64).toNat % 8 = 0 ∧ s.takeReq p 8 id = some (s₁, bs) :=
  ⟨onReqs (running .thr { slotOn with read := some 9 } (toLE 8 (ScalarI.word 0x21 ⟨0, 1, 2, 0, 0x10⟩)))
      [replied 9 (.stream 5 .thr) (toLE 8 77)],
    on (running .thr { slotOn with read := some 9 } (toLE 8 (ScalarI.word 0x21 ⟨0, 1, 2, 0, 0x10⟩))),
    5, .thr, ⟨0, 1, 2, 0, 0x10⟩, 9, toLE 8 77, by decide, by decide, by unfold StreamAt; decide, by decide, by decide, by decide⟩

theorem wit_qldsp : ∃ (s : State) (p : Nat) (k : StreamId) (f : ScalarI), f.len = 0 ∧ f.rsv0 = 0 ∧ StreamAt s p k 8 (f.word 0x22)
    ∧ (BitVec.ofNat 64 (s.qreg p k.num f.a.toNat) + f.imm.signExtend 64).toNat % 3145728 % 8 = 0 :=
  ⟨scalarAt .mat 8 (ScalarI.word 0x22 ⟨0, 1, 2, 0, 3145720⟩), 5, .mat, ⟨0, 1, 2, 0, 3145720⟩, by decide, by decide,
    by unfold StreamAt; decide, by decide⟩

/-- QWAIT granted with exactly its count, and one short of it. -/
theorem wit_qwait : ∃ (s t : State) (p : Nat) (k : StreamId) (f : ScalarW), f.len = 0 ∧ f.rsv0 = 0 ∧ f.rsv1 = 0 ∧ f.cond = 2
    ∧ (∀ u ∈ [s, t], StreamAt u p k 8 (f.word 0x2C) ∧ u.gangTiles p = [p] ∧ u.leadOf p = p ∧ (u.tile p).gangSize = 1)
    ∧ f.count.toNat + 1 = s.sem p f.sem.toNat ∧ t.sem p f.sem.toNat < f.count.toNat + 1 :=
  ⟨on { running .thr slotOn (toLE 8 (ScalarW.word 0x2C ⟨0, 2, 31, 15, 0, 0⟩)) with syn := { Syn.reset with sems := [(31, 16)] } },
    on { running .thr slotOn (toLE 8 (ScalarW.word 0x2C ⟨0, 2, 31, 15, 0, 0⟩)) with syn := { Syn.reset with sems := [(31, 15)] } },
    5, .thr, ⟨0, 2, 31, 15, 0, 0⟩, by decide, by decide, by decide, by decide, by unfold StreamAt; decide, by decide, by decide⟩

theorem wit_illegal_scalar : ∃ (s : State) (p : Nat) (k : StreamId) (f : ScalarR) (b : ScalarB) (t : State),
    s.streamLive p k.num k = true ∧ s.streamFetched p k.num 8 (f.word 0x03) = true ∧ f.rsv1 ≠ 0
    ∧ t.streamLive p k.num k = true ∧ t.streamFetched p k.num 8 (b.word 0x28) = true ∧ b.cond = 7 :=
  ⟨scalarAt .thr 8 (ScalarR.word 0x03 ⟨0, 1, 2, 3, 0, 1⟩), 5, .thr, ⟨0, 1, 2, 3, 0, 1⟩, ⟨0, 1, 2, 7, 0, 8⟩,
    scalarAt .thr 8 (ScalarB.word 0x28 ⟨0, 1, 2, 7, 0, 8⟩), by decide, by decide, by decide, by decide, by decide, by decide⟩

theorem wit_qloopx_no_loop : StreamAt (scalarAt .thr 8 (ScalarR.word 0x2A ⟨0, 0, 0, 0, 0, 0⟩)) 5 .thr 8
      (ScalarR.word 0x2A ⟨0, 0, 0, 0, 0, 0⟩)
    ∧ (((scalarAt .thr 8 (ScalarR.word 0x2A ⟨0, 0, 0, 0, 0, 0⟩)).tile 5).slot 0).loops = [] := by
  unfold StreamAt; decide

/-! ### Launch, fetch, push, gangs and halts -/

/-- The message of a gang of two, tiles 4 and 5. -/
def gangMsg (rank : Nat) : LaunchMsg := ⟨⟨0, 0, 0, 0, false⟩, [0x1000, 0, 0, 0], 1, 7, 1, 4, rank⟩

/-- Two tiles of a gang. -/
def gang (a b : Tile) : State := { State.reset with tiles := [(4, a), (5, b)] }

/-- A lead of the gang of two at an instruction of stream 0, and a member. -/
def leadTile (x : Slot) (bs : List Byte) : Tile :=
  { running .thr x bs with seq := { (running .thr x bs).seq with kernel := some (gangMsg 0) } }
def memberTile : Tile := { Tile.reset with seq := { SeqState.reset with run := .member, kernel := some (gangMsg 1) } }

/-- The lead of a gang of two, its member already running. -/
theorem wit_launch : ∃ (s : State) (p : Nat) (m : LaunchMsg), (s.tile p).seq.inbox = some m ∧ m.job.copy = false ∧
    (s.tile p).seq.run = .idle ∧ (s.tile p).seq.halt = none ∧
    (m.rank = 0 → ∀ r, 0 < r → r < 2 ^ m.gangLog2 →
      (s.tile (s.physOf (p / 104) ((s.localOf m.lead).getD 0 + r))).seq.run = .member) :=
  ⟨gang { Tile.reset with seq := { SeqState.reset with inbox := some (gangMsg 0) } } memberTile, 4, gangMsg 0, by decide, by decide,
    by decide, by decide, fun _ r h₁ h₂ => by
      have : r = 1 := by have : r < 2 := h₂; omega
      subst this; decide⟩

/-- A COPY item's message. -/
theorem wit_launch_copy : ∃ (s : State) (p : Nat) (m : LaunchMsg), (s.tile p).seq.inbox = some m ∧ m.job.copy = true ∧
    (s.tile p).seq.run = .idle ∧ (s.tile p).seq.halt = none ∧ m.rank = 0 ∧ 2 ^ m.gangLog2 = 1 :=
  ⟨on { Tile.reset with seq := { SeqState.reset with inbox := some { msg with job := ⟨0, 0, 0, 0, true⟩ } } }, 5,
    { msg with job := ⟨0, 0, 0, 0, true⟩ }, by decide, by decide, by decide, by decide, by decide, by decide⟩

theorem wit_kernel_end : ∃ (s : State) (p : Nat) (m : LaunchMsg), (s.tile p).seq.kernel = some m ∧ m.job.copy = false ∧
    (s.tile p).seq.run = .lead ∧ (s.tile p).seq.halt = none ∧ (∀ q ∈ s.gangTiles p, s.drained q = true ∧ (s.tile q).seq.halt = none) :=
  ⟨on (running .thr { slotOn with ended := true } []), 5, msg, by decide, by decide, by decide, by decide, by decide⟩

/-- A stream at an address whose line its cache does not hold. -/
def fetching : State :=
  withStacks (on { running .syn { slotOn with pc := 0x1FF8 } [] with xc := [page 0x1000 0x3000] })

theorem wit_fetch_fill : ∃ (s s₁ s₂ : State) (p : Nat) (k : StreamId) (a instr tgt pa ep : Nat) (bs : List Byte),
    (s.tile p).live = true ∧ s.fetchNeed p (.stream k) = some (a, instr) ∧ (s.tile p).seq.fetches.get none k.num = none ∧
    s.xlWaiting (.stream p k) (p / 104) (some p) = false ∧
    s.translate p (s.missOf p (.stream p k) a .fetch instr) = (s₁, .ok tgt pa ep) ∧
    s₁.memRead p tgt (pa / 64 * 64) ep 64 (.stream p k) = (s₂, .data bs false) :=
  ⟨fetching, (fetching.translate 5 (fetching.missOf 5 (.stream 5 .syn) 0x1FF8 .fetch 0x1FF8)).1,
    ((fetching.translate 5 (fetching.missOf 5 (.stream 5 .syn) 0x1FF8 .fetch 0x1FF8)).1.memRead 5 0 0x3FC0 0 64 (.stream 5 .syn)).1,
    5, .syn, 0x1FF8, 0x1FF8, 0, 0x3FF8, 0, rep 64 0, by decide, by decide, by decide, by decide, by decide, by decide⟩

/-- A resident group at an address, every lane active. -/
def groupOn (pc : Nat) : Group :=
  { block := 0, index := 0, n := 255, launch := 0, firstStore := 0, pc := pc, mask := 2 ^ 32 - 1, alive := 2 ^ 32 - 1, rpc := none,
    stack := [], progress := 0, v := [], u := [], active := true, wait := .none, loads := [], lastBranch := 0, dbgHalted := false,
    haltPending := false, stepping := false }

/-- A running tile with group `x` in slot 63 of block 15, the bytes at 0x1000 in its instruction cache. -/
def withGroup (x : Group) (bs : List Byte) : Tile :=
  { running .thr slotOn bs with thr := { Thr.reset with
      groups := [(63, some { x with block := 15 })], blocks := [(15, some ⟨⟨0, 0, [], 0⟩, 0, [63], 0, 8, []⟩)], carve := 8 } }

/-- A group whose instruction cache lacks its line. -/
def groupFetching : State :=
  withStacks (on { withGroup (groupOn 0x1FF8) [] with xc := [page 0x1000 0x3000] })

theorem wit_group_fetch : ∃ (s s₁ s₂ : State) (p g a instr tgt pa ep : Nat) (bs : List Byte),
    (s.tile p).live = true ∧ s.fetchNeed p (.group g) = some (a, instr) ∧ (s.tile p).seq.fetches.get none (4 + g) = none ∧
    s.xlWaiting (.group p g) (p / 104) (some p) = false ∧
    s.translate p (s.missOf p (.group p g) a .fetch instr) = (s₁, .ok tgt pa ep) ∧
    s₁.memRead p tgt (pa / 64 * 64) ep 64 (.groupFetch p g) = (s₂, .data bs false) :=
  ⟨groupFetching, (groupFetching.translate 5 (groupFetching.missOf 5 (.group 5 63) 0x1FF8 .fetch 0x1FF8)).1,
    ((groupFetching.translate 5 (groupFetching.missOf 5 (.group 5 63) 0x1FF8 .fetch 0x1FF8)).1.memRead 5 0 0x3FC0 0 64 (.groupFetch 5 63)).1,
    5, 63, 0x1FF8, 0x1FF8, 0, 0x3FF8, 0, rep 64 0, by decide, by decide, by decide, by decide, by decide, by decide⟩




/-- A push with one entry free, and with none. -/
theorem wit_push : ∃ (s t : State) (p : Nat) (k : StreamId) (raw : BitVec 128),
    (∀ u ∈ [s, t], StreamAt u p k 16 raw.toNat ∧ u.gangTiles p = [p] ∧ (u.tile p).gangSize = 1) ∧ engineOk k.num raw.toNat = true
    ∧ ((s.tile p).queue k.num).held.length + ((s.tile p).queue k.num).freed = 63
    ∧ ((t.tile p).queue k.num).held.length + ((t.tile p).queue k.num).freed = 64 :=
  ⟨on { running .syn slotOn (toLE 16 1097) with
      seq := { (running .syn slotOn (toLE 16 1097)).seq with queues := [(3, { Queue.reset with freed := 63 })] } },
    on { running .syn slotOn (toLE 16 1097) with
      seq := { (running .syn slotOn (toLE 16 1097)).seq with queues := [(3, { Queue.reset with freed := 64 })] } },
    5, .syn, 1097, by unfold StreamAt; decide, by decide, by decide, by decide⟩

theorem wit_entry_freed : ∃ (s t : State) (p raw : Nat) (k : StreamId), 0 < ((s.tile p).queue k.num).freed ∧
    ((s.tile p).slot k.num).stall = .none ∧ 0 < ((t.tile p).queue k.num).freed ∧ ((t.tile p).slot k.num).stall = .full raw ∧
    (t.tile p).live = true ∧ t.gangTiles p = [p] ∧ (t.tile p).gangSize = 1 ∧
    ((t.tile p).queue k.num).held.length + ((t.tile p).queue k.num).freed = 64 :=
  ⟨on { running .syn slotOn [] with
      seq := { (running .syn slotOn []).seq with queues := [(3, { Queue.reset with freed := 1 })] } },
    on { running .syn { slotOn with stall := .full 1097 } [] with
      seq := { (running .syn { slotOn with stall := .full 1097 } []).seq with queues := [(3, { Queue.reset with freed := 64 })] } },
    5, 1097, .syn, by decide, by decide, by decide, by decide, by decide, by decide, by decide, by decide⟩

/-- A broadcast push against the last credit of a gang of two. -/
theorem wit_gang_push : ∃ (s : State) (p : Nat) (k : StreamId) (raw : BitVec 128), StreamAt s p k 16 raw.toNat ∧
    engineOk k.num raw.toNat = true ∧ (s.gangTiles p).Nodup ∧ (s.gangTiles p).length ≠ 1 ∧ (s.tile p).gangSize ≠ 1 ∧
    ((s.tile p).slot k.num).pushed + 1 = ((s.tile p).slot k.num).returned + 64 :=
  ⟨gang (leadTile { slotOn with pushed := 63 } (toLE 16 1091)) memberTile, 4, .thr, 1091, by unfold StreamAt; decide,
    by decide, by decide, by decide, by decide, by decide⟩

theorem wit_broadcast : ∃ (s : State) (p : Nat) (k : StreamId) (e : Entry) (l : List Entry) (t : State) (q : Nat),
    ((s.tile p).queue k.num).transit = e :: l ∧ (t.tile q).gangSize ≠ 1 ∧ (t.tile q).rank = 0 ∧
    (∀ r ∈ t.gangTiles q, ((t.tile q).slot k.num).returned < ((t.tile r).queue k.num).taken) ∧
    ((t.tile q).slot k.num).stall = .none :=
  ⟨on { memberTile with seq := { memberTile.seq with queues := [(0, { Queue.reset with transit := [⟨1091, 0x1000, [], 1⟩] })] } },
    5, .thr, ⟨1091, 0x1000, [], 1⟩, [],
    gang { leadTile slotOn [] with seq := { (leadTile slotOn []).seq with queues := [(0, { Queue.reset with taken := 1 })] } }
      { memberTile with seq := { memberTile.seq with queues := [(0, { Queue.reset with taken := 1 })] } },
    4, by decide, by decide, by decide, by decide, by decide⟩

theorem wit_gang_wait : ∃ (s : State) (p : Nat) (k : StreamId) (w : SemWait) (l : List Nat),
    ((s.tile p).slot k.num).stall = .wait w l ∧ (s.tile p).gangSize = 2 ∧ (s.tile p).live = true ∧ (∀ r, r < 2 → r ∈ l) :=
  ⟨gang (leadTile { slotOn with stall := .wait ⟨3, 1, true⟩ [1, 0] } []) memberTile, 4, .thr, ⟨3, 1, true⟩, [1, 0], by decide,
    by decide, by decide, by decide⟩

/-- A halt record. -/
def halted (reason : Nat) : Halt := ⟨reason, 0, 0, 0, 5, 0, 0x1000⟩

/-- A tile of a gang of one that has halted. -/
def haltedTile (reason : Nat) (final : Bool) : Tile :=
  { running .thr slotOn [] with seq := { (running .thr slotOn []).seq with run := .halted, halt := some (halted reason), final := final } }

theorem wit_halt_req : ∃ (s : State) (p : Nat), s.tilePresent p = true ∧ (s.tile p).seq.halt = none :=
  ⟨State.reset, 831, by decide, by decide⟩

theorem wit_gang_halt : ∃ (s : State) (p q : Nat), (s.tile p).live = true ∧ (s.origins (s.gangTiles p)).head? = some q :=
  ⟨gang (leadTile slotOn []) { memberTile with seq := { memberTile.seq with run := .halted, halt := some (halted 0x0B) } }, 4, 5,
    by decide, by decide⟩

theorem wit_records_final : ∃ (s : State) (p : Nat), s.gangTiles p ≠ [] ∧
    (∀ q ∈ s.gangTiles p, (s.tile q).seq.halt.isSome = true ∧ (s.tile q).seq.clearAsked = false
      ∧ s.flag .SEQ_SETUP_HALT_HOLD q = true) ∧ (∃ q ∈ s.gangTiles p, (s.tile q).seq.final = false) :=
  ⟨(on (haltedTile 1 false)).setF .SEQ_SETUP_HALT_HOLD 5 1, 5, by decide, by decide, by decide⟩

theorem wit_resume : ∃ (s : State) (p : Nat), s.debugHeld p = true ∧ (∀ d, (s.die d).entries = []) :=
  ⟨on (haltedTile 0xFF true), 5, by decide, fun _ => rfl⟩

theorem wit_clear_halt : ∃ (s t : State) (p : Nat), (s.tile p).seq.halt.isSome = true ∧ (s.tile p).seq.final = true ∧
    (t.tile p).seq.halt.isSome = true ∧ (t.tile p).seq.final = false :=
  ⟨on (haltedTile 1 true), on (haltedTile 1 false), 5, by decide, by decide, by decide, by decide⟩

theorem wit_stall_limit : ∃ (s : State) (p cycles : Nat) (k : StreamId), s.f .SEQ_SETUP_STALL_LIMIT_LOG2 p ≠ 0 ∧
    cycles = 2 ^ s.f .SEQ_SETUP_STALL_LIMIT_LOG2 p ∧ (s.tile p).live = true ∧ (s.tile p).seq.run = .lead ∧
    (∀ g ∈ (s.tile p).resident, ∀ x, (s.tile p).group? g = some x → x.dbgHalted = false) ∧
    ((s.tile p).slot k.num).ended = false ∧ ((s.tile p).slot k.num).stall ≠ .none :=
  ⟨(on (running .syn { slotOn with stall := .full 1097 } [])).setF .SEQ_SETUP_STALL_LIMIT_LOG2 5 16, 5, 2 ^ 16, .syn, by decide,
    by decide, by decide, by decide, (fun g h => by cases h), by decide, by decide⟩

/-! ### Thread instructions -/

/-- The group of `groupAt`, and a state in which it stands at an instruction. -/
def grp : Group := { groupOn 0x1000 with block := 15 }
def groupAt (cls op : Nat) (f : ThreadFields) : State := on (withGroup grp (toLE 8 (f.word cls op)))

/-- Each second operand: a vector register, a uniform one, an immediate; the highest registers. -/
theorem wit_integer : ∀ f ∈ ([⟨254, 0, 0, 254, 0, 0⟩, ⟨0, 254, 1, 63, 0, 0⟩, ⟨254, 254, 2, 0, 0, 0x8000⟩] : List ThreadFields),
    ∀ op ∈ [0x02, 0x05, 0x14, 0x19], GroupAt (groupAt 0 op f) 5 63 grp 0 op f := by
  unfold GroupAt; decide

/-- MOV, CMP with its first and last condition, SEL, ADD64 on pairs, ELECT, VOTE. -/
theorem wit_lanes : ∀ x ∈ ([(0, 0x01, ⟨254, 0, 1, 63, 0, 0⟩), (0, 0x15, ⟨254, 1, 20, 2, 0, 0⟩), (0, 0x15, ⟨0, 1, 0, 2, 0, 0⟩),
      (0, 0x16, ⟨254, 1, 0, 2, 254, 0⟩), (0, 0x17, ⟨252, 2, 0, 4, 0, 0⟩), (0, 0x18, ⟨252, 2, 2, 0, 0, 0xFFFF⟩),
      (5, 0x04, ⟨254, 0, 0, 0, 0, 0⟩), (5, 0x05, ⟨254, 1, 0, 0, 0, 0⟩), (5, 0x01, ⟨0, 0, 0, 0, 0, 0⟩)] : List (Nat × Nat × ThreadFields)),
    GroupAt (groupAt x.1 x.2.1 x.2.2) 5 63 grp x.1 x.2.1 x.2.2 := by
  unfold GroupAt; decide

/-- ELECT of a group whose highest lane alone is active. -/
theorem wit_elect : ∃ (s : State) (y : Group), GroupAt s 5 63 y 5 0x04 ⟨254, 0, 0, 0, 0, 0⟩ ∧ bit y.mask 31 = true
    ∧ ∀ j, j < 31 → bit y.mask j = false :=
  ⟨on (withGroup { grp with mask := 2 ^ 31 } (toLE 8 (ThreadFields.word 5 0x04 ⟨254, 0, 0, 0, 0, 0⟩))), { grp with mask := 2 ^ 31 },
    by unfold GroupAt; decide, by decide, by decide⟩

theorem wit_float : ∀ x ∈ ([(1, 0x01, ⟨254, 0, 0, 1, 0, 0⟩), (1, 0x03, ⟨0, 254, 2, 0, 0, 0x7F80⟩), (1, 0x06, ⟨0, 254, 1, 63, 0, 0⟩),
      (1, 0x04, ⟨254, 0, 0, 1, 254, 0⟩), (1, 0x07, ⟨254, 0, 12, 1, 0, 0⟩), (1, 0x08, ⟨254, 0, 0, 0, 0, 0⟩),
      (1, 0x0B, ⟨254, 0, 0, 0, 0, 0⟩), (2, 0x01, ⟨254, 254, 0, 0, 0, 0xA1⟩), (2, 0x01, ⟨0, 0, 0, 0, 0, 0x1A⟩)]
      : List (Nat × Nat × ThreadFields)),
    GroupAt (groupAt x.1 x.2.1 x.2.2) 5 63 grp x.1 x.2.1 x.2.2 := by
  unfold GroupAt; decide

theorem wit_uniform : ∀ x ∈ ([(8, 0x01, ⟨63, 0, 0, 254, 0, 0⟩), (8, 0x02, ⟨63, 63, 1, 63, 0, 0⟩), (8, 0x09, ⟨0, 63, 2, 0, 0, 0xFFFF⟩),
      (8, 0x0B, ⟨63, 0, 0, 0, 0, 0xFFFF⟩)] : List (Nat × Nat × ThreadFields)),
    GroupAt (groupAt x.1 x.2.1 x.2.2) 5 63 grp x.1 x.2.1 x.2.2 := by
  unfold GroupAt; decide

/-! ### Loads, stores and their buffers -/

/-- The group with lane 31 alone active, v0 of it holding `a`. -/
def lane31 (a : Nat) : Group := { grp with mask := 2 ^ 31, v := [(31, a)] }
def lane31At (a cls op : Nat) (f : ThreadFields) : State := on (withGroup (lane31 a) (toLE 8 (f.word cls op)))

/-- The block of the group. -/
def blk : Block := ⟨⟨0, 0, [], 0⟩, 0, [63], 0, 8, []⟩

/-- LD of a pair at the last eight bytes of the block's local rows. -/
theorem wit_ld_local : ∃ (s : State) (p g : Nat) (x : Group) (f : ThreadFields) (ls : List LaneAcc), GroupAt s p g x 3 1 f ∧
    f.space = 2 ∧ f.size = 8 ∧ x.acquires = [] ∧ (s.tile p).sbOf g x = [] ∧ lanesOf x.mask ≠ [] ∧
    LanesAt s p g x true f.size .read ((lanesOf x.mask).map fun l => laneAt l (x.localAddr f l) 0 0) ls s :=
  ⟨lane31At 8184 3 1 ⟨252, 0, 11, 0, 0, 0⟩, 5, 63, lane31 8184, ⟨252, 0, 11, 0, 0, 0⟩, [⟨31, 8184, 3, 3072 * 1024 - 8, 0, 0, 0⟩],
    by unfold GroupAt; decide, by decide, by decide, by decide, by decide, by decide,
    ⟨by decide, by rw [if_pos rfl]; exact ⟨rfl, blk, by decide, by decide, by decide⟩⟩⟩

/-- A state with a global access of the group's lane 31 at the last word of a page. -/
def globalAt (a cls op : Nat) (f : ThreadFields) : State :=
  withStacks (on { withGroup (lane31 a) (toLE 8 (f.word cls op)) with xc := [page 0 0x4000] })

theorem wit_ld_uncached : ∃ (s s₁ : State) (p g : Nat) (x : Group) (f : ThreadFields) (ls : List LaneAcc),
    GroupAt s p g x 3 1 f ∧ f.space = 1 ∧ x.acquires = [] ∧
    LanesAt s p g x false f.size .read ((lanesOf x.mask).map fun l => laneAt l (x.globalAddr f l) 0 0) ls s₁ ∧
    (s₁.tile p).sbOf g x = [] ∧ (∀ l ∈ ls, l.target ≠ 3) :=
  ⟨globalAt 0xFFC 3 1 ⟨254, 0, 38, 0, 63, 0⟩,
    (State.xlLanes 5 63 0x1000 .read [laneAt 31 0xFFC 0 0] (globalAt 0xFFC 3 1 ⟨254, 0, 38, 0, 63, 0⟩)).1, 5, 63, lane31 0xFFC,
    ⟨254, 0, 38, 0, 63, 0⟩, [⟨31, 0xFFC, 0, 0x4FFC, 0, 0, 0⟩], by unfold GroupAt; decide, by decide, by decide,
    ⟨by decide, by rw [if_neg (by decide)]; decide⟩, by decide, by decide⟩

/-- A cached load whose line the L1 holds in way 7. -/
def l1State (f : ThreadFields) : State :=
  withStacks (on { withGroup (lane31 0xFFC) (toLE 8 (f.word 3 1)) with
    xc := [page 0 0x4000]
    thr := { (withGroup (lane31 0xFFC) (toLE 8 (f.word 3 1))).thr with l1 := [(31 * 8 + 7, some (31, rep 128 5))] } })

theorem wit_ld_cached : ∃ (s s₁ : State) (p g : Nat) (x : Group) (f : ThreadFields) (ls : List LaneAcc), GroupAt s p g x 3 1 f ∧
    f.space = 0 ∧ f.size = 4 ∧ x.acquires = [] ∧
    LanesAt s p g x false f.size .read ((lanesOf x.mask).map fun l => laneAt l (x.globalAddr f l) 0 0) ls s₁ ∧
    (s₁.tile p).sbOf g x = [] ∧ (∀ l ∈ ls, l.target ≠ 3) ∧
    ∀ l ∈ lanesOf x.mask, ((s₁.l1Way p (x.globalAddr f l)).bind fun w => (s₁.tile p).l1At (x.globalAddr f l) w).isSome = true :=
  ⟨l1State ⟨254, 0, 2, 0, 63, 0⟩, (State.xlLanes 5 63 0x1000 .read [laneAt 31 0xFFC 0 0] (l1State ⟨254, 0, 2, 0, 63, 0⟩)).1, 5, 63,
    lane31 0xFFC, ⟨254, 0, 2, 0, 63, 0⟩, [⟨31, 0xFFC, 0, 0x4FFC, 0, 0, 0⟩], by unfold GroupAt; decide, by decide, by decide,
    by decide, ⟨by decide, by rw [if_neg (by decide)]; decide⟩, by decide, by decide, by decide⟩

theorem wit_uld : ∃ (s s₁ : State) (p g : Nat) (x : Group) (f : ThreadFields) (ls : List LaneAcc), GroupAt s p g x 8 0x0A f ∧
    x.acquires = [] ∧ LanesAt s p g x false 8 .read [laneAt 0 (x.uniAddr f) 0 0] ls s₁ ∧ (s₁.tile p).sbOf g x = [] ∧
    (∀ l ∈ ls, l.target ≠ 3) :=
  ⟨globalAt 0 8 0x0A ⟨63, 63, 0, 0, 0, 0xFF8⟩,
    (State.xlLanes 5 63 0x1000 .read [laneAt 0 0xFF8 0 0] (globalAt 0 8 0x0A ⟨63, 63, 0, 0, 0, 0xFF8⟩)).1, 5, 63, lane31 0,
    ⟨63, 63, 0, 0, 0, 0xFF8⟩, [⟨0, 0xFF8, 0, 0x4FF8, 0, 0, 0⟩], by unfold GroupAt; decide, by decide,
    ⟨by decide, by rw [if_neg (by decide)]; decide⟩, by decide, by decide⟩

/-- A load in flight of lane 31, and an atomic's. -/
def loadOp (atomic : Bool) (got : FMap Nat) : LoadOp :=
  ⟨4, atomic, false, false, ⟨false, 254, 4, false⟩, [⟨31, 0xFFC, 0, 0x4FFC, 0, 0, 0⟩], true, false, got, []⟩
def loading (o : LoadOp) : State := withStacks (on (withGroup { lane31 0 with loads := [o] } []))

theorem wit_load_return : ∃ (s s₁ : State) (p g k : Nat) (x : Group) (o : LoadOp) (l : LaneAcc) (bs : List Byte),
    (s.tile p).group? g = some x ∧ x.loads[k]? = some o ∧ o.issued = true ∧ o.atomic = false ∧ o.cached = false ∧
    o.reqs = [] ∧ o.got = [] ∧ o.lanes = [l] ∧ l.target = 0 ∧ l.lane < 32 ∧ o.dest.uni = false ∧ o.dest.size = 4 ∧
    (∀ e ∈ x.loads.take k, e.lanes = []) ∧ s.mustWait (l.pa / 64 * 64) 64 false = none ∧ (s.tile p).thr.wb = [] ∧
    s.memRead p 0 (l.pa / 64 * 64) 0 64 .nobody = (s₁, .data bs false) :=
  ⟨loading (loadOp false []), ((loading (loadOp false [])).memRead 5 0 0x4FC0 0 64 .nobody).1, 5, 63, 0,
    { lane31 0 with loads := [loadOp false []] }, loadOp false [], ⟨31, 0xFFC, 0, 0x4FFC, 0, 0, 0⟩, rep 64 0, by decide, by decide,
    by decide, by decide, by decide, by decide, by decide, by decide, by decide, by decide, by decide, by decide, by decide,
    by decide, by decide, by decide⟩

theorem wit_atomic_return : ∃ (s : State) (p g k : Nat) (x : Group) (o : LoadOp) (l : LaneAcc) (v : Nat),
    (s.tile p).group? g = some x ∧ x.loads[k]? = some o ∧ o.issued = true ∧ o.atomic = true ∧ o.cached = false ∧
    o.reqs = [] ∧ o.got = [(l.lane, v)] ∧ o.lanes = [l] ∧ l.lane < 32 ∧ o.dest.uni = false ∧ o.dest.size = 4 ∧
    (∀ e ∈ x.loads.take k, e.lanes = []) :=
  ⟨loading (loadOp true [(31, 0xFFFFFFFF)]), 5, 63, 0, { lane31 0 with loads := [loadOp true [(31, 0xFFFFFFFF)]] },
    loadOp true [(31, 0xFFFFFFFF)], ⟨31, 0xFFC, 0, 0x4FFC, 0, 0, 0⟩, 0xFFFFFFFF, by decide, by decide, by decide, by decide,
    by decide, by decide, by decide, by decide, by decide, by decide, by decide, by decide⟩

/-- A tile's store buffer as it stands. -/
def withSb (s : State) (l : List SbEntry) : State := s.modThr 5 fun y => { y with sb := l }

/-- A store of one lane that waits. -/
def sbOne (id : Nat) (l : LaneAcc) : SbEntry := ⟨id, 63, 0, none, false, 4, [l]⟩

/-- ST of a pair with one entry free, and with none. -/
theorem wit_st : ∀ n ∈ [31, 32], ∃ (s s₁ : State) (p g : Nat) (x : Group) (f : ThreadFields) (ls : List LaneAcc),
    GroupAt s p g x 3 2 f ∧ f.modBit 5 = true ∧ x.loads = [] ∧
    LanesAt s p g x (f.space == 2) f.size .store ((lanesOf x.mask).map fun l =>
      laneAt l (if f.space = 2 then x.localAddr f l else x.globalAddr f l)
        ((if f.size = 8 then (x.vpair f.b.toNat l).toNat else (x.vreg f.b.toNat l).toNat) % 2 ^ (8 * f.size)) 0) ls s₁ ∧
    (ls.map fun l => (l.target, l.endpoint, l.pa)).Nodup ∧ (s.tile p).thr.sb.length = n := fun n h =>
  ⟨withSb (globalAt 0xFF8 3 2 ⟨0, 0, 39, 252, 63, 0⟩) (rep n (sbOne 0 ⟨0, 0, 0, 0, 0, 0, 0⟩)),
    (State.xlLanes 5 63 0x1000 .store [laneAt 31 0xFF8 0 0]
      (withSb (globalAt 0xFF8 3 2 ⟨0, 0, 39, 252, 63, 0⟩) (rep n (sbOne 0 ⟨0, 0, 0, 0, 0, 0, 0⟩)))).1, 5, 63, lane31 0xFF8,
    ⟨0, 0, 39, 252, 63, 0⟩, [⟨31, 0xFF8, 0, 0x4FF8, 0, 0, 0⟩], by
      rcases List.mem_cons.1 h with rfl | h
      · unfold GroupAt; decide
      · rw [List.mem_singleton.1 h]; unfold GroupAt; decide, by decide, by decide,
    ⟨by decide, by
      rw [if_neg (by decide)]
      rcases List.mem_cons.1 h with rfl | h
      · decide
      · rw [List.mem_singleton.1 h]; decide⟩, by decide, by
      rcases List.mem_cons.1 h with rfl | h
      · decide
      · rw [List.mem_singleton.1 h]; decide⟩

/-- ATOM of 8 bytes, CAS (operation 9), in part memory. -/
theorem wit_atom : ∃ (s s₁ : State) (p g : Nat) (x : Group) (f : ThreadFields) (ls : List LaneAcc), GroupAt s p g x 4 1 f ∧
    x.acquires = [] ∧ (s.tile p).thr.sb.length < 32 ∧
    LanesAt s p g x (f.modBit 5) (if f.wide then 8 else 4) .atomic ((lanesOf x.mask).map fun l =>
      laneAt l (if f.modBit 5 = true then (x.vreg f.a.toNat l).toNat else x.atomAddr f l)
        (if f.wide then (x.vpair f.b.toNat l).toNat else (x.vreg f.b.toNat l).toNat)
        (if f.wide then (x.vpair f.c.toNat l).toNat else (x.vreg f.c.toNat l).toNat)) ls s₁ :=
  ⟨globalAt 0xFF8 4 1 ⟨252, 0, 25, 2, 4, 63⟩,
    (State.xlLanes 5 63 0x1000 .atomic [laneAt 31 0xFF8 0 0] (globalAt 0xFF8 4 1 ⟨252, 0, 25, 2, 4, 63⟩)).1, 5, 63, lane31 0xFF8,
    ⟨252, 0, 25, 2, 4, 63⟩, [⟨31, 0xFF8, 0, 0x4FF8, 0, 0, 0⟩], by unfold GroupAt; decide, by decide, by decide,
    ⟨by decide, by rw [if_neg (by decide)]; decide⟩⟩

/-- A local store of two adjoining words, and a store to memory at the end of its line. -/
theorem wit_drain_store : ∃ (s t : State) (p : Nat) (e f : SbEntry) (l : LaneAcc), (s.tile p).thr.sb = [e] ∧ e.atomic = none ∧
    e.release = false ∧ e.lanes ≠ [] ∧ (∀ l ∈ e.lanes, l.target = 3) ∧
    (∀ x, (s.tile p).group? e.group = some x → x.loads = []) ∧
    e.lanes.Pairwise (fun a b => a.pa + e.size ≤ b.pa ∨ b.pa + e.size ≤ a.pa) ∧
    (t.tile p).thr.sb = [f] ∧ f.atomic = none ∧ f.release = false ∧ f.lanes = [l] ∧ l.target ≠ 3 ∧ (t.tile p).thr.wb = [] ∧
    (∀ x, (t.tile p).group? f.group = some x → x.loads = []) :=
  ⟨withSb (on (withGroup (lane31 0) [])) [⟨0, 63, 0, none, false, 4, [⟨0, 0, 3, 3145720, 0, 1, 0⟩, ⟨31, 4, 3, 3145724, 0, 2, 0⟩]⟩],
    withSb (on (withGroup (lane31 0) [])) [sbOne 0 ⟨31, 0x7C, 0, 0x407C, 0, 7, 0⟩], 5,
    ⟨0, 63, 0, none, false, 4, [⟨0, 0, 3, 3145720, 0, 1, 0⟩, ⟨31, 4, 3, 3145724, 0, 2, 0⟩]⟩, sbOne 0 ⟨31, 0x7C, 0, 0x407C, 0, 7, 0⟩,
    ⟨31, 0x7C, 0, 0x407C, 0, 7, 0⟩, by decide, by decide, by decide, by decide, by decide,
    (fun x h => by cases h; rfl), by decide, by decide, by decide, by decide, by decide, by decide, by decide,
    (fun x h => by cases h; rfl)⟩

/-- A draining compare-and-swap in part memory. -/
def casOp : LoadOp := { loadOp true [] with issued := false, dest := ⟨false, 252, 8, false⟩ }
def casEntry : SbEntry := ⟨4, 63, 0, some 9, false, 8, [⟨31, 0xFF8, 0, 0x4FF8, 0, 1, 2⟩]⟩
theorem wit_drain_atomic : ∃ (s : State) (p c op : Nat) (e : SbEntry) (rest : List SbEntry) (l : LaneAcc) (x : Group) (o : LoadOp),
    (s.tile p).thr.sb = e :: rest ∧ e.atomic = some op ∧ e.release = false ∧ e.lanes = [l] ∧ l.target = 0 ∧
    (e.size = 4 ∨ e.size = 8) ∧ (s.tile p).thr.wb = [] ∧ (s.tile p).group? e.group = some x ∧ x.loads = [o] ∧ o.id = e.id ∧
    x.firstStore ≤ e.id ∧ s.mustWait l.pa e.size true = none ∧ s.cellOf l.pa = some c ∧ s.eye (c / 64) = false :=
  ⟨withSb (loading casOp) [casEntry], 5, 0x2FF8, 9, casEntry, [], ⟨31, 0xFF8, 0, 0x4FF8, 0, 1, 2⟩, { lane31 0 with loads := [casOp] },
    casOp, by decide, by decide, by decide, by decide, by decide, by decide, by decide, by decide, by decide, by decide, by decide,
    by decide, by decide, by decide⟩

/-- A full line of the write buffer, its halves in one granule. -/
theorem wit_drain_line : ∃ (s : State) (p : Nat) (e : WbEntry) (rest : List WbEntry) (c : Nat → Nat), (s.tile p).thr.wb = e :: rest ∧
    e.target = 0 ∧ (∀ h, h < 2 → s.cellOf (e.pa + 64 * h) = some (64 * c h)) ∧ c 0 ≠ c 1 ∧
    (∀ h, h < 2 → s.mustWait (e.pa + 64 * h) 64 true = none) :=
  ⟨withStacks (on { withGroup (lane31 0) [] with thr := { (withGroup (lane31 0) []).thr with
      wb := [⟨0x80, 0, 0x4000, 0, [(0, some 1), (127, some 2)], [(63, 0, 0)]⟩] } }), 5,
    ⟨0x80, 0, 0x4000, 0, [(0, some 1), (127, some 2)], [(63, 0, 0)]⟩, [], fun h => 0x80 + h, by decide, by decide, by decide,
    by decide, by decide⟩

/-- CINV of a range and of everything; a way with its 16th error with five and with four ways on; a full window. -/
theorem wit_l1 : GroupAt (groupAt 5 7 ⟨0, 63, 0, 62, 0, 0⟩) 5 63 grp 5 7 ⟨0, 63, 0, 62, 0, 0⟩
    ∧ GroupAt (groupAt 5 7 ⟨0, 0, 1, 0, 0, 0⟩) 5 63 grp 5 7 ⟨0, 0, 1, 0, 0, 0⟩ := by
  unfold GroupAt; decide

def waysOff (l : List Nat) : State :=
  { on { Tile.reset with thr := { Thr.reset with ways := [(0, ⟨2 ^ 20, 16⟩)] } } with
    mgt := { Mgt.reset with repair := { Repair.reset with ways := l.map fun w => (8 * 5 + w, true) } } }

theorem wit_way_disable : ∀ l ∈ [[5, 6, 7], [4, 5, 6, 7]], (waysOff l).wayOn 5 0 = true
    ∧ 16 = (((waysOff l).tile 5).thr.ways.get ⟨0, 0⟩ 0).errors ∧ ((waysOff l).enabledWays 5).length = 8 - l.length
    ∧ 2 ^ 20 = (((waysOff l).tile 5).thr.ways.get ⟨0, 0⟩ 0).accesses := by decide

/-! ### Control of groups and the thread engine -/

/-- BRA of a group whose stack has exactly room for two entries, and is one short of it; lanes differ. -/
def splitGroup (n : Nat) : Group := { grp with v := [(31, 1)], stack := rep n ⟨0x2000, 1, none⟩ }
theorem wit_bra : ∀ n ∈ [30, 31], let f : ThreadFields := ⟨0, 0, 0, 2, 0, 4⟩
    GroupAt (on (withGroup (splitGroup n) (toLE 8 (f.word 5 2)))) 5 63 (splitGroup n) 5 2 f
    ∧ (splitGroup n).mask < 2 ^ 32 ∧ (splitGroup n).mask ≠ 0 ∧ (splitGroup n).stack.length = n
    ∧ branchTo (splitGroup n).pc f.rpc ≠ ((splitGroup n).pc + 8) % 2 ^ 56
    ∧ ∀ l, l < 32 → bit (2 ^ 31) l = (bit (splitGroup n).mask l && ((splitGroup n).vreg f.a.toNat l != 0) != f.modBit 2) := by
  unfold GroupAt; decide

/-- BRA that every lane takes, backward, and that none takes. -/
theorem wit_bra_whole : GroupAt (groupAt 5 2 ⟨0, 0, 2, 0, 0, 0xFFFF⟩) 5 63 grp 5 2 ⟨0, 0, 2, 0, 0, 0xFFFF⟩
    ∧ GroupAt (groupAt 5 2 ⟨0, 63, 1, 0, 0, 0⟩) 5 63 grp 5 2 ⟨0, 63, 1, 0, 0, 0⟩ ∧ grp.ureg 63 = 0 ∧ grp.rpc = none := by
  unfold GroupAt; decide

/-- BRX to one target, to two, and to a misaligned one. -/
def brxGroup (v : FMap Nat) : Group := { grp with v := v, u := [(63, 0x3000)], stack := rep 30 ⟨0x2000, 1, none⟩ }
def brxFields : ThreadFields := ⟨0, 0, 0, 63, 0, 4⟩
theorem wit_brx : ∀ v ∈ ([[], [(31, 8)], [(0, 4)]] : List (FMap Nat)),
    GroupAt (on (withGroup (brxGroup v) (toLE 8 (brxFields.word 5 3)))) 5 63 (brxGroup v) 5 3 brxFields := by
  unfold GroupAt; decide
theorem wit_brx_targets : let t := fun (v : FMap Nat) l =>
      (((brxGroup v).ureg 63) + ((brxGroup v).vreg 0 l).setWidth 64).toNat % 2 ^ 56
    (∀ l ∈ lanesOf grp.mask, t [] l = 0x3000) ∧ (∀ c ∈ [0x3000, 0x3008], ∃ l ∈ lanesOf grp.mask, t [(31, 8)] l = c)
    ∧ (∀ l ∈ lanesOf grp.mask, t [(31, 8)] l ∈ [0x3000, 0x3008]) ∧ (∃ l ∈ lanesOf grp.mask, t [(0, 4)] l % 8 ≠ 0)
    ∧ (brxGroup []).stack.length + 2 = 32 ∧ branchTo 0x1000 brxFields.imm ≠ 0x3000 := by decide

/-- END of the last lanes, and of some. -/
theorem wit_end : GroupAt (groupAt 5 6 ⟨0, 0, 0, 0, 0, 0⟩) 5 63 grp 5 6 ⟨0, 0, 0, 0, 0, 0⟩ ∧ grp.loads = []
    ∧ (∀ l, l < 32 → bit grp.alive l = true → bit grp.mask l = true)
    ∧ GroupAt (lane31At 0 5 6 ⟨0, 0, 0, 0, 0, 0⟩) 5 63 (lane31 0) 5 6 ⟨0, 0, 0, 0, 0, 0⟩
    ∧ bit (lane31 0).alive 0 = true ∧ bit (lane31 0).mask 0 = false := by
  unfold GroupAt; decide

/-- BARB, MEMBAR of each scope, SEMWAIT of the highest semaphore and count, SEMSIG. -/
theorem wit_waits : ∀ x ∈ ([(1, ⟨0, 0, 0, 0, 0, 0⟩), (2, ⟨0, 0, 0, 0, 0, 0⟩), (2, ⟨0, 0, 3, 0, 0, 0⟩), (3, ⟨0, 0, 0, 0, 0, 0x3FF⟩),
      (4, ⟨0, 0, 0, 0, 0, 0x1FF⟩)] : List (Nat × ThreadFields)),
    GroupAt (groupAt 6 x.1 x.2) 5 63 grp 6 x.1 x.2 ∧ grp.haltPending = false ∧ grp.stepping = false
    ∧ ((groupAt 6 x.1 x.2).tile 5).thr.sigs = [] := by
  unfold GroupAt; decide

/-- An engine instruction's words, and an entry that holds them with q-registers. -/
def engineWord (k op w1 w2 w3 : Nat) : Nat := 1 + 2 * (k + 1) + 16 * op + w1 * 2 ^ 32 + w2 * 2 ^ 64 + w3 * 2 ^ 96
def entry (k op w1 w2 w3 : Nat) (q : FMap Nat) : Entry := ⟨engineWord k op w1 w2 w3, 0x1000, q, 0⟩

/-- A running tile whose engine `k` has `e` at the head of its queue. -/
def engineTile (k : Nat) (e : Entry) : Tile :=
  { running .thr slotOn [] with seq := { (running .thr slotOn []).seq with queues := [(k, { Queue.reset with held := [e] })] } }
def engineAt (k : Nat) (e : Entry) : State := on (engineTile k e)

/-- TLAUNCH of the largest block: 16 groups of 255 registers, all 255 rows of the carve-out. -/
def launchEntry (groups regs rows : Nat) : Entry := entry 0 1 (groups * 2 ^ 27) (regs + rows * 2 ^ 9) 0 [(0, 0x2000)]
def launchState (e : Entry) : State := on { engineTile 0 e with thr := { Thr.reset with carve := 255 } }
theorem wit_tlaunch : ∃ (s s₁ : State) (p : Nat) (e : Entry) (b r : Nat), EngineHead s p 0 1 e s₁ ∧
    e.thrRegs = 255 ∧ e.thrGroups = 16 ∧ e.thrRows = (s₁.tile p).thr.carve ∧ e.thrEntry % 8 = 0 ∧
    b < 16 ∧ (s₁.tile p).block? b = none ∧ (∀ c, c < b → (s₁.tile p).block? c ≠ none) ∧
    e.thrGroups ≤ ((List.range 64).filter fun g => ((s₁.tile p).group? g).isNone).length ∧
    ((s₁.tile p).resident.map fun g => (((s₁.tile p).group? g).map fun x => 8 * ((x.n + 7) / 8)).getD 0).sum
      + e.thrGroups * (8 * ((e.thrRegs + 7) / 8)) = 4096 ∧
    firstFit (((FMap.keys (s₁.tile p).thr.blocks).filterMap (s₁.tile p).block?).map fun z => (z.rowFirst, z.rows))
      (s₁.tile p).thr.carve e.thrRows = some r :=
  ⟨launchState (launchEntry 16 255 255), launchState (launchEntry 16 255 255), 5, launchEntry 16 255 255, 0, 0,
    by unfold EngineHead; decide, by decide, by decide, by decide, by decide, by decide, by decide,
    (fun c h => absurd h (Nat.not_lt_zero c)), by decide, by decide, by decide⟩

/-- TLAUNCH with no registers, 256 of them, no group, 17 groups, one row too many. -/
theorem wit_tlaunch_illegal : ∀ e ∈ [launchEntry 16 0 255, launchEntry 16 256 255, launchEntry 0 8 0, launchEntry 17 8 0,
      launchEntry 1 8 256], EngineHead (launchState e) 5 0 1 e (launchState e)
    ∧ (e.thrRegs = 0 ∨ 255 < e.thrRegs ∨ e.thrGroups = 0 ∨ 16 < e.thrGroups ∨ 255 < e.thrRows) := by
  unfold EngineHead; decide

theorem wit_thr : EngineHead (engineAt 0 (entry 0 2 1024 0 0 [])) 5 0 2 (entry 0 2 1024 0 0 []) (engineAt 0 (entry 0 2 1024 0 0 []))
    ∧ (entry 0 2 1024 0 0 []).f 1 10 0 = 1024
    ∧ EngineHead (engineAt 0 (entry 0 4 0 0 0 [])) 5 0 4 (entry 0 4 0 0 0 []) (engineAt 0 (entry 0 4 0 0 0 [])) := by
  unfold EngineHead; decide

theorem wit_thr_complete : ∃ (s : State) (p : Nat) (e : Entry) (rest : List (Entry × Option Nat)), (s.tile p).thr.sigs = [] ∧
    (s.tile p).thr.running = (e, none) :: rest :=
  ⟨on { engineTile 0 (entry 0 4 0 0 0 []) with thr := { Thr.reset with running := [(entry 0 4 0 0 0 [], none)] } }, 5,
    entry 0 4 0 0 0 [], [], by decide, by decide⟩

/-- TPRELOAD of a whole line into the only way of its mask that leaves two unlocked, and a seventh locked way. -/
def preloadEntry (mask : Nat) : Entry := entry 0 3 (1 * 2 ^ 9 + mask * 2 ^ 13) 0 0 [(0, 0xF80), (1, 128)]
def preloadState (locked mask : Nat) : State :=
  withStacks (on { engineTile 0 (preloadEntry mask) with thr := { Thr.reset with locked := locked }, xc := [page 0 0x4000] })
theorem wit_preload : ∃ (s s₁ s₂ s₃ : State) (p : Nat) (e : Entry) (hs : HostMem) (w : Nat) (ws : List Nat) (a ep : Nat)
    (bs : List Byte), EngineHead s p 0 3 e s₁ ∧ State.wayCount (e.f 1 20 13 ||| (s₁.tile p).thr.locked) = 6 ∧
    s₁.preloadWays p (e.f 1 20 13) = w :: ws ∧ 0 < e.reg (e.f 1 12 9) % 2 ^ 32 ∧
    e.qAddr (e.f 1 8 0) % 128 + e.reg (e.f 1 12 9) % 2 ^ 32 = 128 ∧
    s₁.preloadAddr p (e.qAddr (e.f 1 8 0) / 128 * 128) hs = (s₂, some (some (0, a, ep))) ∧
    s₂.preloadRead p 0 a hs = (s₃, some (bs, true)) ∧ bs.length = 128 ∧ (s₃.tile p).thr.wb = [] :=
  ⟨preloadState 0xF8 4, preloadState 0xF8 4, ((preloadState 0xF8 4).preloadAddr 5 0xF80 []).1,
    (((preloadState 0xF8 4).preloadAddr 5 0xF80 []).1.preloadRead 5 0 0x4F80 []).1, 5, preloadEntry 4, [], 2, [], 0x4F80, 0, rep 128 0,
    by unfold EngineHead; decide, by decide, by decide, by decide, by decide, by decide, by decide, by decide, by decide⟩
theorem wit_preload_illegal : EngineHead (preloadState 0x3F 0xC0) 5 0 3 (preloadEntry 0xC0) (preloadState 0x3F 0xC0)
    ∧ State.wayCount ((preloadEntry 0xC0).f 1 20 13 ||| 0x3F) = 8 := by
  unfold EngineHead; decide

/-- Promotion with seven groups in the active set, and with eight. -/
def promoState (n : Nat) : State :=
  on { withGroup { grp with active := false } [] with thr := { (withGroup grp []).thr with
    groups := ((List.range n).map fun i => (i, some grp)) ++ [(63, some { grp with active := false })], promo := [63] } }
theorem wit_promotion : ∀ n ∈ [7, 8], (((promoState n).settle 5).tile 5).thr.promo = [63] ∧ ((promoState n).tile 5).live = true ∧
    (((promoState n).settle 5).tile 5).group? 63 = some { grp with active := false } ∧
    (((promoState n).settle 5).tile 5).activeCount = n := by decide

theorem wit_no_progress : ∃ (s : State) (p g : Nat) (x : Group), (s.tile p).live = true ∧ (s.tile p).group? g = some x ∧
    s.f .THR_SETUP_PROGRESS_LIMIT_LOG2 p ≠ 0 ∧ 2 ^ s.f .THR_SETUP_PROGRESS_LIMIT_LOG2 p = x.progress :=
  ⟨(on (withGroup { grp with progress := 2 ^ 16 } [])).setF .THR_SETUP_PROGRESS_LIMIT_LOG2 5 16, 5, 63, { grp with progress := 2 ^ 16 },
    by decide, by decide, by decide, by decide⟩

/-- The selected group runs, waits in BARB, is halted by the debugger. -/
theorem wit_group_debug : ∀ x ∈ [grp, { grp with wait := .barb true }, { grp with dbgHalted := true, active := false }],
    let s := (on (withGroup x [])).setF .GRP_DBG_SEL_GROUP 5 63
    (s.tile 5).group? (s.f .GRP_DBG_SEL_GROUP 5) = some x := by decide

/-! ### The matrix engine -/

/-- A MAT instruction at the head of MATQ, its plane A loaded with tag `fmt`. -/
def matAt (e : Entry) (fmt : Nat) : State :=
  on { engineTile 1 e with mat := { Mat.reset with now := 10, tags := [(0, 0, fmt, false)] } }
def matNow (e : Entry) (fmt : Nat) : State := (matAt e fmt).matTime 5 ⟨3, 1⟩

/-- MLDP of the last plane row from the last 64 bytes of the scratchpad; MLUT of its last cell. -/
def mldpEntry (src fmt stored : Nat) : Entry := entry 1 1 (63 * 2 ^ 25) (1 + stored * 2 ^ 7 + fmt * 2 ^ 11 + 2 ^ 17) 0 [(0, src)]
theorem wit_mldp : MatHead (matAt (mldpEntry 3145664 3 3) 0) 5 1 .loader ⟨3, 1⟩ (mldpEntry 3145664 3 3) (matNow (mldpEntry 3145664 3 3) 0)
    ∧ mldpFits (mldpEntry 3145664 3 3) = true ∧ mldpOk (mldpEntry 3145664 3 3) = true := by
  unfold MatHead EngineHead; decide
theorem wit_mlut : MatHead (matAt (entry 1 2 (2 ^ 9) 0 0 [(0, 3145696)]) 0) 5 2 .loader ⟨3, 1⟩ (entry 1 2 (2 ^ 9) 0 0 [(0, 3145696)])
      (matNow (entry 1 2 (2 ^ 9) 0 0 [(0, 3145696)]) 0)
    ∧ (entry 1 2 (2 ^ 9) 0 0 [(0, 3145696)]).qSpad ((entry 1 2 (2 ^ 9) 0 0 [(0, 3145696)]).f 1 8 0) = 3145696 := by
  unfold MatHead EngineHead; decide

/-- MSWAP, MZERO and MDLY. -/
theorem wit_mat_plain : ∀ x ∈ [(3, MatUnit.none, entry 1 3 0 0 0 []), (6, .drainer, entry 1 6 (1023 + 1023 * 2 ^ 15) 0 0 []),
      (7, .none, entry 1 7 0xFFFF 0 0 [])], MatHead (matAt x.2.2 0) 5 x.1 x.2.1 ⟨3, 1⟩ x.2.2 (matNow x.2.2 0) := by
  unfold MatHead EngineHead; decide

/-- MSTR of 1,024 rows of INT8 over 64 plane rows. -/
def mstrEntry : Entry := entry 1 4 (64 * 2 ^ 9) (1023 + 64 * 2 ^ 10 + 3 * 2 ^ 18) 0 [(0, 0)]
theorem wit_mstr : MatHead (matAt mstrEntry 3) 5 4 .streamer ⟨3, 1⟩ mstrEntry (matNow mstrEntry 3)
    ∧ mstrFits mstrEntry false = true ∧ mstrOk mstrEntry 3 false = true
    ∧ (((matNow mstrEntry 3).tile 5).mat.tagAt 0 11) = (3, false)
    ∧ MatHead (matAt mstrEntry 0) 5 4 .streamer ⟨3, 1⟩ mstrEntry (matNow mstrEntry 0)
    ∧ (((matNow mstrEntry 0).tile 5).mat.tagAt 0 11).1 = 0 := by
  unfold MatHead EngineHead; decide

/-- MDRN of the last column to the last bytes of the scratchpad, to bytes beyond them, and of no column. -/
def mdrnEntry (count dest : Nat) : Entry := entry 1 5 (63 * 2 ^ 25) (count + 3 * 2 ^ 7) 0 [(0, dest)]
theorem wit_mdrn : ∀ x ∈ [(mdrnEntry 1 3145727, true, true), (mdrnEntry 9 3145720, false, false), (mdrnEntry 0 0, true, false)],
    MatHead (matAt x.1 0) 5 5 .drainer ⟨3, 1⟩ x.1 (matNow x.1 0) ∧ mdrnFits x.1 = x.2.1 ∧ mdrnOk x.1 = x.2.2 := by
  unfold MatHead EngineHead; decide

/-- MLDP beyond the scratchpad, and of differing formats without expansion. -/
theorem wit_mldp_checks : ∀ x ∈ [(mldpEntry 3145665 3 3, false), (mldpEntry 0 4 3, true)],
    MatHead (matAt x.1 0) 5 1 .loader ⟨3, 1⟩ x.1 (matNow x.1 0) ∧ mldpFits x.1 = x.2 ∧ (x.2 = true → mldpOk x.1 = false) := by
  unfold MatHead EngineHead; decide

theorem wit_plane_load : ∃ (s : State) (p plane first n num : Nat) (table : List Nat) (e : Entry), e.ldKind = 0 ∧
    (s.tile p).mat.ops = [⟨num, (s.tile p).mat.now, (s.tile p).mat.now + n, e, .mldp plane first n false table, [], [], [], false, false⟩] ∧
    plane < 2 ∧ first + n = 64 ∧ 1 ≤ n ∧ 1 ≤ e.ldStored ∧ e.ldStored ≤ 8 :=
  ⟨on { engineTile 1 (mldpEntry 0 8 8) with mat := { Mat.reset with
      ops := [⟨0, 0, 1, mldpEntry 0 8 8, .mldp 1 63 1 false [], [], [], [], false, false⟩] } }, 5, 1, 63, 1, 0, [], mldpEntry 0 8 8,
    by decide, by decide, by decide, by decide, by decide, by decide, by decide⟩

/-- GMMA with the last legal left format, with one beyond it, and with a lane missing. -/
theorem wit_gmma : ∀ x ∈ [(8, grp), (9, grp), (2, grp), (3, lane31 0)],
    let f : ThreadFields := ⟨128, 0, 4, x.1, 0, 0⟩
    GroupAt (on (withGroup x.2 (toLE 8 (f.word 7 1)))) 5 63 x.2 7 1 f ∧ f.b.toNat % 16 = x.1.toNat := by
  unfold GroupAt; decide

/-- A GMMA that waits, its plane loaded or not. -/
def gmmaState (fmt : Nat) : State :=
  on { withGroup { grp with active := false, wait := .array } [] with mat := { Mat.reset with
    tags := [(0, 0, fmt, false)], gmmas := [⟨63, 0x1000, 0, 0, 32, [], 3, 128, false⟩] } }
theorem wit_gmma_begin : ∀ fmt ∈ [3, 0], let s := (gmmaState fmt).matTime 5 ⟨0, 0⟩
    let m := (s.tile 5).mat
    m.gmmas = [⟨63, 0x1000, 0, 0, 32, [], 3, 128, false⟩] ∧ (s.tile 5).live = true ∧ m.streamerFree ≤ m.now ∧ s.mstrFirst 5 = false
    ∧ (m.tagAt 0 m.now).1 = fmt ∧ (m.tagAt 0 m.now).2 = false ∧ pairingOk 3 false 3 = true := by decide

/-- A GMMA whose results are due. -/
def gmmaOp : MatOp := ⟨0, 0, 0, entry 1 4 0 0 0 [], .gmma 63 0 3 0 32 1 [] 3 128 false, [], [], [], false, false⟩
theorem wit_gmma_result : let s := (on { withGroup { grp with active := false, wait := .array } [] with
      mat := { Mat.reset with ops := [gmmaOp] } }).matTime 5 ⟨0, 0⟩
    (s.tile 5).mat.firstDue (·.isGmma) = some gmmaOp ∧ gmmaOp.due ≤ (s.tile 5).mat.now
    ∧ (s.tile 5).group? 63 = some { grp with active := false, wait := .array } := by decide

/-! ### Gather engine, sync engine, barriers and fences -/

/-- GFILL of the last 32 bytes of the scratchpad, beyond them, and of no byte. -/
def fillEntry (dest count : Nat) : Entry := entry 2 2 (2 ^ 9) count 0 [(0, dest), (1, 0x04030201)]
theorem wit_gfill : ∀ x ∈ [(3145696, 32), (3145696, 64), (0, 0)], let e := fillEntry x.1 x.2
    EngineHead (engineAt 2 e) 5 2 2 e (engineAt 2 e) ∧ (engineAt 2 e).gatRoom 5 false = true
    ∧ e.fillDest = x.1 ∧ e.fillCount = x.2 := by
  unfold EngineHead; decide

theorem wit_gnop : EngineHead (engineAt 2 (entry 2 3 0 0 0 [])) 5 2 3 (entry 2 3 0 0 0 []) (engineAt 2 (entry 2 3 0 0 0 []))
    ∧ (engineAt 2 (entry 2 3 0 0 0 [])).gatRoom 5 true = true := by
  unfold EngineHead; decide

/-- A transfer descriptor of one row of `n` 8-bit values in a mode, to scratchpad address `spad`, and a GXFER that takes it
from the last 64 bytes of the scratchpad. -/
def descWords (mode n base spad : Nat) : List Byte :=
  [mode + 3 * 2 ^ 8, n + 2 ^ 16, 1 + 2 ^ 16, 1, 0, 0, 0, 0, base, 0, 0, 0, 0, spad, n, 0].flatMap (toLE 4)
def xferEntry (d : Nat) : Entry := entry 2 1 d 0 0 []
def xferState (d : Nat) (bs : List Byte) : State :=
  on { engineTile 2 (xferEntry d) with spad := FMap.putList 0 [] d bs }
theorem wit_gxfer : ∀ x ∈ [(0, 64, 0x10000, 3145600), (3, 1, 3145663, 0), (4, 1, 0, 0)],
    let d := 3145664
    let s := xferState d (descWords x.1 x.2.1 x.2.2.1 x.2.2.2)
    let w := nth 0 (bytesWords 16 ((s.tile 5).spadBytes d 64))
    let y := Xfer.make (xferEntry d) w
    EngineHead s 5 2 1 (xferEntry d) s ∧ s.gatRoom 5 false = true ∧ (xferEntry d).gatDesc = d ∧ d % 64 = 0
    ∧ y.fieldsOk w = decide (x.1 ≤ 3) ∧ y.fits = true ∧ y.formOk = true ∧ y.mode = x.1 ∧ y.layout = 0 ∧ fmtBits y.fmt = 8
    ∧ y.count = 1 ∧ y.n1 = 1 ∧ y.n2 = 1 ∧ y.n3 = 1 ∧ y.n0 = x.2.1 := by
  unfold EngineHead; decide

/-- A transfer whose last row is next: 64 values from a whole line, and one value to its last byte. -/
def xfer (out : Bool) (n0 : Nat) : Xfer := ⟨0, out, 0, false, 3, false, 0, n0, 1, 1, 1, 1, 0, 0, 0, 0, 0, 0, 0, 3145664, 64⟩
def xferOp (x : Xfer) (src : Nat) : GatOp := ⟨0, xferEntry 0, some x, .rows 0 0 src, [], 0, false, [], 0, none, none⟩
def gathering (o : GatOp) : State :=
  (withStacks (on { engineTile 2 (xferEntry 0) with gat := { Gat.reset with ops := [o] }, xc := [page 0 0x4000] })).bump
    .GAT_FAULT_STALL_CYCLES_COUNT 5 0
theorem wit_gather_row : let o := xferOp (xfer false 64) 0xFC0
    let s := gathering o
    let r := s.translate 5 (s.missOf 5 (.gather 5) 0xFC0 .read o.entry.addr)
    (s.tile 5).gat.ops.getLast? = some o ∧ s.xlWaiting (.gather 5) 0 (some 5) = false ∧ r.2 = .ok 0 0x4FC0 0
    ∧ r.1.memRead 5 0 0x4FC0 0 64 (.gather 5) = ((r.1.memRead 5 0 0x4FC0 0 64 (.gather 5)).1, .data (rep 64 0) false) := by decide
theorem wit_scatter_row : let o := xferOp (xfer true 1) 0xFFF
    let s := gathering o
    let r := s.translate 5 (s.missOf 5 (.gather 5) 0xFFF .store o.entry.addr)
    (s.tile 5).gat.ops.getLast? = some o ∧ s.xlWaiting (.gather 5) 0 (some 5) = false ∧ r.2 = .ok 0 0x4FFF 0
    ∧ r.1.mustWait 0x4FFF 1 true = none ∧ r.1.cellOf 0x4FFF = some 0x2FFF := by decide
theorem wit_gather_done : ∃ (s : State) (p : Nat) (o : GatOp) (rest : List GatOp), (s.tile p).gat.ops = o :: rest ∧ o.phase = .done ∧
    s.gatUnacked p o.num = false :=
  ⟨on { engineTile 2 (xferEntry 0) with gat := { Gat.reset with ops := [{ xferOp (xfer true 1) 0 with phase := .done }] } }, 5,
    { xferOp (xfer true 1) 0 with phase := .done }, [], by decide, by decide, by decide⟩

/-- YNOP, YSET, YBAR of PART scope with a count and without one, YMEMBAR, YFSIGNAL, YFWAIT at the head of SYNQ. -/
theorem wit_sync : ∀ x ∈ [(1, entry 3 1 0 0 0 []), (2, entry 3 2 (31 + 65535 * 2 ^ 16) 0 0 []), (3, entry 3 3 (2 + 7 * 2 ^ 2) 0 0 [(0, 1)]),
      (3, entry 3 3 2 0 0 [(0, 0)]), (3, entry 3 3 1 0 0 []), (4, entry 3 4 3 0 0 []), (5, entry 3 5 (2 ^ 4) 0 0 [(0, 65535), (1, 1)]),
      (6, entry 3 6 (2 ^ 4) 0 0 [(0, 65535), (1, 1)])],
    EngineHead (engineAt 3 x.2) 5 3 x.1 x.2 (engineAt 3 x.2) ∧ ((engineAt 3 x.2).tile 5).syn.cur = none
    ∧ ((engineAt 3 x.2).tile 5).syn.dead = [] ∧ ((engineAt 3 x.2).dequeue 5 3).semWaiting 5 = false := by
  unfold EngineHead; decide
theorem wit_ybar_count : (entry 3 3 (2 + 7 * 2 ^ 2) 0 0 [(0, 1)]).reg ((entry 3 3 (2 + 7 * 2 ^ 2) 0 0 [(0, 1)]).f 1 8 5) % 2 ^ 32 = 1
    ∧ (entry 3 3 2 0 0 [(0, 0)]).f 1 1 0 = 2 ∧ (entry 3 3 2 0 0 [(0, 0)]).reg ((entry 3 3 2 0 0 [(0, 0)]).f 1 8 5) % 2 ^ 32 = 0 := by decide

/-- YPOLL of part memory, of a misaligned word, and with COND 3. -/
def pollEntry (va cond : Nat) : Entry := entry 3 7 (2 ^ 9 + cond * 2 ^ 13) 0 0 [(0, va), (1, 5)]
def pollAt (e : Entry) : State := withStacks (on { engineTile 3 e with xc := [page 0 0x4000] })
theorem wit_poll_head : ∀ x ∈ [(0xFF8, 2), (0xFFC, 0), (0xFF8, 3)],
    EngineHead (pollAt (pollEntry x.1 x.2)) 5 3 7 (pollEntry x.1 x.2) (pollAt (pollEntry x.1 x.2))
    ∧ ((pollAt (pollEntry x.1 x.2)).tile 5).syn.cur = none
    ∧ (pollEntry x.1 x.2).qAddr ((pollEntry x.1 x.2).f 1 8 0) = x.1 ∧ (pollEntry x.1 x.2).f 1 14 13 = x.2 := by
  unfold EngineHead; decide
theorem wit_poll : let e := pollEntry 0xFF8 2
    let s := (pollAt e).synBegun 5 e (.poll 0xFF8 5 2 false none)
    let r := s.translate 5 (s.missOf 5 (.sync 5) 0xFF8 .read e.addr)
    s.xlWaiting (.sync 5) 0 (some 5) = false ∧ r.2 = .ok 0 0x4FF8 0 ∧ (s.tile 5).live = true
    ∧ (s.tile 5).syn.cur = some (e, .poll 0xFF8 5 2 false none)
    ∧ r.1.memRead 5 0 0x4FF8 0 8 (.sync 5) = ((r.1.memRead 5 0 0x4FF8 0 8 (.sync 5)).1, .data (rep 8 0) false) := by decide

/-- A tile with a SYN instruction in progress. -/
def synAt (w : SynWork) : State := on { engineTile 3 (entry 3 1 0 0 0 []) with syn := { Syn.reset with cur := some (entry 3 1 0 0 0 [], w) } }
theorem wit_sync_complete : (∀ w ∈ [SynWork.done, .membar [], .fwait 65535 0, .poll 0 0 0 true none, .fsignal 65535 1 []],
      ((synAt w).tile 5).syn.cur = some (entry 3 1 0 0 0 [], w)) ∧ (synAt (.membar [])).outstanding [] = []
    ∧ 0 ≤ (synAt (.fwait 65535 0)).fences.get 0 65535 := by decide

/-- A signal that carries its semaphore one beyond 65,535. -/
theorem wit_signal : ∃ (s : State) (p k n : Nat) (rest : List (Nat × Nat)), (s.tile p).syn.signals = (k, n) :: rest ∧
    s.semWaiting p = false ∧ s.sem p k + n = 65536 :=
  ⟨on { Tile.reset with syn := { Syn.reset with signals := [(31, 16)], sems := [(31, 65520)] } }, 5, 31, 16, [], by decide, by decide,
    by decide⟩

/-- The last arrival of a PART barrier of two, and the first. -/
def barState (arrived : List Nat) : State :=
  { synAt (.bar 2 7 2 [] false none false) with roots := [((synAt (.bar 2 7 2 [] false none false)).rootOf 5 2 7, ⟨true, arrived, 2, 0⟩)] }
theorem wit_barrier : ∀ l ∈ [[], [6]], ((barState l).tile 5).syn.cur = some (entry 3 1 0 0 0 [], .bar 2 7 2 [] false none false) ∧
    (barState l).outstanding [] = [] ∧ (barState l).roots.get .reset ((barState l).rootOf 5 2 7) = ⟨true, l, 2, 0⟩ ∧
    bit ((barState l).tile 5).syn.sense (8 * 2 + 7) ≠ true := by decide
theorem wit_barrier_receive : ((synAt (.bar 3 7 2 [] true (some 0x0B) false)).tile 5).syn.cur
      = some (entry 3 1 0 0 0 [], .bar 3 7 2 [] true (some 0x0B) false) := by decide
theorem wit_barb : ∃ (s : State) (p b : Nat) (y : Block), (s.tile p).block? b = some y ∧ y.groups ≠ [] ∧ y.groups.Nodup ∧
    (∀ g ∈ y.groups, g ∈ y.arrived ∧ ∃ x, (s.tile p).group? g = some x ∧ x.haltPending = false ∧ x.stepping = false) :=
  ⟨on { withGroup grp [] with thr := { (withGroup grp []).thr with blocks := [(15, some { blk with arrived := [63] })] } }, 5, 15,
    { blk with arrived := [63] }, by decide, by decide, by decide, fun g h => by
      have : g = 63 := List.mem_singleton.1 h
      subst this; exact ⟨by decide, grp, by decide, by decide, by decide⟩⟩

/-- A fence that reaches the value waited for exactly, and one short of it. -/
theorem wit_fence_wait : ∀ v ∈ [7, 8], let s := { synAt (.fwait 65535 7) with fences := [(65535, v)] }
    (s.tile 5).syn.cur = some (entry 3 1 0 0 0 [], .fwait 65535 7) ∧ 7 ≤ s.fences.get 0 65535 := by decide
theorem wit_fence_short : ({ synAt (.fwait 65535 7) with fences := [(65535, 6)] } : State).fences.get 0 65535 < 7 := by decide
theorem wit_fence_signal : ∃ s : State, s.fenceQueue ≠ [] ∧ ∀ x ∈ s.fenceQueue, x.value < 2 ^ 64 :=
  ⟨{ State.reset with fenceQueue := [⟨65535, 2 ^ 64 - 1, 0, 5, none⟩] }, by decide, by decide⟩

/-! ### Part memory and translation -/

theorem wit_stack_read : ∃ (s : State) (k line : Nat), s.stackPresent k = true ∧ line = 2 ^ 30 - 1 ∧ s.serves (k * 2 ^ 36) = true :=
  ⟨State.reset.setF .HBM_STATUS_STATE 15 2, 15, 2 ^ 30 - 1, by decide, by decide, by decide⟩

/-- The last eight bytes of a stack, its line with and without an eyespot. -/
theorem wit_stack_atomic : ∀ b : Bool, let s := { State.reset.setF .HBM_STATUS_STATE 15 1 with eyes := if b then [(2 ^ 34 - 1, true)] else [] }
    s.stackPresent 15 = true ∧ s.serves (15 * 2 ^ 36) = true ∧ (2 ^ 36 - 8) % 8 = 0
    ∧ s.eye ((15 * 2 ^ 36 + (2 ^ 36 - 8)) / 64) = b := by decide

/-- A stack that is scrubbed, at 95 °C (TRIP_C) and one below. -/
theorem wit_stack_health : let s := (State.reset.setF .HBM_STATUS_STATE 15 1).setF .HBM_SETUP_SCRUB_HOURS 15 1
    s.stackPresent 15 = true ∧ s.f .HBM_SETUP_SCRUB_HOURS 15 ≠ 0 ∧ s.serves (15 * 2 ^ 36) = true
    ∧ s.flag .HBM_STATUS_TRIPPED 15 = false ∧ s.flag .HBM_STATUS_SENSOR_LOST 15 = false ∧ s.chl.waiting = [] ∧ s.fab.heldPeers = []
    ∧ s.f .HBM_SETUP_TRIP_C 15 < 115 ∧ s.f .HBM_SETUP_THROTTLE_C 15 + 6 ≤ s.f .HBM_SETUP_TRIP_C 15 ∧ s.f .HBM_STATUS_LEVEL 15 = 0 := by
  decide

theorem wit_stack_lost : let s := { State.reset.setF .HBM_STATUS_STATE 0 1 with hbm := [(0, { Stack.reset with failedReads := 2 })] }
    s.stackPresent 0 = true ∧ (s.stack 0).failedReads = 2 ∧ s.flag .HBM_STATUS_SENSOR_LOST 0 = false := by decide

theorem wit_row_copy : ∃ (s : State) (k : Nat) (c : RowCopy) (rest : List RowCopy), (s.stack k).copies = c :: rest :=
  ⟨{ State.reset with hbm := [(3, { Stack.reset with copies := [⟨2047, ⟨63, 63, 0, 1, false⟩⟩] })] }, 3, ⟨2047, ⟨63, 63, 0, 1, false⟩⟩, [],
    by decide⟩

/-- Replies of the host that hold tables: stage 2 maps its first GiB to host memory, stage 1 that of context 0. -/
def tables : HostMem :=
  [(0x2000, .data (toLE 8 0x3001)), (0x3000, .data (toLE 8 0x1F)), (0x8000, .data (toLE 8 0x9001)), (0x9000, .data (toLE 8 0xF))]
def withTables (s : State) : State :=
  ((((s.setF .XLT_S2_ROOT_ADDR 0 2).setF .XLT_S2_ROOT_TARGET 0 1).setF .CTX_S1_ROOT_ADDR 0 8).setF .XLT_SETUP_IPA_BITS 0 40).setF
    .CTX_SETUP_VA_BITS 0 40

/-- A miss of tile 5's group, its walk under way. -/
def missAt (va : Nat) : Miss := ⟨.group 5 63, 0, 0, va, .read, 0x1000, false⟩
def walking (va : Nat) : State :=
  withTables { on { Tile.reset with sent := [missAt va] } with dies := [(0, { Die.reset with walks := [missAt va] })] }

/-- A report of the first line of the last die's stacks, in a reloadable object and in none. -/
def reported (l : List Reload) : State :=
  { State.reset with dies := [(7, { Die.reset with reports := [14 * 2 ^ 30], reloads := l })] }
theorem wit_refetch : ((reported []).die 7).reports = [14 * 2 ^ 30] ∧ (reported []).reloadOf 7 (14 * 2 ^ 30) = none
    ∧ (reported [⟨5, 7 * 2 ^ 37, 4096, 0x10000⟩]).reloadOf 7 (14 * 2 ^ 30) = some (⟨5, 7 * 2 ^ 37, 4096, 0x10000⟩, 7 * 2 ^ 37)
    ∧ ∀ i < 64, (reported [⟨5, 7 * 2 ^ 37, 4096, 0x10000⟩]).hostDead (0x10000 + 64 * i) = false := by decide

theorem wit_walk_request : ∃ (s : State) (p : Nat) (m : Miss) (rest : List Miss), (s.tile p).misses = m :: rest :=
  ⟨on { Tile.reset with misses := [missAt 0x1FF8] }, 5, missAt 0x1FF8, [], by decide⟩

/-- A walk that gives the last word of the first GiB, and one that faults: its level-1 entry is not present. -/
theorem wit_walk : ∀ x ∈ [(0x3FFFFFF8, tables, true), (0x40000000, tables ++ [(0x9008, .data (toLE 8 0))], false)],
    let s := walking x.1
    let s₀ := s.modDie 0 fun y => { y with walks := y.walks.eraseIdx 0, queued := [] }
    (s.die 0).walks[0]? = some (missAt x.1) ∧ State.tileOf (missAt x.1).who = some 5 ∧ missAt x.1 ∈ (s.tile 5).sent
    ∧ (s.die 0).queued = []
    ∧ (match (s.walk 0 x.2.1 0 x.1 .read).2, (s₀.walk 0 x.2.1 0 x.1 .read).2 with
      | .ok _, .ok _ => x.2.2 == true
      | .error f, .error g => !x.2.2 && f != walkWait && g != walkWait
      | _, _ => false) = true := by decide

/-- A walk of the first address beyond VA_BITS. -/
theorem wit_walk_beyond : ((walking (2 ^ 40)).die 0).walks[0]? = some (missAt (2 ^ 40)) ∧
    2 ^ (walking (2 ^ 40)).f .CTX_SETUP_VA_BITS 0 = 2 ^ 40 := by decide

/-- A fault that takes the last free entry of its die's table. -/
theorem wit_fault_entry : ∃ (s : State) (d i : Nat) (m : Miss) (f : XFault) (rest : List (Miss × XFault)),
    (s.die d).faultQueue = (m, f) :: rest ∧ i < 512 ∧ i ∉ FMap.keys (s.die d).entries ∧
    (∀ j, j < i → j ∈ FMap.keys (s.die d).entries) :=
  ⟨{ State.reset with dies := [(7, { Die.reset with
      entries := (List.range 3).map fun j => (j, some ⟨missAt 0, ⟨1, 0, 3, 0⟩, j, none, false⟩), faultQueue := [(missAt 0, ⟨1, 0, 3, 0⟩)] })] },
    7, 3, missAt 0, ⟨1, 0, 3, 0⟩, [], by decide, by decide, by decide, by decide⟩

/-- A fault of the last group of the last tile in the last entry of its die, reported as `seq` says. -/
def faultOf (seq : Option Nat) : FaultEntry := ⟨⟨.group 831 63, 7, 0, 0x1FF8, .read, 0x1000, false⟩, ⟨1, 0, 3, 0⟩, 12, seq, false⟩
def faulting (seq : Option Nat) : State :=
  withTables ((({ State.reset with
    tiles := [(831, withGroup grp [])]
    dies := [(7, { Die.reset with entries := [(511, some (faultOf seq))] })]
    cp := { Cp.reset with rringProducer := 1, fringConsumer := some 0 } }.setF .SEC_PROC_STATUS_STATE 2 2).setF .XLT_FRING_BASE_ADDR 0 4).setF
      .XLT_RRING_BASE_ADDR 0 5)
theorem wit_fault_record : let s := faulting none
    s.nextReport = some (12, 7, 511, faultOf none) ∧ s.flag .XLT_STATUS_RING_FAULT = false ∧ s.fringRoom = true ∧ s.procRunning 2 = true
    ∧ (s.die 7).entries.get none 511 = some (faultOf none)
    ∧ s.ringAddr 0 tables (s.f .XLT_FRING_BASE_ADDR * 4096 + 64 * (s.f .XLT_FRING_NEXT_SEQUENCE % 2 ^ s.f .XLT_SETUP_FRING_LOG2)) .store
        = ((s.ringAddr 0 tables 0x4000 .store).1, .at 0x4000)
    ∧ s.cp.faultWriting = none ∧ (∀ b ∈ [0x4000, 0x4004], (s.ringAddr 0 tables 0x4000 .store).1.hostDead b = false) := by decide

/-- RETRY and UNSERVICEABLE of that fault, and a response to none. -/
def response (seq code : Nat) : BitVec 128 := BitVec.ofNat 128 (seq + (7 * 512 + 511) * 2 ^ 32 + code * 2 ^ 48)
theorem wit_response : let s := faulting (some 9)
    let a := s.ringAddr 0 tables 0x5000 .read
    s.cp.rringProducer ≠ s.f .XLT_RRING_NEXT_COUNT ∧ s.f .XLT_RRING_BASE_ADDR * 4096
        + 16 * (s.f .XLT_RRING_NEXT_COUNT % 2 ^ s.f .XLT_SETUP_RRING_LOG2) = 0x5000 ∧ a.2 = .at 0x5000
    ∧ (∀ code ∈ [1, 2], (a.1.setF .XLT_RRING_NEXT_COUNT 0 1).answered? (response 9 code).toNat = some (7, 511, faultOf (some 9))
        ∧ (response 9 code).toNat / 2 ^ 48 % 4 = code)
    ∧ (a.1.setF .XLT_RRING_NEXT_COUNT 0 1).answered? (response 8 1).toNat = none
    ∧ (s.tile 831).seq.halt = none ∧ (s.tile 831).group? 63 = some grp ∧ s.f .XLT_RESP_IGNORED_COUNT + 1 < 2 ^ 64 := by decide

/-- An invalidation that two participants must acknowledge, and one that one must. -/
def invalOf (l : List InvParticipant) : Inval := ⟨3, 0, 0, 0, 0, l, [], 0, none, none⟩
theorem wit_inval : ∀ l ∈ [[InvParticipant.tile 831, .tile 5], [.tile 831]], let s := { State.reset with invals := [invalOf l] }
    s.invals.find? (·.waitingFor.contains (.tile 831)) = some (invalOf l) ∧ s.invalBusy (invalOf l) (.tile 831) = false
    ∧ l.Nodup ∧ (s.invals.map (·.id)).Nodup := by decide

/-! ### Contexts, queues, descriptors and objects -/

/-- A part with these values in register fields. -/
def withFields (s : State) (l : List (Fld × Nat × Nat)) : State := l.foldl (fun s x => s.setF x.1 x.2.1 x.2.2) s

/-- The last context in a state. -/
def ctxIn (n : Nat) : State := withFields .reset [(.CTX_STATUS_STATE, 63, n)]
theorem wit_contexts : ∀ n ∈ [0, 1, 2, 3, 4], (ctxIn n).f .CTX_STATUS_STATE 63 = n ∧ ∀ i ∈ (ctxIn n).invals, i.destroys ≠ some 63 := by
  decide
theorem wit_destroyed : let i : Inval := { invalOf [.tile 831] with destroys := some 63 }
    let s := { ctxIn 4 with invals := [i] }
    s.invals.find? (·.waitingFor.contains (.tile 831)) = some i ∧ s.invalBusy i (.tile 831) = false ∧ i.waitingFor = [.tile 831]
    ∧ i.destroys = some 63 ∧ i.desc = none ∧ s.liveSlots = [] := by decide

/-- An ABORTING context with nothing left, one place free in the part's list of error records. -/
theorem wit_context_stopped : let s := { ctxIn 3 with cp := { Cp.reset with errs := rep 255 ⟨1, none, 0, []⟩ } }
    s.settleItems = s ∧ s.sqsOf 63 = [] ∧ (∀ d ∈ s.cp.descs, d.ctx ≠ 63) ∧ (∀ r ∈ s.fab.reqs, r.ctx ≠ some 63 ∨ r.status ≠ .waiting)
    ∧ s.cp.errs.length < 256 := by decide

/-- A descriptor of queue 1023 on the last die, of context 0, with the words given and the others 0. -/
def desc (op : Nat) (ws : List (Nat × Nat)) : Desc :=
  ⟨1023, 7, 0, 1023, 7, 3, (span 0 16).map fun k => if k = 0 then op else ((ws.find? (·.1 == k)).map (·.2)).getD 0, .fetched, true,
    [⟨.fresh, 0, false, 0, 0, [], []⟩], false, false, 0, false, [], 0, 0⟩

/-- A part whose die 7 serves queue 1023, its stacks open, its tables as `tables` has them, with these descriptors. -/
def serving (ds : List Desc) : State :=
  withTables (withFields { State.reset with cp := { Cp.reset with descs := ds } }
    [(.SEC_PROC_STATUS_STATE, 9, 2), (.CLK_STATUS_STACKS_OPEN, 0, 255), (.CTX_STATUS_STATE, 0, 2), (.OBJ_STATUS_READY, 0, 1),
     (.QUE_SQ_CTRL_ENABLE, 1023, 1), (.QUE_SQ_STATUS_STATE, 1023, 1), (.QUE_SQ_SETUP_SERVE_DIE, 1023, 7), (.QUE_SQ_SETUP_CQ, 1023, 1023),
     (.QUE_SQ_DOORBELL_ADDR, 1023, 256), (.QUE_SQ_BASE_ADDR, 1023, 5), (.QUE_SQ_SETUP_SIZE_LOG2, 1023, 4),
     (.QUE_CQ_CTRL_ENABLE, 1023, 1), (.QUE_CQ_STATUS_STATE, 1023, 1), (.QUE_CQ_BASE_ADDR, 1023, 12), (.QUE_CQ_SETUP_SIZE_LOG2, 1023, 4)])

/-- An ABORT meets a descriptor fetched and not started, and one of another context. -/
theorem wit_abort : let s := serving [desc 1 [], { desc 1 [] with q := 1022, ctx := 1, stage := .started }]
    s.f .CTX_STATUS_STATE 0 = 2 ∧ (s.cp.descs.map fun d => (d.q, d.n)).Nodup
    ∧ (∀ d ∈ s.cp.descs, d.ctx = 0 → d.stage = .fetched ∧ d.items ≠ [] ∧ ∀ it ∈ d.items, it.stage = .fresh)
    ∧ (∀ p, (s.tile p).seq.kernel = none ∧ (s.tile p).seq.inbox = none)
    ∧ 1023 ∈ s.sqsOf 0 ∧ (16 + 2 ^ 32 - s.f .QUE_SQ_CONSUMER_INDEX 1023) % 2 ^ 32 = 2 ^ s.f .QUE_SQ_SETUP_SIZE_LOG2 1023 :=
  ⟨by decide, by decide, by decide, fun _ => ⟨rfl, rfl⟩, by decide, by decide⟩

/-- Queue 1022 set up rightly but for what `l` says, and whether a write of 1 to ENABLE takes effect. -/
theorem wit_sq_setup : ∀ x ∈ [([], true), ([(Fld.QUE_SQ_BASE_ADDR, 1022, 1)], true), ([(.QUE_SQ_SETUP_SIZE_LOG2, 1022, 7), (.QUE_SQ_BASE_ADDR, 1022, 1)], false),
      ([(.CTX_STATUS_STATE, 0, 1)], false), ([(.QUE_CQ_CTRL_ENABLE, 1023, 0)], false), ([(.QUE_CQ_SETUP_CONTEXT, 1023, 1)], false)],
    let s := withFields (serving []) ((.QUE_SQ_SETUP_CQ, 1022, 1023) :: (.QUE_SQ_SETUP_SERVE_DIE, 1022, 7) :: x.1)
    s.flag .QUE_SQ_CTRL_ENABLE 1022 = false
    ∧ decide (s.f .CTX_STATUS_STATE 0 = 2 ∧ s.flag .QUE_CQ_CTRL_ENABLE 1023 = true ∧ s.f .QUE_CQ_SETUP_CONTEXT 1023 = 0
      ∧ s.variant.hasDie (s.f .QUE_SQ_SETUP_SERVE_DIE 1022) = true
      ∧ s.f .QUE_SQ_BASE_ADDR 1022 * 4096 % (64 * 2 ^ s.f .QUE_SQ_SETUP_SIZE_LOG2 1022) = 0) = x.2 := by
  decide
theorem wit_sq_room : ((serving []).sqsOf 0).length < 16 := by decide
theorem wit_cq_setup : (serving []).flag .QUE_CQ_CTRL_ENABLE 1023 = true ∧ (serving []).flag .QUE_SQ_CTRL_ENABLE 1023 = true
    ∧ (serving []).f .QUE_SQ_SETUP_CQ 1023 = 1023 ∧ (∀ k, k < 1024 → (ctxIn 2).flag .QUE_SQ_CTRL_ENABLE k = true → (ctxIn 2).f .QUE_SQ_SETUP_CQ k ≠ 1023)
    ∧ (withFields (serving []) [(.QUE_CQ_STATUS_STATE, 1023, 2)]).f .QUE_CQ_STATUS_STATE 1023 = 2 ∧ (serving []).flag .QUE_CQ_CTRL_ENABLE 0 = false := by
  decide
theorem wit_cq_disable : let s := withFields .reset [(.QUE_CQ_CTRL_ENABLE, 1023, 1)]
    s.flag .QUE_CQ_CTRL_ENABLE 1023 = true ∧ ∀ k, k < 1024 → s.flag .QUE_SQ_CTRL_ENABLE k = true → s.f .QUE_SQ_SETUP_CQ k ≠ 1023 := by
  decide

/-- A doorbell line that shows the last legal index, the first illegal one, and one that cannot be read. -/
def doorbells : List (HostMem × Option (Nat × List Byte × Bool)) :=
  let line := fun (n : Nat) => toLE 4 n ++ rep 60 0
  [(tables ++ [(0x4000, .data (line 16))], some (0x4000, line 16, false)), (tables ++ [(0x4000, .data (line 17))], some (0x4000, line 17, false)),
   (tables, none)]
theorem wit_doorbell : ∀ x ∈ doorbells,
    let s := serving []
    let r := s.ringRead 7 x.1 (s.f .QUE_SQ_DOORBELL_ADDR 1023 * 64) 64
    s.flag .QUE_SQ_CTRL_ENABLE 1023 = true ∧ s.f .QUE_SQ_STATUS_STATE 1023 = 1
    ∧ s.procRunning (2 + s.f .QUE_SQ_SETUP_SERVE_DIE 1023) = true ∧ (∀ y ∈ s.cp.lines, y.1 ≠ .doorbell 1023)
    ∧ s.f .QUE_SQ_SETUP_SERVE_DIE 1023 = 7 ∧ r.2 = some x.2 ∧ r.1.cp.errs.length < 256 := by decide

/-- A whole ring: a FENCE, a malformed one, and a poisoned slot. -/
theorem wit_descriptor_fetch : ∀ x ∈ [(ExtReply.data (wordBytes (desc 5 []).words), true, false),
      (.data (wordBytes (desc 5 [(3, 1)]).words), false, false), (.poisoned (rep 64 0), false, true)],
    let s := (serving []).modCp fun c => { c with sqs := [(1023, ⟨16, true, none⟩)] }
    let y := s.cp.sqs.get ⟨0, false, none⟩ 1023
    let n := s.f .QUE_SQ_CONSUMER_INDEX 1023
    let r := s.ringRead 7 (tables ++ [(0x5000, x.1)]) (s.f .QUE_SQ_BASE_ADDR 1023 * 4096 + 64 * (n % 2 ^ s.f .QUE_SQ_SETUP_SIZE_LOG2 1023)) 64
    s.flag .QUE_SQ_CTRL_ENABLE 1023 = true ∧ s.f .QUE_SQ_STATUS_STATE 1023 = 1 ∧ y.known = true ∧ y.latched = none ∧ n ≠ y.producer
    ∧ (y.producer + 2 ^ 32 - n) % 2 ^ 32 ≤ 2 ^ s.f .QUE_SQ_SETUP_SIZE_LOG2 1023 ∧ s.inflight 1023 < 256 ∧ s.procRunning 9 = true
    ∧ s.stacksOpen 7 = true ∧ (∃ a bs, r.2 = some (some (a, bs, x.2.2)) ∧ { desc 5 [] with words := bytesWords 16 bs }.wellFormed = x.2.1)
    ∧ (r.1.cp.sqs.get ⟨0, false, none⟩ 1023).latched = none ∧ r.1.f .CTX_STATUS_STATE 0 ≠ 3 ∧ r.1.desc? 1023 n = none
    ∧ r.1.f .QUE_SQ_STATUS_STATE 1023 = 1 := by
  intro x hx
  simp only [List.mem_cons, List.not_mem_nil, or_false] at hx
  rcases hx with rfl | rfl | rfl <;>
    exact ⟨by decide, by decide, by decide, by decide, by decide, by decide, by decide, by decide, by decide,
      ⟨_, _, rfl, by decide⟩, by decide, by decide, by decide, by decide⟩

/-- Checks that fail a whole descriptor: an absent die, a codec width that does not exist, a stale handle. -/
theorem wit_start_checks : ∀ x ∈ [(Variant.dnq480, desc 1 [(12, 2 ^ 4)]), (.dnq480, desc 2 [(13, 4)]), (.dnq440, desc 3 [(13, 3 + 4 * 2 ^ 8)]),
      (.dnq440, desc 4 [(13, 0)]), (.dnq880, desc 3 [(13, 7 + 5 * 2 ^ 8)]), (.dnq880, desc 2 [(13, 7), (15, 1)]),
      (.dnq880, desc 3 [(13, 8 * 2 ^ 8), (14, 2 ^ 20)]), (.dnq880, desc 4 [(14, 2 ^ 20 - 1)])],
    let s := { serving [x.2] with fuses := { Fuses.reset with variant := x.1 } }
    StartsAt s 1023 7 x.2.opcode s x.2 ∧ s.flag .OBJ_STATUS_READY = true
    ∧ (x.2.opcode = 1 → ∃ k, k < 8 ∧ bit (x.2.w 12) k = true ∧ s.variant.hasDie k = false)
    ∧ (x.1 = .dnq880 → s.variant.hasCodec (x.2.w 13 % 8) = true) ∧ (x.1 = .dnq440 → s.variant.hasCodec (x.2.w 13 % 8) = false)
    ∧ (∀ h ∈ [x.2.w 14, x.2.w 15], h ≠ 0 → nth 0 (s.objEntry (h % 2 ^ 20)) 0 / 2 ^ 12 % 2 = 0) := by
  unfold StartsAt; decide

/-- A LAUNCH with a legal header and record on die 7; with a header that enables no stream; with a poisoned one. -/
def launchDesc : Desc := desc 1 [(8, 0x10000), (10, 0x20000), (12, 2 ^ 7 + 64 * 2 ^ 16)]
def header (en : Nat) : List Byte := wordBytes ([0x30000, 0, 0, 0, 0, 0, 0, 0, en] ++ rep 7 0)
theorem wit_launch_descriptor : ∀ x ∈ [(ExtReply.data (header 1), true, false), (.data (header 0), false, false), (.poisoned [], false, true)],
    let s := serving [launchDesc]
    let d := launchDesc
    let hs := tables ++ [(0x10000, x.1), (0x20000, .data (rep 32 0))]
    let r := (s.begin_ d).vRead (.cp 1023 7 64) d.die d.ctx (d.q64 8) 64 hs
    let s₂ := r.1
    let bs := match r.2 with
      | .got bs _ _ => bs
      | .wait => []
    let w := fun k => fromLE ((bs.drop (4 * k)).take 4)
    let r₃ := (s₂.modDesc 1023 7 fun e => { e with
        pcs := (List.range 4).map fun k => (w (2 * k) + 2 ^ 32 * w (2 * k + 1)) % 2 ^ 56, enables := w 8 % 16, gangLog2 := w 8 / 16 % 8 }).vRead
      (.cp 1023 7 0) d.die d.ctx (d.q64 10 % 2 ^ 64) 32 hs
    StartsAt s 1023 7 1 s d ∧ d.pcs = [] ∧ (∀ k, k < 8 → bit (d.w 12) k = true → s.variant.hasDie k = true)
    ∧ r.2 = .got bs 0 x.2.2 ∧ s₂.desc? 1023 7 = (s.begin_ d).desc? 1023 7 ∧ d.count = 1 ∧ d.w 14 = 0 ∧ d.w 15 = 0
    ∧ decide (w 8 % 16 = 0 ∨ w 8 / 16 % 8 = 7 ∨ (∃ k ∈ List.range 4, bit (w 8 % 16) k = true ∧ (w (2 * k) + 2 ^ 32 * w (2 * k + 1)) % 8 ≠ 0)
        ∨ w 8 / 2 ^ 7 ≠ 0 ∨ ∃ k ∈ span 9 7, w k ≠ 0) = !x.2.1
    ∧ r₃.2 = .got (rep 32 0) 0 false ∧ bit (d.w 12) 7 = true ∧ ∀ j, j < 7 → bit (d.w 12) j = false := by
  unfold StartsAt; decide

/-- A COPY without a list; one frame for a codec engine. -/
theorem wit_copy : let d := desc 2 [(8, 0x10000), (10, 0x20000), (12, 2 ^ 31 - 64), (13, 7)]
    StartsAt (serving [d]) 1023 7 2 (serving [d]) d ∧ bit (d.w 12) 31 = false ∧ (serving [d]).variant.hasDie (d.w 13 % 8) = true
    ∧ d.w 14 = 0 ∧ d.w 15 = 0 := by
  unfold StartsAt; decide
theorem wit_codec_start : ∀ op ∈ [3, 4], let d := desc op [(8, 0x10000), (13, 7 + if op = 3 then 8 * 2 ^ 8 else 0)]
    let s := serving [d]
    let r := (s.begin_ d).vRead (.cp 1023 7 0) d.die d.ctx (d.q64 8 % 2 ^ 64) 64 (tables ++ [(0x10000, .data (rep 64 0))])
    StartsAt s 1023 7 op s d ∧ d.count = 1 ∧ s.variant.hasCodec (d.w 13 % 8) = true ∧ (op = 3 → d.w 13 / 2 ^ 8 % 16 = 4 ∨ d.w 13 / 2 ^ 8 % 16 = 8)
    ∧ d.w 14 = 0 ∧ d.w 15 = 0 ∧ r.2 = .got (rep 64 0) 0 false ∧ r.1.desc? 1023 7 = (s.begin_ d).desc? 1023 7 := by
  unfold StartsAt; decide
theorem wit_fence_invalidate : ∀ d ∈ [desc 5 [], desc 6 [(8, 63 * 4), (11, 0), (12, 65536)], desc 6 [(8, 3)]],
    StartsAt (serving [d]) 1023 7 d.opcode (serving [d]) d ∧ d.count = 1 := by
  unfold StartsAt; decide

/-- OBJ_REGISTER and OBJ_RELEASE of slot 1,048,575, whose entry has word 0 as given. -/
def objectAt (w : Nat) (d : Desc) : State :=
  { withStacks (serving [d]) with mem := FMap.putList State.memDefault [] (2 ^ 36 + 32 * (2 ^ 19 - 1)) (toLE 2 w) }
theorem wit_register : ∀ w ∈ [0, 4094, 2 ^ 12, 2 ^ 14 + 4095], let d := desc 7 [(8, 65536), (10, 65536), (14, 2 ^ 20 - 1)]
    let s := objectAt w d
    let w₀ := nth 0 (s.objEntry (d.w 14 % 2 ^ 20)) 0
    StartsAt s 1023 7 7 s d ∧ d.count = 1 ∧ s.flag .OBJ_STATUS_READY = true ∧ s.xlWaiting (.cp 1023 7 0) d.die none = false ∧ w₀ = w
    ∧ s.cellOf (s.f .OBJ_TABLE_BASE_ADDR * 2 ^ 25 + 32 * (d.w 14 % 2 ^ 20)) = some (2 ^ 36 + 32 * (2 ^ 19 - 1)) ∧ bit (d.w 14) 20 = false := by
  unfold StartsAt; decide
theorem wit_register_words : let d := desc 7 [(8, 65536), (10, 65536), (14, 2 ^ 20 - 1)]
    ∀ k, d.w k < 2 ^ 32 := fun k => by
  have h : ∀ k, k < 16 → (desc 7 [(8, 65536), (10, 65536), (14, 2 ^ 20 - 1)]).w k < 2 ^ 32 := by decide
  by_cases hk : k < 16
  · exact h k hk
  · have h0 : (desc 7 [(8, 65536), (10, 65536), (14, 2 ^ 20 - 1)]).w k = 0 := by
      unfold Desc.w nth
      rw [List.getD_eq_getElem?_getD, List.getElem?_eq_none (Nat.not_lt.mp hk)]
      rfl
    show (desc 7 [(8, 65536), (10, 65536), (14, 2 ^ 20 - 1)]).w k < 2 ^ 32
    rw [h0]; decide
theorem wit_release : ∀ x ∈ [(2 ^ 12 + 4094, true), (4094, false), (2 ^ 12 + 4093, false)], let d := desc 8 [(8, 2 ^ 20 - 1 + 4094 * 2 ^ 20)]
    let s := objectAt x.1 d
    let w := nth 0 (s.objEntry (d.w 8 % 2 ^ 20)) 0
    StartsAt s 1023 7 8 s d ∧ d.count = 1 ∧ s.flag .OBJ_STATUS_READY = true
    ∧ decide (d.w 8 ≠ 0 ∧ bit w 12 = true ∧ w % 2 ^ 12 = d.w 8 / 2 ^ 20 % 2 ^ 12) = x.2
    ∧ s.cellOf (s.f .OBJ_TABLE_BASE_ADDR * 2 ^ 25 + 32 * (d.w 8 % 2 ^ 20)) = some (2 ^ 36 + 32 * (2 ^ 19 - 1)) := by
  unfold StartsAt; decide
theorem wit_object_table : State.reset.flag .CLK_LOCK_SETUP_LOCK = false
    ∧ ({ State.reset with cp := { Cp.reset with tableZeroing := true } } : State).cp.tableZeroing = true
    ∧ ({ State.reset with cp := { Cp.reset with tableZeroing := true } } : State).listedSlots = [] := by decide

/-- An item for a gang of two of die 7, whose first two tiles are taken; it stands behind one of a lower class. -/
def dispatching : State :=
  let d := { desc 1 [(10, 0x20000)] with stage := .started, gangLog2 := 1 }
  { serving [d] with
    dies := [(7, { Die.reset with waiting := [(2, 1023, 7, 1), (3, 1023, 7, 0), (3, 1023, 7, 1)] })]
    tiles := [(729, { Tile.reset with seq := { SeqState.reset with run := .lead } })] }
theorem wit_dispatch : let s := dispatching
    s.procRunning 9 = true ∧ bit (s.f .MGT_MOULT_CTRL_QUIESCE) 7 = false ∧ (3, 1023, 7, 0) ∈ (s.die 7).waiting ∧ (s.die 7).waiting.Nodup
    ∧ (∀ y ∈ (s.die 7).waiting, y.1 ≤ 3) ∧ (∀ y ∈ (s.die 7).waiting.takeWhile (· ≠ (3, 1023, 7, 0)), y.1 < 3)
    ∧ (∃ d, s.desc? 1023 7 = some d ∧ d.opcode = 1 ∧ d.gangLog2 = 1)
    ∧ (∀ k, k < 2 → s.tileIdle (s.physOf 7 (2 + k)) = true) ∧ s.tileIdle (s.physOf 7 1) = false
    ∧ ((List.range 2).map fun k => s.physOf 7 (2 + k)).Nodup :=
  ⟨by decide, by decide, by decide, by decide, by decide, by decide, ⟨_, rfl, by decide, by decide⟩, by decide, by decide, by decide⟩

/-- The item in front of the codec engine of die 7: its length, its capacity. -/
def codecItem (len cap : Nat) : Item := ⟨.waiting, 0, false, 0, 0, [], [0x10000, 0, 0x20000, 0, len, 0, cap, 0] ++ rep 8 0⟩
def codecAt (op len cap : Nat) : State :=
  { serving [{ desc op [(13, 7 + 4 * 2 ^ 8)] with stage := .started, items := [codecItem len cap] }] with
    dies := [(7, { Die.reset with codec := [(1023, 7, 0)] })] }
theorem wit_codec_item : ∀ x ∈ [(3, 63, 0), (3, 2 ^ 32 - 63, 0), (3, 64, 129), (4, 63, 0), (3, 64, 130)], let s := codecAt x.1 x.2.1 x.2.2
    (s.die 7).codec = [(1023, 7, 0)] ∧ (∃ d, s.desc? 1023 7 = some d ∧ d.q = 1023 ∧ d.n = 7 ∧ d.opcode = x.1
      ∧ d.items[0]? = some (codecItem x.2.1 x.2.2)) ∧ s.owned (· == .item 1023 7 0) = [] := by
  intro x hx
  simp only [List.mem_cons, List.not_mem_nil, or_false] at hx
  rcases hx with rfl | rfl | rfl | rfl | rfl <;> exact ⟨by decide, ⟨_, rfl, by decide, by decide, by decide, by decide⟩, by decide⟩
theorem wit_compress : let hs := tables ++ [(0x10000, .data (rep 64 1))]
    let s := (codecAt 3 64 130).modDesc 1023 7 fun y => y.modItem 0 fun it => { it with stage := .running }
    let r := State.vReadRuns (.codec 7) 7 0 hs (runsOf 0x10000 64) s
    let f := codeFrame 4 (rep 64 1) [0, 0, 0, 0]
    r.2 = some (rep 64 1, 0, false)
    ∧ (State.vWriteRuns (.codec 7) 7 0 hs (1023, 7, 0) (runsOf 0x20000 f.length) f r.1).2 = true := by decide

/-- A held record, the ring with one place left, in the lap that writes PHASE as given. -/
theorem wit_record : ∀ k ∈ [15, 31], let d := { desc 5 [] with stage := .complete, items := [⟨.ended, 0, false, 0, 0, [], []⟩] }
    let r : HeldRec := ⟨rep 8 0, 1023, 7, true⟩
    let s := (withFields (serving [d]) [(.QUE_CQ_PRODUCER_INDEX, 1023, k)]).modCp fun c => { c with cqs := [(1023, ⟨some (k - 15), false, [r]⟩)] }
    let x := s.ringAddr 7 tables (s.f .QUE_CQ_BASE_ADDR 1023 * 2048 + 32 * (k % 2 ^ s.f .QUE_CQ_SETUP_SIZE_LOG2 1023)) .store
    s.settleItems = s ∧ (s.cp.cqs.get .reset 1023).held = [r] ∧ (s.cp.cqs.get .reset 1023).writing = false ∧ s.desc? 1023 7 = some d ∧ s.procRunning (2 + d.die) = true
    ∧ s.writeStatuses d tables = s ∧ s.statusesDone d = true ∧ s.flag .QUE_CQ_CTRL_ENABLE 1023 = true ∧ s.f .QUE_CQ_STATUS_STATE 1023 = 1
    ∧ s.f .QUE_CQ_PRODUCER_INDEX 1023 = k
    ∧ (s.cp.cqs.get .reset 1023).consumer = some (k - 15) ∧ (k + 2 ^ 32 - (k - 15)) % 2 ^ 32 < 2 ^ s.f .QUE_CQ_SETUP_SIZE_LOG2 1023
    ∧ x.2 = .at (0x6000 + 32 * 15) ∧ x.1.desc? 1023 7 = some d ∧ x.1.hostDead 0x61E0 = false := by decide
theorem wit_fence_signal_due : ∃ (s : State) (q n : Nat) (d : Desc), s.desc? q n = some d ∧ d.stage = .performed :=
  ⟨serving [{ desc 5 [] with stage := .performed }], 1023, 7, _, rfl, rfl⟩
def erring : State :=
  withFields (withTables { State.reset with cp := { Cp.reset with errs := [⟨6, some 63, 0, [1]⟩], errConsumer := some 0 } })
    [(.QUE_ERING_SETUP_ENABLE, 0, 1), (.SEC_PROC_STATUS_STATE, 2, 2), (.QUE_ERING_SETUP_SIZE_LOG2, 0, 4), (.QUE_ERING_NEXT_SEQUENCE, 0, 15),
     (.QUE_ERING_BASE_ADDR, 0, 4)]
theorem wit_error_record : let s := erring
    let x := s.ringAddr 0 tables (s.f .QUE_ERING_BASE_ADDR * 4096 + 128 * (15 % 2 ^ s.f .QUE_ERING_SETUP_SIZE_LOG2)) .store
    s.flag .QUE_ERING_SETUP_ENABLE = true ∧ s.flag .QUE_ERING_STATUS_RING_FAULT = false ∧ s.procRunning 2 = true
    ∧ s.cp.errConsumer = some 0 ∧ s.cp.errWriting = none ∧ (s.f .QUE_ERING_NEXT_SEQUENCE + 2 ^ 32 - 0) % 2 ^ 32 < 2 ^ s.f .QUE_ERING_SETUP_SIZE_LOG2
    ∧ x.2 = .at (0x4000 + 128 * 15) ∧ x.1.cp = s.cp
    ∧ (∀ b ∈ [0x4780, 0x4784, 0x47C0], x.1.hostDead b = false) := by decide
theorem wit_holdoff : ∃ (s : State) (src : IrqSource), src ∈ s.cp.holding :=
  ⟨State.reset.modCp fun c => { c with holding := [.cq 1023] }, .cq 1023, by decide⟩

/-! ### Chautlink -/

/-- A part with port 1 up, its aperture at 2^51, and the snoop filter given. -/
def hosted (filter : FMap (Option FilterEntry)) : State :=
  let s := withFields (withStacks { State.reset with chl := { Chl.reset with filter := filter } })
    [(.CHL_PORT_STATUS_STATE, 1, 2), (.CLK_STATUS_STACKS_OPEN, 0, 255)]
  s.modPort 1 fun p => { p with memEn := true, aperture := 2 ^ 51 }

/-- The last line of die 0's memory: its address, which is its cell too. -/
def lastPa : Nat := 2 ^ 37 - 64

/-- A request header of a type for an offset of the aperture of port 1. -/
def reqHdr (ty off len op : Nat) (wide : Bool) : BitVec 128 := BitVec.ofNat 128 (Msg.header ty 0xFFF (2 ^ 51 + off) len false op wide)

theorem wit_host_reads : ∀ f ∈ [[], [(lastPa / 64, some (FilterEntry.mk false true true 0))]], ∀ x ∈ [(1, 0, 0), (2, 0, 0), (3, 63, 1), (3, 0, 64)],
    let s := hosted f
    let pa := lastPa + x.2.1
    HostReaches s 1 x.1 (reqHdr x.1 pa x.2.2 0 false).toNat pa pa ∧ s.blockers pa (some 1) (x.1 == 2) = []
    ∧ s.victim (pa / 64) = none := by
  unfold HostReaches; decide
theorem wit_host_writes : ∀ x ∈ [(4, 0, 0, 64), (5, 63, 1, 1), (5, 0, 64, 64)], let s := hosted []
    let pa := lastPa + x.2.1
    HostReaches s 1 x.1 (reqHdr x.1 pa x.2.2.1 0 false).toNat pa pa ∧ s.blockers pa (some 1) true = [] ∧ ¬ (2 ^ 41 ≤ pa)
    ∧ x.2.2.2 = (if x.1 = 4 then 64 else Msg.length (reqHdr x.1 pa x.2.2.1 0 false).toNat) := by
  unfold HostReaches; decide
theorem wit_host_atomic : ∀ x ∈ [(60, false, 9), (56, true, 0)], let s := hosted []
    let pa := lastPa + x.1
    HostReaches s 1 6 (reqHdr 6 pa 0 x.2.2 x.2.1).toNat pa pa ∧ s.blockers pa (some 1) true = [] ∧ s.eye (pa / 64) = false := by
  unfold HostReaches; decide

/-- The last slot of the fence window. -/
theorem wit_fence_window : ∀ ty ∈ [5, 3], let h := (reqHdr ty (2 ^ 41 + 8 * 65535) 8 0 false).toNat
    (hosted []).portUp 1 = true ∧ ((hosted []).port 1).memEn = true
    ∧ Msg.addr h = ((hosted []).port 1).aperture + 2 ^ 41 + 8 * 65535 ∧ Msg.length h = 8 ∧ Msg.requestOk ty h = true := by decide

/-- Port 0 holds the line, as its owner or shared. -/
theorem wit_host_blocked : ∀ ty ∈ [1, 2, 3, 4, 5, 6], let s := hosted [(lastPa / 64, some ⟨true, false, ty < 4 && ty ≠ 2, 0⟩)]
    let h := (reqHdr ty lastPa (if ty = 3 ∨ ty = 5 then 8 else 0) 0 true).toNat
    let h := if ty = 6 then h else (reqHdr ty lastPa (if ty = 3 ∨ ty = 5 then 8 else 0) 0 false).toNat
    HostReaches s 1 ty h lastPa lastPa ∧ s.blockers lastPa (some 1) (ty != 1 && ty != 3) ≠ [] := by
  unfold HostReaches; decide

/-- Each ground for NOHOME, at its boundary. -/
theorem wit_nohome : Msg.requestOk 1 (reqHdr 1 32 0 0 false).toNat = false ∧ (State.reset.port 1).memEn = false
    ∧ Msg.addr (BitVec.ofNat 128 (Msg.header 1 0 (2 ^ 51 - 64))).toNat < ((hosted []).port 1).aperture
    ∧ ((hosted []).port 1).aperture + 2 ^ 42 ≤ Msg.addr (reqHdr 1 (2 ^ 42) 0 0 false).toNat
    ∧ (hosted []).cellOf (2 ^ 41 - 1) = none ∧ (hosted []).cellOf (2 ^ 41 + 0x80000) = none ∧ (hosted []).portUp 1 = true := by decide

theorem wit_host_gives_up : ∀ ty ∈ [7, 8], let s := hosted [(lastPa / 64, some ⟨false, true, true, 0⟩)]
    let h := (reqHdr ty lastPa 0 0 false).toNat
    s.portUp 1 = true ∧ Msg.requestOk ty h = true ∧ (s.port 1).memEn = true ∧ (s.port 1).aperture % 64 = 0
    ∧ (s.port 1).aperture + lastPa = Msg.addr h ∧ s.cellOf lastPa = some lastPa ∧ (∀ x ∈ s.chl.snoops, x.line ≠ lastPa / 64) := by decide

/-- A snoop of the last line, sent through port 1. -/
def snooping (data owned p0 : Bool) : State :=
  let s := hosted [(lastPa / 64, some ⟨p0, true, owned, 0⟩)]
  { s with chl := { s.chl with snoops := [⟨9, 1, 0xFFF, lastPa / 64, data, false, false, .outside⟩] } }
theorem wit_snoop_answer : ∀ data ∈ [false, true], ∀ owned ∈ [false, true], ∀ ty ∈ [0x21, 0x31],
    let s := snooping data owned (!owned)
    let h := Msg.header ty 0xFFF 0
    Msg.type (BitVec.ofNat 128 h).toNat = ty ∧ Msg.tag (BitVec.ofNat 128 h).toNat = 0xFFF
    ∧ s.chl.snoops.find? (fun y => y.port == 1 && y.tag == 0xFFF) = some ⟨9, 1, 0xFFF, lastPa / 64, data, false, false, .outside⟩
    ∧ s.filterAt (lastPa / 64) = some ⟨!owned, true, owned, 0⟩ ∧ s.cellOf (64 * (lastPa / 64)) = some lastPa ∧ s.chl.waiting = [] ∧ s.chl.later = []
    ∧ s.fab.heldPeers = [] ∧ (s.chl.snoops.map (·.id)).Nodup := by decide
theorem wit_snpinv : (hosted []).portUp 1 = true ∧ Msg.type (BitVec.ofNat 128 (Msg.header 0x10 0 0)).toNat = 0x10 := by decide

/-- A request of the part that waits for its answer on port 1. -/
def asked (kind : ReqKind) (o : Owner) : State :=
  let s := serving [{ desc 1 [] with stage := .started, items := [⟨.running, 0, false, 0, 0, [], []⟩] }]
  { s with chl := { s.chl with reqs := [⟨9, 1, 0xFFF, kind, 64, 8, o, some (1023, 7, 0), .waiting, [], false, false⟩] } }
theorem wit_host_response : ∀ x ∈ [(ReqKind.rds, Owner.group 831 63), (.atom, .stream 0 .thr), (.rdnc, .gather 0), (.wrp, .store 831 []), (.wrp, .cq 1023)],
    let s := asked x.1 x.2
    s.chl.reqs.find? (fun y => y.port == 1 && y.tag == 0xFFF && y.status == .waiting)
      = some ⟨9, 1, 0xFFF, x.1, 64, 8, x.2, some (1023, 7, 0), .waiting, [], false, false⟩
    ∧ (s.chl.reqs.map (·.id)).Nodup ∧ s.chl.later = [] ∧ s.f .CHL_PORT_TIMEOUTS_COUNT 1 + 1 < 2 ^ 64 ∧ s.cp.errs.length < 256
    ∧ (∃ d it, s.desc? 1023 7 = some d ∧ d.items[0]? = some it ∧ it.code = 0 ∧ it.stage = .running) := by
  intro x hx
  simp only [List.mem_cons, List.not_mem_nil, or_false] at hx
  rcases hx with rfl | rfl | rfl | rfl | rfl <;>
    exact ⟨by decide, by decide, by decide, by decide, by decide, _, _, rfl, rfl, by decide, by decide⟩
theorem wit_host_response_late : let s := asked .rds (.group 831 63)
    s.chl.later = [] ∧ s.chl.reqs.find? (fun x => x.port == 1 && x.tag == 0 && x.status == .waiting) = none := by decide
/-- A response to the write of a completion record, with and without a fence to signal. -/
theorem wit_record_performed : ∀ w0 ∈ [5, 5 + 2 ^ 17], let d := { desc w0 [] with stage := .complete }
    let r : HeldRec := ⟨rep 8 0, 1023, 7, true⟩
    let s := (asked .wrp (.cq 1023)).modCp fun c => { c with descs := [d], cqs := [(1023, ⟨some 0, true, [r]⟩)] }
    s.hostByTag 1 0xFFF = some ⟨9, 1, 0xFFF, .wrp, 64, 8, .cq 1023, some (1023, 7, 0), .waiting, [], false, false⟩ ∧ s.chl.later = []
    ∧ (s.cp.cqs.get .reset 1023).held = [r] ∧ s.desc? 1023 7 = some d ∧ (s.cp.descs.map fun d => (d.q, d.n)).Nodup
    ∧ s.flag .QUE_CQ_SETUP_IRQ_EN 1023 = false ∧ bit (d.w 0) 17 = decide (w0 ≠ 5) := by decide
/-- A response to a write of the record that a ring is writing. -/
theorem wit_ring_performed : ∀ x ∈ [(Owner.fring, false), (.ering, false), (.fring, true), (.ering, true)],
    let w : RingWrite := ⟨0x4780, 15, [9], x.2, 3⟩
    let s := (asked .wrp x.1).setRing x.1 (some w)
    s.hostByTag 1 0xFFF = some ⟨9, 1, 0xFFF, .wrp, 64, 8, x.1, some (1023, 7, 0), .waiting, [], false, false⟩ ∧ s.chl.later = []
    ∧ s.ringWriting x.1 = some w ∧ s.ringStopped x.1 = false ∧ s.hostDead w.addr = false
    ∧ s.f .XLT_FAULTS_COUNT + 1 < 2 ^ 64 := by decide
theorem wit_host_response_types : ∀ ty ∈ [0x30, 0x20, 0x22], Msg.type (BitVec.ofNat 128 (Msg.header ty 0xFFF 0)).toNat = ty
    ∧ Msg.tag (BitVec.ofNat 128 (Msg.header ty 0xFFF 0)).toNat = 0xFFF := by decide

/-- Port 1 after SEQ 1,023, with these SEQ unacknowledged and replays made. -/
def linked (unacked : List Nat) (replays : Nat) : State :=
  (hosted []).modPort 1 fun p => { p with unacked := unacked, replays := replays }
theorem wit_flits : ∀ x ∈ [(0, false), (1, true), (1023, true), (2 ^ 20 + 6 * 2 ^ 10, true), (2 ^ 21 + 8 * 2 ^ 10, true)],
    let s := linked [5, 6, 7] 7
    let h := (BitVec.ofNat 32 x.1).toNat
    s.portUp 1 = true ∧ (s.port 1).queue = [] ∧ (h % 2 ^ 10 = ((s.port 1).rxSeq + 1) % 1024 ↔ h % 2 ^ 10 = 0)
    ∧ (bit h 20 = true → (s.port 1).unacked = [5] ++ [h / 2 ^ 10 % 2 ^ 10] ++ [7] ∧ bit h 21 = false ∧ h / 2 ^ 10 % 2 ^ 10 ∉ [5])
    ∧ (bit h 21 = true → h / 2 ^ 10 % 2 ^ 10 ∉ (s.port 1).unacked ∧ (s.port 1).replays = 7) := by decide
theorem wit_retrain : (withFields .reset [(.CHL_PORT_STATUS_STATE, 1, 4)]).f .CHL_PORT_STATUS_STATE 1 = 4
    ∧ (hosted []).portUp 1 = true ∧ ((hosted []).port 1).queue = [] := by decide
theorem wit_snoop_timeout : let s := snooping false true false
    let s := { s with chl := { s.chl with reqs := [⟨9, 1, 0, .rds, 64, 8, .group 831 63, none, .waiting, [], false, false⟩] } }
    (∃ x ∈ s.chl.snoops, x.port = 1) ∧ s.chl.waiting = [] ∧ s.fab.heldPeers = [] ∧ (s.chl.reqs.map (·.id)).Nodup
    ∧ (∀ r ∈ s.chl.reqs, r.port = 1 → r.status = .waiting → r.owner = .group 831 63) := by decide

/-! ### The Kyolor fabric -/

/-- Part 0 of a ring of three, its direction 0 on link 35, which is up, the transport running or not. -/
def ring (on : Nat) (reqs : List FabReq) : State :=
  withFields (withStacks { serving [{ desc 1 [] with stage := .started, items := [⟨.running, 0, false, 0, 0, [], []⟩] }] with
      fab := { Fab.reset with reqs := reqs } })
    [(.FAB_DIM_SIZE, 0, 3), (.FAB_DIM_WRAP, 0, 1), (.FAB_DIR_LINKS, 0, 2 ^ 35), (.FAB_DIR_LINKS, 1, 2 ^ 34), (.FAB_STATUS_RUNNING, 0, on),
     (.FAB_LINK_STATUS_STATE, 35, 3), (.FAB_LINK_STATUS_STATE, 34, 3)]

/-- A request packet of part 2. -/
def pkOf (ty addr len op : Nat) (wide : Bool) (data : List Byte) : Packet := Pk.make (Pk.header ty 0 2 0x3FFF addr len op wide) data

theorem wit_peer : ∀ x ∈ [(1, 192, 64, 0, false), (1, 255, 1, 0, false), (1, 0, 256, 0, false), (2, 63, 193, 0, false), (2, 0, 256, 0, false),
      (3, 252, 1, 9, false), (3, 248, 1, 0, true)],
    let a := 2 ^ 37 - 256 + x.2.1
    let c := 2 ^ 37 - 256 + x.2.1
    let n := if x.1 = 3 then (if x.2.2.2.2 then 8 else 4) else x.2.2.1
    let h := (pkOf x.1 a x.2.2.1 x.2.2.2.1 x.2.2.2.2 []).hdr.toNat
    PeerReaches (ring 1 []) x.1 h c n ∧ (x.1 ≠ 3 → Pk.len h = n) ∧ (if Pk.wide h then 8 else 4) = (if x.2.2.2.2 then 8 else 4)
    ∧ (ring 1 []).eye (c / 64) = false := by
  intro x hx a c n h
  refine ⟨⟨?_, ?_, ?_, ?_, ?_, ?_, ?_, 1, ?_, ?_⟩, ?_, ?_, ?_⟩
  all_goals revert x; decide
theorem wit_peer_refused : ∀ on ∈ [0, 1], ∀ ty ∈ [1, 2, 3], let s := ring on []
    let long := (pkOf ty 2 256 0 false []).hdr.toNat
    let far := (pkOf ty (2 ^ 41 - 256) 1 0 false []).hdr.toNat
    s.fabOn = (on == 1) ∧ s.fab.heldPeers = [] ∧ s.route 2 = some 1 ∧ s.dirAlive 1 = true
    ∧ Pk.type long = ty ∧ Pk.source long = 2 ∧ s.endpoint = 0 ∧ Pk.requestOk long = false
    ∧ Pk.type far = ty ∧ Pk.source far = 2 ∧ Pk.requestOk far = true ∧ s.cellOf (Pk.addr far) = none
    ∧ s.f .FAB_UNROUTABLE_COUNT + 1 < 2 ^ 64 ∧ s.f .FAB_RX_FAILED_COUNT + 1 < 2 ^ 64 := by decide

/-- A request to part 2, the oldest of its flow, and one sent after it. -/
def sentReq (id ty entry : Nat) (o : Owner) : FabReq :=
  ⟨id, 3, entry, 3, 2, pkOf ty 0 64 0 false [], o, some (1023, 7, 0), some 0, true, false, .waiting, [], false⟩
def answer (ty entry code : Nat) : Nat := (Pk.make (Pk.header ty 0 2 (entry + 3 * 4096) 0 (code := code))).hdr.toNat
theorem wit_fabric_response : ∀ x ∈ [(1, 8), (2, 9), (3, 9), (2, 10), (3, 10)], ∀ code ∈ [0, 3],
    let r := sentReq 1 x.1 4095 (.group 831 63)
    let s := ring 1 [r, sentReq 2 1 4094 (.store 831 [])]
    s.fabOn = true ∧ (∀ y ∈ s.fab.reqs, y.sent = true) ∧ (s.fab.reqs.map (·.id)).Nodup ∧ Pk.type r.pk.hdr.toNat = x.1
    ∧ s.matchFab (answer x.2 4095 (if x.2 = 10 then code else 0)) = some r
    ∧ Pk.type (answer x.2 4095 (if x.2 = 10 then code else 0)) = x.2
    ∧ (∀ y ∈ s.fab.reqs, y.acked = false)
    ∧ (x.1 = 1 → s.fab.reqs.filter (fun y => y.dest == r.dest && (Pk.type y.pk.hdr.toNat != 2 && Pk.type y.pk.hdr.toNat != 3))
        = r :: [sentReq 2 1 4094 (.store 831 [])])
    ∧ s.matchFab (answer 8 4094 0) = some (sentReq 2 1 4094 (.store 831 [])) ∧ s.matchFab (answer x.2 0 0) = none
    ∧ s.f .FAB_LATE_RESPONSES_COUNT + 1 < 2 ^ 64 := by decide
theorem wit_dead : let r := sentReq 1 2 4095 (.group 831 63)
    (ring 1 [r]).fab.reqs.find? (fun r => r.sent && r.io == 3 && r.entry == 4095 && r.status == .waiting && !r.acked) = some r := by decide

/-- The last link, in a state, with failed attempts. -/
def linkIn (st attempts enable : Nat) : State :=
  withFields { State.reset with fab := { Fab.reset with links := [(35, { Link.reset with attempts := attempts, spareOk := true })] } }
    [(.FAB_LINK_STATUS_STATE, 35, st), (.FAB_LINK_CTRL_ENABLE, 35, enable)]
theorem wit_links : ∀ x ∈ [(0, 0, 0), (1, 0, 1), (2, 0, 1), (3, 0, 1), (4, 2, 1), (4, 3, 1)], let s := linkIn x.1 x.2.1 x.2.2
    s.variant.hasLink 35 = true ∧ s.fab.queue = [] ∧ s.linkState 35 = x.1 ∧ (s.link 35).unacked = [] ∧ (s.link 35).attempts = x.2.1
    ∧ s.power.vcblOff.get false (35 / 4) = false ∧ (x.1 = 1 → s.flag .FAB_LINK_CTRL_ENABLE 35 = true) := by decide

/-- Frames after SEQ 4,095 whose CRC fails, or that bring no packet, with an acknowledgement and without one. -/
def framed (unacked : List (Nat × Packet)) (tx rx : LaneDir) : State :=
  let s := linkIn 3 0 1
  { s with fab := { s.fab with links := [(35, { Link.reset with unacked := unacked, spareOk := true, tx := tx, rx := rx })] } }
def calm : LaneDir := ⟨none, none, [], [], []⟩
theorem wit_frames : ∀ x ∈ [(0, true), (2 ^ 24 + 6 * 2 ^ 12, true), (4095, false)],
    let s := framed [(5, Pk.make 0), (6, Pk.make 0), (7, Pk.make 0)] calm calm
    let h := (BitVec.ofNat 32 x.1).toNat
    let k := s.link 35
    s.linkState 35 = 3 ∧ s.fab.queue = [] ∧ (x.2 = true → h % 2 ^ 12 = (k.rxSeq + 1) % 4096) ∧ bit h 25 = false ∧ h / 2 ^ 26 % 4 = 0
    ∧ (bit h 24 = true → k.unacked.map (·.1) = [5] ++ [h / 2 ^ 12 % 2 ^ 12] ++ (k.unacked.map (·.1)).drop 2
        ∧ h / 2 ^ 12 % 2 ^ 12 ∉ [5]) := by decide
theorem wit_link_lanes : let s := framed [] calm calm
    s.linkState 35 = 3 ∧ s.fab.queue = [] ∧ (s.link 35).rx = calm ∧ (s.link 35).tx = calm ∧ (s.link 35).spareOk = true
    ∧ (s.link 35).unacked = [] ∧ 2 ^ s.f .FAB_SETUP_SPARE_LOG2 < 2 ^ 16 + 1
    ∧ ((framed [] calm { calm with lost := [3] }).link 35).rx.lost = [3]
    ∧ ((framed [] calm { calm with spared := some 3 }).link 35).rx.spared = some 3
    ∧ ((framed [] { calm with bad := [3] } calm).link 35).tx.bad = [3] := by decide

/-- A fabric of 256 × 256 × 3 parts; a link named twice. -/
def shaped (sizes : List Nat) (l0 l1 : Nat) : State :=
  withFields .reset ((sizes.mapIdx fun d n => (.FAB_DIM_SIZE, d, n)) ++ [(.FAB_DIR_LINKS, 0, l0), (.FAB_DIR_LINKS, 1, l1)])
theorem wit_fabric_setup : ∀ x ∈ [([256, 256, 3], 2 ^ 35, 2 ^ 34, true), ([3], 2 ^ 35, 2 ^ 35, false)],
    let s := shaped x.1 x.2.1 x.2.2.1
    let links := fun j => (List.range 36).filter fun l => bit (s.f .FAB_DIR_LINKS j) l
    s.flag .CLK_LOCK_SETUP_LOCK = false ∧ (s.partsN ≤ 262080) ∧ 2 < s.partsN
    ∧ (List.range 12).map links = [35] :: (if x.2.2.2 then [34] else [35]) :: rep 10 []
    ∧ s.variant.hasLink 34 = true ∧ s.variant.hasLink 35 = true ∧ 1 ≤ s.dims.length
    ∧ ∀ d ∈ List.range 6, s.dims.length ≤ d → s.f .FAB_DIM_SIZE d = 0 := by decide

/-- Routes from the last part of a 4 × 3 fabric, a ring in one dimension, a line in the other. -/
theorem wit_routes : ∀ dest, dest < 12 →
    let s := withFields .reset [(.FAB_DIM_SIZE, 0, 4), (.FAB_DIM_WRAP, 0, 1), (.FAB_DIM_SIZE, 1, 3), (.FAB_SETUP_ENDPOINT, 0, 11)]
    s.endpoint < s.partsN ∧ dest < s.partsN
    ∧ s.route dest = [some 0, some 0, some 1, some 3, some 0, some 0, some 1, some 3, some 0, some 0, some 1, none][dest]! := by decide

/-- Group 63 of a part, with LOCAL 2 of a chunk and child 2, and a local contribution to its last chunk. -/
def collective (local_ children chunks enable : Nat) (reqs : List FabReq) : State :=
  withFields (ring 1 reqs) [(.FAB_COLL_SETUP_LOCAL, 63, local_), (.FAB_COLL_SETUP_CHILDREN, 63, children), (.FAB_COLL_SETUP_CHUNKS, 63, chunks),
    (.FAB_COLL_SETUP_ROOT, 63, 1), (.FAB_COLL_CHILD_CHILD0, 252, 2), (.FAB_COLL_SETUP_ENABLE, 63, enable)]
theorem wit_collective_setup : ∀ x ∈ [(1, 0, 16384, true), (1, 0, 16385, false), (0, 0, 1, false), (1, 12, 1, true), (1, 13, 1, false)],
    let s := collective x.1 x.2.1 x.2.2.1 0 []
    s.flag .FAB_COLL_SETUP_ENABLE 63 = false
    ∧ decide (s.variant.hasIo (s.f .FAB_COLL_SETUP_IO_DIE 63) = true ∧ 1 ≤ s.f .FAB_COLL_SETUP_CHUNKS 63 ∧ s.f .FAB_COLL_SETUP_CHUNKS 63 ≤ 16384
      ∧ s.f .FAB_COLL_SETUP_LOCAL 63 + s.f .FAB_COLL_SETUP_CHILDREN 63 ≠ 0 ∧ s.f .FAB_COLL_SETUP_CHILDREN 63 ≤ 12
      ∧ s.flag .FAB_COLL_SETUP_ROOT 63 = true ∧ 128 * s.f .FAB_COLL_SETUP_CHUNKS 63 ≤ 8 * 2 ^ 20) = x.2.2.2 := by decide
def contribution (addr : Nat) : FabReq :=
  { sentReq 1 1 0 (.store 831 []) with dest := 0x3FFC0 + 63, pk := pkOf 1 addr 64 0 false (rep 64 1), sent := false }
theorem wit_contribution : ∀ x ∈ [(2 ^ 20 + 64 * 16383, true), (64 * 16383 + 32, false), (2 ^ 21, false)],
    let r := contribution x.1
    let s := collective 2 1 16384 1 [r]
    s.fab.reqs.find? (fun r => r.dest == 0x3FFC0 + 63 && r.status == .waiting && Pk.addr r.pk.hdr.toNat == x.1 && r.pk.data == rep 64 1) = some r
    ∧ r.owner = .store 831 [] ∧ Pk.type r.pk.hdr.toNat = 1 ∧ (rep 64 (1 : Byte)).length = 64 ∧ r.sent = false
    ∧ decide (s.flag .FAB_COLL_SETUP_ENABLE 63 = true ∧ x.1 < 2 ^ 21 ∧ x.1 % 64 = 0 ∧ x.1 % 2 ^ 20 / 64 < s.f .FAB_COLL_SETUP_CHUNKS 63) = x.2
    ∧ ((s.round 63 (bit x.1 20)).chunks.get .reset (x.1 % 2 ^ 20 / 64)).parts = [] ∧ 0 + 1 < s.f .FAB_COLL_SETUP_LOCAL 63 := by decide
theorem wit_cput : ∀ round ∈ [1, 2], let s := collective 2 1 16384 1 []
    let h := (Pk.make (Pk.header 4 0 2 0 (2 ^ 20 + 64 * 16383 + round * 2 ^ 21) 64 (coll := 63))).hdr.toNat
    Pk.type h = 4 ∧ Pk.requestOk h = true ∧ Pk.code h = 0 ∧ s.fabOn = true ∧ Pk.source h ≠ s.endpoint ∧ s.route (Pk.source h) = some 1
    ∧ s.dirAlive 1 = true ∧ s.flag .FAB_COLL_SETUP_ENABLE (Pk.coll h) = true ∧ Pk.len h = 64 ∧ Pk.addr h % 64 = 0
    ∧ Pk.addr h % 2 ^ 20 / 64 < s.f .FAB_COLL_SETUP_CHUNKS (Pk.coll h) ∧ Pk.source h ∈ s.collChildren (Pk.coll h)
    ∧ decide (Pk.addr h / 2 ^ 21 = s.openRound (Pk.coll h) (bit (Pk.addr h) 20) % 2 ^ 20) = (round == 1) := by decide
theorem wit_round_timeout : let s := { collective 2 1 1 1 [] with fab := { Fab.reset with odd := [(63, { Round.reset with opened := true })] } }
    (s.round 63 true).opened = true ∧ (s.round 63 true).cause = 0 := by decide

/-- A round of one chunk, written. -/
def written : State :=
  let s := collective 2 0 1 1 []
  { s with fab := { Fab.reset with even := [(63, { Round.reset with opened := true, chunks := [(0, ⟨[], some (rep 64 1), true⟩)] })] } }
theorem wit_round_complete : written.flag .FAB_COLL_SETUP_ENABLE 63 = true ∧ written.f .FAB_COLL_ROUND_ROUND 63 % 2 = 0
    ∧ (∀ k x, (written.round 63 false).chunks.get .reset k = x → (x.result ≠ none ∨ k < written.f .FAB_COLL_SETUP_CHUNKS 63) → x.written = true)
    ∧ written.chl.snoops = [] ∧ written.cellOf 128 = some 128 ∧ written.serves 128 = true ∧ (∀ l ∈ written.aliases 128, written.filterAt l = none) := by
  refine ⟨by decide, by decide, ?_, by decide, by decide, by decide, by decide⟩
  rintro k x rfl hx
  match k with
  | 0 => rfl
  | n + 1 =>
    rcases hx with h | h
    · exact absurd rfl h
    · exact absurd h (by have : written.f .FAB_COLL_SETUP_CHUNKS 63 = 1 := by decide
                         omega)

/-! ### Firmware, sideband, health, power, registers, JTAG -/

/-- The part after the hardware start, with these values in register fields. -/
def started (l : List (Fld × Nat × Nat)) : State := withFields { State.reset with power := { Power.reset with resetN := false, start := .running } } l

/-- A mailbox command of the boot ROM in progress, with these argument words. -/
def mailbox (op : Nat) (args : List (Nat × Nat)) : State :=
  { started (args.map fun x => (.SEC_MBX_DATA_DATA, x.1, x.2)) with sec := { Sec.reset with busy := some op } }

/-- LOAD: each condition of R353 and R354, broken and kept. -/
theorem wit_load : ∀ x ∈ [(Variant.dnq880, [(0, 22)], true, false, false), (.dnq880, [(0, 21), (2, 32)], true, false, false),
      (.dnq220, [(0, 21)], false, true, false), (.dnq880, [(0, 9)], false, false, true), (.dnq880, [(0, 21), (4, 64)], false, false, false)],
    let s := { mailbox 1 x.2.1 with fuses := { Fuses.reset with variant := x.1 } }
    let i := s.secArg 0 % 32
    s.running = true ∧ s.sec.busy = some 1 ∧ s.sec.dirty = false ∧ s.sec.staging = none
    ∧ decide (21 < i ∨ (s.secArg 2 + s.secArg 3 * 2 ^ 32) % 64 ≠ 0) = x.2.2.1
    ∧ (x.2.2.1 = false → s.procPresent i = !x.2.2.2.1)
    ∧ decide (2 ≤ i ∧ i < 10 ∧ ∃ d ∈ List.range s.variant.dies, s.procRunning (10 + d) = false) = x.2.2.2.2 := by decide
theorem wit_load_reads : let s := withFields (mailbox 1 []) [(.CHL_PORT_STATUS_STATE, 0, 2), (.CHL_PORT_STATUS_STATE, 1, 2)]
    let s := (s.modPort 0 fun p => { p with reqEn := true }).modPort 1 fun p => { p with reqEn := true }
    s.fetchable 0 64 = true := by decide

/-- An unsigned image for processor 10, of one code line; one a byte short of a header. -/
def image : List Byte := wordBytes ([0xD1F7 + 2 ^ 16 + 4 * 2 ^ 24, 1, 0, 0, 64, 60] ++ rep 154 0 ++ rep 16 1)
theorem wit_image : ∀ x ∈ [(image, false), (rep 639 0, true)],
    let s := { mailbox 1 [(0, 10)] with sec := { Sec.reset with busy := some 1, staging := some x.1 } }
    let i := s.secArg 0 % 32
    let kind := if i = 0 then 1 else if i = 1 then 2 else if i < 10 then 3 else if i < 18 then 4 else 5
    let word := fun w => fromLE ((x.1.drop (4 * w)).take 4)
    s.sec.busy = some 1 ∧ s.sec.dirty = false ∧ i < 22 ∧ s.f .SEC_LOADS_COUNT + 1 < 2 ^ 64 ∧ s.f .SEC_REJECTS_COUNT + 1 < 2 ^ 64
    ∧ s.sec.log.length < 1024 ∧ word 3 % 2 = 0
    ∧ decide (x.1.length < 640 ∨ word 0 ≠ 0xD1F7 + 2 ^ 16 + kind * 2 ^ 24 ∨ word 1 = 0 ∨ 1 < word 3
      ∨ (∃ w ∈ List.range 160, ((6 ≤ w ∧ w < 16) ∨ (145 ≤ w ∧ w < 160)) ∧ word w ≠ 0) ∨ word 4 % 64 ≠ 0 ∨ word 4 < 64
      ∨ 262144 < word 4 ∨ word 5 % 4 ≠ 0 ∨ word 4 ≤ word 5 ∨ x.1.length ≠ 640 + word 4) = x.2 := by decide

/-- The other commands: READ_LOG and READ_CHAIN at the ends of what there is, EXTEND of MR 7 and 15, the fuses, the watchdog. -/
theorem wit_mailbox : ∀ op ∈ [2, 3, 4, 5, 6], (mailbox op []).running = true ∧ (mailbox op []).sec.busy = some op
    ∧ (mailbox op []).sec.dirty = false ∧ (mailbox op []).f .SEC_REPORTS_COUNT + 1 < 2 ^ 64
    ∧ ∀ e ∈ { (mailbox op []).sec with log := rep 32 (rep 128 0) }.log, e.length = 128 := by decide
theorem wit_mailbox_args : ((mailbox 3 [(1, 32)]).secArg 0 + (mailbox 3 [(1, 32)]).secArg 1 = (rep 32 (rep 128 (0 : Byte))).length)
    ∧ (mailbox 3 [(1, 33)]).secArg 1 = 33 ∧ (mailbox 4 [(1, 4097)]).secArg 1 = 4097 ∧ (mailbox 5 [(0, 7)]).secArg 0 % 16 = 7
    ∧ (mailbox 5 [(0, 15)]).secArg 0 % 16 = 15 ∧ (mailbox 6 [(0, 2), (1, 0x5EC0F05E)]).secArg 1 = 0x5EC0F05E
    ∧ (started [(.SEC_STATUS_CHAIN_VALID, 0, 1)]).flag .SEC_STATUS_CHAIN_VALID = true := by decide
theorem wit_watchdog : let s := started [(.SEC_PROC_STATUS_STATE, 21, 2), (.SEC_SETUP_WDOG_LOG2, 0, 20)]
    s.procRunning 21 = true ∧ s.f .SEC_SETUP_WDOG_LOG2 ≠ 0 ∧ s.f .SEC_WATCHDOGS_COUNT + 1 < 2 ^ 64 := by decide

/-- SPDM requests to a connection whose algorithms are negotiated, its chain of four bytes. -/
def sideband : State :=
  { started [(.SEC_PROC_STATUS_STATE, 0, 2), (.SEC_PROC_STATUS_STATE, 1, 2), (.SEC_STATUS_CHAIN_VALID, 0, 1)] with
    sec := { Sec.reset with spdmVersion := true, spdmCaps := true, spdmAlgs := true, chain := [1, 2, 3, 4] } }
theorem wit_spdm : sideband.running = true ∧ sideband.procRunning 0 = true ∧ (started []).procRunning 0 = false
    ∧ sideband.sec.spdmVersion = true ∧ sideband.sec.spdmCaps = true ∧ sideband.sec.spdmAlgs = true
    ∧ sideband.flag .SEC_STATUS_CHAIN_VALID = true ∧ sideband.sec.chain ≠ [] ∧ sideband.f .SEC_REPORTS_COUNT + 1 < 2 ^ 64
    ∧ byteAt (bytesOf [0x10, 0x84, 0, 0]) 1 = 0x84 ∧ byteAt (bytesOf [0x10, 0x84, 0, 0]) 0 = 0x10
    ∧ (∀ c ∈ [0xE1, 0xE3, 0x81, 0x82, 0x83, 0xE0, 0xFF], byteAt (bytesOf [0x12, c, 0, 0xFF]) 1 = c
        ∧ byteAt (bytesOf [0x12, c, 0, 0xFF]) 0 = 0x12 ∧ byteAt (bytesOf [0x12, c, 0, 0xFF]) 2 = 0
        ∧ byteAt (bytesOf [0x12, c, 0, 0xFF]) 3 = 0xFF)
    ∧ fieldAt (bytesOf [0x12, 0x82, 0, 0, 3, 0, 0, 0]) 4 2 < sideband.sec.chain.length
    ∧ (let q := bytesOf [0x12, 0xE3, 0, 0, 32, 0, 1, 0, 0x20, 0, 0, 0, 4, 0, 0, 0]
       bit (byteAt q 6) 0 = true ∧ bit (fieldAt q 8 4) 5 = true ∧ bit (fieldAt q 12 4) 2 = true)
    ∧ (let q := bytesOf [0x12, 0xE3, 0, 0, 32, 0, 1, 0, 0, 0, 0, 0, 4, 0, 0, 0]
       bit (fieldAt q 8 4) 5 = false) := by decide
theorem wit_mctp : ∀ x ∈ [[0x80, 1, 0, 1], [0x80, 1, 1, 254], [0x80, 1, 0, 0], [0x80, 1, 0, 255], [0x80, 2], [0x80, 4, 255], [0x80, 4, 5], [0x80, 5]],
    byteAt (bytesOf x) 1 = x[1]! ∧ sideband.sec.eid < 256 ∧ sideband.procRunning 0 = true
    ∧ (x[1]! = 1 → byteAt (bytesOf x) 2 % 4 < 2 ∧ byteAt (bytesOf x) 3 = x[3]!)
    ∧ (x[1]! = 4 → byteAt (bytesOf x) 2 ∈ [255, 0, 1, 5]) := by decide
theorem wit_pldm : sideband.running = true ∧ sideband.procRunning 1 = true ∧ sideband.mgt.tid < 256
    ∧ (∀ x ∈ [(0, 1), (0, 2), (0, 3), (0, 4), (0, 5), (2, 0x11), (2, 0x21), (2, 0x50), (2, 0x51), (63, 0)],
        byteAt (bytesOf [0x80, x.1, x.2, 254]) 1 % 64 = x.1 ∧ byteAt (bytesOf [0x80, x.1, x.2, 254]) 2 = x.2
        ∧ byteAt (bytesOf [0x80, x.1, x.2, 254]) 3 = 254)
    ∧ (sideband.reading 0x17F).2 < 2 ∧ fieldAt (bytesOf [0x80, 2, 0x11, 0x7F, 1]) 3 2 = 0x17F
    ∧ fieldAt (bytesOf [0x80, 2, 0x21, 0, 5]) 3 2 = 0x0500
    ∧ fieldAt (bytesOf [0x80, 2, 0x51, 0, 1, 0, 0, 0, 0, 0, 0, 0, 105, 0]) 12 2 = 105 := by decide
theorem wit_pldm_waits : let s := sideband.setF .SEC_PROC_STATUS_STATE 1 3
    s.running = true ∧ s.f .SEC_PROC_STATUS_STATE 1 = 3 ∧ byteAt (bytesOf [0x80, 63, 0]) 1 % 64 = 63 ∧ byteAt (bytesOf [0x80, 63, 0]) 2 = 0 := by decide
theorem wit_pdr : ∃ before rest, sideband.pdrIds = before ++ 0x0500 :: rest ∧ 0x0500 ∉ before :=
  ⟨sideband.pdrIds.dropLast, [], by decide, by decide⟩

/-- The management mailbox: readings, the log, a nomination. -/
def managed (op : Nat) (args : List (Nat × Nat)) : State :=
  { withFields (started [(.SEC_PROC_STATUS_STATE, 1, 2), (.MGT_STATUS_LOG_READY, 0, 1)]) (args.map fun x => (.MGT_MBX_DATA_DATA, x.1, x.2)) with
    mgt := { Mgt.reset with busy := some op } }
theorem wit_management_mailbox : ∀ x ∈ [(1, [(0, 0xFFFF), (1, 256)]), (1, [(1, 257)]), (2, []), (3, [(1, 15)]), (3, [(1, 16)])],
    let s := managed x.1 x.2
    s.procRunning 1 = true ∧ s.mgt.dirty = false ∧ s.mgt.busy = some x.1 ∧ s.flag .MGT_STATUS_LOG_READY = true
    ∧ s.oldestSeq ≤ s.mgtArg 0 := by decide
theorem wit_log_range : let r : LogRec := ⟨1, false, false, 9, 0, 0, 0, 9, []⟩
    let s := managed 3 [(1, 1), (0, 8)]
    let s := { s with mgt := { s.mgt with flash := [(0, some r)], head := 1, seq := 10 } }
    s.mgtArg 0 < s.oldestSeq ∧ s.oldestSeq < 2 ^ 31 := by decide
theorem wit_nominate : let s := managed 4 [(0, 7 + 95 * 8)]
    s.mgt.busy = some 4 ∧ s.variant.hasDie (s.mgtArg 0 % 8) = true ∧ s.mgtArg 0 / 8 % 128 = 95 ∧ (s.localOf (s.physOf 7 95)).isSome = true
    ∧ (∀ x ∈ s.mgt.nominees, x.p ≠ s.physOf 7 95) ∧ s.physOf 7 95 / 104 = 7 ∧ (managed 4 [(0, 96 * 8)]).mgtArg 0 / 8 % 128 = 96
    ∧ Variant.dnq220.hasDie ((managed 4 [(0, 2)]).mgtArg 0 % 8) = false := by decide

/-- Sensors of the last dies and the last rail; a die whose evaluation finds no cause, and one hotter than the throttle. -/
theorem wit_sensors : Variant.dnq880.hasDie 7 = true ∧ Variant.dnq880.hasIo 3 = true ∧ Variant.dnq880.hasRail 22 = true
    ∧ (managed 0 []).procRunning 1 = true := by decide
def evaluated (v : Int) (quiet : Nat) : State :=
  { started [(.SEC_PROC_STATUS_STATE, 17, 2)] with
    mgt := { Mgt.reset with sensors := [(0x100 + 16 * 7, ⟨v, false, 0⟩)] },
    dies := [(7, { Die.reset with level := 200, quiet := quiet })] }
theorem wit_evaluation : ∀ x ∈ [((300 : Int), 0), (300, 9), (400, 0)], let s := evaluated x.1 x.2
    let throttle : Int := s.f .MGT_SETUP_DIE_THROTTLE_C
    s.variant.hasDie 7 = true ∧ s.procRunning 17 = true ∧ 200 ≤ s.f .MGT_LIMITS_MCLK_CEILING ∧ s.inputPower = some 0 ∧ s.dieTemp 7 = some x.1
    ∧ (s.dieReadings 7).length = 16 ∧ s.mgt.unreadMs < 10 ∧ (s.die 7).quiet = x.2 ∧ (s.die 7).level + 50 ≤ s.f .MGT_LIMITS_MCLK_CEILING
    ∧ (∀ k ∈ [14, 15], s.flag .HBM_STATUS_TRIPPED k = false ∧ s.f .HBM_STATUS_LEVEL k < 2)
    ∧ decide (throttle * 4 ≤ x.1) = decide (x.1 = 400) ∧ (x.1 = 300 → x.1 + 12 ≤ throttle * 4) := by decide
theorem wit_fast_limit : State.reset.flag .MGT_STATUS_FAST_LIMIT = false ∧ State.reset.f .MGT_FAST_LIMITS_COUNT + 1 < 2 ^ 64 := by decide

/-- The log: a repair record behind another, the last place of the flash; a sector without repairs; a warning. -/
def logging : State :=
  let s := managed 0 []
  { s with mgt := { s.mgt with busy := none, head := 524031, seq := 2 ^ 32 - 1,
                               queue := [⟨2, false, false, 0, 0, 0, 0, 0, []⟩, ⟨8, true, false, 0, 0, 0, 0, 0, []⟩] } }
theorem wit_log : logging.procRunning 1 = true ∧ logging.flag .MGT_STATUS_LOG_READY = true ∧ logging.mgt.flash.get none logging.mgt.head = none
    ∧ logging.mgt.queue = [⟨2, false, false, 0, 0, 0, 0, 0, []⟩] ++ ⟨8, true, false, 0, 0, 0, 0, 0, []⟩ :: [] ∧ logging.mgt.held = []
    ∧ logging.mgt.dropped = 0 ∧ logging.f .MGT_LOG_RECORDS_COUNT + 1 < 2 ^ 64 ∧ logging.flag .MGT_STATUS_POWER_WARN = false
    ∧ (logging.mgt.head / 256 + 1) % 2047 = 0 ∧ logging.carriedNext.length < logging.headRoom ∧ logging.mgt.flash = [] ∧ logging.power.pwrGood = true
    ∧ logging.f .MGT_POWER_WARNINGS_COUNT + 1 < 2 ^ 64 := by decide

/-- A die at its quiesce with one nomination, with and without a reserve tile. -/
def moulting (retired : List Nat) : State :=
  { started [(.SEC_PROC_STATUS_STATE, 17, 2), (.MGT_MOULT_CTRL_QUIESCE, 0, 128), (.SEC_PROC_STATUS_STATE, 1, 2), (.MGT_STATUS_LOG_READY, 0, 1)] with
    mgt := { Mgt.reset with nominees := [⟨728, 4⟩], repair := { Repair.reset with retired := retired.map fun p => (p, true) } } }
theorem wit_moult : ∀ x ∈ [([], 8), ((List.range 8).map (824 + ·), 0)], let s := moulting x.1
    s.running = true ∧ s.procRunning 17 = true ∧ bit (s.f .MGT_MOULT_CTRL_QUIESCE) 7 = true ∧ s.nomineesOf 7 = [⟨728, 4⟩]
    ∧ s.localOf 728 = some 0 ∧ (s.reserve 7).length = x.2 ∧ s.f .MGT_MOULTS_COUNT + 1 < 2 ^ 64 ∧ s.procRunning 1 = true
    ∧ s.flag .MGT_STATUS_LOG_READY = true ∧ s.stacksOpen 7 = false ∧ s.repairs = [] := by decide
theorem wit_moult_quiet : ∀ p, (moulting []).tileQuiet p = true := fun _ => rfl

/-- Resets of the running part, in reset, and without REF; the last clock with a PLL; a key with each part wrong. -/
theorem wit_part_reset : let s := started []
    s.power.pwrGood = true ∧ s.running = true ∧ ({ s with power := { s.power with resetPending := true } } : State).power.resetPending = true
    ∧ State.reset.power.resetAt ≠ some State.reset.time
    ∧ (let r := s.resetPart 5 25 361; r.power.start = .inReset ∧ r.power.resetAt = some r.time ∧ r.f .CLK_RESET_CAUSE_CAUSE = 5)
    ∧ domainOf 361 = 25 ∧ hasPll 25 = true ∧ s.variant.hasClock 25 (361 - domainBase 25) = true ∧ State.reset.power.start = .inReset
    ∧ ({ s with power := { s.power with start := .refLost } } : State).power.start = .refLost := by decide
theorem wit_hardware_start : State.reset.power.start = .inReset ∧ State.reset.sec.log = [] ∧ State.reset.f .SEC_LOG_COUNT_COUNT = 0
    ∧ State.reset.chl = .reset ∧ (∀ n ∈ [1, 2], ({ State.reset with power := { Power.reset with lockFailures := [(361, n)] } } : State).power.lockFailures.get 0 361 = n)
    ∧ (withFields .reset [(.CHL_PORT_STATUS_STATE, 1, 1)]).f .CHL_PORT_STATUS_STATE 1 = 1
    ∧ ((withFields .reset [(.CHL_PORT_STATUS_STATE, 1, 3)]).modPort 1 fun p => { p with recoveries := 2 }).f .CHL_PORT_STATUS_STATE 1 = 3
    ∧ (((withFields .reset []).modPort 1 fun p => { p with recoveries := 2 }).port 1).recoveries < 3 := by decide
def unpowered (conv : Bool) : State := { State.reset with power := { Power.reset with pwrEn := false, converters := conv, pwrGood := false } }
theorem wit_power : State.reset.power.pwrEn = true ∧ (unpowered false).power.pwrEn = false ∧ (unpowered true).power.converters = true
    ∧ (unpowered true).power.pwrGood = false ∧ State.reset.power.pwrGood = true ∧ State.reset.power.vin = true ∧ 8 < State.reset.variant.connectors
    ∧ ({ logging with mgt := { logging.mgt with shutdown := some (1, 7, -160) } } : State).mgt.shutdown = some (1, 7, -160) := by decide

/-- A register message of port 0, whose register window is at 2^26. -/
def windowed : State :=
  (withFields (started [(.CHL_PORT_STATUS_STATE, 0, 2), (.CHL_PORT_STATUS_STATE, 1, 2)]) []).modPort 0 fun p => { p with regEn := true, regBase := 2 ^ 26 }
def regHdr (ty o n : Nat) (cfg : Bool) : Nat := (BitVec.ofNat 128 (Msg.header ty 0xFFF o n (cfg := cfg))).toNat
theorem wit_register_message : ∀ ty ∈ [0x38, 0x39], ∀ x ∈ [(Reg.GLB_IDENTITY.info.off + 1, 4), (Reg.QUE_SQ_BASE.info.off + 64 * 1023, 4), (2 ^ 26 - 8, 8),
      (Reg.MGT_SETUP.info.off, 4), (Reg.QUE_SQ_BASE.info.off + 64 * 1023, 8)],
    let h := regHdr ty (2 ^ 26 + x.1) x.2 false
    windowed.portUp 0 = true ∧ State.regMsgOk ty h = true ∧ Msg.cfg h = false ∧ Msg.poison h = false ∧ Msg.length h = x.2
    ∧ windowed.windowOffset 0 (Msg.addr h) = some x.1 := by decide
theorem wit_register_found : regAt (Reg.QUE_SQ_BASE.info.off + 64 * 1023) = some (.QUE_SQ_BASE, 1023) ∧ Reg.QUE_SQ_BASE.info.bytes = 8
    ∧ regAt (2 ^ 26 - 8) = none ∧ regAt (2 ^ 26 - 4) = none ∧ regAt Reg.MGT_SETUP.info.off = some (.MGT_SETUP, 0)
    ∧ windowed.regPresent .QUE_SQ_BASE 1023 = true ∧ windowed.writeHeld .QUE_SQ_BASE 1023 = false ∧ Reg.QUE_SQ_BASE ∉ actingRegs
    ∧ (∀ x ∈ Reg.QUE_SQ_BASE.fields, (windowed.fieldValue x 1023).isSome = true)
    ∧ ({ windowed with fuses := { Fuses.reset with variant := .dnq220 } } : State).regPresent .HBM_SETUP 15 = false
    ∧ regAt (Reg.HBM_SETUP.info.off + 15 * (Reg.HBM_SETUP.info.dims.headD (0, 0)).2) = some (.HBM_SETUP, 15) := by decide

/-- The link configuration space, what lies outside the window, and a reserved field. -/
theorem wit_link_configuration : (∀ x ∈ [(8, 8), (16, 8), (24, 4), (0, 4)], ∀ ty ∈ [0x38, 0x39], let h := regHdr ty x.1 x.2 true
      State.regMsgOk ty h = true ∧ Msg.cfg h = true ∧ Msg.addr h = x.1 ∧ Msg.length h = x.2)
    ∧ windowed.portUp 1 = true ∧ windowed.portUp 0 = true
    ∧ Msg.addr (regHdr 0x38 (2 ^ 27) 4 false) / 2 ^ 26 * 2 ^ 26 ≠ (windowed.port 0).regBase ∧ State.regMsgOk 0x38 (regHdr 0x38 0 5 false) = false
    ∧ State.regMsgOk 0x39 (regHdr 0x39 0 5 false) = false := by decide
theorem wit_jtag : State.reset.power.pwrGood = true ∧ State.reset.running = false ∧ windowed.running = true
    ∧ (BitVec.ofNat 98 (2 ^ 97)).getLsbD 97 = true ∧ (BitVec.ofNat 98 (2 ^ 64)).toNat / 2 ^ 64 % 2 ^ 32 % 4 ≠ 0 := by decide

theorem wit_step : ({ State.reset with pending := [.tapReset] } : State).pending = .tapReset :: [] ∧ State.reset.pending = []
    ∧ State.reset.power.pwrGood = true ∧ State.reset.power.start ≠ .refLost ∧ State.reset.time + 1 < 2 ^ 64
    ∧ (unpowered true).pending = [] ∧ (unpowered true).power.pwrGood = false := by decide
theorem wit_canonical : ∃ t, State.reset.canonical ∧ step { State.reset with pending := [.tapReset] } = .next t :=
  ⟨_, ⟨by decide, by decide, by decide⟩, rfl⟩

theorem wit_codec_round_trip : ∀ width ∈ [4, 8], (width = 4 ∨ width = 8) ∧ (rep 64 (0xA5 : Byte)).length = 64 * 1
    ∧ (rep 64 (0xA5 : Byte)).length < 2 ^ 32 := by decide
theorem wit_collective_elements : [rep 64 (0xFF : Byte), rep 64 1] ≠ [] ∧ (∀ d ∈ [rep 64 (0xFF : Byte), rep 64 1], d.length = 64) ∧ 15 < 16 := by
  decide

/-! ### Ill-formed commands are refused, one for each check -/

theorem refused_tile : (Instr.haltReq 832).wf = false ∧ (Instr.haltReq 831).wf = true := by decide
theorem refused_group : (Instr.groupNoProgress 0 64).wf = false ∧ (Instr.groupNoProgress 0 63).wf = true := by decide
theorem refused_way : (Instr.wayDisable 0 8).wf = false ∧ (Instr.l1ErrorWindowEnd 0 8).wf = false ∧ (Instr.loadReturn 0 0 0 8).wf = false := by decide
theorem refused_die : (Instr.quiesce 8).wf = false ∧ (Instr.quiesce 7).wf = true := by decide
theorem refused_link : (Instr.linkEnable 36).wf = false ∧ (Instr.linkEnable 35).wf = true := by decide
theorem refused_lane : (Instr.laneLockLoss 0 true 5).wf = false ∧ (Instr.laneLockLoss 0 true 4).wf = true := by decide
theorem refused_port : (Instr.chlPortRetrain 2).wf = false ∧ (Instr.chlPortRetrain 1).wf = true := by decide
theorem refused_context : (Instr.openCtx 64).wf = false ∧ (Instr.openCtx 63).wf = true := by decide
theorem refused_queue : (Instr.sqEnable 1024).wf = false ∧ (Instr.abort 0 [(1024, 0)]).wf = false := by decide
theorem refused_stack : (Instr.scrubRead 16 .none).wf = false ∧ (Instr.stackRead 15 (2 ^ 30) .none 0).wf = false
    ∧ (Instr.stackAtomic 0 4 0 true 0 0 .none).wf = false := by decide
theorem refused_processor : (Instr.watchdogExpiry 22).wf = false ∧ (Instr.watchdogExpiry 21).wf = true := by decide
theorem refused_rail : (Instr.railOutOfRegulation 23).wf = false ∧ (Instr.pmbusRead (.railCurrent 23) none).wf = false := by decide
theorem refused_slot : (Instr.fenceSignal 65536).wf = false ∧ (Instr.fenceSignal 65535).wf = true := by decide
theorem refused_line : (Instr.wrl 0 0 (rep 63 0)).wf = false ∧ (Instr.wrl 0 0 (rep 64 0)).wf = true := by decide
theorem refused_data : (Instr.wrp 0 0 (rep 65 0)).wf = false ∧ (Instr.put ⟨0, rep 257 0⟩).wf = false ∧ (Instr.put ⟨0, rep 256 0⟩).wf = true := by decide
theorem refused_host : (Instr.walkComplete 0 0 [(2 ^ 52, .failed)]).wf = false ∧ (Instr.walkComplete 0 0 [(2 ^ 52 - 1, .failed)]).wf = true
    ∧ (Instr.launch 0 0 [(2 ^ 64 + 2 ^ 59, .failed)]).wf = false := by decide
theorem refused_fetcher : (Instr.instructionFetchFill 0 (.group 64)).wf = false := by decide
theorem refused_waiter : (Instr.streamStallLimit 0 (.group 64) 0).wf = false := by decide
theorem refused_error : (Instr.storeBufferDrain 0 0 (.l1 8 false)).wf = false := by decide
theorem refused_host_line : (Instr.hostLineReread (.doorbell 1024) []).wf = false ∧ (Instr.hostLineReread (.cqConsumer 1024) []).wf = false := by decide
theorem refused_fence_waiter : (Instr.fenceWaitSatisfied (.tile 832)).wf = false ∧ (Instr.fenceWaitSatisfied (.descriptor 1024 0)).wf = false := by decide
theorem refused_barrier : (Instr.barrierPublicationReceive 0 (.barb 16)).wf = false := by decide
theorem refused_participant : (Instr.invalidationAck 0 (.tile 832)).wf = false ∧ (Instr.invalidationAck 0 (.codec 8)).wf = false := by decide
theorem refused_interrupt : (Instr.interruptHoldoffExpiry (.cq 1024)).wf = false := by decide
theorem refused_sensor : (Instr.dieSensorSample true 4 0 none).wf = false ∧ (Instr.dieSensorSample false 0 16 none).wf = false
    ∧ (Instr.dieSensorSample false 7 15 none).wf = true := by decide
theorem refused_entry : (Instr.destDeadTimeout 4 0).wf = false ∧ (Instr.destDeadTimeout 3 4096).wf = false := by decide
theorem refused_connector : (Instr.vcblOvercurrent 9).wf = false := by decide

/-! ### Values worked out in the spec, or by hand from its words -/

/-- R8's and R9's worked addresses: GLB_POWERED_TIME, CTX_STATUS of context 3, and the window of physical tile 537. -/
theorem test_register_addresses : regAt 0x100 = some (.GLB_POWERED_TIME, 0) ∧ regAt 0x20304 = some (.CTX_STATUS, 3)
    ∧ (0x419000 - 0x200000) / 0x1000 = 104 * 5 + 17 ∧ regAt 0x11080 = some (.CLK_COUNT, 16) := by decide

/-- The worked decode of 09_context_memory.md: die-local 0x00A1_2345_6780 is stack 10, offset 0x91A2_B780, and aliases
0x0109_1A2B_A780. -/
theorem test_worked_decode : let s := withFields .reset ((List.range 16).map fun k => (.HBM_STATUS_STATE, k, 1))
    s.cellOf 0x00A123456780 = some (10 * 2 ^ 36 + 0x91A2B780) ∧ s.cellOf 0x01091A2BA780 = some (10 * 2 ^ 36 + 0x91A2B780)
    ∧ (State.rowOf ((10 * 2 ^ 36 + 0x91A2B780) / 64)).1 = 9 := by decide

/-- The hops of 13_kyolor_fabric.md on the reference torus from 0x1_39D1 to 0x1_41A3, and the first hop of the ACK back. -/
def hopFrom (e : Nat) : State :=
  withFields .reset ([10, 10, 10, 10, 5, 5].mapIdx (fun d n => (.FAB_DIM_SIZE, d, n)) ++ (List.range 6).map (fun d => (.FAB_DIM_WRAP, d, 1))
    ++ [(.FAB_SETUP_ENDPOINT, 0, e)])
theorem test_worked_route : State.coords (hopFrom 0).dims 0x139D1 = [7, 3, 3, 0, 3, 1] ∧ State.coords (hopFrom 0).dims 0x141A3 = [9, 3, 3, 2, 3, 1]
    ∧ [0x139D1, 0x139D2, 0x139D3, 0x13DBB].map (fun e => (hopFrom e).route 0x141A3) = [some 0, some 0, some 6, some 6]
    ∧ (hopFrom 0x141A3).route 0x139D1 = some 1 := by decide

/-- 07_hexist_encodings.md, "Worked encoding": the MSTR of the split reduction may be pushed; with bit 31 of word 1 set it is
illegal; its fields read as the table gives them. -/
theorem test_worked_encoding : let raw := 0x01604845 + 0x00010005 * 2 ^ 32 + 0x020D0003 * 2 ^ 64 + 0x00000064 * 2 ^ 96
    engineOk 1 raw = true ∧ engineOk 1 (raw + 2 ^ 63) = false
    ∧ toLE 16 raw = [0x45, 0x48, 0x60, 0x01, 0x05, 0x00, 0x01, 0x00, 0x03, 0x00, 0x0D, 0x02, 0x64, 0x00, 0x00, 0x00]
    ∧ (let e : Entry := ⟨raw, 0, [], 1⟩; e.op = 4 ∧ e.wait = some ⟨4, 1, true⟩ ∧ e.signal = some (5, 1)) := by decide

/-- 05_number_formats.md: UINT4 codes with zero point 8 and s = 2^−3 expand to E4M3: 0x3 to 0xB2, 0xF to 0x36, 0 to −1.0. -/
theorem test_worked_expansion : expand 2 2 5 [] (0x3E000000 + 8 * 2 ^ 32) 3 = 0xB2 ∧ expand 2 2 5 [] (0x3E000000 + 8 * 2 ^ 32) 15 = 0x36
    ∧ expand 2 2 5 [] (0x3E000000 + 8 * 2 ^ 32) 0 = 0xB8 ∧ expand 2 2 5 [] (0x3E000000 + 8 * 2 ^ 32) 8 = 0 := by decide

/-- R157: CRC-32C of the nine ASCII digits is 0xE306_9283, the check value of the polynomial the rule names. -/
theorem test_crc32c : crc32c ([0x31, 0x32, 0x33, 0x34, 0x35, 0x36, 0x37, 0x38, 0x39].map (BitVec.ofNat 8)) = 0xE3069283 := by decide

/-- R158: a block of equal nibbles codes to its tag alone. The worked block of INT4 values from −2 to 1 takes the flip, its
codes become 6 to 9, and it costs 33 B. -/
theorem test_code_block : codeBlock 4 (rep 64 0x11) = [0x01] ∧ (codeBlock 4 (0xFE :: 0x10 :: rep 62 0)).length = 33
    ∧ (codeBlock 4 (0xFE :: 0x10 :: rep 62 0)).head? = some (BitVec.ofNat 8 (6 + 2 * 2 ^ 4 + 2 ^ 7)) := by decide

/-- Q-register arithmetic wraps at 2^64 (R165), and QSRA keeps the sign. -/
def scalarR (op : Nat) (a b : Nat) : State :=
  let w := (ScalarR.mk 0 3 1 2 0 0).word op
  on (running .thr { slotOn with q := [(1, a), (2, b)] } (toLE 8 w))
def qAfter (o : Out) (r : Nat) : Option W64 :=
  match o with
  | .next t => some (t.qreg 5 0 r)
  | _ => none
theorem test_qadd_wraps : qAfter (exec (.qadd 5 .thr ⟨0, 3, 1, 2, 0, 0⟩) (scalarR 3 0xFFFFFFFFFFFFFFFF 2)) 3 = some 1 := by decide
theorem test_qsub_wraps : qAfter (exec (.qsub 5 .thr ⟨0, 3, 1, 2, 0, 0⟩) (scalarR 4 1 2)) 3 = some 0xFFFFFFFFFFFFFFFF := by decide

/-- Thread arithmetic (R184): lane 31 after one instruction of class 0 with A in v1 and B in v2, D being v3. -/
def threadAt (cls op : Nat) (f : ThreadFields) (a b : Nat) : State :=
  on (withGroup { grp with v := [(32 * 1 + 31, a), (32 * 2 + 31, b)] } (toLE 8 (f.word cls op)))
def laneAfter (o : Out) (r : Nat) : Option W32 :=
  match o with
  | .next t => ((t.tile 5).group? 63).map fun x => x.vreg r 31
  | _ => none
def abc : ThreadFields := ⟨3, 1, 0, 2, 0, 0⟩
theorem test_add_wraps : laneAfter (exec (.add 5 63 abc) (threadAt 0 2 abc 0xFFFFFFFF 2)) 3 = some 1 := by decide
theorem test_mulhi : laneAfter (exec (.mulhi 5 63 abc) (threadAt 0 5 abc 0xFFFFFFFF 2)) 3 = some 0xFFFFFFFF := by decide
theorem test_mulhiu : laneAfter (exec (.mulhiu 5 63 abc) (threadAt 0 6 abc 0xFFFFFFFF 2)) 3 = some 1 := by decide

/-- FADD rounds to nearest, ties to even (R130): 1 + 2^−24 is 1, 1 + 3 × 2^−24 is 1 + 2^−22; FMUL of 0 and ∞ is the
canonical NaN. -/
theorem test_fadd_tie : laneAfter (exec (.fadd 5 63 abc) (threadAt 1 1 abc 0x3F800000 0x33800000)) 3 = some 0x3F800000
    ∧ laneAfter (exec (.fadd 5 63 abc) (threadAt 1 1 abc 0x3F800000 0x34400000)) 3 = some 0x3F800002 := by decide
theorem test_fmul_nan : laneAfter (exec (.fmul 5 63 abc) (threadAt 1 3 abc 0 0x7F800000)) 3 = some 0x7FC00000 := by decide

/-- A fence takes the larger of its value and the signal's, which is counted as a regression when it is the smaller (R217). -/
theorem test_fence_regress : ∀ x ∈ [(8, 8, 0), (6, 7, 1)],
    (match exec (.fenceSignal 5) { State.reset with fences := [(5, 7)], fenceQueue := [⟨5, x.1, 0, 0, none⟩] } with
     | .next t => (t.fences.get 0 5, t.f .FEN_REGRESS_COUNT) == (x.2.1, x.2.2)
     | _ => false) = true := by decide

/-- IDCODE of a DNQ-880 of stepping 0 (R428): 0x0088_076B. -/
theorem test_idcode : (match exec .idcode .reset with
    | .next t => t.jtag.captured
    | _ => 0) = 0x0088076B := by decide

/-- A PUT that keeps R335 and R338, answered; here of one byte, which leaves its neighbours alone. -/
theorem test_put_one_byte : (match exec (.put (pkOf 1 255 1 0 false [0xAB])) (ring 1 []) with
    | .next t => t.memBytes 254 3
    | _ => []) = [0, 0xAB, 0] := by decide

/-- A write of ones to a W1C flag clears it, of zeros leaves it (R10, R11); a locked field keeps its value (R412). -/
theorem test_w1c : ∀ x ∈ [((1 : Nat), 0), (0, 1)], (match exec (.registerAccess (BitVec.ofNat 98 (x.1 + (Reg.GLB_COUNTER_WRAP.info.off) * 2 ^ 64 + 2 ^ 97)))
      (started [(.GLB_COUNTER_WRAP_ACCESS_WRAPPED, 0, 1)]) with
    | .next t => t.f .GLB_COUNTER_WRAP_ACCESS_WRAPPED
    | _ => 2) = x.2 := by decide

/-- START of an OPEN context, and OPEN of a LIVE one, which the table of R265 does not list. -/
theorem test_context_actions : ∀ x ∈ [(Instr.start 63, 1, 2), (.openCtx 63, 2, 2)], (match exec x.1 (ctxIn x.2.1) with
    | .next t => t.ctxState 63
    | _ => 9) = x.2.2 := by decide
end Sys2Proof.Tests
end

section
/-!
PROOF. Every step keeps the canonical form of part memory, eyespots and register fields (R11, R223, R230).

Three operations alone change these maps: a field write (`setF`), a store of bytes (`putBytes`) and the mark of a line
(`setEye`); a reset builds the field map anew. Each of them keeps the form. Every other operation of the model is built from
these, from updates of other components of State and from loops, so each has one lemma, in the order of the model, that
cites the lemmas of the operations it calls; `grind` goes through the branches of the operation. The arms of `exec` then
cite these lemmas.
-/
namespace Sys2Proof.Machine

/-! ### The map of register fields -/

theorem Reg.mem_all (r : Reg) : r ∈ Reg.all := by cases r <;> decide

theorem Fld.mem_fields (x : Fld) : x ∈ x.info.reg.fields := by cases x <;> decide

theorem Fld.mem_all (x : Fld) : x ∈ Fld.all := List.mem_flatMap.mpr ⟨_, Reg.mem_all _, x.mem_fields⟩

theorem Fld.idx_lt (x : Fld) : x.idx < 1024 := by cases x <;> decide

theorem fieldEntry_key {x : Fld} {v : Nat} (i : Nat) (hr : v ≠ x.info.reset) (hw : v < 2 ^ x.width) :
    fieldEntry (State.key x i) v = true := by
  have hx : State.key x i % 1024 = x.idx := by
    have := x.idx_lt
    simp only [State.key]
    omega
  rw [fieldEntry, List.any_eq_true]
  exact ⟨x, x.mem_all, by simp [hx, hr, hw]⟩

/-- A put of a value within the field's width keeps the form: the reset value is not entered. -/
theorem putField_wf {m : FMap Nat} (h : FMap.wfBy fieldEntry 0 m = true) (x : Fld) (i : Nat) {v : Nat}
    (hw : v < 2 ^ x.width) : FMap.wfBy fieldEntry 0 (m.put x.info.reset (State.key x i) v) = true := by
  have he := FMap.wfBy_erase fieldEntry (State.key x i) 0 h
  unfold FMap.put
  split
  · exact he
  · next hr => exact FMap.wfBy_insert _ _ _ _ (fieldEntry_key i hr hw) (Nat.zero_le _) he (FMap.erase_ne m _)

/-- TDP, the one field value that a reset enters, is an entry of POWER_LIMIT. -/
theorem tdp_lt (v : Variant) : v.tdp < 2 ^ Fld.MGT_LIMITS_POWER_LIMIT.width := by cases v <;> decide

theorem tdp_ne_reset (v : Variant) : v.tdp ≠ Fld.MGT_LIMITS_POWER_LIMIT.info.reset := by cases v <;> decide

/-- The next state of an answer, if it has one, is canonical. -/
def LeavesCanonical : Out → Prop
  | .next t => t.canonical
  | _ => True

namespace State

variable {s : State}

/-! ### What changes the three maps -/

theorem setF_canonical (h : s.canonical) (x i v) : (s.setF x i v).canonical :=
  ⟨h.1, h.2.1, putField_wf h.2.2 x i (Nat.mod_lt _ (Nat.two_pow_pos _))⟩

theorem putBytes_canonical (h : s.canonical) (c bs) : (s.putBytes c bs).canonical := ⟨s.putBytes_memory_wf c bs h.1, h.2⟩

theorem setEye_canonical (h : s.canonical) (l b) : (s.setEye l b).canonical := ⟨h.1, s.setEye_eyes_wf l b h.2.1, h.2.2⟩

theorem resetFields_wf (v : Variant) : FMap.wfBy fieldEntry 0 (resetFields v) = true := by
  simpa [resetFields, FMap.wfBy] using fieldEntry_key (x := .MGT_LIMITS_POWER_LIMIT) 0 (tdp_ne_reset v) (tdp_lt v)

theorem keptFields_wf (h : s.canonical) : FMap.wfBy fieldEntry 0 s.keptFields = true :=
  putField_wf (FMap.wfBy_filter _ _ _ h.2.2) .MGT_LIMITS_POWER_LIMIT 0 (tdp_lt _)

/-! ### What leaves them alone, branches and loops -/

/-- A state that differs in other components only. -/
theorem canonical_with (h : s.canonical) (fu st hb ti di iv cp ch fa se mg po jt i3 ro fe fq tm ni fi pe) :
    (State.mk fu st s.fields s.mem s.eyes hb ti di iv cp ch fa se mg po jt i3 ro fe fq tm ni fi pe).canonical := h

theorem ite_canonical {c : Prop} [Decidable c] {t u : State} (ht : t.canonical) (hu : u.canonical) :
    (if c then t else u).canonical := by
  split
  exacts [ht, hu]

theorem foldl_canonical {α : Type} {f : State → α → State} (hf : ∀ s a, s.canonical → (f s a).canonical) (l : List α)
    (h : s.canonical) : (l.foldl f s).canonical := by
  induction l generalizing s with
  | nil => exact h
  | cons a l ih => exact ih (hf s a h)

/-- A loop that carries a result beside the state. -/
theorem foldl_fst_canonical {α β : Type} {f : State × β → α → State × β}
    (hf : ∀ x a, x.1.canonical → (f x a).1.canonical) (l : List α) {x : State × β} (h : x.1.canonical) :
    (l.foldl f x).1.canonical := by
  induction l generalizing x with
  | nil => exact h
  | cons a l ih => exact ih (hf x a h)

theorem forEach_canonical {α : Type} (h : s.canonical) (l : List α) (g) (hg : ∀ s x, s.canonical → (g s x).canonical) :
    (s.forEach l g).canonical := foldl_canonical hg l h

/-! ### Shared operations: fields, units, records, messages, interrupts, host requests -/

theorem setFlag_canonical (h : s.canonical) (x i b) : (s.setFlag x i b).canonical :=
  setF_canonical h ..

theorem orBit_canonical (h : s.canonical) (x i n) : (s.orBit x i n).canonical := setF_canonical h ..

theorem bump_canonical (h : s.canonical) (c i n) : (s.bump c i n).canonical := by
  grind [bump, setF_canonical, orBit_canonical]

theorem bumpSat_canonical (h : s.canonical) (c i n) : (s.bumpSat c i n).canonical :=
  setF_canonical h ..

theorem setTile_canonical (h : s.canonical) (p t) : (s.setTile p t).canonical := h

theorem modTile_canonical (h : s.canonical) (p g) : (s.modTile p g).canonical := setTile_canonical h ..

theorem modDie_canonical (h : s.canonical) (d g) : (s.modDie d g).canonical := h

theorem modStack_canonical (h : s.canonical) (k g) : (s.modStack k g).canonical := h

theorem modPort_canonical (h : s.canonical) (k g) : (s.modPort k g).canonical := h

theorem modLink_canonical (h : s.canonical) (k g) : (s.modLink k g).canonical := h

theorem modMgt_canonical (h : s.canonical) (g) : (s.modMgt g).canonical := h

theorem modCp_canonical (h : s.canonical) (g) : (s.modCp g).canonical := h

theorem free_canonical (h : s.canonical) : s.free.2.canonical := by grind [free, canonical_with]

theorem choose_canonical (h : s.canonical) : s.choose.2.canonical := by grind [choose, canonical_with]

theorem freeList_canonical (h : s.canonical) (w n) : (s.freeList w n).2.canonical := by
  induction n generalizing s with
  | zero => exact h
  | succ n ih => exact ih (free_canonical h)

theorem mailboxResults_canonical (h : s.canonical) (dirty results status) :
    (s.mailboxResults dirty results status).2.2.canonical := by
  grind [mailboxResults, free_canonical, freeList_canonical]

theorem fresh_canonical (h : s.canonical) : s.fresh.2.canonical := by grind [fresh, canonical_with]

theorem when_canonical (h : s.canonical) (b g) (hb : ∀ s : State, s.canonical → (g s).canonical) :
    (s.when b g).canonical := by
  grind [when]

theorem log_canonical (h : s.canonical) (kind repair source body) : (s.log kind repair source body).canonical := by
  grind [log, modMgt_canonical, bump_canonical]

theorem errRec_canonical (h : s.canonical) (kind ctx words) : (s.errRec kind ctx words).canonical := by
  grind [errRec, modCp_canonical, bump_canonical]

theorem flushPort_canonical (h : s.canonical) (k) : (s.flushPort k).canonical := by
  grind [flushPort, modPort_canonical]

theorem sendMsg_canonical (h : s.canonical) (k c hdr data) : (s.sendMsg k c hdr data).canonical := by
  grind [sendMsg, flushPort_canonical, modPort_canonical]

theorem raise_canonical (h : s.canonical) (v) : (s.raise v).canonical := by
  grind [raise, setFlag_canonical, sendMsg_canonical]

theorem raisePending_canonical (h : s.canonical) (v) : (s.raisePending v).canonical := by
  grind [raisePending, when_canonical, raise_canonical]

theorem raiseHeld_canonical (h : s.canonical) (src v holdoff) : (s.raiseHeld src v holdoff).canonical := by
  grind [raiseHeld, raise_canonical, modCp_canonical]

theorem raiseFab_canonical (h : s.canonical) : s.raiseFab.canonical := raiseHeld_canonical h ..

theorem modDesc_canonical (h : s.canonical) (q n g) : (s.modDesc q n g).canonical :=
  modCp_canonical h ..

theorem failItem_canonical (h : s.canonical) (q n i code) : (s.failItem q n i code).canonical :=
  modDesc_canonical h ..

theorem failAt_canonical (h : s.canonical) (it code) : (s.failAt it code).canonical := by
  unfold failAt
  grind [failItem_canonical]

theorem sendTagged_canonical (h : s.canonical) (id k c tag hdr data) :
    (s.sendTagged id k c tag hdr data).canonical := by
  grind [sendTagged, sendMsg_canonical, canonical_with]

theorem sendLater_canonical (h : s.canonical) (k c) : (s.sendLater k c).canonical := by
  grind [sendLater, sendMsg_canonical, canonical_with]

theorem hostReq_canonical (h : s.canonical) (kind addr len data op wide owner item poison) :
    (s.hostReq kind addr len data op wide owner item poison).canonical := by
  grind [hostReq, failAt_canonical, sendTagged_canonical, canonical_with]

theorem hostWrite_canonical (h : s.canonical) (addr data owner item) :
    (s.hostWrite addr data owner item).canonical := by
  grind [hostWrite, hostReq_canonical]

/-! ### Part memory and the snoop filter (09, 12 R312, R313) -/

theorem countAbsent_canonical (h : s.canonical) (d) : (s.countAbsent d).canonical := by
  unfold countAbsent
  grind [bumpSat_canonical, bump_canonical]

theorem rowCandidate_canonical (h : s.canonical) (k line cause) : (s.rowCandidate k line cause).canonical := by
  grind [rowCandidate, modStack_canonical, log_canonical]

theorem markLine_canonical (h : s.canonical) (line) : (s.markLine line).canonical := by
  grind [markLine, bump_canonical, setEye_canonical, setFlag_canonical, setF_canonical, rowCandidate_canonical,
    modDie_canonical]

theorem correctLine_canonical (h : s.canonical) (line) : (s.correctLine line).canonical := by
  grind [correctLine, bump_canonical, modStack_canonical, rowCandidate_canonical]

theorem meetErr_canonical (h : s.canonical) (line err) : (s.meetErr line err).canonical := by
  unfold meetErr
  grind [correctLine_canonical, markLine_canonical]

theorem readLine_canonical (h : s.canonical) (line err) : (s.readLine line err).1.canonical := by
  grind [readLine, meetErr_canonical, bump_canonical, when_canonical]

theorem writeLine_canonical (h : s.canonical) (line lo bs err) : (s.writeLine line lo bs err).canonical := by
  grind [writeLine, bump_canonical, putBytes_canonical, setEye_canonical, meetErr_canonical]

theorem writeMasked_canonical (h : s.canonical) (line mask bs err) : (s.writeMasked line mask bs err).canonical := by
  grind [writeMasked, writeLine_canonical, meetErr_canonical, bump_canonical, forEach_canonical, putBytes_canonical]

theorem atomicAt_canonical (h : s.canonical) (cell op wide a b err) :
    (s.atomicAt cell op wide a b err).1.canonical := by
  grind [atomicAt, readLine_canonical, putBytes_canonical, bump_canonical]

theorem physRead_canonical (h : s.canonical) (d pa n) : (s.physRead d pa n).s.canonical := by
  unfold physRead
  generalize partsOf pa n = l
  suffices hg : ∀ g : Got, g.s.canonical → (l.foldl _ g).s.canonical from hg _ h
  induction l with
  | nil => exact fun _ hg => hg
  | cons x l ih => exact fun g hg => ih _ (by grind [countAbsent_canonical, readLine_canonical])

theorem physWrite_canonical (h : s.canonical) (d pa bs) : (s.physWrite d pa bs).1.canonical := by
  unfold physWrite
  grind [countAbsent_canonical, writeLine_canonical, foldl_fst_canonical]

theorem setFilter_canonical (h : s.canonical) (line e) : (s.setFilter line e).canonical := h

theorem sendSnoop_canonical (h : s.canonical) (k line data evict owner) :
    (s.sendSnoop k line data evict owner).canonical :=
  canonical_with (sendTagged_canonical (bump_canonical h ..) ..) ..

theorem snoopBlockers_canonical (h : s.canonical) (bl from_ write) : (s.snoopBlockers bl from_ write).canonical := by
  grind [snoopBlockers, forEach_canonical, sendSnoop_canonical]

theorem mustWait_canonical (h : s.canonical) (pa n write) {t : State} (ht : s.mustWait pa n write = some t) :
    t.canonical := by
  grind [mustWait, snoopBlockers_canonical]

theorem snoopShared_canonical (h : s.canonical) (pa n owner) : (s.snoopShared pa n owner).canonical := by
  grind [snoopShared, forEach_canonical, sendSnoop_canonical]

theorem stackRead_canonical (h : s.canonical) (k line err odecc) : (s.stackRead k line err odecc).canonical := by
  grind [stackRead, readLine_canonical, bump_canonical, modStack_canonical]

theorem stackWrite_canonical (h : s.canonical) (k line mask bs err) :
    (s.stackWrite k line mask bs err).canonical := by
  grind [stackWrite, writeMasked_canonical]

theorem stackAtomic_canonical (h : s.canonical) (k off op wide a b err) :
    (s.stackAtomic k off op wide a b err).canonical := by
  grind [stackAtomic, atomicAt_canonical, modStack_canonical]

theorem scrubRead_canonical (h : s.canonical) (k err) : (s.scrubRead k err).canonical := by
  grind [scrubRead, meetErr_canonical, bump_canonical, modStack_canonical]

theorem setLevel_canonical (h : s.canonical) (d l ceiling cs) : (s.setLevel d l ceiling cs).canonical := by
  grind [setLevel, bump_canonical, modDie_canonical, log_canonical, modMgt_canonical]

theorem tripStack_canonical (h : s.canonical) (k) : (s.tripStack k).canonical := by
  grind [tripStack, setFlag_canonical, log_canonical, setLevel_canonical, modDie_canonical]

theorem untripStack_canonical (h : s.canonical) (k) : (s.untripStack k).canonical := by
  grind [untripStack, log_canonical, setFlag_canonical]

theorem stackTemperature_canonical (h : s.canonical) (k reading throttled) :
    (s.stackTemperature k reading throttled).canonical := by
  grind [stackTemperature, bump_canonical, modStack_canonical, tripStack_canonical, setFlag_canonical, setF_canonical,
    untripStack_canonical, modMgt_canonical]

theorem rowRemapComplete_canonical (h : s.canonical) (k bad) : (s.rowRemapComplete k bad).canonical := by
  grind [rowRemapComplete, forEach_canonical, markLine_canonical, modStack_canonical, when_canonical, setFlag_canonical,
    log_canonical]

theorem refetchFailed_canonical (h : s.canonical) (x outcome) : (s.refetchFailed x outcome).canonical :=
  log_canonical (bump_canonical h ..) ..

theorem readBack_canonical (h : s.canonical) (line) : (s.readBack line).canonical := by
  grind [readBack, choose_canonical, modDie_canonical, readLine_canonical]

theorem refetchEnd_canonical (h : s.canonical) (d x) : (s.refetchEnd d x).canonical := by
  grind [refetchEnd, modDie_canonical, refetchFailed_canonical, forEach_canonical, writeLine_canonical, readBack_canonical,
    log_canonical, bump_canonical]

theorem refetch_canonical (h : s.canonical) (d) : (s.refetch d).canonical := by
  grind [refetch, modDie_canonical, refetchEnd_canonical, forEach_canonical, hostReq_canonical]

/-! ### Fabric (13) -/

theorem sendOn_canonical (h : s.canonical) (j l p) : (s.sendOn j l p).canonical :=
  bump_canonical (modLink_canonical (canonical_with h ..) ..) ..

theorem queuePacket_canonical (h : s.canonical) (j p own) : (s.queuePacket j p own).canonical := h

theorem sendDir_canonical (h : s.canonical) (j p own) : (s.sendDir j p own).canonical := by
  grind [sendDir, bump_canonical, queuePacket_canonical, sendOn_canonical]

theorem flushFab_canonical (h : s.canonical) : s.flushFab.canonical := by
  grind [flushFab, forEach_canonical, sendDir_canonical, canonical_with]

theorem respond_canonical (h : s.canonical) (p) : (s.respond p).canonical := by grind [respond, sendDir_canonical]

theorem ctxDestDead_canonical (h : s.canonical) (ctx e) : (s.ctxDestDead ctx e).canonical := by
  unfold ctxDestDead
  grind [errRec_canonical, setF_canonical, setFlag_canonical]

theorem storeDead_canonical (h : s.canonical) (id e owner ctx) : (s.storeDead id e owner ctx).canonical := by
  unfold storeDead
  grind [modTile_canonical, ctxDestDead_canonical]

theorem dropFab_canonical (h : s.canonical) (r) : (s.dropFab r).canonical := h

theorem modRound_canonical (h : s.canonical) (g parity h0) : (s.modRound g parity h0).canonical := by
  grind [modRound, canonical_with]

theorem roundFail_canonical (h : s.canonical) (g parity cause) : (s.roundFail g parity cause).canonical :=
  modRound_canonical h ..

theorem failFab_canonical (h : s.canonical) (r code) : (s.failFab r code).canonical := by
  grind [failFab, when_canonical, failAt_canonical, storeDead_canonical, dropFab_canonical, roundFail_canonical, canonical_with]

theorem launchFab_canonical (h : s.canonical) (r) : (s.launchFab r).canonical := by
  grind [launchFab, bump_canonical, sendDir_canonical, canonical_with]

theorem startWaiting_canonical (h : s.canonical) : s.startWaiting.canonical := by
  grind [startWaiting, forEach_canonical, launchFab_canonical]

theorem declareDead_canonical (h : s.canonical) (e) : (s.declareDead e).canonical := by
  grind [declareDead, bump_canonical, orBit_canonical, forEach_canonical, failFab_canonical, log_canonical,
    startWaiting_canonical, when_canonical, raiseFab_canonical, canonical_with]

theorem fabReq_canonical (h : s.canonical) (type addr len data op wide dest owner item ctx coll code) :
    (s.fabReq type addr len data op wide dest owner item ctx coll code).canonical := by
  grind [fabReq, launchFab_canonical, failFab_canonical, declareDead_canonical, canonical_with]

theorem settlePuts_canonical (h : s.canonical) (dest) : (s.settlePuts dest).canonical := by
  grind [settlePuts, forEach_canonical, dropFab_canonical]

theorem fabResponse_canonical (h : s.canonical) (p) : (s.fabResponse p).canonical := by
  grind [fabResponse, bump_canonical, startWaiting_canonical, settlePuts_canonical, dropFab_canonical, failFab_canonical,
      canonical_with]

theorem peerResponse_canonical (h : s.canonical) (t p) : (s.peerResponse t p).canonical := by
  grind [peerResponse, bump_canonical, fabResponse_canonical]

theorem refusePeer_canonical (h : s.canonical) (h0 code) : (s.refusePeer h0 code).canonical :=
  respond_canonical h ..

theorem answer_canonical (h : s.canonical) (p) : (s.answer p).canonical := by
  grind [answer, fabResponse_canonical, respond_canonical]

theorem performPeer_canonical (h : s.canonical) (p) : (s.performPeer p).canonical := by
  unfold performPeer
  grind [bump_canonical, countAbsent_canonical, answer_canonical, snoopBlockers_canonical, physWrite_canonical,
    readLine_canonical, atomicAt_canonical, canonical_with, foldl_fst_canonical]

theorem peerRequest_canonical (h : s.canonical) (t p) : (s.peerRequest t p).canonical := by
  grind [peerRequest, bump_canonical, answer_canonical, performPeer_canonical, canonical_with]

theorem rerunPeers_canonical (h : s.canonical) : s.rerunPeers.canonical := by
  grind [rerunPeers, forEach_canonical, performPeer_canonical, canonical_with]

theorem linkOut_canonical (h : s.canonical) (l state cause) : (s.linkOut l state cause).canonical := by
  grind [linkOut, setF_canonical, modLink_canonical, bump_canonical, forEach_canonical, declareDead_canonical, when_canonical,
    log_canonical, setFlag_canonical, raiseFab_canonical, flushFab_canonical]

theorem linkRetrain_canonical (h : s.canonical) (l) : (s.linkRetrain l).canonical :=
  modLink_canonical (bump_canonical (setF_canonical h ..) ..) ..

theorem attemptFailed_canonical (h : s.canonical) (l) : (s.attemptFailed l).canonical := by
  grind [attemptFailed, linkOut_canonical, modLink_canonical]

theorem showSpares_canonical (h : s.canonical) (l) : (s.showSpares l).canonical :=
  setFlag_canonical (setF_canonical (setFlag_canonical h ..) ..) ..

theorem modDir_canonical (h : s.canonical) (l rx g) : (s.modDir l rx g).canonical :=
  modLink_canonical h ..

theorem laneFailing_canonical (h : s.canonical) (l rx lane) : (s.laneFailing l rx lane).canonical := by
  grind [laneFailing, linkOut_canonical, showSpares_canonical, modLink_canonical, modDir_canonical]

theorem spareDone_canonical (h : s.canonical) (l rx lane) : (s.spareDone l rx lane).canonical :=
  log_canonical (showSpares_canonical (modDir_canonical h ..) ..) ..

/-- The states of a link before training are numbers, so the cases are those of the number. -/
theorem linkTrained_canonical (h : s.canonical) (l result) : (s.linkTrained l result).canonical := by
  unfold linkTrained
  generalize s.linkState l = n, result.filter (fun _ => !s.power.vcblOff.get false (l / 4)) = r
  obtain _ | _ | _ | _ | _ | n := n <;> obtain _ | ⟨e, k, sp⟩ := r
  case succ.succ.zero.some =>
    exact flushFab_canonical (showSpares_canonical (setF_canonical (setF_canonical (modLink_canonical (setFlag_canonical
      (setF_canonical (setF_canonical h ..) ..) ..) _ _) ..) ..) ..)
  case succ.succ.zero.none => exact linkOut_canonical h ..
  case succ.succ.succ.succ.zero.some => exact flushFab_canonical (setF_canonical (modLink_canonical h _ _) ..)
  case succ.succ.succ.succ.zero.none => exact attemptFailed_canonical h ..
  all_goals exact h

theorem linkEnable_canonical (h : s.canonical) (l) : (s.linkEnable l).canonical := by
  grind [linkEnable, setFlag_canonical, setF_canonical]

theorem linkDisable_canonical (h : s.canonical) (l) : (s.linkDisable l).canonical := by
  grind [linkDisable, setFlag_canonical, linkOut_canonical]

theorem forward_canonical (h : s.canonical) (l p) : (s.forward l p).canonical := by
  grind [forward, bump_canonical, sendDir_canonical]

theorem frameReceive_canonical (h : s.canonical) (l fr) : (s.frameReceive l fr).canonical := by
  grind [frameReceive, forEach_canonical, bump_canonical, modLink_canonical, linkRetrain_canonical, spareDone_canonical,
    flushFab_canonical, forward_canonical]

theorem laneLockLoss_canonical (h : s.canonical) (l rx lane) : (s.laneLockLoss l rx lane).canonical := by
  grind [laneLockLoss, modDir_canonical, linkRetrain_canonical, laneFailing_canonical]

theorem fecWindowEnd_canonical (h : s.canonical) (l rx lane corrected uncorrectable) :
    (s.fecWindowEnd l rx lane corrected uncorrectable).canonical := by
  grind [fecWindowEnd, modDir_canonical, laneFailing_canonical]

theorem fabSetup_canonical (h : s.canonical) (v) : (s.fabSetup v).canonical := by
  grind [fabSetup, setF_canonical, setFlag_canonical]

theorem destDeadTimeout_canonical (h : s.canonical) (io entry) : (s.destDeadTimeout io entry).canonical := by
  grind [destDeadTimeout, declareDead_canonical]

theorem fabDeadClear_canonical (h : s.canonical) (e) : (s.fabDeadClear e).canonical := setF_canonical h ..

/-! ### Chautlink (12) -/

theorem dropHost_canonical (h : s.canonical) (r) : (s.dropHost r).canonical := h

theorem modHost_canonical (h : s.canonical) (r g) : (s.modHost r g).canonical := h

theorem refetchData_canonical (h : s.canonical) (d r bytes bad) : (s.refetchData d r bytes bad).canonical := by
  grind [refetchData, modDie_canonical, refetchEnd_canonical]

theorem raiseFaultIrq_canonical (h : s.canonical) : s.raiseFaultIrq.canonical := by
  grind [raiseFaultIrq, when_canonical, raiseHeld_canonical]

theorem ringFailed_canonical (h : s.canonical) (o) : (s.ringFailed o).canonical := by
  unfold ringFailed
  grind [errRec_canonical, setF_canonical, modCp_canonical, raiseFaultIrq_canonical, setFlag_canonical]

theorem recordPerformed_canonical (h : s.canonical) (cq) : (s.recordPerformed cq).canonical := by
  grind [recordPerformed, modCp_canonical, bump_canonical, setF_canonical, modDesc_canonical, when_canonical,
    raiseHeld_canonical]

theorem setRing_canonical (h : s.canonical) (o w) : (s.setRing o w).canonical := by
  unfold setRing
  grind [modCp_canonical]

theorem ringUndo_canonical (h : s.canonical) (o) : (s.ringUndo o).canonical := by
  grind [ringUndo, setRing_canonical, setF_canonical, forEach_canonical, modDie_canonical]

theorem ringRecorded_canonical (h : s.canonical) (o w) : (s.ringRecorded o w).canonical := by
  unfold ringRecorded
  grind [setRing_canonical, raiseFaultIrq_canonical, bump_canonical, when_canonical, modCp_canonical, raiseHeld_canonical]

theorem ringPerformed_canonical (h : s.canonical) (o id) : (s.ringPerformed o id).canonical := by
  grind [ringPerformed, setRing_canonical, ringRecorded_canonical, ringUndo_canonical, ringFailed_canonical,
    hostWrite_canonical]

theorem ringWriteFailed_canonical (h : s.canonical) (o id) : (s.ringWriteFailed o id).canonical := by
  grind [ringWriteFailed, ringFailed_canonical, when_canonical, ringUndo_canonical]

theorem hostDone_canonical (h : s.canonical) (r bytes poison) : (s.hostDone r bytes poison).canonical := by
  grind [hostDone, modHost_canonical, refetchData_canonical, dropHost_canonical, recordPerformed_canonical,
    ringPerformed_canonical]

theorem hostFailed_canonical (h : s.canonical) (r) : (s.hostFailed r).canonical := by
  grind [hostFailed, failAt_canonical, modHost_canonical, refetchData_canonical, dropHost_canonical, ringWriteFailed_canonical]

theorem hostResponse_canonical (h : s.canonical) (k type hdr data) : (s.hostResponse k type hdr data).canonical := by
  grind [hostResponse, sendLater_canonical, hostFailed_canonical, hostDone_canonical, canonical_with]

theorem completionTimeout_canonical (h : s.canonical) (k tag) : (s.completionTimeout k tag).canonical := by
  grind [completionTimeout, hostFailed_canonical, bump_canonical, canonical_with]

theorem nohome_canonical (h : s.canonical) (k hdr code) : (s.nohome k hdr code).canonical :=
  sendMsg_canonical (bump_canonical h ..) ..

theorem cmp_canonical (h : s.canonical) (k tag) : (s.cmp k tag).canonical := sendMsg_canonical h ..

theorem dataMsg_canonical (h : s.canonical) (k hdr bytes poison) : (s.dataMsg k hdr bytes poison).canonical :=
  sendMsg_canonical h ..

theorem grant_canonical (h : s.canonical) (k line own) : (s.grant k line own).canonical :=
  canonical_with (setFilter_canonical h ..) ..

theorem waitHost_canonical (h : s.canonical) (k m) : (s.waitHost k m).canonical := h

theorem hostAccess_canonical (h : s.canonical) (k t pa cell m) : (s.hostAccess k t pa cell m).canonical := by
  grind [hostAccess, readLine_canonical, dataMsg_canonical, grant_canonical, atomicAt_canonical, writeLine_canonical,
    setEye_canonical, cmp_canonical]

theorem hostServe_canonical (h : s.canonical) (t k m) : (s.hostServe t k m).canonical := by
  grind [hostServe, nohome_canonical, dataMsg_canonical, waitHost_canonical, snoopBlockers_canonical, forEach_canonical,
    sendSnoop_canonical, hostAccess_canonical, canonical_with]

theorem hostRequest_canonical (h : s.canonical) (t k m) : (s.hostRequest t k m).canonical := by
  grind [hostRequest, hostServe_canonical]

theorem rerun_canonical (h : s.canonical) : s.rerun.canonical := by
  grind [rerun, rerunPeers_canonical, forEach_canonical, hostServe_canonical, canonical_with]

theorem snoopSettled_canonical (h : s.canonical) (x) : (s.snoopSettled x).canonical := by
  grind [snoopSettled, sendLater_canonical, setFilter_canonical, when_canonical, bump_canonical, canonical_with]

theorem writeBack_canonical (h : s.canonical) (line data poison) : (s.writeBack line data poison).canonical := by
  grind [writeBack, when_canonical, writeLine_canonical, setEye_canonical]

theorem snoopAck_canonical (h : s.canonical) (k hdr) : (s.snoopAck k hdr).canonical := by
  grind [snoopAck, rerun_canonical, snoopSettled_canonical, canonical_with]

theorem snoopAckData_canonical (h : s.canonical) (k hdr data) : (s.snoopAckData k hdr data).canonical := by
  grind [snoopAckData, rerun_canonical, snoopSettled_canonical, writeBack_canonical]

theorem hostGivesUp_canonical (h : s.canonical) (t k m) : (s.hostGivesUp t k m).canonical := by
  grind [hostGivesUp, nohome_canonical, writeBack_canonical, setFilter_canonical, cmp_canonical, rerun_canonical,
    snoopSettled_canonical]

theorem raiseVia_canonical (h : s.canonical) (v k) : (s.raiseVia v k).canonical := by
  grind [raiseVia, setFlag_canonical, sendMsg_canonical]

theorem portFail_canonical (h : s.canonical) (k cause) : (s.portFail k cause).canonical := by
  grind [portFail, setF_canonical, forEach_canonical, hostFailed_canonical, modPort_canonical, setEye_canonical,
    setFilter_canonical, log_canonical, when_canonical, raiseVia_canonical, rerun_canonical, canonical_with]

theorem portRecover_canonical (h : s.canonical) (k) : (s.portRecover k).canonical :=
  modPort_canonical (bump_canonical (setF_canonical h ..) ..) ..

theorem portRetrain_canonical (h : s.canonical) (k) : (s.portRetrain k).canonical := by
  grind [portRetrain, portRecover_canonical, setF_canonical]

theorem portTrained_canonical (h : s.canonical) (k r) : (s.portTrained k r).canonical :=
  modPort_canonical (setF_canonical (setF_canonical (setFlag_canonical (setFlag_canonical (setFlag_canonical h ..) ..) ..) ..)
      ..) ..

theorem portTrainingComplete_canonical (h : s.canonical) (k result) :
    (s.portTrainingComplete k result).canonical := by
  unfold portTrainingComplete
  grind [portTrained_canonical, portFail_canonical, flushPort_canonical, modPort_canonical, setF_canonical]

theorem snoopTimeout_canonical (h : s.canonical) (k) : (s.snoopTimeout k).canonical := by
  grind [snoopTimeout, portFail_canonical]

theorem flitReceive_canonical (h : s.canonical) (k fl) : (s.flitReceive k fl).canonical := by
  grind [flitReceive, bump_canonical, modPort_canonical, portRecover_canonical, flushPort_canonical]

theorem creditReceive_canonical (h : s.canonical) (k c n) : (s.creditReceive k c n).canonical := by
  grind [creditReceive, flushPort_canonical, modPort_canonical]

theorem hostSnoop_canonical (h : s.canonical) (k hdr) : (s.hostSnoop k hdr).canonical := by
  grind [hostSnoop, modCp_canonical, sendMsg_canonical, canonical_with]

/-! ### Health, power and the management log (15) -/

theorem setSensor_canonical (h : s.canonical) (id x) : (s.setSensor id x).canonical :=
  modMgt_canonical h ..

theorem sample_canonical (h : s.canonical) (id v tries) : (s.sample id v tries).canonical := by
  unfold sample
  grind [when_canonical, setSensor_canonical, log_canonical]

theorem raiseMgt_canonical (h : s.canonical) (en) : (s.raiseMgt en).canonical := by
  grind [raiseMgt, when_canonical, raise_canonical]

theorem hardTrip_canonical (h : s.canonical) (d r) : (s.hardTrip d r).canonical := by
  grind [hardTrip, bump_canonical, modDie_canonical, log_canonical, setFlag_canonical, raiseMgt_canonical]

theorem beginShutdown_canonical (h : s.canonical) (cause unit r) : (s.beginShutdown cause unit r).canonical := by
  grind [beginShutdown, modMgt_canonical]

theorem dieSensor_canonical (h : s.canonical) (io d k reading) : (s.dieSensor io d k reading).canonical := by
  grind [dieSensor, sample_canonical, hardTrip_canonical, beginShutdown_canonical]

theorem pmbus_canonical (h : s.canonical) (x reading) : (s.pmbus x reading).canonical := by
  unfold pmbus
  grind [sample_canonical, modMgt_canonical]

theorem powerUnmet_canonical (h : s.canonical) (cs) : (s.powerUnmet cs).canonical := by
  grind [powerUnmet, modMgt_canonical, setFlag_canonical, raiseMgt_canonical, log_canonical]

theorem dieEvaluation_canonical (h : s.canonical) (d) : (s.dieEvaluation d).canonical := by
  grind [dieEvaluation, setF_canonical, setLevel_canonical, modDie_canonical, powerUnmet_canonical]

theorem fastLimit_canonical (h : s.canonical) : s.fastLimit.canonical := by
  grind [fastLimit, bump_canonical, setFlag_canonical]

theorem program_canonical (h : s.canonical) (r) : (s.program r).canonical := by
  grind [program, bump_canonical, modMgt_canonical]

theorem refill_canonical (h : s.canonical) : s.refill.canonical := by
  grind [refill, modMgt_canonical, log_canonical]

theorem eraseNext_canonical (h : s.canonical) : s.eraseNext.canonical := by
  grind [eraseNext, forEach_canonical, program_canonical, modMgt_canonical]

theorem logProgram_canonical (h : s.canonical) : s.logProgram.canonical := by
  grind [logProgram, refill_canonical, program_canonical, modMgt_canonical]

theorem sectorErase_canonical (h : s.canonical) : s.sectorErase.canonical := by
  grind [sectorErase, eraseNext_canonical]

theorem logStart_canonical (h : s.canonical) (pops) : (s.logStart pops).canonical := by
  grind [logStart, eraseNext_canonical, program_canonical, setFlag_canonical, modMgt_canonical]

theorem nominate_canonical (h : s.canonical) (p cause) : (s.nominate p cause).canonical := by
  grind [nominate, raiseMgt_canonical, log_canonical, modMgt_canonical]

theorem tileCorrected_canonical (h : s.canonical) (p) : (s.tileCorrected p).canonical := by
  grind [tileCorrected, modMgt_canonical, nominate_canonical]

theorem tileDetected_canonical (h : s.canonical) (p) : (s.tileDetected p).canonical :=
  nominate_canonical (failAt_canonical h ..) ..

theorem powerWarning_canonical (h : s.canonical) (mv) : (s.powerWarning mv).canonical := by
  grind [powerWarning, bump_canonical, setFlag_canonical, raiseMgt_canonical, program_canonical]

theorem mgtDone_canonical (h : s.canonical) (status results) : (s.mgtDone status results).canonical := by
  grind [mgtDone, mailboxResults_canonical, forEach_canonical, setF_canonical, setFlag_canonical, modMgt_canonical]

theorem sensorRead_canonical (h : s.canonical) : s.sensorRead.canonical := by grind [sensorRead, mgtDone_canonical]

theorem logInfo_canonical (h : s.canonical) : s.logInfo.canonical := by grind [logInfo, mgtDone_canonical]

theorem logRead_canonical (h : s.canonical) : s.logRead.canonical := by
  unfold logRead
  have hd := mgtDone_canonical h
  split
  · exact h
  · split
    · exact hd ..
    · dsimp only
      split
      · exact hd ..
      · split <;> exact hd ..

theorem moultNominate_canonical (h : s.canonical) : s.moultNominate.canonical := by
  grind [moultNominate, mgtDone_canonical, nominate_canonical]

/-! ### Address translation (10) -/

theorem walkRead_canonical (h : s.canonical) (d hs target a) : (s.walkRead d hs target a).1.canonical := by
  grind [walkRead, mustWait_canonical, physRead_canonical]

theorem s2Levels_canonical (h : s.canonical) (d hs table interleave acc ipa n target fuel level base) :
    (s2Levels d hs table interleave acc ipa n target fuel level base s).1.canonical := by
  fun_induction s2Levels d hs table interleave acc ipa n target fuel level base s <;> grind [walkRead_canonical,
    modDie_canonical]

theorem stage2_canonical (h : s.canonical) (d hs table interleave acc ipa) :
    (s.stage2 d hs table interleave acc ipa).1.canonical := by
  grind [stage2, s2Levels_canonical]

theorem s1Levels_canonical (h : s.canonical) (d hs ctx acc va n fuel level base) :
    (s1Levels d hs ctx acc va n fuel level base s).1.canonical := by
  fun_induction s1Levels d hs ctx acc va n fuel level base s <;> grind [walkRead_canonical, modDie_canonical, stage2_canonical]

theorem walk_canonical (h : s.canonical) (d hs ctx va acc) : (s.walk d hs ctx va acc).1.canonical := by
  grind [walk, s1Levels_canonical]

theorem raiseFault_canonical (h : s.canonical) (m f) : (s.raiseFault m f).canonical := by
  grind [raiseFault, bump_canonical, modDie_canonical]

theorem translate_canonical (h : s.canonical) (p m) : (s.translate p m).1.canonical := by
  grind [translate, bump_canonical, raiseFault_canonical, modTile_canonical]

theorem fillTile_canonical (h : s.canonical) (p e) : (s.fillTile p e).canonical := modTile_canonical h ..

theorem dropPage_canonical (h : s.canonical) (m) : (s.dropPage m).canonical := by
  grind [dropPage, modTile_canonical, modDie_canonical]

theorem walkRequest_canonical (h : s.canonical) (p) : (s.walkRequest p).canonical := by
  grind [walkRequest, modTile_canonical, modDie_canonical, bump_canonical]

theorem startWalk_canonical (h : s.canonical) (d) : (s.startWalk d).canonical := by
  grind [startWalk, bump_canonical, modDie_canonical]

theorem faultAllocate_canonical (h : s.canonical) (d waited) : (s.faultAllocate d waited).canonical := by
  grind [faultAllocate, bump_canonical, modDie_canonical, canonical_with]

/-! ### Queues, descriptors, items and objects (11) -/

theorem ringAddr_canonical (h : s.canonical) (d hs ipa acc) : (s.ringAddr d hs ipa acc).1.canonical := by
  grind [ringAddr, stage2_canonical]

theorem ringRead_canonical (h : s.canonical) (d hs ipa n) : (s.ringRead d hs ipa n).1.canonical := by
  grind [ringRead, ringAddr_canonical]

theorem vFault_canonical (h : s.canonical) (who d ctx va acc e) : (s.vFault who d ctx va acc e).canonical := by
  grind [vFault, raiseFault_canonical]

theorem vRead_canonical (h : s.canonical) (who d ctx va n hs) : (s.vRead who d ctx va n hs).1.canonical := by
  grind [vRead, walk_canonical, vFault_canonical, mustWait_canonical, physRead_canonical]

theorem vWrite_canonical (h : s.canonical) (who d ctx va bs hs owner item) :
    (s.vWrite who d ctx va bs hs owner item).1.canonical := by
  grind [vWrite, walk_canonical, vFault_canonical, mustWait_canonical, physWrite_canonical, snoopShared_canonical,
    hostWrite_canonical, fabReq_canonical]

theorem ctxOpen_canonical (h : s.canonical) (c) : (s.ctxOpen c).canonical := by grind [ctxOpen, setF_canonical]

theorem ctxStart_canonical (h : s.canonical) (c) : (s.ctxStart c).canonical := by grind [ctxStart, setF_canonical]

theorem sendInval_canonical (h : s.canonical) (kind ctx start length desc destroys) :
    (s.sendInval kind ctx start length desc destroys).canonical := by
  grind [sendInval, forEach_canonical, bump_canonical, modTile_canonical, modDie_canonical, canonical_with]

theorem setObj_canonical (h : s.canonical) (slot ws) : (s.setObj slot ws).canonical := by
  grind [setObj, physWrite_canonical]

theorem withdraw_canonical (h : s.canonical) (handle) : (s.withdraw handle).canonical := by
  grind [withdraw, forEach_canonical, modDie_canonical]

theorem releaseSlot_canonical (h : s.canonical) (slot) : (s.releaseSlot slot).canonical :=
  withdraw_canonical (setObj_canonical h ..) ..

theorem dropLine_canonical (h : s.canonical) (l) : (s.dropLine l).canonical := modCp_canonical h ..

theorem ctxDestroy_canonical (h : s.canonical) (c) : (s.ctxDestroy c).canonical := by
  grind [ctxDestroy, forEach_canonical, dropLine_canonical, setF_canonical, setFlag_canonical, sendInval_canonical]

theorem destroyed_canonical (h : s.canonical) (c) : (s.destroyed c).canonical := by
  grind [destroyed, forEach_canonical, releaseSlot_canonical, setF_canonical]

theorem objTableBase_canonical (h : s.canonical) (v) : (s.objTableBase v).canonical := by
  grind [objTableBase, setFlag_canonical, setF_canonical, forEach_canonical, modDie_canonical, modCp_canonical]

theorem objTableReady_canonical (h : s.canonical) : s.objTableReady.canonical := by
  grind [objTableReady, forEach_canonical, setObj_canonical, setFlag_canonical, modCp_canonical]

theorem sqEnable_canonical (h : s.canonical) (q) : (s.sqEnable q).canonical := by
  grind [sqEnable, setF_canonical, setFlag_canonical, modCp_canonical]

theorem sqDisable_canonical (h : s.canonical) (q) : (s.sqDisable q).canonical := by
  grind [sqDisable, dropLine_canonical, setFlag_canonical, setF_canonical]

theorem cqEnable_canonical (h : s.canonical) (q) : (s.cqEnable q).canonical := by
  grind [cqEnable, setF_canonical, setFlag_canonical, modCp_canonical, dropLine_canonical]

theorem cqDisable_canonical (h : s.canonical) (q) : (s.cqDisable q).canonical := by
  grind [cqDisable, dropLine_canonical, setF_canonical, setFlag_canonical]

theorem sqStop_canonical (h : s.canonical) (q cause) : (s.sqStop q cause).canonical :=
  errRec_canonical (setF_canonical h ..) ..

theorem ringFault_canonical (h : s.canonical) : s.ringFault.canonical := ringFailed_canonical h ..

theorem lineFailed_canonical (h : s.canonical) (x1) : (s.lineFailed x1).canonical := by
  unfold lineFailed
  grind [sqStop_canonical, ringFailed_canonical, setFlag_canonical, ringFault_canonical]

theorem lineValue_canonical (h : s.canonical) (l v) : (s.lineValue l v).canonical := by
  unfold lineValue
  cases l with
  | doorbell q => dsimp only; split; exacts [sqStop_canonical (modCp_canonical h _) .., h]
  | rringProducer => dsimp only; split; exacts [ringFault_canonical (modCp_canonical h _), h]
  | cqConsumer | eringConsumer | fringConsumer => exact h

theorem lineReread_canonical (h : s.canonical) (l hs) : (s.lineReread l hs).canonical := by
  unfold lineReread
  grind [ringRead_canonical, lineFailed_canonical, lineValue_canonical, modCp_canonical, dropLine_canonical]

theorem complete_canonical (h : s.canonical) (q n) : (s.complete q n).canonical := by
  grind [complete, bump_canonical, modDesc_canonical, modCp_canonical]

theorem countAborted_canonical (h : s.canonical) (q n i) : (s.countAborted q n i).canonical := by
  grind [countAborted, modCp_canonical]

theorem endItem_canonical (h : s.canonical) (q n i) : (s.endItem q n i).canonical := by
  grind [endItem, countAborted_canonical, modDesc_canonical, complete_canonical]

theorem drainItem_canonical (h : s.canonical) (q n i ids) : (s.drainItem q n i ids).canonical := by
  grind [drainItem, endItem_canonical, modDesc_canonical]

theorem settleItems_canonical (h : s.canonical) : s.settleItems.canonical := by
  grind [settleItems, forEach_canonical, endItem_canonical]

theorem failAll_canonical (h : s.canonical) (q n code) : (s.failAll q n code).canonical :=
  modDesc_canonical h ..

theorem endFailed_canonical (h : s.canonical) (q n) : (s.endFailed q n).canonical := by
  grind [endFailed, forEach_canonical, endItem_canonical]

theorem latchedDone_canonical (h : s.canonical) (q) : (s.latchedDone q).canonical := by
  grind [latchedDone, sqDisable_canonical]

theorem descriptorFetch_canonical (h : s.canonical) (q hs) : (s.descriptorFetch q hs).canonical := by
  grind [descriptorFetch, ringRead_canonical, latchedDone_canonical, sqStop_canonical, setF_canonical, modCp_canonical,
    complete_canonical, endFailed_canonical, failAll_canonical, modDesc_canonical]

theorem starting_canonical (h : s.canonical) (q n op) {t : State} {y} (ht : s.starting q n op = some (t, y)) :
    t.canonical := by
  grind [starting, settleItems_canonical]

theorem begin_canonical (h : s.canonical) (d) : (s.begin_ d).canonical :=
  modCp_canonical (modDesc_canonical h ..) ..

theorem enqueue_canonical (h : s.canonical) (d die i src dst) : (s.enqueue d die i src dst).canonical := by
  grind [enqueue, modDesc_canonical, modDie_canonical]

theorem checkItem_canonical (h : s.canonical) (d i r) : (s.checkItem d i r).canonical := by
  unfold checkItem
  grind [endItem_canonical, failItem_canonical, enqueue_canonical, modDesc_canonical]

theorem checkItems_canonical (h : s.canonical) (d hs) : (s.checkItems d hs).canonical := by
  grind [checkItems, forEach_canonical, enqueue_canonical, vRead_canonical, checkItem_canonical]

theorem checkHandles_canonical (h : s.canonical) (d) : (s.checkHandles d).canonical := by
  grind [checkHandles, failAll_canonical]

theorem kernelHeader_canonical (h : s.canonical) (d hs) : (s.kernelHeader d hs).1.canonical := by
  grind [kernelHeader, vRead_canonical, modDesc_canonical, failAll_canonical]

theorem launch_canonical (h : s.canonical) (q n hs) : (s.launch q n hs).canonical := by
  grind [launch, starting_canonical, begin_canonical, endFailed_canonical, failAll_canonical, kernelHeader_canonical,
    checkItems_canonical, checkHandles_canonical]

theorem copy_canonical (h : s.canonical) (q n hs) : (s.copy q n hs).canonical := by
  grind [copy, starting_canonical, begin_canonical, endFailed_canonical, failAll_canonical, checkItems_canonical,
    checkHandles_canonical]

theorem codecStart_canonical (h : s.canonical) (op q n hs) : (s.codecStart op q n hs).canonical := by
  grind [codecStart, starting_canonical, begin_canonical, endFailed_canonical, failAll_canonical, checkItems_canonical,
    checkHandles_canonical]

theorem fence_canonical (h : s.canonical) (q n) : (s.fence q n).canonical := by
  grind [fence, starting_canonical, endItem_canonical, begin_canonical]

theorem invalidate_canonical (h : s.canonical) (q n) : (s.invalidate q n).canonical := by
  grind [invalidate, starting_canonical, modDesc_canonical, begin_canonical, sendInval_canonical]

theorem objRanges_canonical (h : s.canonical) (d hs handle k i) : (objRanges d hs handle k i s).1.canonical := by
  fun_induction objRanges d hs handle k i s <;> grind [walk_canonical, vFault_canonical, ringAddr_canonical]

theorem objRegister_canonical (h : s.canonical) (q n hs) : (s.objRegister q n hs).canonical := by
  have hfail {s : State} (h : s.canonical) (c) : ((s.failItem q n 0 c).endItem q n 0).canonical :=
    endItem_canonical (failItem_canonical h ..) ..
  have hput {s : State} (h : s.canonical) (slot ws g) :
      ((((s.setObj slot ws).modDesc q n g).bump .OBJ_REGISTERED_COUNT).endItem q n 0).canonical :=
    endItem_canonical (bump_canonical (modDesc_canonical (setObj_canonical h ..) ..) ..) ..
  unfold objRegister
  split
  · exact h
  · next s d hd =>
    have h := starting_canonical h _ _ _ hd
    extract_lets s1 slot rel w fail handle put
    have h1 : s1.canonical := by dsimp only [s1]; split; exacts [begin_canonical h .., h]
    split
    · exact h1
    · split
      · exact hfail h1 _
      · split
        · exact hfail h1 _
        · split
          · exact hput h1 ..
          · have hr := objRanges_canonical h1 d hs handle (d.q64 10 / 65536) 0
            grind [forEach_canonical, modDie_canonical]

theorem objRelease_canonical (h : s.canonical) (q n) : (s.objRelease q n).canonical := by
  grind [objRelease, starting_canonical, begin_canonical, endItem_canonical, failItem_canonical, bump_canonical,
    releaseSlot_canonical]

theorem itemDispatch_canonical (h : s.canonical) (d) : (s.itemDispatch d).canonical := by
  unfold itemDispatch
  grind [modDie_canonical, modDesc_canonical, forEach_canonical, modTile_canonical]

theorem writeStatuses_canonical (h : s.canonical) (d hs) : (s.writeStatuses d hs).canonical := by
  grind [writeStatuses, forEach_canonical, vWrite_canonical, modDesc_canonical]

theorem recordWrite_canonical (h : s.canonical) (cq hs) : (s.recordWrite cq hs).canonical := by
  grind [recordWrite, settleItems_canonical, writeStatuses_canonical, ringAddr_canonical, ringFailed_canonical,
    hostWrite_canonical, modCp_canonical]

theorem descriptorSignal_canonical (h : s.canonical) (q n) : (s.descriptorSignal q n).canonical := by
  grind [descriptorSignal, modCp_canonical, canonical_with]

theorem errorWrite_canonical (h : s.canonical) (hs) : (s.errorWrite hs).canonical := by
  grind [errorWrite, ringAddr_canonical, ringFailed_canonical, setF_canonical, setRing_canonical, hostWrite_canonical]

theorem eringRetry_canonical (h : s.canonical) : s.eringRetry.canonical := setFlag_canonical h ..

theorem holdoffExpiry_canonical (h : s.canonical) (src) : (s.holdoffExpiry src).canonical := by
  grind [holdoffExpiry, modCp_canonical, raiseHeld_canonical]

/-! ### Tiles: halts, launches, engine queues (02) -/

theorem modSlot_canonical (h : s.canonical) (p k g) : (s.modSlot p k g).canonical :=
  modTile_canonical h ..

theorem modQueue_canonical (h : s.canonical) (p k g) : (s.modQueue p k g).canonical :=
  modTile_canonical h ..

theorem modGroup_canonical (h : s.canonical) (p g h0) : (s.modGroup p g h0).canonical :=
  modTile_canonical h ..

theorem modThr_canonical (h : s.canonical) (p g) : (s.modThr p g).canonical := modTile_canonical h ..

theorem modMat_canonical (h : s.canonical) (p g) : (s.modMat p g).canonical := modTile_canonical h ..

theorem modGat_canonical (h : s.canonical) (p g) : (s.modGat p g).canonical := modTile_canonical h ..

theorem modSyn_canonical (h : s.canonical) (p g) : (s.modSyn p g).canonical := modTile_canonical h ..

theorem haltTile_canonical (h : s.canonical) (p reason kind stream group addr) :
    (s.haltTile p reason kind stream group addr).canonical := by
  grind [haltTile, modTile_canonical]

theorem haltStream_canonical (h : s.canonical) (p k reason) : (s.haltStream p k reason).canonical :=
  haltTile_canonical h ..

theorem haltEngine_canonical (h : s.canonical) (p k reason e) : (s.haltEngine p k reason e).canonical :=
  haltTile_canonical h ..

theorem haltGroup_canonical (h : s.canonical) (p g reason) : (s.haltGroup p g reason).canonical :=
  haltTile_canonical h ..

theorem dropFaults_canonical (h : s.canonical) (p) : (s.dropFaults p).canonical :=
  modDie_canonical (modTile_canonical h ..) ..

theorem orphan_canonical (h : s.canonical) (p) : (s.orphan p).canonical := h

theorem discardTile_canonical (h : s.canonical) (p) : (s.discardTile p).canonical := by
  grind [discardTile, orphan_canonical, dropFaults_canonical, forEach_canonical, modTile_canonical]

theorem clearGang_canonical (h : s.canonical) (p code) : (s.clearGang p code).canonical := by
  grind [clearGang, forEach_canonical, failAt_canonical, discardTile_canonical, drainItem_canonical]

theorem ctxHalted_canonical (h : s.canonical) (h0) : (s.ctxHalted h0).canonical := by
  grind [ctxHalted, setF_canonical, setFlag_canonical]

theorem recordsFinal_canonical (h : s.canonical) (p) : (s.recordsFinal p).canonical := by
  grind [recordsFinal, forEach_canonical, modTile_canonical, errRec_canonical, ctxHalted_canonical, clearGang_canonical]

theorem gangHalt_canonical (h : s.canonical) (p) : (s.gangHalt p).canonical := by
  grind [gangHalt, haltTile_canonical, modTile_canonical]

theorem haltReq_canonical (h : s.canonical) (p) : (s.haltReq p).canonical := by grind [haltReq, haltTile_canonical]

theorem resume_canonical (h : s.canonical) (p) : (s.resume p).canonical := by
  grind [resume, forEach_canonical, modTile_canonical]

theorem clearHalt_canonical (h : s.canonical) (p) : (s.clearHalt p).canonical := by
  grind [clearHalt, clearGang_canonical, modTile_canonical]

theorem holdChanged_canonical (h : s.canonical) (p) : (s.holdChanged p).canonical := by
  grind [holdChanged, clearGang_canonical]

theorem spadCount_canonical (h : s.canonical) (p a n) : (s.spadCount p a n).canonical :=
  bump_canonical h ..

theorem spadRead_canonical (h : s.canonical) (p a n) : (s.spadRead p a n).1.canonical := by
  grind [spadRead, spadCount_canonical]

theorem spadWrite_canonical (h : s.canonical) (p a bs) : (s.spadWrite p a bs).canonical :=
  modTile_canonical (spadCount_canonical h ..) ..

theorem memRead_canonical (h : s.canonical) (p target pa endpoint n owner) :
    (s.memRead p target pa endpoint n owner).1.canonical := by
  grind [memRead, mustWait_canonical, physRead_canonical, failAt_canonical, hostReq_canonical, fabReq_canonical]

theorem dropReq_canonical (h : s.canonical) (id) : (s.dropReq id).canonical := h

theorem takeReq_canonical (h : s.canonical) (p n id) {t : State} {y} (ht : s.takeReq p n id = some (t, y)) :
    t.canonical := by
  simp only [takeReq, Option.map_eq_some_iff] at ht
  obtain ⟨x, -, hx⟩ := ht
  grind [dropReq_canonical, failAt_canonical]

theorem memWrite_canonical (h : s.canonical) (p target pa endpoint bs who) :
    (s.memWrite p target pa endpoint bs who).1.canonical := by
  grind [memWrite, mustWait_canonical, physWrite_canonical, failAt_canonical, snoopShared_canonical, hostWrite_canonical,
    fabReq_canonical]

theorem tryGrant_canonical (h : s.canonical) (p w) {t : State} (ht : s.tryGrant p w = some t) : t.canonical := by
  grind [tryGrant, modSyn_canonical]

theorem raiseSem_canonical (h : s.canonical) (p k n) : (s.raiseSem p k n).canonical :=
  modSyn_canonical (bump_canonical h ..) ..

theorem raiseEntry_canonical (h : s.canonical) (p e) : (s.raiseEntry p e).canonical := by
  grind [raiseEntry, raiseSem_canonical]

theorem headReady_canonical (h : s.canonical) (p k e) {t : State} (ht : s.headReady p k e = some t) :
    t.canonical := by
  unfold headReady at ht
  grind [tryGrant_canonical, modQueue_canonical, Option.map_eq_some_iff]

theorem dequeue_canonical (h : s.canonical) (p k) : (s.dequeue p k).canonical := modQueue_canonical h ..

theorem launchMessage_canonical (h : s.canonical) (p) : (s.launchMessage p).canonical := by
  grind [launchMessage, modTile_canonical, canonical_with]

theorem kernelEnd_canonical (h : s.canonical) (p) : (s.kernelEnd p).canonical := by
  grind [kernelEnd, forEach_canonical, modTile_canonical, orphan_canonical, drainItem_canonical]

theorem fetchFill_canonical (h : s.canonical) (p who a instr bs poison) :
    (s.fetchFill p who a instr bs poison).canonical := by
  unfold fetchFill
  grind [haltTile_canonical, modTile_canonical]

theorem instructionFill_canonical (h : s.canonical) (p who) : (s.instructionFill p who).canonical := by
  unfold instructionFill
  grind [modTile_canonical, dropReq_canonical, fetchFill_canonical, translate_canonical, memRead_canonical, modGroup_canonical]

theorem advance_canonical (h : s.canonical) (p k len) : (s.advance p k len).canonical :=
  modSlot_canonical h ..

theorem scalar_canonical (h : s.canonical) (p who n word ok body) (hb : ∀ s : State, s.canonical → (body s).canonical) :
    (s.scalar p who n word ok body).canonical := by
  grind [scalar, haltStream_canonical]

theorem pushNow_canonical (h : s.canonical) (p k raw) : (s.pushNow p k raw).canonical := by
  grind [pushNow, modQueue_canonical, forEach_canonical, modSlot_canonical, advance_canonical, bump_canonical]

theorem enginePush_canonical (h : s.canonical) (p who raw) : (s.enginePush p who raw).canonical := by
  grind [enginePush, haltStream_canonical, pushNow_canonical, modSlot_canonical]

theorem unstall_canonical (h : s.canonical) (p k stall) : (s.unstall p k stall).canonical := by
  grind [unstall, bump_canonical, pushNow_canonical]

theorem entryFreed_canonical (h : s.canonical) (p who stall) : (s.entryFreed p who stall).canonical := by
  grind [entryFreed, unstall_canonical, modQueue_canonical]

theorem broadcastReceive_canonical (h : s.canonical) (p who) : (s.broadcastReceive p who).canonical :=
  modQueue_canonical h ..

theorem creditReturn_canonical (h : s.canonical) (p who stall) : (s.creditReturn p who stall).canonical := by
  grind [creditReturn, unstall_canonical, modSlot_canonical]

theorem grantStream_canonical (h : s.canonical) (p k) : (s.grantStream p k).canonical := by
  grind [grantStream, modSyn_canonical, advance_canonical, modSlot_canonical]

theorem gangWait_canonical (h : s.canonical) (p who) : (s.gangWait p who).canonical := by
  grind [gangWait, advance_canonical, modSlot_canonical]

/-! ### Streams (02, 07) -/

theorem setQ_canonical (h : s.canonical) (p k r v) : (s.setQ p k r v).canonical :=
  modSlot_canonical h ..

theorem scalarOp_canonical (h : s.canonical) (p who op f g) : (s.scalarOp p who op f g).canonical := by
  grind [scalarOp, scalar_canonical, advance_canonical, setQ_canonical]

theorem scalarImm_canonical (h : s.canonical) (p who op f g) : (s.scalarImm p who op f g).canonical := by
  grind [scalarImm, scalar_canonical, advance_canonical, setQ_canonical]

theorem qnop_canonical (h : s.canonical) (p who f) : (s.qnop p who f).canonical := by
  grind [qnop, scalar_canonical, advance_canonical]

theorem qend_canonical (h : s.canonical) (p who f) : (s.qend p who f).canonical := by
  grind [qend, scalar_canonical, modSlot_canonical, advance_canonical]

theorem qmovi_canonical (h : s.canonical) (p who f) : (s.qmovi p who f).canonical := by
  grind [qmovi, scalar_canonical, advance_canonical, setQ_canonical]

theorem qmovi64_canonical (h : s.canonical) (p who f) : (s.qmovi64 p who f).canonical := by
  grind [qmovi64, scalar_canonical, advance_canonical, setQ_canonical]

theorem qldDone_canonical (h : s.canonical) (p k d bs) : (s.qldDone p k d bs).canonical :=
  advance_canonical (modSlot_canonical (setQ_canonical h ..) ..) ..

theorem qld_canonical (h : s.canonical) (p who f) : (s.qld p who f).canonical := by
  grind [qld, scalar_canonical, haltStream_canonical, takeReq_canonical, qldDone_canonical, translate_canonical,
    memRead_canonical, failAt_canonical, modSlot_canonical]

theorem qldsp_canonical (h : s.canonical) (p who f) : (s.qldsp p who f).canonical := by
  grind [qldsp, scalar_canonical, haltStream_canonical, spadRead_canonical, advance_canonical, setQ_canonical]

theorem qbr_canonical (h : s.canonical) (p who f) : (s.qbr p who f).canonical := by
  grind [qbr, scalar_canonical, modSlot_canonical, haltStream_canonical, advance_canonical]

theorem qloop_canonical (h : s.canonical) (p who f) : (s.qloop p who f).canonical := by
  grind [qloop, scalar_canonical, haltStream_canonical, modSlot_canonical]

theorem qloopx_canonical (h : s.canonical) (p who f) : (s.qloopx p who f).canonical := by
  grind [qloopx, scalar_canonical, haltStream_canonical, modSlot_canonical]

theorem qloopn_canonical (h : s.canonical) (p who f) : (s.qloopn p who f).canonical := by
  grind [qloopn, scalar_canonical, advance_canonical, setQ_canonical]

theorem qwait_canonical (h : s.canonical) (p who f) : (s.qwait p who f).canonical := by
  grind [qwait, scalar_canonical, modSlot_canonical, forEach_canonical, modSyn_canonical, tryGrant_canonical,
    grantStream_canonical]

/-! ### Thread groups (03) -/

theorem wake_canonical (h : s.canonical) (p g) : (s.wake p g).canonical := by
  grind [wake, modGroup_canonical, modThr_canonical]

theorem arrive_canonical (h : s.canonical) (p g) : (s.arrive p g).canonical := by
  grind [arrive, modTile_canonical, modGroup_canonical]

theorem raiseSigs_canonical (h : s.canonical) (p) : (s.raiseSigs p).canonical := by
  grind [raiseSigs, forEach_canonical, modThr_canonical, raiseSem_canonical]

theorem settle_canonical (h : s.canonical) (p) : (s.settle p).canonical := by
  grind [settle, raiseSigs_canonical, forEach_canonical, arrive_canonical, wake_canonical]

theorem promote_canonical (h : s.canonical) (p) : (s.promote p).canonical := by
  grind [promote, settle_canonical, modGroup_canonical, modThr_canonical]

theorem hold_canonical (h : s.canonical) (p g w) : (s.hold p g w).canonical := modGroup_canonical h ..

theorem retire_canonical (h : s.canonical) (p g h0) : (s.retire p g h0).canonical :=
  modGroup_canonical (bump_canonical h ..) ..

theorem threadWord_canonical (h : s.canonical) (p g word n legal body)
    (hb : ∀ (s : State) x, s.canonical → (body s x).canonical) : (s.threadWord p g word n legal body).canonical := by
  grind [threadWord, haltGroup_canonical, hold_canonical]

theorem thread_canonical (h : s.canonical) (p g cls op f body) (hb : ∀ (s : State) x, s.canonical → (body s x).canonical) :
    (s.thread p g cls op f body).canonical := by
  grind [thread, threadWord_canonical]

theorem threadPure_canonical (h : s.canonical) (p g cls op f h0) : (s.threadPure p g cls op f h0).canonical := by
  grind [threadPure, thread_canonical, retire_canonical]

theorem intOp_canonical (h : s.canonical) (p g op f h0) : (s.intOp p g op f h0).canonical :=
  threadPure_canonical h ..

theorem floatOp_canonical (h : s.canonical) (p g op f h0) : (s.floatOp p g op f h0).canonical :=
  threadPure_canonical h ..

theorem approxInstr_canonical (h : s.canonical) (p g op k f) : (s.approxInstr p g op k f).canonical :=
  threadPure_canonical h ..

theorem uniOp_canonical (h : s.canonical) (p g op f h0) : (s.uniOp p g op f h0).canonical :=
  threadPure_canonical h ..

theorem branched_canonical (h : s.canonical) (p g at_ back y) : (s.branched p g at_ back y).canonical := by
  unfold branched
  grind [haltGroup_canonical, retire_canonical]

theorem bra_canonical (h : s.canonical) (p g f) : (s.bra p g f).canonical := by
  grind [bra, thread_canonical, branched_canonical]

theorem brx_canonical (h : s.canonical) (p g f) : (s.brx p g f).canonical := by
  grind [brx, thread_canonical, haltGroup_canonical, branched_canonical]

theorem noProgress_canonical (h : s.canonical) (p g) : (s.noProgress p g).canonical := by
  grind [noProgress, haltTile_canonical]

theorem endGroup_canonical (h : s.canonical) (p g b) : (s.endGroup p g b).canonical := by
  grind [endGroup, modTile_canonical, modThr_canonical]

theorem thrEnd_canonical (h : s.canonical) (p g f) : (s.thrEnd p g f).canonical := by
  grind [thrEnd, thread_canonical, hold_canonical, endGroup_canonical, bump_canonical, retire_canonical]

theorem barb_canonical (h : s.canonical) (p g f) : (s.barb p g f).canonical := by
  grind [barb, thread_canonical, settle_canonical, retire_canonical]

theorem membar_canonical (h : s.canonical) (p g f) : (s.membar p g f).canonical := by
  grind [membar, thread_canonical, settle_canonical, retire_canonical]

theorem semwait_canonical (h : s.canonical) (p g f) : (s.semwait p g f).canonical := by
  grind [semwait, thread_canonical, retire_canonical, tryGrant_canonical, wake_canonical]

theorem semsig_canonical (h : s.canonical) (p g f) : (s.semsig p g f).canonical := by
  grind [semsig, thread_canonical, modThr_canonical, retire_canonical, settle_canonical]

theorem barbReceive_canonical (h : s.canonical) (p b) : (s.barbReceive p b).canonical := by
  grind [barbReceive, forEach_canonical, modTile_canonical, wake_canonical]

theorem grpHalt_canonical (h : s.canonical) (p) : (s.grpHalt p).canonical := by
  grind [grpHalt, modThr_canonical, modGroup_canonical]

theorem grpResume_canonical (h : s.canonical) (p step) : (s.grpResume p step).canonical := by
  grind [grpResume, modThr_canonical, modGroup_canonical]

theorem beginHead_canonical (h : s.canonical) (p k op body) (hb : ∀ (s : State) e, s.canonical → (body s e).canonical) :
    (s.beginHead p k op body).canonical := by
  grind [beginHead, headReady_canonical]

theorem tlaunch_canonical (h : s.canonical) (p) : (s.tlaunch p).canonical := by
  grind [tlaunch, beginHead_canonical, haltEngine_canonical, dequeue_canonical, modThr_canonical, forEach_canonical,
    modTile_canonical]

theorem tcarve_canonical (h : s.canonical) (p) : (s.tcarve p).canonical := by
  grind [tcarve, beginHead_canonical, haltEngine_canonical, raiseEntry_canonical, modThr_canonical, dequeue_canonical]

theorem tnop_canonical (h : s.canonical) (p) : (s.tnop p).canonical := by
  grind [tnop, beginHead_canonical, modThr_canonical, dequeue_canonical]

theorem thrComplete_canonical (h : s.canonical) (p) : (s.thrComplete p).canonical := by
  grind [thrComplete, raiseEntry_canonical, modThr_canonical]

/-! ### Loads, stores and atomics of thread groups (03) -/

theorem wayAccess_canonical (h : s.canonical) (p w) : (s.wayAccess p w).canonical :=
  modThr_canonical h ..

theorem l1Error_canonical (h : s.canonical) (p va err) : (s.l1Error p va err).canonical := by
  unfold l1Error
  grind [modThr_canonical, bump_canonical, when_canonical, modTile_canonical]

theorem wayDisable_canonical (h : s.canonical) (p w) : (s.wayDisable p w).canonical := by
  grind [wayDisable, modThr_canonical, nominate_canonical, modMgt_canonical, log_canonical, orBit_canonical]

theorem windowEnd_canonical (h : s.canonical) (p w) : (s.windowEnd p w).canonical := by
  grind [windowEnd, modThr_canonical]

theorem xlLanes_canonical (h : s.canonical) (p g pc acc ls) : (xlLanes p g pc acc ls s).1.canonical := by
  fun_induction xlLanes p g pc acc ls s <;> grind [translate_canonical]

theorem withLanes_canonical (h : s.canonical) (p g x loc size acc ls k) (hb : ∀ (s : State) ls, s.canonical → (k s
    ls).canonical) :
    (s.withLanes p g x loc size acc ls k).canonical := by
  grind [withLanes, haltGroup_canonical, xlLanes_canonical, hold_canonical]

theorem sendChunks_canonical (h : s.canonical) (p g cs) : (s.sendChunks p g cs).1.canonical := by
  unfold sendChunks
  grind [memRead_canonical, foldl_fst_canonical]

theorem startLoad_canonical (h : s.canonical) (p g cached acquire d ls got) :
    (s.startLoad p g cached acquire d ls got).canonical := by
  grind [startLoad, sendChunks_canonical, modThr_canonical, retire_canonical]

theorem tileErr_canonical (h : s.canonical) (p err) : (s.tileErr p err).canonical := by
  unfold tileErr
  grind [tileCorrected_canonical, tileDetected_canonical]

theorem loadLanes_canonical (h : s.canonical) (p g x cached acquire d err ls) :
    (s.loadLanes p g x cached acquire d err ls).canonical := by
  grind [loadLanes, hold_canonical, retire_canonical, tileErr_canonical, bump_canonical, forEach_canonical, l1Error_canonical,
    wayAccess_canonical, startLoad_canonical]

theorem ld_canonical (h : s.canonical) (p g f err) : (s.ld p g f err).canonical := by
  grind [ld, thread_canonical, hold_canonical, withLanes_canonical, loadLanes_canonical]

theorem uld_canonical (h : s.canonical) (p g f) : (s.uld p g f).canonical := by
  grind [uld, thread_canonical, hold_canonical, withLanes_canonical, loadLanes_canonical]

theorem pickLanes_canonical (h : s.canonical) (ls) : (pickLanes ls s).1.canonical := by
  fun_induction pickLanes ls s <;> grind [choose_canonical]

theorem takeEntry_canonical (h : s.canonical) (p g x atomic release size ls) :
    (s.takeEntry p g x atomic release size ls).canonical := modThr_canonical h ..

theorem st_canonical (h : s.canonical) (p g f) : (s.st p g f).canonical := by
  grind [st, thread_canonical, hold_canonical, withLanes_canonical, pickLanes_canonical, retire_canonical, takeEntry_canonical]

theorem atom_canonical (h : s.canonical) (p g f) : (s.atom p g f).canonical := by
  grind [atom, thread_canonical, hold_canonical, withLanes_canonical, retire_canonical, takeEntry_canonical]

theorem cinv_canonical (h : s.canonical) (p g f) : (s.cinv p g f).canonical := by
  grind [cinv, thread_canonical, modThr_canonical, retire_canonical]

theorem chunkData_canonical (h : s.canonical) (p reqs c i) : (s.chunkData p reqs c i).1.canonical := by
  grind [chunkData, dropReq_canonical, memRead_canonical]

theorem chunkWait_canonical (h : s.canonical) (cs) {t : State} (ht : s.chunkWait cs = some t) : t.canonical := by
  obtain ⟨_, c, _, _, hc, _⟩ := List.findSome?_eq_some_iff.mp ht
  grind [mustWait_canonical]

theorem loadDone_canonical (h : s.canonical) (p g k way x o) : (s.loadDone p g k way x o).canonical := by
  unfold loadDone
  grind [chunkWait_canonical, chunkData_canonical, foldl_fst_canonical, failAt_canonical, forEach_canonical, modTile_canonical,
    wayAccess_canonical, modGroup_canonical, settle_canonical]

theorem atomDone_canonical (h : s.canonical) (p g k x o) : (s.atomDone p g k x o).canonical := by
  unfold atomDone
  grind [takeReq_canonical, foldl_fst_canonical, modGroup_canonical, settle_canonical]

theorem loadReturn_canonical (h : s.canonical) (p g k way) : (s.loadReturn p g k way).canonical := by
  grind [loadReturn, atomDone_canonical, loadDone_canonical]

theorem l1Store_canonical (h : s.canonical) (p e l) : (s.l1Store p e l).canonical := by
  grind [l1Store, wayAccess_canonical, modTile_canonical]

theorem drainLanes_canonical (h : s.canonical) (p e ls) : (drainLanes p e ls s).1.canonical := by
  fun_induction drainLanes p e ls s <;> grind [l1Store_canonical, modThr_canonical]

theorem drainStore_canonical (h : s.canonical) (p e err) : (s.drainStore p e err).canonical := by
  grind [drainStore, tileErr_canonical, bump_canonical, forEach_canonical, modTile_canonical, modThr_canonical,
    drainLanes_canonical]

theorem atomLane_canonical (h : s.canonical) (p g e op err l) : (s.atomLane p g e op err l).1.canonical := by
  grind [atomLane, modTile_canonical, tileErr_canonical, bump_canonical, failAt_canonical, countAbsent_canonical,
    atomicAt_canonical, snoopShared_canonical, hostReq_canonical, fabReq_canonical]

theorem drainAtomic_canonical (h : s.canonical) (p e op err) : (s.drainAtomic p e op err).canonical := by
  unfold drainAtomic
  grind [mustWait_canonical, List.findSome?_eq_some_iff, foldl_fst_canonical, atomLane_canonical, modGroup_canonical,
    modThr_canonical]

theorem storeDrain_canonical (h : s.canonical) (p full err) : (s.storeDrain p full err).canonical := by
  grind [storeDrain, bump_canonical, settle_canonical, drainStore_canonical, drainAtomic_canonical]

theorem drainHalf_canonical (h : s.canonical) (p e h0) : (s.drainHalf p e h0).canonical := by
  grind [drainHalf, failAt_canonical, countAbsent_canonical, snoopShared_canonical, writeMasked_canonical, forEach_canonical,
    memWrite_canonical]

theorem writeDrain_canonical (h : s.canonical) (p) : (s.writeDrain p).canonical := by
  grind [writeDrain, mustWait_canonical, settle_canonical, modThr_canonical, drainHalf_canonical]

theorem preloadAddr_canonical (h : s.canonical) (p va hs) : (s.preloadAddr p va hs).1.canonical := by
  grind [preloadAddr, bump_canonical, walk_canonical, fillTile_canonical]

theorem preloadRead_canonical (h : s.canonical) (p t a hs) : (s.preloadRead p t a hs).1.canonical := by
  grind [preloadRead, mustWait_canonical, memRead_canonical]

theorem preloadLines_canonical (h : s.canonical) (p ways hs n line filled) :
    (preloadLines p ways hs n line filled s).1.canonical := by
  fun_induction preloadLines p ways hs n line filled s <;> grind [bump_canonical, preloadAddr_canonical, preloadRead_canonical,
    wayAccess_canonical, modTile_canonical]

theorem tpreload_canonical (h : s.canonical) (p hs) : (s.tpreload p hs).canonical := by
  grind [tpreload, beginHead_canonical, haltEngine_canonical, preloadLines_canonical, raiseEntry_canonical, modThr_canonical,
    dequeue_canonical]

/-! ### Thread instructions (07) -/

theorem threadNop_canonical (h : s.canonical) (p g raw) : (s.threadNop p g raw).canonical := by
  grind [threadNop, threadWord_canonical, retire_canonical]

/-! ### Matrix engine (04) -/

theorem matHazard_canonical (h : s.canonical) (p num kind accRow planeRow plane) :
    (s.matHazard p num kind accRow planeRow plane).canonical := by
  grind [matHazard, modMat_canonical, bump_canonical, setF_canonical, setFlag_canonical, haltTile_canonical,
    haltEngine_canonical]

theorem accReadHazards_canonical (h : s.canonical) (p num row col) : (s.accReadHazards p num row col).canonical := by
  grind [accReadHazards, matHazard_canonical]

theorem accPut_canonical (h : s.canonical) (p row col w) : (s.accPut p row col w).canonical := by
  grind [accPut, modMat_canonical, matHazard_canonical]

theorem chooseCell_canonical (h : s.canonical) (p c olds) : (s.chooseCell p c olds).1.canonical := by
  unfold chooseCell
  grind [choose_canonical, foldl_fst_canonical]

theorem matBytes_canonical (h : s.canonical) (p olds a n) : (s.matBytes p olds a n).1.canonical := by
  unfold matBytes
  grind [chooseCell_canonical, spadCount_canonical, foldl_fst_canonical]

theorem modMatOp_canonical (h : s.canonical) (p num g) : (s.modMatOp p num g).canonical :=
  modMat_canonical h ..

theorem tickLoad_canonical (h : s.canonical) (p o) : (s.tickLoad p o).canonical := by
  grind [tickLoad, forEach_canonical, matHazard_canonical, matBytes_canonical, modMat_canonical]

theorem zeroRow_canonical (h : s.canonical) (p row num) : (s.zeroRow p row num).canonical := by
  grind [zeroRow, forEach_canonical, accPut_canonical]

theorem tickDrain_canonical (h : s.canonical) (p o) : (s.tickDrain p o).canonical := by
  grind [tickDrain, zeroRow_canonical, forEach_canonical, accReadHazards_canonical, matBytes_canonical, modMatOp_canonical,
    spadWrite_canonical]

theorem tickStream_canonical (h : s.canonical) (p o) : (s.tickStream p o).canonical := by
  grind [tickStream, forEach_canonical, matBytes_canonical, modMatOp_canonical, accReadHazards_canonical, bump_canonical,
    accPut_canonical]

theorem matTick_canonical (h : s.canonical) (p) : (s.matTick p).canonical := by
  unfold matTick
  grind [foldl_canonical, tickLoad_canonical, tickStream_canonical, tickDrain_canonical, bump_canonical, modMat_canonical]

theorem matAdvance_canonical (h : s.canonical) (p n) : (matAdvance p n s).canonical := by
  induction n generalizing s with
  | zero => exact h
  | succ n ih => exact ih (matTick_canonical h p)

theorem matTime_canonical (h : s.canonical) (p t) : (s.matTime p t).canonical :=
  bump_canonical (matAdvance_canonical h ..) ..

theorem beginMat_canonical (h : s.canonical) (p op u t body) (hb : ∀ (s : State) e, s.canonical → (body s e).canonical) :
    (s.beginMat p op u t body).canonical := by
  grind [beginMat, matTime_canonical, headReady_canonical]

theorem matBegun_canonical (h : s.canonical) (p e u busy len work reads olds) :
    (s.matBegun p e u busy len work reads olds).canonical := modMat_canonical (dequeue_canonical h ..) ..

theorem mldp_canonical (h : s.canonical) (p t) : (s.mldp p t).canonical := by
  grind [mldp, beginMat_canonical, haltEngine_canonical, modMat_canonical, matBegun_canonical]

theorem mlut_canonical (h : s.canonical) (p t) : (s.mlut p t).canonical := by
  grind [mlut, beginMat_canonical, haltEngine_canonical, spadRead_canonical, modMat_canonical, matBegun_canonical]

theorem mswap_canonical (h : s.canonical) (p t) : (s.mswap p t).canonical := by
  grind [mswap, beginMat_canonical, modMat_canonical, matBegun_canonical]

theorem mstr_canonical (h : s.canonical) (p t err) : (s.mstr p t err).canonical := by
  grind [mstr, beginMat_canonical, haltEngine_canonical, tileErr_canonical, matBytes_canonical, matBegun_canonical,
    matHazard_canonical]

theorem mdrn_canonical (h : s.canonical) (p t) : (s.mdrn p t).canonical := by
  grind [mdrn, beginMat_canonical, haltEngine_canonical, spadRead_canonical, matBegun_canonical]

theorem mzero_canonical (h : s.canonical) (p t) : (s.mzero p t).canonical := by
  grind [mzero, beginMat_canonical, matBegun_canonical]

theorem mdly_canonical (h : s.canonical) (p t) : (s.mdly p t).canonical := by
  grind [mdly, beginMat_canonical, modMat_canonical, matBegun_canonical]

theorem matDue_canonical (h : s.canonical) (p t q) {u : State} {y} (ht : s.matDue p t q = some (u, y)) :
    u.canonical := by
  grind [State.matDue, matTime_canonical]

theorem matDone_canonical (h : s.canonical) (p num) : (s.matDone p num).canonical :=
  modMat_canonical (modMatOp_canonical h ..) ..

theorem matComplete_canonical (h : s.canonical) (p t) : (s.matComplete p t).canonical := by
  grind [matComplete, matDue_canonical, raiseEntry_canonical, matDone_canonical]

theorem gmma_canonical (h : s.canonical) (p g f) : (s.gmma p g f).canonical := by
  grind [gmma, thread_canonical, haltGroup_canonical, retire_canonical, modMat_canonical]

theorem gmmaBegin_canonical (h : s.canonical) (p t) : (s.gmmaBegin p t).canonical := by
  grind [gmmaBegin, matTime_canonical, haltTile_canonical, modMat_canonical]

theorem gmmaResult_canonical (h : s.canonical) (p t) : (s.gmmaResult p t).canonical := by
  grind [gmmaResult, matDue_canonical, modGroup_canonical, wake_canonical, matDone_canonical]

/-! ### Gather engine (06) -/

theorem commit_canonical (h : s.canonical) (p m) : (s.commit p m).canonical := by
  grind [commit, forEach_canonical, spadWrite_canonical]

theorem gatBegun_canonical (h : s.canonical) (p e x ph staged) : (s.gatBegun p e x ph staged).canonical :=
  modGat_canonical (dequeue_canonical h ..) ..

theorem spadRows_canonical (h : s.canonical) (p x) : (s.spadRows p x).1.canonical := by
  unfold spadRows
  grind [spadRead_canonical, foldl_fst_canonical]

theorem gxfer_canonical (h : s.canonical) (p) : (s.gxfer p).canonical := by
  grind [gxfer, beginHead_canonical, haltEngine_canonical, spadRead_canonical, gatBegun_canonical, spadRows_canonical,
    commit_canonical]

theorem gfill_canonical (h : s.canonical) (p) : (s.gfill p).canonical := by
  grind [gfill, beginHead_canonical, haltEngine_canonical, gatBegun_canonical, spadWrite_canonical]

theorem gnop_canonical (h : s.canonical) (p) : (s.gnop p).canonical := by
  grind [gnop, beginHead_canonical, gatBegun_canonical]

theorem gatComplete_canonical (h : s.canonical) (p) : (s.gatComplete p).canonical := by
  grind [gatComplete, modGat_canonical, bump_canonical, raiseEntry_canonical]

theorem modLast_canonical (h : s.canonical) (p g) : (s.modLast p g).canonical := modGat_canonical h ..

theorem gatUnit_canonical (h : s.canonical) (p a instr req) : (s.gatUnit p a instr req).1.canonical := by
  unfold gatUnit
  grind [bump_canonical, modLast_canonical, dropReq_canonical, translate_canonical, memRead_canonical]

theorem unpoison_canonical (h : s.canonical) (p u) : (s.unpoison p u).1.canonical := by
  grind [unpoison, failAt_canonical]

theorem collect_canonical (h : s.canonical) (p va n keep o) : (s.collect p va n keep o).1.canonical := by
  grind [collect, gatUnit_canonical, unpoison_canonical, modLast_canonical]

theorem finish_canonical (h : s.canonical) (p x o) : (s.finish p x o).canonical := by
  grind [finish, commit_canonical, modLast_canonical]

theorem elementDone_canonical (h : s.canonical) (p x j o) : (s.elementDone p x j o).canonical := by
  grind [elementDone, modLast_canonical, finish_canonical]

theorem indexRead_canonical (h : s.canonical) (p x j bs o) : (s.indexRead p x j bs o).canonical := by
  grind [indexRead, modLast_canonical, commit_canonical, haltEngine_canonical, modGat_canonical, bump_canonical,
    elementDone_canonical]

theorem rowDone_canonical (h : s.canonical) (p x j rho src o) : (s.rowDone p x j rho src o).canonical := by
  grind [rowDone, modLast_canonical, elementDone_canonical]

theorem scatter_canonical (h : s.canonical) (p x j rho src o) : (s.scatter p x j rho src o).canonical := by
  grind [scatter, free_canonical, translate_canonical, memWrite_canonical, bump_canonical, modLast_canonical, rowDone_canonical]

theorem entryRead_canonical (h : s.canonical) (p x i page o) : (s.entryRead p x i page o).canonical := by
  grind [entryRead, modLast_canonical, bump_canonical, failAt_canonical]

theorem headerRead_canonical (h : s.canonical) (p x i page u) : (s.headerRead p x i page u).canonical := by
  grind [headerRead, bump_canonical, failAt_canonical, modLast_canonical]

theorem tokenRead_canonical (h : s.canonical) (p x i page t fill rb scale bs o) :
    (s.tokenRead p x i page t fill rb scale bs o).canonical := modLast_canonical h ..

theorem gatStep_canonical (h : s.canonical) (p x o) : (s.gatStep p x o).canonical := by
  grind [gatStep, collect_canonical, indexRead_canonical, scatter_canonical, rowDone_canonical, finish_canonical,
    entryRead_canonical, gatUnit_canonical, headerRead_canonical, tokenRead_canonical]

theorem freeLine_canonical (h : s.canonical) : s.freeLine.1.canonical := by
  unfold freeLine
  grind [free_canonical, foldl_fst_canonical]

theorem copyWrite_canonical (h : s.canonical) (p d i va u) : (s.copyWrite p d i va u).canonical := by
  grind [copyWrite, translate_canonical, freeLine_canonical, unpoison_canonical, memWrite_canonical, modGat_canonical,
    bump_canonical]

theorem copyStep_canonical (h : s.canonical) (p) : (s.copyStep p).canonical := by
  unfold copyStep
  grind [copyWrite_canonical, translate_canonical, memRead_canonical, modGat_canonical]

theorem gatherReturn_canonical (h : s.canonical) (p stall) : (s.gatherReturn p stall).canonical := by
  grind [gatherReturn, gatStep_canonical, bump_canonical, copyStep_canonical]

/-! ### Sync engine (08) -/

theorem grantWaits_canonical (h : s.canonical) (p) : (s.grantWaits p).canonical := by
  unfold grantWaits
  split
  · exact h
  · refine forEach_canonical (forEach_canonical (forEach_canonical h _ _ ?_) _ _ ?_) _ _ ?_ <;> intro s k hs
    · grind [tryGrant_canonical, modQueue_canonical, Option.bind_eq_some_iff]
    · grind [tryGrant_canonical, grantStream_canonical, Option.bind_eq_some_iff]
    · grind [tryGrant_canonical, wake_canonical]

theorem semaphoreSignal_canonical (h : s.canonical) (p wait) : (s.semaphoreSignal p wait).canonical := by
  grind [semaphoreSignal, when_canonical, bump_canonical, modSyn_canonical, setFlag_canonical, grantWaits_canonical]

theorem beginSyn_canonical (h : s.canonical) (p op body) (hb : ∀ (s : State) e, s.canonical → (body s e).canonical) :
    (s.beginSyn p op body).canonical := by
  grind [beginSyn, beginHead_canonical]

theorem synBegun_canonical (h : s.canonical) (p e w) : (s.synBegun p e w).canonical :=
  modSyn_canonical (dequeue_canonical h ..) ..

theorem ynop_canonical (h : s.canonical) (p) : (s.ynop p).canonical := by
  grind [ynop, beginSyn_canonical, synBegun_canonical]

theorem yset_canonical (h : s.canonical) (p) : (s.yset p).canonical := by
  grind [yset, beginSyn_canonical, grantWaits_canonical, modSyn_canonical, synBegun_canonical]

theorem ybar_canonical (h : s.canonical) (p) : (s.ybar p).canonical := by
  grind [ybar, beginSyn_canonical, haltEngine_canonical, synBegun_canonical, ctxDestDead_canonical]

theorem ymembar_canonical (h : s.canonical) (p) : (s.ymembar p).canonical := by
  grind [ymembar, beginSyn_canonical, synBegun_canonical]

theorem yfsignal_canonical (h : s.canonical) (p) : (s.yfsignal p).canonical := by
  grind [yfsignal, beginSyn_canonical, synBegun_canonical]

theorem yfwait_canonical (h : s.canonical) (p) : (s.yfwait p).canonical := by
  grind [yfwait, beginSyn_canonical, synBegun_canonical]

theorem pollDone_canonical (h : s.canonical) (p e va value cond bs poison failed) :
    (s.pollDone p e va value cond bs poison failed).canonical := by
  grind [pollDone, failAt_canonical, modSyn_canonical]

theorem pollRead_canonical (h : s.canonical) (p) : (s.pollRead p).canonical := by
  unfold pollRead
  grind [pollDone_canonical, dropReq_canonical, translate_canonical, memRead_canonical, modSyn_canonical]

theorem ypoll_canonical (h : s.canonical) (p) : (s.ypoll p).canonical := by
  grind [ypoll, beginSyn_canonical, haltEngine_canonical, pollRead_canonical, synBegun_canonical]

theorem synComplete_canonical (h : s.canonical) (p) : (s.synComplete p).canonical := by
  grind [synComplete, raiseEntry_canonical, modSyn_canonical, canonical_with]

theorem engineComplete_canonical (h : s.canonical) (p k t) : (s.engineComplete p k t).canonical := by
  unfold engineComplete
  grind [thrComplete_canonical, settle_canonical, matComplete_canonical, gatComplete_canonical, synComplete_canonical]

theorem publish_canonical (h : s.canonical) (key scope slot who code) :
    (s.publish key scope slot who code).canonical := by
  grind [publish, forEach_canonical, modSyn_canonical, canonical_with]

theorem barrierArrival_canonical (h : s.canonical) (p) : (s.barrierArrival p).canonical := by
  grind [barrierArrival, modSyn_canonical, publish_canonical, canonical_with]

theorem publicationReceive_canonical (h : s.canonical) (p x2) : (s.publicationReceive p x2).canonical := by
  unfold publicationReceive
  grind [barbReceive_canonical, bump_canonical, modSyn_canonical, failAt_canonical, setFlag_canonical]

theorem resetRoots_canonical (h : s.canonical) (ctx) : (s.resetRoots ctx).canonical := by
  grind [resetRoots, forEach_canonical, canonical_with]

theorem applyFence_canonical (h : s.canonical) (x) : (s.applyFence x).canonical := by
  grind [applyFence, bump_canonical, when_canonical, errRec_canonical, sendMsg_canonical, canonical_with]

theorem fenceSignal_canonical (h : s.canonical) (n) : (s.fenceSignal n).canonical := by
  grind [fenceSignal, forEach_canonical, applyFence_canonical, canonical_with]

theorem fenceSatisfied_canonical (h : s.canonical) (x1) : (s.fenceSatisfied x1).canonical := by
  unfold fenceSatisfied
  grind [modSyn_canonical, modDesc_canonical]

theorem stallLimit_canonical (h : s.canonical) (p w cycles) : (s.stallLimit p w cycles).canonical := by
  unfold stallLimit
  grind [haltStream_canonical, haltEngine_canonical, haltGroup_canonical]

/-! ### Codec engines (06) -/

theorem vReadRuns_canonical (h : s.canonical) (who d ctx hs l) : (vReadRuns who d ctx hs l s).1.canonical := by
  fun_induction vReadRuns who d ctx hs l s <;> grind [vRead_canonical]

theorem vWriteRuns_canonical (h : s.canonical) (who d ctx hs it l bs) :
    (vWriteRuns who d ctx hs it l bs s).1.canonical := by
  fun_induction vWriteRuns who d ctx hs it l bs s <;> grind [vWrite_canonical, failAt_canonical]

theorem freeBytes_canonical (h : s.canonical) (n) : (freeBytes n s).1.canonical := by
  induction n generalizing s with
  | zero => exact h
  | succ n ih => exact ih (free_canonical h)

theorem spoil_canonical (h : s.canonical) (d ctx va n) : (s.spoil d ctx va n).canonical := by
  grind [spoil, forEach_canonical, walk_canonical, choose_canonical, freeBytes_canonical, physWrite_canonical]

theorem codecEnd_canonical (h : s.canonical) (d q n i) : (s.codecEnd d q n i).canonical :=
  drainItem_canonical (modDie_canonical h ..) ..

theorem codecWrite_canonical (h : s.canonical) (d ctx q n i dst bs hs) :
    (s.codecWrite d ctx q n i dst bs hs).canonical := by
  grind [codecWrite, vWriteRuns_canonical, codecEnd_canonical]

theorem codecFail_canonical (h : s.canonical) (d q n i code) : (s.codecFail d q n i code).canonical :=
  codecEnd_canonical (failItem_canonical h ..) ..

theorem codecCompress_canonical (h : s.canonical) (d ctx q n i src dst len cap width tag hs) :
    (s.codecCompress d ctx q n i src dst len cap width tag hs).canonical := by
  grind [codecCompress, codecFail_canonical, vReadRuns_canonical, spoil_canonical, failItem_canonical, codecWrite_canonical]

theorem codecDecompress_canonical (h : s.canonical) (d ctx q n i src dst len cap hs) :
    (s.codecDecompress d ctx q n i src dst len cap hs).canonical := by
  have hr := vReadRuns_canonical h (.codec d) d ctx hs (runsOf src 64)
  unfold codecDecompress
  split
  · exact codecFail_canonical h ..
  · split
    · grind
    · split
      · grind [codecFail_canonical]
      · next s hd code poison e _ =>
        have hr : s.canonical := by grind
        have hs1 : (if code = 0 then s else s.failItem q n i code).canonical := by split; exacts [hr, failItem_canonical hr ..]
        generalize (if code = 0 then s else s.failItem q n i code) = s1 at hs1 ⊢
        grind [codecFail_canonical, vReadRuns_canonical, spoil_canonical, failItem_canonical, codecWrite_canonical]

theorem codecFrame_canonical (h : s.canonical) (d hs) : (s.codecFrame d hs).canonical := by
  grind [codecFrame, modDesc_canonical, codecCompress_canonical, codecDecompress_canonical]

/-! ### Faults and contexts (10, 11) -/

theorem walkEnd_canonical (h : s.canonical) (hs m) : (s.walkEnd hs m).canonical := by
  grind [walkEnd, modTile_canonical, walk_canonical, settle_canonical, fillTile_canonical, modDie_canonical,
    raiseFault_canonical]

theorem walkComplete_canonical (h : s.canonical) (d k hs) : (s.walkComplete d k hs).canonical := by
  grind [walkComplete, walk_canonical, modDie_canonical, startWalk_canonical, forEach_canonical, walkEnd_canonical]

theorem modEntry_canonical (h : s.canonical) (d i g) : (s.modEntry d i g).canonical :=
  modDie_canonical h ..

theorem faultWrite_canonical (h : s.canonical) (hs) : (s.faultWrite hs).canonical := by
  grind [faultWrite, ringAddr_canonical, ringFault_canonical, setF_canonical, modEntry_canonical, hostWrite_canonical,
    setRing_canonical]

theorem retryEntry_canonical (h : s.canonical) (d i m) : (s.retryEntry d i m).canonical := by
  grind [retryEntry, dropPage_canonical, modEntry_canonical, settle_canonical]

theorem retryHeld_canonical (h : s.canonical) (p) : (s.retryHeld p).canonical := by
  grind [retryHeld, forEach_canonical, retryEntry_canonical]

theorem unservRec_canonical (h : s.canonical) (m fid it) : (s.unservRec m fid it).canonical :=
  errRec_canonical h ..

theorem copyFail_canonical (h : s.canonical) (p code) : (s.copyFail p code).canonical := by
  grind [copyFail, modGat_canonical, spoil_canonical, orphan_canonical, failAt_canonical]

theorem unserviced_canonical (h : s.canonical) (fid m) : (s.unserviced fid m).canonical := by
  grind [unserviced, haltTile_canonical, copyFail_canonical, unservRec_canonical, codecFail_canonical, spoil_canonical,
    modDesc_canonical, endFailed_canonical, failAll_canonical, failItem_canonical]

theorem applyResponse_canonical (h : s.canonical) (resp) : (s.applyResponse resp).canonical := by
  grind [applyResponse, bump_canonical, modEntry_canonical, retryEntry_canonical, setFlag_canonical, unserviced_canonical]

theorem ringResponse_canonical (h : s.canonical) (resp hs) : (s.ringResponse resp hs).canonical := by
  grind [ringResponse, ringAddr_canonical, ringFault_canonical, applyResponse_canonical, setF_canonical]

theorem retry_canonical (h : s.canonical) (resp hs) : (s.retry resp hs).canonical := by
  grind [retry, ringResponse_canonical]

theorem unserviceable_canonical (h : s.canonical) (resp hs) : (s.unserviceable resp hs).canonical := by
  grind [unserviceable, ringResponse_canonical]

theorem xltRingRetry_canonical (h : s.canonical) : s.xltRingRetry.canonical := setFlag_canonical h ..

theorem resumeGang_canonical (h : s.canonical) (p) : (s.resumeGang p).canonical := by
  grind [resumeGang, forEach_canonical, resume_canonical, grantWaits_canonical, retryHeld_canonical]

theorem invalDone_canonical (h : s.canonical) (i) : (s.invalDone i).canonical := by
  grind [invalDone, bump_canonical, endItem_canonical, destroyed_canonical, canonical_with]

theorem invalAck_canonical (h : s.canonical) (id who) : (s.invalAck id who).canonical := by
  grind [invalAck, invalDone_canonical, canonical_with]

theorem abortLatch_canonical (h : s.canonical) (bells q) : (s.abortLatch bells q).canonical := by
  unfold abortLatch
  split
  · exact sqDisable_canonical (sqStop_canonical h ..) ..
  · split
    · exact sqDisable_canonical h ..
    · split
      · exact sqDisable_canonical (sqStop_canonical h ..) ..
      · exact latchedDone_canonical (modCp_canonical h _) ..

theorem abortItems_canonical (h : s.canonical) (q n) : (s.abortItems q n).canonical := by
  grind [abortItems, modDesc_canonical, forEach_canonical, endItem_canonical, failItem_canonical, modDie_canonical,
    codecFail_canonical, spoil_canonical]

theorem abortGang_canonical (h : s.canonical) (p) : (s.abortGang p).canonical := by
  grind [abortGang, clearGang_canonical, copyFail_canonical, recordsFinal_canonical, forEach_canonical, gangHalt_canonical,
    modTile_canonical]

theorem abortInbox_canonical (h : s.canonical) (c) : (s.abortInbox c).canonical := by
  grind [abortInbox, forEach_canonical, endItem_canonical, failItem_canonical, discardTile_canonical]

theorem ctxAbort_canonical (h : s.canonical) (c bells) : (s.ctxAbort c bells).canonical := by
  grind [ctxAbort, modCp_canonical, setF_canonical, forEach_canonical, abortLatch_canonical, abortItems_canonical,
    abortInbox_canonical, abortGang_canonical, modDie_canonical, resetRoots_canonical]

theorem ctxStopped_canonical (h : s.canonical) (c) : (s.ctxStopped c).canonical := by
  grind [ctxStopped, settleItems_canonical, errRec_canonical, setF_canonical]

/-! ### Collectives (13) -/

theorem combineFree_canonical (h : s.canonical) (op fmt k l) : (combineFree op fmt k l s).1.canonical := by
  fun_induction combineFree op fmt k l s <;> grind [free_canonical]

theorem combineChunks_canonical (h : s.canonical) (op fmt ds) : (s.combineChunks op fmt ds).1.canonical := by
  unfold combineChunks
  grind [combineFree_canonical, foldl_fst_canonical]

theorem collEnable_canonical (h : s.canonical) (g) : (s.collEnable g).canonical := by
  grind [collEnable, setFlag_canonical, modRound_canonical]

theorem collDisable_canonical (h : s.canonical) (g) : (s.collDisable g).canonical :=
  modRound_canonical (modRound_canonical (setFlag_canonical h ..) ..) ..

theorem modChunk_canonical (h : s.canonical) (g parity c h0) : (s.modChunk g parity c h0).canonical :=
  modRound_canonical h ..

theorem sendCput_canonical (h : s.canonical) (g parity c dest code data) :
    (s.sendCput g parity c dest code data).canonical := fabReq_canonical h ..

theorem collWrite_canonical (h : s.canonical) (g parity off data) : (s.collWrite g parity off data).1.canonical := by
  grind [collWrite, mustWait_canonical, physWrite_canonical, snoopShared_canonical]

theorem writeResult_canonical (h : s.canonical) (g parity c) : (s.writeResult g parity c).canonical := by
  grind [writeResult, collWrite_canonical, roundFail_canonical, modChunk_canonical]

theorem takeResult_canonical (h : s.canonical) (g parity c data) : (s.takeResult g parity c data).canonical := by
  grind [takeResult, modChunk_canonical, modRound_canonical, writeResult_canonical, forEach_canonical, sendCput_canonical]

theorem chunkDone_canonical (h : s.canonical) (g parity c) : (s.chunkDone g parity c).canonical := by
  grind [chunkDone, freeBytes_canonical, combineChunks_canonical, takeResult_canonical, sendCput_canonical]

theorem takePart_canonical (h : s.canonical) (g parity x) : (s.takePart g parity x).canonical := by
  grind [takePart, when_canonical, modRound_canonical, modChunk_canonical, chunkDone_canonical]

theorem contribution_canonical (h : s.canonical) (g addr data) : (s.contribution g addr data).canonical := by
  grind [contribution, failFab_canonical, forEach_canonical, bump_canonical, dropFab_canonical, takePart_canonical]

theorem cput_canonical (h : s.canonical) (p) : (s.cput p).canonical := by
  grind [cput, answer_canonical, bump_canonical, takePart_canonical, takeResult_canonical]

theorem roundEnd_canonical (h : s.canonical) (g parity) : (s.roundEnd g parity).canonical := by
  grind [roundEnd, setF_canonical, when_canonical, setFlag_canonical, raiseFab_canonical, modRound_canonical,
    forEach_canonical, takePart_canonical, canonical_with]

theorem roundComplete_canonical (h : s.canonical) (g parity) : (s.roundComplete g parity).canonical := by
  grind [roundComplete, forEach_canonical, writeResult_canonical, roundEnd_canonical, collWrite_canonical, modRound_canonical,
    when_canonical, roundFail_canonical]

theorem roundTimeout_canonical (h : s.canonical) (g parity) : (s.roundTimeout g parity).canonical := by
  grind [roundTimeout, roundFail_canonical]

/-! ### Moults (15) -/

theorem quiesce_canonical (h : s.canonical) (d) : (s.quiesce d).canonical := by grind [quiesce, setF_canonical]

theorem freshTile_canonical (h : s.canonical) (t sense) : (s.freshTile t sense).2.canonical := by
  grind [freshTile, canonical_with]

theorem moultOne_canonical (h : s.canonical) (x) : (s.moultOne x).canonical := by
  grind [moultOne, discardTile_canonical, freshTile_canonical, setTile_canonical, modMgt_canonical, raiseMgt_canonical,
    bump_canonical, log_canonical]

theorem moult_canonical (h : s.canonical) (d) : (s.moult d).canonical := by
  grind [moult, forEach_canonical, moultOne_canonical, modMgt_canonical, setF_canonical]

theorem takeRepair_canonical (h : s.canonical) (d r) : (s.takeRepair d r).canonical := by
  grind [takeRepair, modMgt_canonical]

theorem takeRow_canonical (h : s.canonical) (d noResource r) : (s.takeRow d noResource r).canonical := by
  grind [takeRow, modStack_canonical, log_canonical]

theorem openStacks_canonical (h : s.canonical) (d noResource badReserve) :
    (s.openStacks d noResource badReserve).canonical := by
  grind [openStacks, forEach_canonical, takeRepair_canonical, takeRow_canonical, modMgt_canonical, when_canonical,
    setFlag_canonical, orBit_canonical]

theorem fastRelease_canonical (h : s.canonical) : s.fastRelease.canonical := setFlag_canonical h ..

theorem errorPeriod_canonical (h : s.canonical) : s.errorPeriod.canonical := modMgt_canonical h ..

theorem warningClear_canonical (h : s.canonical) : s.warningClear.canonical := setFlag_canonical h ..

/-! ### Trust (14) -/

theorem modSec_canonical (h : s.canonical) (g) : (s.modSec g).canonical := h

theorem extendMr_canonical (h : s.canonical) (k d) : (s.extendMr k d).canonical := modSec_canonical h ..

theorem logEvent_canonical (h : s.canonical) (e) : (s.logEvent e).canonical := by
  grind [logEvent, bumpSat_canonical, modSec_canonical, setFlag_canonical]

theorem romMeasure_canonical (h : s.canonical) : s.romMeasure.canonical :=
  logEvent_canonical (extendMr_canonical (logEvent_canonical (extendMr_canonical h ..) ..) ..) ..

theorem secDone_canonical (h : s.canonical) (status results) : (s.secDone status results).canonical := by
  grind [secDone, mailboxResults_canonical, forEach_canonical, setF_canonical, setFlag_canonical, modSec_canonical]

theorem secCommand_canonical (h : s.canonical) (op body) (hb : ∀ s : State, s.canonical → (body s).canonical) :
    (s.secCommand op body).canonical := by
  grind [secCommand]

theorem loadImage_canonical (h : s.canonical) (image) : (s.loadImage image).canonical := by
  grind [loadImage, secCommand_canonical, secDone_canonical, modSec_canonical]

theorem spdmReset_canonical (h : s.canonical) : s.spdmReset.canonical := modSec_canonical h ..

theorem procStarts_canonical (h : s.canonical) (i) : (s.procStarts i).canonical := by
  grind [procStarts, spdmReset_canonical, logStart_canonical, modCp_canonical]

theorem imageCheck_canonical (h : s.canonical) : s.imageCheck.canonical := by
  grind [imageCheck, extendMr_canonical, logEvent_canonical, setF_canonical, setFlag_canonical, modSec_canonical,
    secDone_canonical, procStarts_canonical, bump_canonical]

theorem watchdog_canonical (h : s.canonical) (i) : (s.watchdog i).canonical := by
  grind [watchdog, setFlag_canonical, setF_canonical, bump_canonical, spdmReset_canonical, log_canonical, when_canonical,
    raise_canonical]

theorem report_canonical (h : s.canonical) : s.report.canonical := by
  grind [report, secCommand_canonical, secDone_canonical, bump_canonical]

theorem readLog_canonical (h : s.canonical) : s.readLog.canonical := by
  grind [readLog, secCommand_canonical, secDone_canonical]

theorem readChain_canonical (h : s.canonical) : s.readChain.canonical := by
  grind [readChain, secCommand_canonical, secDone_canonical]

theorem extendMrCommand_canonical (h : s.canonical) : s.extendMrCommand.canonical := by
  grind [extendMrCommand, secCommand_canonical, secDone_canonical, logEvent_canonical, extendMr_canonical]

theorem programFuse_canonical (h : s.canonical) : s.programFuse.canonical := by
  grind [programFuse, secCommand_canonical, secDone_canonical, canonical_with]

/-! ### Sideband (14, 15) -/

theorem freeOctets_canonical (h : s.canonical) (n) : (s.freeOctets n).2.canonical := by
  grind [freeOctets, freeList_canonical]

theorem answerSec_canonical (h : s.canonical) (bs) : (s.answerSec bs).canonical := modSec_canonical h ..

theorem spdmError_canonical (h : s.canonical) (code data) : (s.spdmError code data).canonical :=
  answerSec_canonical h ..

theorem spdmRequest_canonical (h : s.canonical) (code req body) (hb : ∀ s : State, s.canonical → (body s).canonical) :
    (s.spdmRequest code req body).canonical := by
  grind [spdmRequest]

theorem spdm12_canonical (h : s.canonical) (req ready body) (hb : ∀ s : State, s.canonical → (body s).canonical) :
    (s.spdm12 req ready body).canonical := by
  grind [spdm12, spdmError_canonical]

theorem spdmAnswer_canonical (h : s.canonical) (req resp) : (s.spdmAnswer req resp).canonical :=
  modSec_canonical (answerSec_canonical h ..) ..

theorem spdmGetVersion_canonical (h : s.canonical) (req) : (s.spdmGetVersion req).canonical := by
  grind [spdmGetVersion, spdmRequest_canonical, spdmError_canonical, spdmAnswer_canonical, spdmReset_canonical,
    modSec_canonical]

theorem spdmCapabilities_canonical (h : s.canonical) (req) : (s.spdmCapabilities req).canonical := by
  grind [spdmCapabilities, spdmRequest_canonical, spdm12_canonical, freeOctets_canonical, spdmAnswer_canonical,
    modSec_canonical]

theorem spdmAlgorithms_canonical (h : s.canonical) (req) : (s.spdmAlgorithms req).canonical := by
  grind [spdmAlgorithms, spdmRequest_canonical, spdm12_canonical, spdmError_canonical, modSec_canonical, spdmAnswer_canonical]

theorem spdmDigests_canonical (h : s.canonical) (req) : (s.spdmDigests req).canonical := by
  grind [spdmDigests, spdmRequest_canonical, spdm12_canonical, spdmAnswer_canonical]

theorem spdmCertificate_canonical (h : s.canonical) (req) : (s.spdmCertificate req).canonical := by
  grind [spdmCertificate, spdmRequest_canonical, spdm12_canonical, spdmError_canonical, spdmAnswer_canonical]

theorem spdmChallenge_canonical (h : s.canonical) (req) : (s.spdmChallenge req).canonical := by
  grind [spdmChallenge, spdmRequest_canonical, spdm12_canonical, spdmError_canonical, freeOctets_canonical,
    answerSec_canonical, bump_canonical, modSec_canonical]

theorem spdmMeasurements_canonical (h : s.canonical) (req) : (s.spdmMeasurements req).canonical := by
  grind [spdmMeasurements, spdmRequest_canonical, spdm12_canonical, spdmError_canonical, freeOctets_canonical,
    answerSec_canonical, bump_canonical, modSec_canonical]

theorem spdmOther_canonical (h : s.canonical) (req) : (s.spdmOther req).canonical := by
  grind [spdmOther, spdmError_canonical]

theorem mctpControl_canonical (h : s.canonical) (code req body) (hb : ∀ s : State, s.canonical → (body s).2.canonical) :
    (s.mctpControl code req body).canonical := by
  grind [mctpControl, answerSec_canonical]

theorem mctpSetEid_canonical (h : s.canonical) (req) : (s.mctpSetEid req).canonical := by
  grind [mctpSetEid, mctpControl_canonical, modSec_canonical]

theorem mctpGetEid_canonical (h : s.canonical) (req) : (s.mctpGetEid req).canonical := by
  grind [mctpGetEid, mctpControl_canonical]

theorem mctpVersion_canonical (h : s.canonical) (req) : (s.mctpVersion req).canonical := by
  grind [mctpVersion, mctpControl_canonical, freeOctets_canonical]

theorem mctpTypes_canonical (h : s.canonical) (req) : (s.mctpTypes req).canonical := by
  grind [mctpTypes, mctpControl_canonical]

theorem answerPldm_canonical (h : s.canonical) (req bs) : (s.answerPldm req bs).canonical :=
  modMgt_canonical h ..

theorem pldmTake_canonical (h : s.canonical) (req body) (hb : ∀ s : State, s.canonical → (body s).2.canonical) :
    (s.pldmTake req body).canonical := by
  grind [pldmTake, answerPldm_canonical, modMgt_canonical]

theorem pldm_canonical (h : s.canonical) (type cmd req body) (hb : ∀ s : State, s.canonical → (body s).2.canonical) :
    (s.pldm type cmd req body).canonical := by
  grind [pldm, pldmTake_canonical]

theorem pldmGetTid_canonical (h : s.canonical) (req) : (s.pldmGetTid req).canonical := by
  grind [pldmGetTid, pldm_canonical]

theorem pldmSetTid_canonical (h : s.canonical) (req) : (s.pldmSetTid req).canonical := by
  grind [pldmSetTid, pldm_canonical, modMgt_canonical]

theorem pldmVersion_canonical (h : s.canonical) (req) : (s.pldmVersion req).canonical := by
  grind [pldmVersion, pldm_canonical, freeOctets_canonical]

theorem pldmTypes_canonical (h : s.canonical) (req) : (s.pldmTypes req).canonical := by
  grind [pldmTypes, pldm_canonical]

theorem pldmCommands_canonical (h : s.canonical) (req) : (s.pldmCommands req).canonical := by
  grind [pldmCommands, pldm_canonical]

theorem pdr_canonical (h : s.canonical) (id) : (s.pdr id).2.canonical := by grind [pdr, freeOctets_canonical]

theorem pldmRepository_canonical (h : s.canonical) (req) : (s.pldmRepository req).canonical := by
  grind [pldmRepository, pldm_canonical, freeOctets_canonical]

theorem pldmGetPdr_canonical (h : s.canonical) (req) : (s.pldmGetPdr req).canonical := by
  grind [pldmGetPdr, pldm_canonical, pdr_canonical]

theorem pldmReading_canonical (h : s.canonical) (req) : (s.pldmReading req).canonical := by
  grind [pldmReading, pldm_canonical, freeOctets_canonical]

theorem pldmState_canonical (h : s.canonical) (req) : (s.pldmState req).canonical := by
  grind [pldmState, pldm_canonical, free_canonical, freeOctets_canonical]

theorem pldmOther_canonical (h : s.canonical) (req) : (s.pldmOther req).canonical := by
  grind [pldmOther, pldmTake_canonical]

theorem pldmAny_canonical (h : s.canonical) (req) : (s.pldmAny req).canonical :=
  pldmOther_canonical (pldmState_canonical (pldmReading_canonical (pldmGetPdr_canonical (pldmRepository_canonical
      (pldmCommands_canonical (pldmTypes_canonical (pldmVersion_canonical (pldmSetTid_canonical (pldmGetTid_canonical h ..) ..)
      ..) ..) ..) ..) ..) ..) ..) ..

theorem pldmResume_canonical (h : s.canonical) : s.pldmResume.canonical := by
  grind [pldmResume, forEach_canonical, modMgt_canonical, pldmAny_canonical]

theorem takeAddress_canonical (h : s.canonical) (addr) : (s.takeAddress addr).canonical := by
  grind [takeAddress, canonical_with]

/-! ### Power and reset (16, 17) -/

theorem tickClock_canonical (h : s.canonical) (n) : (s.tickClock n).canonical := by
  grind [tickClock, choose_canonical, bump_canonical, canonical_with]

theorem idle_canonical (h : s.canonical) : s.idle.canonical := by
  grind [idle, forEach_canonical, tickClock_canonical, orBit_canonical, canonical_with]

theorem modPower_canonical (h : s.canonical) (g) : (s.modPower g).canonical := h

theorem powerLost_canonical (s : State) : s.powerLost.canonical := ⟨rfl, rfl, resetFields_wf s.variant⟩

theorem powerOff_canonical (s : State) (latch) :
    (s.powerOff latch).canonical := modPower_canonical (powerLost_canonical s) _

theorem resetPart_canonical (h : s.canonical) (cause domain index) : (s.resetPart cause domain index).canonical :=
  bump_canonical (setF_canonical (setF_canonical (setF_canonical ⟨rfl, rfl, keptFields_wf h⟩ ..) ..) ..) ..

theorem alsoCause_canonical (h : s.canonical) (cause) : (s.alsoCause cause).canonical := by
  grind [alsoCause, setF_canonical]

theorem powerOnReset_canonical (h : s.canonical) : s.powerOnReset.canonical := by
  grind [powerOnReset, powerLost_canonical, modPower_canonical]

theorem partReset_canonical (h : s.canonical) : s.partReset.canonical := by
  grind [partReset, resetPart_canonical, alsoCause_canonical, modPower_canonical]

theorem keyWrite_canonical (h : s.canonical) (v) : (s.keyWrite v).canonical := by
  grind [keyWrite, modPower_canonical]

theorem delayExpiry_canonical (h : s.canonical) : s.delayExpiry.canonical := by
  grind [delayExpiry, resetPart_canonical, modPower_canonical, alsoCause_canonical]

theorem setupLock_canonical (h : s.canonical) : s.setupLock.canonical := by grind [setupLock, setFlag_canonical]

theorem refLost_canonical (h : s.canonical) : s.refLost.canonical := by
  grind [refLost, resetPart_canonical, alsoCause_canonical, modPower_canonical]

theorem refReturn_canonical (h : s.canonical) : s.refReturn.canonical := by grind [refReturn, modPower_canonical]

theorem pllLost_canonical (h : s.canonical) (domain index starting) :
    (s.pllLost domain index starting).canonical := by
  grind [pllLost, powerOff_canonical, modPower_canonical, resetPart_canonical]

theorem readFlashChain_canonical (h : s.canonical) (chain) : (s.readFlashChain chain).canonical :=
  setFlag_canonical (modSec_canonical h ..) ..

theorem trainStack_canonical (h : s.canonical) (fast slow k) : (s.trainStack fast slow k).canonical := by
  grind [trainStack, setF_canonical, log_canonical]

theorem hardwareStart_canonical (h : s.canonical) (r) : (s.hardwareStart r).canonical := by
  grind [hardwareStart, modPower_canonical, romMeasure_canonical, setF_canonical, readFlashChain_canonical, setFlag_canonical,
    portTrainingComplete_canonical, forEach_canonical, trainStack_canonical]

theorem startConverters_canonical (h : s.canonical) : s.startConverters.canonical :=
  modPower_canonical h ..

theorem enAssert_canonical (h : s.canonical) : s.enAssert.canonical := by
  grind [enAssert, startConverters_canonical, modPower_canonical]

theorem enDeassert_canonical (h : s.canonical) : s.enDeassert.canonical := by
  grind [enDeassert, modPower_canonical, powerOff_canonical]

theorem railOut_canonical (h : s.canonical) (r) : (s.railOut r).canonical := by grind [railOut, powerLost_canonical]

theorem railTimeout_canonical (h : s.canonical) : s.railTimeout.canonical := by
  grind [railTimeout, powerOff_canonical]

theorem overvoltage_canonical (h : s.canonical) : s.overvoltage.canonical := by
  grind [overvoltage, powerOff_canonical]

theorem undervoltage_canonical (s : State) : s.undervoltage.canonical := modPower_canonical (powerOff_canonical s _) _

theorem currentLimit_canonical (h : s.canonical) : s.currentLimit.canonical := by
  grind [currentLimit, powerOff_canonical]

theorem vinApplied_canonical (h : s.canonical) : s.vinApplied.canonical :=
  startConverters_canonical (modPower_canonical h ..) ..

theorem vcblOver_canonical (h : s.canonical) (k) : (s.vcblOver k).canonical := by
  grind [vcblOver, modPower_canonical]

theorem shutdownOff_canonical (h : s.canonical) : s.shutdownOff.canonical := by
  grind [shutdownOff, program_canonical, powerOff_canonical]

/-! ### Register window (00) -/

theorem regValue_canonical (h : s.canonical) (r i) : (s.regValue r i).2.canonical := by
  unfold regValue
  generalize 0 = n
  induction r.fields generalizing n s with
  | nil => exact h
  | cons x l ih => exact ih (by grind [free_canonical]) _

theorem regRead_canonical (h : s.canonical) (o n) : (s.regRead o n).2.canonical := by
  grind [regRead, bump_canonical, regValue_canonical]

theorem putField_canonical (h : s.canonical) (x i v) : (s.putField x i v).canonical := by
  grind [putField, setF_canonical]

theorem putFields_canonical (h : s.canonical) (r i v) : (s.putFields r i v).canonical := by
  grind [putFields, forEach_canonical, putField_canonical]

theorem renewLine_canonical (h : s.canonical) (l) : (s.renewLine l).canonical :=
  modCp_canonical (dropLine_canonical h ..) ..

theorem ctxCtrl_canonical (h : s.canonical) (c v) : (s.ctxCtrl c v).canonical := by
  grind [ctxCtrl, ctxOpen_canonical, ctxStart_canonical, ctxDestroy_canonical]

theorem mgtCommandWrite_canonical (h : s.canonical) (op) : (s.mgtCommandWrite op).canonical := by
  grind [mgtCommandWrite, setFlag_canonical, modMgt_canonical, mgtDone_canonical]

theorem secCommandWrite_canonical (h : s.canonical) (op) : (s.secCommandWrite op).canonical := by
  grind [secCommandWrite, setFlag_canonical, modSec_canonical, secDone_canonical]

theorem collSetup_canonical (h : s.canonical) (g v) : (s.collSetup g v).canonical := by
  grind [collSetup, collDisable_canonical, putFields_canonical, collEnable_canonical]

theorem dbgWrite_canonical (h : s.canonical) (p g) : (s.dbgWrite p g).canonical := by
  grind [dbgWrite, modGroup_canonical]

theorem regEffect_canonical (h : s.canonical) (r i v) : (s.regEffect r i v).canonical := by
  unfold regEffect
  grind [keyWrite_canonical, when_canonical, setupLock_canonical, ctxCtrl_canonical, putField_canonical, sqEnable_canonical,
    sqDisable_canonical, cqEnable_canonical, cqDisable_canonical, putFields_canonical, dropLine_canonical,
    renewLine_canonical, eringRetry_canonical, objTableBase_canonical, xltRingRetry_canonical, fabSetup_canonical,
    linkEnable_canonical, linkDisable_canonical, linkRetrain_canonical, collSetup_canonical, forEach_canonical,
    fabDeadClear_canonical, portRetrain_canonical, raisePending_canonical, quiesce_canonical, setF_canonical,
    mgtCommandWrite_canonical, modMgt_canonical, secCommandWrite_canonical, modSec_canonical, holdChanged_canonical,
    haltReq_canonical, resumeGang_canonical, clearHalt_canonical, grpHalt_canonical, grpResume_canonical, dbgWrite_canonical]

theorem regWrite_canonical (h : s.canonical) (o n v) : (s.regWrite o n v).canonical := by
  grind [regWrite, bump_canonical, regEffect_canonical]

theorem lcfgWrite_canonical (h : s.canonical) (k o v) : (s.lcfgWrite k o v).canonical := by
  unfold lcfgWrite
  grind [modPort_canonical, flushPort_canonical, forEach_canonical, raisePending_canonical]

theorem mmrd_canonical (h : s.canonical) (k h0) : (s.mmrd k h0).canonical := by
  grind [mmrd, nohome_canonical, sendMsg_canonical, bump_canonical, regRead_canonical]

theorem mmwr_canonical (h : s.canonical) (k h0 v) : (s.mmwr k h0 v).canonical := by
  grind [mmwr, nohome_canonical, free_canonical, bump_canonical, lcfgWrite_canonical, regWrite_canonical]

/-! ### JTAG (17) -/

theorem selectJtag_canonical (h : s.canonical) (ir x driven floated) :
    (s.selectJtag ir x driven floated).canonical := by
  grind [selectJtag, canonical_with]

theorem contacts_canonical (h : s.canonical) : s.contacts.2.canonical := by grind [contacts, free_canonical]

theorem samplePreload_canonical (h : s.canonical) (cells) : (s.samplePreload cells).canonical := by
  grind [samplePreload, contacts_canonical, selectJtag_canonical, canonical_with]

theorem takeContacts_canonical (h : s.canonical) (body) (hb : ∀ s : State, s.canonical → (body s).canonical) :
    LeavesCanonical (s.takeContacts body) := by
  unfold takeContacts
  split
  · trivial
  · exact hb s h

theorem execExtest_canonical (h : s.canonical) : LeavesCanonical (execExtest s) :=
  takeContacts_canonical h _ fun _ hs => selectJtag_canonical (contacts_canonical hs) ..

theorem execClamp_canonical (h : s.canonical) : LeavesCanonical (execClamp s) :=
  takeContacts_canonical h _ fun _ hs => selectJtag_canonical hs ..

theorem execHighz_canonical (h : s.canonical) : LeavesCanonical (execHighz s) :=
  takeContacts_canonical h _ fun _ hs => selectJtag_canonical hs ..

theorem jtagAccess_canonical (h : s.canonical) (dr) : (s.jtagAccess dr).canonical := by
  grind [jtagAccess, selectJtag_canonical, regWrite_canonical, regRead_canonical, canonical_with]

end State

/-! ### The commands -/

open State in
/-- Every command leaves a canonical state. -/
theorem exec_canonical {s : State} (h : s.canonical) (i : Instr) : LeavesCanonical (exec i s) :=
  match i with
  | .registerWrite .. => mmwr_canonical h ..
  | .mmrd .. => mmrd_canonical h ..
  | .registerAccess .. => jtagAccess_canonical h ..
  | .bypass => selectJtag_canonical h ..
  | .idcode => selectJtag_canonical h ..
  | .samplePreload .. => samplePreload_canonical h ..
  | .extest => execExtest_canonical h
  | .clamp => execClamp_canonical h
  | .highz => execHighz_canonical h
  | .tapReset => h
  | .launchMessage .. => launchMessage_canonical h ..
  | .kernelEnd .. => kernelEnd_canonical h ..
  | .instructionFetchFill .. => instructionFill_canonical h ..
  | .engineInstructionPush .. => enginePush_canonical h ..
  | .queueEntryFreed .. => entryFreed_canonical h ..
  | .engineInstructionComplete .. => engineComplete_canonical h ..
  | .streamStallLimit .. => stallLimit_canonical h ..
  | .broadcastReceive .. => broadcastReceive_canonical h ..
  | .broadcastCreditReturn .. => creditReturn_canonical h ..
  | .gangWaitComplete .. => gangWait_canonical h ..
  | .gangHalt .. => gangHalt_canonical h ..
  | .haltRecordsFinal .. => recordsFinal_canonical h ..
  | .haltReq .. => haltReq_canonical h ..
  | .seqCtrlResume .. => resumeGang_canonical h ..
  | .clearHalt .. => clearHalt_canonical h ..
  | .qnop .. => qnop_canonical h ..
  | .qend .. => qend_canonical h ..
  | .qadd .. => scalarOp_canonical h ..
  | .qsub .. => scalarOp_canonical h ..
  | .qmul .. => scalarOp_canonical h ..
  | .qand .. => scalarOp_canonical h ..
  | .qor .. => scalarOp_canonical h ..
  | .qxor .. => scalarOp_canonical h ..
  | .qshl .. => scalarOp_canonical h ..
  | .qshr .. => scalarOp_canonical h ..
  | .qsra .. => scalarOp_canonical h ..
  | .qmin .. => scalarOp_canonical h ..
  | .qmax .. => scalarOp_canonical h ..
  | .qminu .. => scalarOp_canonical h ..
  | .qmaxu .. => scalarOp_canonical h ..
  | .qslt .. => scalarOp_canonical h ..
  | .qsltu .. => scalarOp_canonical h ..
  | .qaddi .. => scalarImm_canonical h ..
  | .qandi .. => scalarImm_canonical h ..
  | .qori .. => scalarImm_canonical h ..
  | .qxori .. => scalarImm_canonical h ..
  | .qshli .. => scalarImm_canonical h ..
  | .qshri .. => scalarImm_canonical h ..
  | .qmuli .. => scalarImm_canonical h ..
  | .qmovi .. => qmovi_canonical h ..
  | .qmovi64 .. => qmovi64_canonical h ..
  | .qld .. => qld_canonical h ..
  | .qldsp .. => qldsp_canonical h ..
  | .qbr .. => qbr_canonical h ..
  | .qloop .. => qloop_canonical h ..
  | .qloopx .. => qloopx_canonical h ..
  | .qloopn .. => qloopn_canonical h ..
  | .qwait .. => qwait_canonical h ..
  | .tlaunch .. => tlaunch_canonical h ..
  | .tcarve .. => tcarve_canonical h ..
  | .tpreload .. => tpreload_canonical h ..
  | .tnop .. => tnop_canonical h ..
  | .groupPromotion .. => promote_canonical h ..
  | .loadReturn .. => loadReturn_canonical h ..
  | .storeBufferDrain .. => storeDrain_canonical h ..
  | .writeBufferDrain .. => writeDrain_canonical h ..
  | .groupNoProgress .. => noProgress_canonical h ..
  | .wayDisable .. => wayDisable_canonical h ..
  | .l1ErrorWindowEnd .. => windowEnd_canonical h ..
  | .grpDbgHalt .. => grpHalt_canonical h ..
  | .grpDbgResume .. => grpResume_canonical h ..
  | .grpDbgStep .. => grpResume_canonical h ..
  | .mov .. => intOp_canonical h ..
  | .add .. => intOp_canonical h ..
  | .sub .. => intOp_canonical h ..
  | .mul .. => intOp_canonical h ..
  | .mulhi .. => intOp_canonical h ..
  | .mulhiu .. => intOp_canonical h ..
  | .and .. => intOp_canonical h ..
  | .or .. => intOp_canonical h ..
  | .xor .. => intOp_canonical h ..
  | .shl .. => intOp_canonical h ..
  | .shr .. => intOp_canonical h ..
  | .sra .. => intOp_canonical h ..
  | .min .. => intOp_canonical h ..
  | .max .. => intOp_canonical h ..
  | .minu .. => intOp_canonical h ..
  | .maxu .. => intOp_canonical h ..
  | .adds .. => intOp_canonical h ..
  | .subs .. => intOp_canonical h ..
  | .addsu .. => intOp_canonical h ..
  | .subsu .. => intOp_canonical h ..
  | .cmp .. => intOp_canonical h ..
  | .sel .. => threadPure_canonical h ..
  | .add64 .. => threadPure_canonical h ..
  | .sub64 .. => threadPure_canonical h ..
  | .shfl .. => threadPure_canonical h ..
  | .fadd .. => floatOp_canonical h ..
  | .fsub .. => floatOp_canonical h ..
  | .fmul .. => floatOp_canonical h ..
  | .ffma .. => threadPure_canonical h ..
  | .fmin .. => floatOp_canonical h ..
  | .fmax .. => floatOp_canonical h ..
  | .fcmp .. => floatOp_canonical h ..
  | .fexp2 .. => approxInstr_canonical h ..
  | .flog2 .. => approxInstr_canonical h ..
  | .frcp .. => approxInstr_canonical h ..
  | .frsqrt .. => approxInstr_canonical h ..
  | .cvt .. => threadPure_canonical h ..
  | .ld .. => ld_canonical h ..
  | .st .. => st_canonical h ..
  | .atom .. => atom_canonical h ..
  | .nop .. => threadNop_canonical h ..
  | .bra .. => bra_canonical h ..
  | .brx .. => brx_canonical h ..
  | .elect .. => threadPure_canonical h ..
  | .vote .. => threadPure_canonical h ..
  | .thrEnd .. => thrEnd_canonical h ..
  | .cinv .. => cinv_canonical h ..
  | .barb .. => barb_canonical h ..
  | .membar .. => membar_canonical h ..
  | .semwait .. => semwait_canonical h ..
  | .semsig .. => semsig_canonical h ..
  | .gmma .. => gmma_canonical h ..
  | .umov .. => uniOp_canonical h ..
  | .uadd .. => uniOp_canonical h ..
  | .usub .. => uniOp_canonical h ..
  | .umul .. => uniOp_canonical h ..
  | .uand .. => uniOp_canonical h ..
  | .uor .. => uniOp_canonical h ..
  | .uxor .. => uniOp_canonical h ..
  | .ushl .. => uniOp_canonical h ..
  | .ushr .. => uniOp_canonical h ..
  | .uld .. => uld_canonical h ..
  | .uins16 .. => threadPure_canonical h ..
  | .mldp .. => mldp_canonical h ..
  | .mlut .. => mlut_canonical h ..
  | .mswap .. => mswap_canonical h ..
  | .mstr .. => mstr_canonical h ..
  | .mdrn .. => mdrn_canonical h ..
  | .mzero .. => mzero_canonical h ..
  | .mdly .. => mdly_canonical h ..
  | .gmmaBegin .. => gmmaBegin_canonical h ..
  | .gmmaResult .. => gmmaResult_canonical h ..
  | .gxfer .. => gxfer_canonical h ..
  | .gfill .. => gfill_canonical h ..
  | .gnop .. => gnop_canonical h ..
  | .gatherReadReturn .. => gatherReturn_canonical h ..
  | .ynop .. => ynop_canonical h ..
  | .yset .. => yset_canonical h ..
  | .ybar .. => ybar_canonical h ..
  | .ymembar .. => ymembar_canonical h ..
  | .yfsignal .. => yfsignal_canonical h ..
  | .yfwait .. => yfwait_canonical h ..
  | .ypoll .. => ypoll_canonical h ..
  | .ypollReread .. => ite_canonical (pollRead_canonical h ..) h
  | .semaphoreSignal .. => semaphoreSignal_canonical h ..
  | .barrierArrival .. => barrierArrival_canonical h ..
  | .barrierPublicationReceive .. => publicationReceive_canonical h ..
  | .fenceSignal .. => fenceSignal_canonical h ..
  | .fenceWaitSatisfied .. => fenceSatisfied_canonical h ..
  | .stackRead .. => stackRead_canonical h ..
  | .stackWrite .. => stackWrite_canonical h ..
  | .stackAtomic .. => stackAtomic_canonical h ..
  | .scrubRead .. => scrubRead_canonical h ..
  | .stackTemperatureRead .. => rerun_canonical (stackTemperature_canonical h ..)
  | .rowRemapComplete .. => rowRemapComplete_canonical h ..
  | .refetch .. => refetch_canonical h ..
  | .walkRequest .. => walkRequest_canonical h ..
  | .walkComplete .. => walkComplete_canonical h ..
  | .faultEntryAllocate .. => faultAllocate_canonical h ..
  | .faultRecordWrite .. => faultWrite_canonical h ..
  | .retry .. => retry_canonical h ..
  | .unserviceable .. => unserviceable_canonical h ..
  | .xltRingRetry => xltRingRetry_canonical h ..
  | .invalidationAck .. => invalAck_canonical h ..
  | .openCtx .. => ctxOpen_canonical h ..
  | .start .. => ctxStart_canonical h ..
  | .abort .. => ctxAbort_canonical h ..
  | .contextStopped .. => ctxStopped_canonical h ..
  | .destroy .. => ctxDestroy_canonical h ..
  | .sqEnable .. => sqEnable_canonical h ..
  | .sqDisable .. => sqDisable_canonical h ..
  | .cqEnable .. => cqEnable_canonical h ..
  | .cqDisable .. => cqDisable_canonical h ..
  | .hostLineReread .. => lineReread_canonical h ..
  | .descriptorFetch .. => descriptorFetch_canonical h ..
  | .launch .. => launch_canonical h ..
  | .copy .. => copy_canonical h ..
  | .compress .. => codecStart_canonical h ..
  | .decompress .. => codecStart_canonical h ..
  | .fence .. => fence_canonical h ..
  | .invalidate .. => invalidate_canonical h ..
  | .objRegister .. => objRegister_canonical h ..
  | .objRelease .. => objRelease_canonical h ..
  | .itemDispatch .. => itemDispatch_canonical h ..
  | .codecFrameComplete .. => codecFrame_canonical h ..
  | .completionRecordWrite .. => recordWrite_canonical h ..
  | .descriptorFenceSignal .. => descriptorSignal_canonical h ..
  | .errorRecordWrite .. => errorWrite_canonical h ..
  | .eringRingRetry => eringRetry_canonical h ..
  | .objTableBaseWrite .. => objTableBase_canonical h ..
  | .objectTableReady => objTableReady_canonical h ..
  | .interruptHoldoffExpiry .. => holdoffExpiry_canonical h ..
  | .flitReceive .. => flitReceive_canonical h ..
  | .credit .. => creditReceive_canonical h ..
  | .rds .. => hostRequest_canonical h ..
  | .rdo .. => hostRequest_canonical h ..
  | .rdnc .. => hostRequest_canonical h ..
  | .wrl .. => hostRequest_canonical h ..
  | .wrp .. => hostRequest_canonical h ..
  | .chlAtom .. => hostRequest_canonical h ..
  | .wb .. => hostGivesUp_canonical h ..
  | .evict .. => hostGivesUp_canonical h ..
  | .snpinv .. => hostSnoop_canonical h ..
  | .chlCmp .. => hostResponse_canonical h ..
  | .chlAck .. => snoopAck_canonical h ..
  | .ackd .. => snoopAckData_canonical h ..
  | .nohome .. => hostResponse_canonical h ..
  | .chlData .. => hostResponse_canonical h ..
  | .chlCompletionTimeout .. => completionTimeout_canonical h ..
  | .snoopTimeout .. => snoopTimeout_canonical h ..
  | .chlPortRetrain .. => portRetrain_canonical h ..
  | .frameReceive .. => frameReceive_canonical h ..
  | .laneLockLoss .. => laneLockLoss_canonical h ..
  | .fecWindowEnd .. => fecWindowEnd_canonical h ..
  | .linkEnable .. => linkEnable_canonical h ..
  | .linkDisable .. => linkDisable_canonical h ..
  | .fabLinkRetrain .. => ite_canonical (linkRetrain_canonical h ..) h
  | .linkTrainingComplete .. => linkTrained_canonical h ..
  | .linkDownRetry .. => ite_canonical (setF_canonical h ..) h
  | .retrainAttemptTimeout .. => ite_canonical (attemptFailed_canonical h ..) h
  | .fabSetupEnable .. => fabSetup_canonical h ..
  | .put .. => peerRequest_canonical h ..
  | .get .. => peerRequest_canonical h ..
  | .fabAtom .. => peerRequest_canonical h ..
  | .cput .. => cput_canonical h ..
  | .fabAck .. => peerResponse_canonical h ..
  | .fabData .. => peerResponse_canonical h ..
  | .fail .. => peerResponse_canonical h ..
  | .destDeadTimeout .. => destDeadTimeout_canonical h ..
  | .fabDeadClear .. => fabDeadClear_canonical h ..
  | .fabCollEnable .. => collEnable_canonical h ..
  | .collectiveContribution .. => contribution_canonical h ..
  | .collectiveRoundComplete .. => roundComplete_canonical h ..
  | .collectiveRoundTimeout .. => roundTimeout_canonical h ..
  | .load .. => loadImage_canonical h ..
  | .imageCheck => pldmResume_canonical (imageCheck_canonical h)
  | .report => report_canonical h ..
  | .readLog => readLog_canonical h ..
  | .readChain => readChain_canonical h ..
  | .extend => extendMrCommand_canonical h ..
  | .programFuse => programFuse_canonical h ..
  | .watchdogExpiry .. => watchdog_canonical h ..
  | .getVersion .. => spdmGetVersion_canonical h ..
  | .getCapabilities .. => spdmCapabilities_canonical h ..
  | .negotiateAlgorithms .. => spdmAlgorithms_canonical h ..
  | .getDigests .. => spdmDigests_canonical h ..
  | .getCertificate .. => spdmCertificate_canonical h ..
  | .challenge .. => spdmChallenge_canonical h ..
  | .getMeasurements .. => spdmMeasurements_canonical h ..
  | .spdmUnsupportedRequest .. => spdmOther_canonical h ..
  | .setEndpointId .. => mctpSetEid_canonical h ..
  | .getEndpointId .. => mctpGetEid_canonical h ..
  | .getMctpVersionSupport .. => mctpVersion_canonical h ..
  | .getMessageTypeSupport .. => mctpTypes_canonical h ..
  | .getTid .. => pldmGetTid_canonical h ..
  | .setTid .. => pldmSetTid_canonical h ..
  | .getPldmVersion .. => pldmVersion_canonical h ..
  | .getPldmTypes .. => pldmTypes_canonical h ..
  | .getPldmCommands .. => pldmCommands_canonical h ..
  | .getPdrRepositoryInfo .. => pldmRepository_canonical h ..
  | .getPdr .. => pldmGetPdr_canonical h ..
  | .getSensorReading .. => pldmReading_canonical h ..
  | .getStateSensorReadings .. => pldmState_canonical h ..
  | .pldmUnsupportedCommand .. => pldmOther_canonical h ..
  | .sensorRead => sensorRead_canonical h ..
  | .logInfo => logInfo_canonical h ..
  | .logRead => logRead_canonical h ..
  | .moultNominate => moultNominate_canonical h ..
  | .quiesce .. => quiesce_canonical h ..
  | .moult .. => moult_canonical h ..
  | .dieSensorSample .. => dieSensor_canonical h ..
  | .shutdownPowerOff => shutdownOff_canonical h ..
  | .pmbusRead .. => pmbus_canonical h ..
  | .dieEvaluation .. => dieEvaluation_canonical h ..
  | .fastCurrentLimit => fastLimit_canonical h ..
  | .fastLimitRelease => fastRelease_canonical h ..
  | .tileErrorPeriodEnd => errorPeriod_canonical h ..
  | .logRecordProgram => logProgram_canonical h ..
  | .logSectorErase => sectorErase_canonical h ..
  | .stacksOpen .. => openStacks_canonical h ..
  | .powerWarning .. => powerWarning_canonical h ..
  | .powerWarningClear => warningClear_canonical h ..
  | .powerOnReset => powerOnReset_canonical h ..
  | .partReset => partReset_canonical h ..
  | .hardwareStart .. => hardwareStart_canonical h ..
  | .partResetKeyWrite .. => keyWrite_canonical h ..
  | .setupLock => setupLock_canonical h ..
  | .refLost => refLost_canonical h ..
  | .refReturn => refReturn_canonical h ..
  | .pllLost .. => pllLost_canonical h ..
  | .pwrEnAssert .. => enAssert_canonical h ..
  | .pwrEnDeassert => enDeassert_canonical h ..
  | .railOutOfRegulation .. => railOut_canonical h ..
  | .railStartTimeout => railTimeout_canonical h ..
  | .vinOvervoltage => overvoltage_canonical h ..
  | .vinUndervoltage => undervoltage_canonical s
  | .inputCurrentLimitTimeout => currentLimit_canonical h ..
  | .vcblOvercurrent .. => vcblOver_canonical h ..
  | .chlPortTrainingComplete .. => portTrainingComplete_canonical h ..
  | .partResetDelayExpiry => delayExpiry_canonical h ..
  | .vinApplied => vinApplied_canonical h ..
  | .dynamicAddressAssignment .. => takeAddress_canonical h ..

theorem step_canonical {s : State} (h : s.canonical) : LeavesCanonical (step s) := by
  unfold step
  split
  · exact State.idle_canonical h
  · exact exec_canonical (State.canonical_with h ..) _

/-- Settles O59: a step on an empty queue is one REF cycle, any other runs the front command; both keep the form. -/
theorem stepKeepsCanonicalForm : Obligations.StepKeepsCanonicalForm := by
  intro s t h ht
  have hk := step_canonical h
  rwa [ht] at hk

end Sys2Proof.Machine
end

section
/-!
PROOF. Register accesses over port 0 (R8 to R11, R309): which accesses R10 refuses, what a read answers and in which message,
and what a write leaves in each field of a register that does nothing else.
-/
namespace Sys2Proof.Machine

/-! ### Bits -/

theorem bit_eq_testBit (x n : Nat) : bit x n = x.testBit n := by
  rw [bit, Nat.testBit_eq_decide_div_mod_eq]
  rfl

/-- Taking the common bits away from a number clears them, with no borrow. -/
theorem testBit_sub_and (a w b : Nat) : (a - (a &&& w)).testBit b = (a.testBit b && !w.testBit b) := by
  have hle : a &&& w ≤ a := Nat.and_le_left
  have hlow : (a &&& w) % 2 = 1 ↔ a % 2 = 1 ∧ w % 2 = 1 := Nat.and_mod_two_eq_one
  induction b generalizing a w with
  | zero =>
    rw [Bool.eq_iff_iff]
    simp only [Nat.testBit_zero, Bool.and_eq_true, Bool.not_eq_true', decide_eq_true_eq, decide_eq_false_iff_not]
    omega
  | succ b ih =>
    have hdiv : (a &&& w) / 2 = a / 2 &&& w / 2 := Nat.and_div_two
    have hhalf : (a - (a &&& w)) / 2 = a / 2 - (a / 2 &&& w / 2) := by omega
    rw [Nat.testBit_succ, Nat.testBit_succ, Nat.testBit_succ, hhalf]
    exact ih _ _ Nat.and_le_left Nat.and_mod_two_eq_one

/-! ### The tables of registers -/

theorem Reg.bytes_eq (r : Reg) : r.info.bytes = 4 ∨ r.info.bytes = 8 := by cases r <;> decide

theorem Reg.fields_nodup (r : Reg) : r.fields.Nodup := by cases r <;> decide

theorem Reg.reg_of_mem_fields (r : Reg) : ∀ x ∈ r.fields, x.info.reg = r := by cases r <;> decide

/-- A field lies within its register. -/
theorem Reg.hi_lt_of_mem_fields (r : Reg) : ∀ x ∈ r.fields, x.info.lo ≤ x.info.hi ∧ x.info.hi < 8 * r.info.bytes := by
  cases r <;> decide

/-- The bits of a field in a value written do not depend on those beyond the register. -/
theorem bits_mod_bytes {r : Reg} {x : Fld} (hx : x ∈ r.fields) (v : Nat) :
    bits (v % 2 ^ (8 * r.info.bytes)) x.info.hi x.info.lo = v / 2 ^ x.info.lo % 2 ^ x.width := by
  obtain ⟨hlo, hhi⟩ := r.hi_lt_of_mem_fields x hx
  have he : 8 * r.info.bytes = x.info.lo + (8 * r.info.bytes - x.info.lo) := by omega
  rw [bits, Fld.width, he, Nat.pow_add, Nat.mod_mul_right_div_self]
  exact Nat.mod_mod_of_dvd _ (Nat.pow_dvd_pow 2 (by omega))

/-! ### What R10 refuses -/

theorem accessRefused_iff {n : Nat} (hn : n = 4 ∨ n = 8) (o : Nat) : State.accessRefused o n = true ↔
    o % n ≠ 0 ∨ (∃ r i, regAt o = some (r, i) ∧ r.info.bytes ≠ n) ∨ (n = 8 ∧ regAt o = none ∧ regAt (o + 4) ≠ none) := by
  have hw : (n != 4 && n != 8) = false := by rcases hn with rfl | rfl <;> rfl
  rw [State.accessRefused, hw]
  rcases hr : regAt o with _ | ⟨r, i⟩
  · simp [Option.isSome_iff_ne_none]
  · simp

/-- An aligned access of a register's width is served. -/
theorem accessRefused_of_width {o n i : Nat} {r : Reg} (hn : n = 4 ∨ n = 8) (ho : o % n = 0)
    (hr : regAt o = some (r, i)) (hw : r.info.bytes = n) : State.accessRefused o n = false := by
  rw [← Bool.not_eq_true, accessRefused_iff hn]
  simp [ho, hr, hw]

/-- So is an aligned access that meets no register. -/
theorem accessRefused_of_none {o n : Nat} (hn : n = 4 ∨ n = 8) (ho : o % n = 0) (hr : regAt o = none)
    (h8 : n = 8 → regAt (o + 4) = none) : State.accessRefused o n = false := by
  rw [← Bool.not_eq_true, accessRefused_iff hn]
  simpa [ho, hr] using h8

/-! ### Messages of a port (R305) -/

/-- Sending what may go neither loses nor adds a message. -/
theorem Port.flushFrom_perm (p : Port) (l : List (Channel × Msg)) :
    ((p.flushFrom l).out ++ (p.flushFrom l).queue.map (·.2)).Perm (p.out ++ p.queue.map (·.2) ++ l.map (·.2)) := by
  induction l generalizing p with
  | nil => simp [Port.flushFrom]
  | cons x l ih =>
    obtain ⟨c, m⟩ := x
    rw [Port.flushFrom]
    split
    · refine (ih _).trans ?_
      simp
    · refine (ih _).trans ?_
      simp only [List.append_assoc, List.map_cons, List.singleton_append]
      exact List.Perm.append_left _ List.perm_middle.symm

namespace State

variable {s : State}

theorem sendMsg_frame (k : Nat) (c : Channel) (hdr : Nat) (data : List Byte) :
    s.sendMsg k c hdr data = { s with chl := (s.sendMsg k c hdr data).chl } := by
  unfold sendMsg
  split
  · rfl
  · unfold flushPort
    split <;> rfl

/-- A port that is UP has one message more, sent or queued. -/
theorem msgSent_sendMsg {k : Nat} (hup : s.portUp k = true) (c : Channel) {hdr : Nat} {data : List Byte} {ok : Msg → Prop}
    (hok : ok ⟨hdr, data⟩) : MsgSent s (s.sendMsg k c hdr data) k ok := by
  have hst : s.f .CHL_PORT_STATUS_STATE k = 2 := by simpa [portUp] using hup
  refine ⟨⟨hdr, data⟩, hok, ?_⟩
  have hup' : (s.modPort k fun p => { p with queue := p.queue ++ [(c, ⟨hdr, data⟩)] }).portUp k = true := hup
  rw [sendMsg, hst, if_neg (by decide), flushPort, if_pos hup', port_modPort_self, port_modPort_self]
  refine (Port.flushFrom_perm _ _).trans ?_
  simp

/-- The message is one more than those of an earlier state whose port is the same. -/
theorem msgSent_of_port_eq {t u : State} {k : Nat} {ok : Msg → Prop} (hp : t.port k = s.port k) (h : MsgSent t u k ok) :
    MsgSent s u k ok := by
  obtain ⟨m, hok, hm⟩ := h
  exact ⟨m, hok, hp ▸ hm⟩

end State

theorem Msg.tag_lt (h : Nat) : Msg.tag h < 2 ^ 12 := Nat.mod_lt _ (by decide)

/-- A message reads its type, its tag and its poison bit from its header. -/
theorem Msg.is_header {type tag : Nat} (ht : type < 2 ^ 6) (hg : tag < 2 ^ 12) (addr : Nat) (data : List Byte) :
    Msg.Is type tag data false ⟨Msg.header type tag addr, data⟩ := by
  simp only [Msg.Is, Msg.header, bit, b2n, and_true, beq_eq_false_iff_ne, ne_eq]
  simp only [Bool.false_eq_true, if_false]
  omega

namespace State

variable {s : State}

/-! ### Accesses in the register window -/

theorem length_of_regMsgOk {ty h : Nat} (hok : regMsgOk ty h = true) : Msg.length h = 4 ∨ Msg.length h = 8 := by
  simp only [regMsgOk, Bool.and_eq_true, Bool.or_eq_true, beq_iff_eq] at hok
  exact hok.1.2

/-- An MMRD in the window answers with what the register read gives. -/
theorem mmrd_window {h o : Nat} (hup : s.portUp 0 = true) (hok : regMsgOk 0x38 h = true) (hcfg : Msg.cfg h = false)
    (ho : s.windowOffset 0 (Msg.addr h) = some o) :
    s.mmrd 0 h = (s.regRead o (Msg.length h)).2.sendMsg 0 .nc (Msg.header 0x3A (Msg.tag h) (Msg.addr h))
      (toLE 16 (s.regRead o (Msg.length h)).1) := by
  simp [mmrd, hup, hok, hcfg, ho]

/-- An MMWR in the window without poison is the register write. -/
theorem mmwr_window {h o : Nat} (v : Nat) (hup : s.portUp 0 = true) (hok : regMsgOk 0x39 h = true) (hcfg : Msg.cfg h = false)
    (hpo : Msg.poison h = false) (ho : s.windowOffset 0 (Msg.addr h) = some o) :
    s.mmwr 0 h v = s.regWrite o (Msg.length h) v := by
  simp [mmwr, hup, hok, hcfg, hpo, ho]

/-- The answer to an MMRD whose register read changes register fields and free values at most. -/
theorem exec_mmrd_answers {t : State} {h : BitVec 128} {o n v : Nat} (hup : s.portUp 0 = true)
    (hok : regMsgOk 0x38 h.toNat = true) (hcfg : Msg.cfg h.toNat = false) (hn : Msg.length h.toNat = n)
    (ho : s.windowOffset 0 (Msg.addr h.toNat) = some o) (hr : s.regRead o n = (v, t)) (ht : s.onlyFields t)
    (hst : t.f .CHL_PORT_STATUS_STATE = s.f .CHL_PORT_STATUS_STATE) :
    ∃ u, exec (.mmrd 0 h) s = .next u ∧ s.sameMem u ∧ u.tiles = s.tiles ∧ u.fields = t.fields
      ∧ MsgSent s u 0 (Msg.Is 0x3A (Msg.tag h.toNat) (toLE 16 v) false) := by
  have hx : exec (.mmrd 0 h) s = .next (t.sendMsg 0 .nc (Msg.header 0x3A (Msg.tag h.toNat) (Msg.addr h.toNat)) (toLE 16 v)) := by
    show Host.Outcome.next (s.mmrd 0 h.toNat) = _
    rw [mmrd_window hup hok hcfg ho, hn, hr]
  have hup' : t.portUp 0 = true := by rw [portUp, hst]; exact hup
  have hm : MsgSent t _ 0 (Msg.Is 0x3A (Msg.tag h.toNat) (toLE 16 v) false) :=
    msgSent_sendMsg hup' .nc (Msg.is_header (by decide) (Msg.tag_lt h.toNat) (Msg.addr h.toNat) (toLE 16 v))
  refine ⟨_, hx, fun c => ?_, ?_, ?_, msgSent_of_port_eq ?_ hm⟩
  · rw [sendMsg_frame, ht]; rfl
  · rw [sendMsg_frame, ht]
  · rw [sendMsg_frame]
  · rw [ht]; rfl

/-! ### Reads -/

theorem bump_onlyFields (c : Fld) (i n : Nat) : s.onlyFields (s.bump c i n) := by
  unfold bump onlyFields
  dsimp only
  split
  · rfl
  · split <;> rfl

/-- A refused access counts one access error, in its counter or in the wrap bit too. -/
theorem accessError_fieldsBut : s.fieldsBut (s.bump .GLB_ACCESS_ERRORS_COUNT) (withWraps [(.GLB_ACCESS_ERRORS_COUNT, 0)]) := by
  intro x i hx
  have hw : withWraps [(.GLB_ACCESS_ERRORS_COUNT, 0)] =
      [(.GLB_ACCESS_ERRORS_COUNT, 0), (.GLB_COUNTER_WRAP_ACCESS_WRAPPED, 0)] := rfl
  simp only [hw, List.mem_cons, List.not_mem_nil, or_false, not_or] at hx
  refine f_bump_other s 1 hx.1 fun w k b h => ?_
  cases h
  exact hx.2

theorem accessError_counts (h : s.f .GLB_ACCESS_ERRORS_COUNT + 1 < 2 ^ 64) :
    (s.bump .GLB_ACCESS_ERRORS_COUNT).f .GLB_ACCESS_ERRORS_COUNT = s.f .GLB_ACCESS_ERRORS_COUNT + 1 :=
  f_bump_self s _ 0 1 rfl h

/-- A loop whose steps each add to a sum and leave the state alone. -/
theorem foldl_eq_sum {α : Type} {f : Nat × State → α → Nat × State} {g : α → Nat} (l : List α)
    (hf : ∀ x ∈ l, ∀ n, f (n, s) x = (n + g x, s)) (n : Nat) : l.foldl f (n, s) = (n + (l.map g).sum, s) := by
  induction l generalizing n with
  | nil => rfl
  | cons x l ih =>
    rw [List.foldl_cons, hf x (List.mem_cons_self ..), ih fun y hy => hf y (List.mem_cons_of_mem _ hy), List.map_cons,
      List.sum_cons, Nat.add_assoc]

/-- A register whose fields all have a value reads as the sum of the fields in their places, and the read changes nothing. -/
theorem regValue_eq {r : Reg} {i : Nat} (hx : ∀ x ∈ r.fields, (s.fieldValue x i).isSome = true) :
    s.regValue r i = ((r.fields.map fun x => (s.fieldValue x i).getD 0 % 2 ^ x.width * 2 ^ x.info.lo).sum, s) := by
  rw [← Nat.zero_add (List.sum _)]
  refine foldl_eq_sum r.fields (fun x hmem n => ?_) 0
  obtain ⟨v, hv⟩ := Option.isSome_iff_exists.mp (hx x hmem)
  simp [hv]

theorem regRead_refused {o n : Nat} (h : accessRefused o n = true) :
    s.regRead o n = (2 ^ (8 * n) - 1, s.bump .GLB_ACCESS_ERRORS_COUNT) := by rw [regRead, if_pos h]

theorem regRead_none {o n : Nat} (h : accessRefused o n = false) (hr : regAt o = none) : s.regRead o n = (0, s) := by
  simp [regRead, h, hr]

theorem regRead_some {o n i : Nat} {r : Reg} (h : accessRefused o n = false) (hr : regAt o = some (r, i)) :
    s.regRead o n = if s.regPresent r i = true then s.regValue r i else (0, s) := by
  simp [regRead, h, hr]

/-! ### Writes -/

theorem regWrite_refused {o n : Nat} (v : Nat) (h : accessRefused o n = true) :
    s.regWrite o n v = s.bump .GLB_ACCESS_ERRORS_COUNT := by rw [regWrite, if_pos h]

theorem regWrite_none {o n : Nat} (v : Nat) (h : accessRefused o n = false) (hr : regAt o = none) : s.regWrite o n v = s := by
  simp [regWrite, h, hr]

theorem regWrite_some {o n i : Nat} {r : Reg} (v : Nat) (h : accessRefused o n = false) (hr : regAt o = some (r, i)) :
    s.regWrite o n v =
      if s.regPresent r i = true ∧ s.writeHeld r i = false then s.regEffect r i (v % 2 ^ (8 * n)) else s := by
  simp [regWrite, h, hr]

theorem putField_onlyFields (x : Fld) (i v : Nat) : s.onlyFields (s.putField x i v) := by
  unfold putField
  cases x.info.acc with
  | ro | wo | rw | w1c => rfl
  | rwl => dsimp only; split <;> rfl

theorem f_putField_other {x y : Fld} {i j : Nat} (v : Nat) (h : (y, j) ≠ (x, i)) : (s.putField x i v).f y j = s.f y j := by
  unfold putField
  cases x.info.acc with
  | ro | wo => rfl
  | rw | w1c => exact f_setF_other s _ h
  | rwl => dsimp only; split; exacts [rfl, f_setF_other s _ h]

/-- The value that a write of `w` leaves in a field, by its access code (R11). -/
def written (s : State) (x : Fld) (i w : Nat) : Nat :=
  match x.info.acc with
  | .ro | .wo => s.f x i
  | .rw => s.clampField x i w % 2 ^ x.width
  | .rwl => if s.flag .CLK_LOCK_SETUP_LOCK then s.f x i else s.clampField x i w % 2 ^ x.width
  | .w1c => (s.f x i - (s.f x i &&& w)) % 2 ^ x.width

theorem f_putField_self (x : Fld) (i v : Nat) : (s.putField x i v).f x i = s.written x i (bits v x.info.hi x.info.lo) := by
  unfold putField written
  cases x.info.acc with
  | ro | wo => rfl
  | rw | w1c => exact f_setF_self s ..
  | rwl => dsimp only; split; exacts [rfl, f_setF_self s ..]

theorem onlyFields_trans {t u : State} (h : s.onlyFields t) (h' : t.onlyFields u) : s.onlyFields u := by
  rw [onlyFields] at h' ⊢
  rw [h', h]

/-- But for TRIP_C, whose bound is another field, a clamp depends on nothing that a field write changes. -/
theorem clampField_of_onlyFields {t : State} (h : s.onlyFields t) {x : Fld} (hx : x ≠ .HBM_SETUP_TRIP_C) (i w : Nat) :
    t.clampField x i w = s.clampField x i w := by
  rw [h]
  unfold clampField
  split
  case h_9 => exact absurd rfl hx
  all_goals rfl

/-- What a write leaves in a field depends on that field, its clamp and the lock alone. -/
theorem written_of_onlyFields {t : State} (h : s.onlyFields t) {x : Fld} (hx : x ≠ .HBM_SETUP_TRIP_C) {i : Nat}
    (hf : t.f x i = s.f x i) (hl : t.flag .CLK_LOCK_SETUP_LOCK = s.flag .CLK_LOCK_SETUP_LOCK) (w : Nat) :
    t.written x i w = s.written x i w := by
  unfold written
  rw [clampField_of_onlyFields h hx, hf, hl]

/-! A write of several fields, in order. -/

theorem foldl_putField_onlyFields (l : List Fld) (i v : Nat) : s.onlyFields (l.foldl (fun s x => s.putField x i v) s) := by
  induction l generalizing s with
  | nil => rfl
  | cons x l ih => exact onlyFields_trans (putField_onlyFields x i v) ih

theorem f_foldl_putField_other {l : List Fld} {i j v : Nat} {y : Fld} (h : (y, j) ∉ l.map (·, i)) :
    (l.foldl (fun s x => s.putField x i v) s).f y j = s.f y j := by
  induction l generalizing s with
  | nil => rfl
  | cons x l ih =>
    rw [List.map_cons, List.mem_cons, not_or] at h
    exact (ih h.2).trans (f_putField_other v h.1)

theorem f_foldl_putField_mem {l : List Fld} (hn : l.Nodup) (hlock : Fld.CLK_LOCK_SETUP_LOCK ∉ l) {x : Fld} (hx : x ∈ l)
    (ht : x ≠ .HBM_SETUP_TRIP_C) (i v : Nat) :
    (l.foldl (fun s x => s.putField x i v) s).f x i = s.written x i (bits v x.info.hi x.info.lo) := by
  induction l generalizing s with
  | nil => cases hx
  | cons y l ih =>
    obtain ⟨hy, hn⟩ := List.nodup_cons.mp hn
    rw [List.mem_cons, not_or] at hlock
    rw [List.foldl_cons]
    by_cases hxy : x = y
    · subst hxy
      rw [f_foldl_putField_other (by simpa using hy), f_putField_self]
    · have hother : ∀ {z : Fld} {j : Nat}, z ≠ y → (s.putField y i v).f z j = s.f z j :=
        fun hz => f_putField_other v fun e => hz (Prod.mk.inj e).1
      rw [ih hn hlock.2 (List.mem_of_ne_of_mem hxy hx)]
      refine written_of_onlyFields (putField_onlyFields y i v) ht (hother hxy) ?_ _
      rw [flag, flag, hother hlock.1]

theorem holdChanged_of_not_halted (i : Nat) (h : ∀ q ∈ s.gangTiles i, (s.tile q).seq.halt = none) : s.holdChanged i = s := by
  have hne : s.gangTiles i ≠ [] := by
    unfold gangTiles
    split
    · simp
    · simp
  obtain ⟨q, l, hq⟩ := List.exists_cons_of_ne_nil hne
  have hall : (s.gangTiles i).all (fun q => (s.tile q).seq.halt.isSome && (s.tile q).seq.final) = false := by
    rw [List.all_eq_false]
    exact ⟨q, by simp [hq], by simp [h q (by simp [hq])]⟩
  simp [holdChanged, hall]

/-- A write of a register that does nothing else sets its fields; one of SEQ_SETUP, where no tile of the gang has halted. -/
theorem regEffect_of_not_acting {r : Reg} {i : Nat} (hr : r ∉ actingRegs)
    (hs : r = .SEQ_SETUP → ∀ q ∈ s.gangTiles i, (s.tile q).seq.halt = none) (v : Nat) :
    s.regEffect r i v = s.putFields r i v := by
  unfold regEffect
  split
  case h_24 =>
    have ho : s.onlyFields (s.putFields .SEQ_SETUP i v) := foldl_putField_onlyFields ..
    refine holdChanged_of_not_halted i ?_
    rw [ho]
    exact hs rfl
  case h_30 => rfl
  all_goals exact absurd (by decide) hr

/-- A write of a register of width `n` that does nothing else leaves in each of its fields what the access code says. -/
theorem f_putFields_mem {r : Reg} (hr : r ∉ actingRegs) {x : Fld} (hx : x ∈ r.fields) (ht : x ≠ .HBM_SETUP_TRIP_C) (i v : Nat) :
    (s.putFields r i (v % 2 ^ (8 * r.info.bytes))).f x i = s.written x i (v / 2 ^ x.info.lo % 2 ^ x.width) := by
  have hlock : Fld.CLK_LOCK_SETUP_LOCK ∉ r.fields := by
    intro hm
    obtain rfl : Reg.CLK_LOCK = r := r.reg_of_mem_fields _ hm
    exact hr (by decide)
  rw [putFields, forEach, f_foldl_putField_mem r.fields_nodup hlock hx ht, bits_mod_bytes hx]

theorem exec_registerWrite_window {h : BitVec 128} {o n : Nat} (v : W64) (hup : s.portUp 0 = true)
    (hok : regMsgOk 0x39 h.toNat = true) (hcfg : Msg.cfg h.toNat = false) (hpo : Msg.poison h.toNat = false)
    (hn : Msg.length h.toNat = n) (ho : s.windowOffset 0 (Msg.addr h.toNat) = some o) :
    exec (.registerWrite 0 h v) s = .next (s.regWrite o n v.toNat) := by
  rw [← hn, ← mmwr_window v.toNat hup hok hcfg hpo ho]
  rfl

end State

open State in
/-- Settles O54: a read answers what `regRead` gives, a write is `regWrite`; R10's test splits both, and a register that does
nothing else takes its fields one after the other. -/
theorem registerAccesses : Obligations.RegisterAccesses := by
  refine ⟨Reg.bytes_eq, fun s h o n hup hok hcfg hn ho => ?_, fun s h v o n hup hok hcfg hpo hn ho => ?_⟩
  · have hw : n = 4 ∨ n = 8 := hn ▸ length_of_regMsgOk hok
    intro reads
    have still : ∀ {v}, s.regRead o n = (v, s) → reads v := fun hr =>
      have ⟨u, hx, hmem, htiles, _, hm⟩ := exec_mmrd_answers hup hok hcfg hn ho hr rfl rfl
      ⟨u, hx, hmem, htiles, hm⟩
    refine ⟨fun hbad => ?_, fun r i hr ha hb hp => still ?_, fun hr ha h8 => still ?_, fun r i hr ha hb hp hv => still ?_⟩
    · have hr := regRead_refused (s := s) ((accessRefused_iff hw o).mpr hbad)
      obtain ⟨u, hx, hmem, htiles, hf, hm⟩ := exec_mmrd_answers hup hok hcfg hn ho hr (bump_onlyFields ..)
        (accessError_fieldsBut _ _ (by decide))
      refine ⟨⟨u, hx, hmem, htiles, hm⟩, u, hx, fun hc => ?_⟩
      rw [f, hf]
      exact accessError_counts hc
    · rw [regRead_some (accessRefused_of_width hw ha hr hb) hr, hp, if_neg (by decide)]
    · exact regRead_none (accessRefused_of_none hw ha hr h8) hr
    · rw [regRead_some (accessRefused_of_width hw ha hr hb) hr, if_pos hp, regValue_eq hv]
  · have hw : n = 4 ∨ n = 8 := hn ▸ length_of_regMsgOk hok
    rw [exec_registerWrite_window v hup hok hcfg hpo hn ho]
    refine ⟨fun hbad => ?_, fun r i hr ha hb hp => ?_, fun hr ha h8 => ?_, fun r i hr ha hb hp hh hact hseq => ?_⟩
    · rw [regWrite_refused _ ((accessRefused_iff hw o).mpr hbad)]
      exact ⟨_, rfl, bump_onlyFields .., accessError_fieldsBut, accessError_counts⟩
    · rw [regWrite_some _ (accessRefused_of_width hw ha hr hb) hr, if_neg (by simp [hp])]
    · rw [regWrite_none _ (accessRefused_of_none hw ha hr h8) hr]
    · rw [regWrite_some _ (accessRefused_of_width hw ha hr hb) hr, if_pos ⟨hp, hh⟩, regEffect_of_not_acting hact hseq, ← hb]
      refine ⟨_, rfl, foldl_putField_onlyFields .., fun x j hx => f_foldl_putField_other hx, fun x hx ht => ?_⟩
      intro w
      rw [show _ = s.written x i w from f_putFields_mem hact hx ht i v.toNat]
      clear_value w
      unfold State.written
      cases x.info.acc with
      | ro | wo | rw | rwl => rfl
      | w1c =>
        intro b hb
        simp only [bit_eq_testBit, Nat.testBit_mod_two_pow, testBit_sub_and, hb, decide_true, Bool.true_and]

end Sys2Proof.Machine
end

section
/-!
PROOF. What updates of tiles, slots and queues show (R27, R31, R40): the part of a tile that an update does not name, the gang
of a tile, and loops over tiles.
-/
namespace Sys2Proof.Machine

namespace State

variable {s : State}

/-- What an update of one tile leaves alone in every tile, it leaves alone in all of them. -/
theorem apply_tile_modTile {β : Type} (φ : Tile → β) {g : Tile → Tile} (q p : Nat)
    (hg : ∀ x, φ (g x) = φ x := by intro x; rfl) :
    φ ((s.modTile q g).tile p) = φ (s.tile p) := by
  by_cases h : p = q
  · rw [h, tile_modTile_self, hg]
  · rw [tile_modTile_other s g h]

section
variable (s) (q k p : Nat)

@[simp] theorem slot_of_modSlot (g : Slot → Slot) : ((s.modSlot p k g).tile p).slot k = g ((s.tile p).slot k) := by
  rw [modSlot, tile_modTile_self, slot_modSlot_self]

@[simp] theorem queue_of_modSlot (g : Slot → Slot) (j : Nat) : ((s.modSlot q k g).tile p).queue j = (s.tile p).queue j :=
  apply_tile_modTile (·.queue j) q p

@[simp] theorem syn_of_modSlot (g : Slot → Slot) : ((s.modSlot q k g).tile p).syn = (s.tile p).syn :=
  apply_tile_modTile (·.syn) q p

@[simp] theorem spad_of_modSlot (g : Slot → Slot) : ((s.modSlot q k g).tile p).spad = (s.tile p).spad :=
  apply_tile_modTile (·.spad) q p

@[simp] theorem kernel_of_modSlot (g : Slot → Slot) : ((s.modSlot q k g).tile p).seq.kernel = (s.tile p).seq.kernel :=
  apply_tile_modTile (·.seq.kernel) q p

@[simp] theorem live_of_modSlot (g : Slot → Slot) : ((s.modSlot q k g).tile p).live = (s.tile p).live :=
  apply_tile_modTile (·.live) q p

@[simp] theorem slot_of_modSyn (g : Syn → Syn) : ((s.modSyn q g).tile p).slot k = (s.tile p).slot k :=
  apply_tile_modTile (·.slot k) q p

@[simp] theorem syn_of_modSyn (g : Syn → Syn) : ((s.modSyn p g).tile p).syn = g (s.tile p).syn := by
  rw [modSyn, tile_modTile_self]

@[simp] theorem kernel_of_modSyn (g : Syn → Syn) : ((s.modSyn q g).tile p).seq.kernel = (s.tile p).seq.kernel :=
  apply_tile_modTile (·.seq.kernel) q p

@[simp] theorem live_of_modSyn (g : Syn → Syn) : ((s.modSyn q g).tile p).live = (s.tile p).live :=
  apply_tile_modTile (·.live) q p

end

@[simp] theorem tile_bump (s : State) (c : Fld) (i n : Nat) : (s.bump c i n).tile = s.tile := by
  funext p
  simp [tile]

theorem onlyTiles_trans {t u : State} (h : s.onlyTiles t) (h' : t.onlyTiles u) : s.onlyTiles u := by
  rw [onlyTiles] at h' ⊢
  rw [h', h]

theorem onlyTiles_modTile (s : State) (p : Nat) (g : Tile → Tile) : s.onlyTiles (s.modTile p g) := rfl
theorem onlyTiles_modSlot (s : State) (p k : Nat) (g : Slot → Slot) : s.onlyTiles (s.modSlot p k g) := rfl
theorem onlyTiles_modQueue (s : State) (p k : Nat) (g : Queue → Queue) : s.onlyTiles (s.modQueue p k g) := rfl
theorem onlyTiles_modSyn (s : State) (p : Nat) (g : Syn → Syn) : s.onlyTiles (s.modSyn p g) := rfl
theorem onlyTiles_advance (s : State) (p k n : Nat) : s.onlyTiles (s.advance p k n) := rfl

theorem memByte_congr {t : State} (h : t.mem = s.mem) (c : Nat) : t.memByte c = s.memByte c := by rw [memByte, memByte, h]

@[simp] theorem failAt_mem (s : State) (it : Option (Nat × Nat × Nat)) (code : Nat) : (s.failAt it code).mem = s.mem := by
  cases it <;> rfl

/-- Two states with the same kernel in a tile and the same repair state show the tile in the same gang. -/
theorem gangTiles_congr {t : State} {p : Nat} (hk : (t.tile p).seq.kernel = (s.tile p).seq.kernel) (hm : t.mgt = s.mgt) :
    t.gangTiles p = s.gangTiles p := by
  have hp : t.physOf = s.physOf := by funext d l; simp only [physOf, hm]
  have hl : t.localOf = s.localOf := by funext q; simp only [localOf, hp]
  rw [gangTiles, gangTiles, hk, hp, hl]

/-- A stream that can execute belongs to a tile that runs. -/
theorem live_of_streamLive {p k : Nat} {who : StreamId} (h : s.streamLive p k who = true) : (s.tile p).live = true := by
  simp only [streamLive, Bool.and_eq_true] at h
  obtain ⟨⟨⟨⟨⟨hrun, hhalt⟩, -⟩, -⟩, -⟩, -⟩ := h
  simp [Tile.live, hrun, hhalt]

end State

end Sys2Proof.Machine
end

section
/-!
PROOF. The stream instructions that do not compute (R29, R30, R34, R37, R165 to R167): control, reads and waits. Each legal
instruction at the stream's program counter is one update of the stream's slot, or a read followed by one.
-/
namespace Sys2Proof.Machine

/-- A branch that R164 gives a condition is taken where that condition holds. -/
theorem branchHolds_iff {c : BitVec 3} (hc : c ≠ 7) (a b : W64) : branchHolds c.toNat a b = true ↔
    c = 0 ∨ (c = 1 ∧ a = b) ∨ (c = 2 ∧ a ≠ b) ∨ (c = 3 ∧ a.toInt < b.toInt) ∨ (c = 4 ∧ b.toInt ≤ a.toInt)
      ∨ (c = 5 ∧ a.toNat < b.toNat) ∨ (c = 6 ∧ b.toNat ≤ a.toNat) := by
  have hall : ∀ c : BitVec 3, c ≠ 7 → c = 0 ∨ c = 1 ∨ c = 2 ∨ c = 3 ∨ c = 4 ∨ c = 5 ∨ c = 6 := by decide
  rcases hall c hc with rfl | rfl | rfl | rfl | rfl | rfl | rfl <;>
    simp [branchHolds, BitVec.slt, BitVec.ult]

/-- The fields of a QBR that R164 and R188 allow. -/
def BranchLegal (f : ScalarB) : Prop :=
  f.len = 0 ∧ f.rsv0 = 0 ∧ f.cond ≠ 7 ∧ (f.cond = 0 → f.a = 0 ∧ f.b = 0) ∧ f.offset.toNat % 8 = 0

theorem qbr_legal {f : ScalarB} (h : BranchLegal f) : (f.clean && f.cond != 7 && (f.cond != 0 || (f.a == 0 && f.b == 0))
    && f.offset.toNat % 8 == 0) = true := by
  obtain ⟨hlen, hrsv, hcond, hab, hoff⟩ := h
  simp only [ScalarB.clean, Bool.and_eq_true, Bool.or_eq_true, bne_iff_ne, beq_iff_eq]
  exact ⟨⟨⟨⟨hlen, hrsv⟩, hcond⟩, Classical.or_iff_not_imp_left.mpr fun h => hab (not_not.mp h)⟩, hoff⟩

/-- A branch's own address and its offset, added in 64 bits or without bound, name the same target. -/
theorem toNat_add_mod_va (pc : Nat) (x : W64) : (BitVec.ofNat 64 pc + x).toNat % 2 ^ 56 = (pc + x.toNat) % 2 ^ 56 := by
  rw [BitVec.toNat_add, BitVec.toNat_ofNat]
  omega

namespace State

variable {s : State} {p : Nat} {k : StreamId}

/-! ### Control (R29, R30, R37, R166) -/

theorem qnop_eq (h : StreamAt s p k 8 (ScalarR.word 0x01 ⟨0, 0, 0, 0, 0, 0⟩)) :
    s.qnop p k ⟨0, 0, 0, 0, 0, 0⟩ = s.advance p k.num 8 := scalar_runs s p k _ _ h rfl

theorem qend_eq (h : StreamAt s p k 8 (ScalarR.word 0x02 ⟨0, 0, 0, 0, 0, 0⟩)) :
    s.qend p k ⟨0, 0, 0, 0, 0, 0⟩ = (s.advance p k.num 8).modSlot p k.num fun x => { x with ended := true } :=
  scalar_runs s p k _ _ h rfl

/-- A taken branch within the innermost active body goes to its target. -/
theorem qbr_taken {f : ScalarB} (hf : BranchLegal f) (h : StreamAt s p k 8 (f.word 0x28))
    (hb : branchHolds f.cond.toNat (BitVec.ofNat 64 (s.qreg p k.num f.a.toNat)) (BitVec.ofNat 64 (s.qreg p k.num f.b.toNat)) = true)
    {a : Nat} (ha : (((s.tile p).slot k.num).pc + (f.offset.signExtend 64).toNat) % 2 ^ 56 = a)
    (hin : ∀ l ls, ((s.tile p).slot k.num).loops = l :: ls → l.first ≤ a ∧ a ≤ l.last) :
    s.qbr p k f = s.modSlot p k.num fun x => { x with pc := a } := by
  subst ha
  rw [qbr, scalar_runs s p k _ _ h (qbr_legal hf)]
  dsimp only
  rw [if_pos hb]
  cases hl : ((s.tile p).slot k.num).loops with
  | nil => rfl
  | cons l ls => exact if_pos (hin l ls hl)

theorem qbr_not_taken {f : ScalarB} (hf : BranchLegal f) (h : StreamAt s p k 8 (f.word 0x28))
    (hb : ¬ branchHolds f.cond.toNat (BitVec.ofNat 64 (s.qreg p k.num f.a.toNat)) (BitVec.ofNat 64 (s.qreg p k.num f.b.toNat)) = true) :
    s.qbr p k f = s.advance p k.num 8 := by
  rw [qbr, scalar_runs s p k _ _ h (qbr_legal hf)]
  exact if_neg hb

/-- A loop with passes to run, and room for a level within the body around it, is entered. -/
theorem qloop_enters {f : ScalarL} (hlen : f.len = 0) (hrsv : f.rsv0 = 0) (hge : 8 ≤ f.endOff.toInt)
    (hal : f.endOff.toInt % 8 = 0)
    (h : StreamAt s p k 8 (f.word 0x29)) (hcount : s.qreg p k.num f.count.toNat % 2 ^ 32 ≠ 0)
    (hroom : ((s.tile p).slot k.num).loops.length < 4) {last : Nat}
    (hlast : (((s.tile p).slot k.num).pc + f.endOff.toNat) % 2 ^ 56 = last)
    (hin : ∀ l ls, ((s.tile p).slot k.num).loops = l :: ls → last ≤ l.last) :
    s.qloop p k f = s.modSlot p k.num fun x => { x with
      pc := (x.pc + 8) % 2 ^ 56,
      loops := ⟨(x.pc + 8) % 2 ^ 56, last, s.qreg p k.num f.count.toNat % 2 ^ 32 - 1⟩ :: x.loops } := by
  subst hlast
  have hok : (f.clean && f.endOff.toInt % 8 == 0 && decide (8 ≤ f.endOff.toInt)) = true := by
    simp [ScalarL.clean, hlen, hrsv, hal, hge]
  have h4 : ((s.tile p).slot k.num).loops.length ≠ 4 := by omega
  rw [qloop, scalar_runs s p k _ _ h hok]
  dsimp only
  rw [if_neg, if_neg hcount]
  cases hl : ((s.tile p).slot k.num).loops with
  | nil => simp
  | cons l ls =>
    rw [hl] at h4
    simp only [Bool.or_eq_true, Bool.and_eq_true, decide_eq_true_eq, beq_iff_eq, not_or, not_and]
    exact ⟨Nat.not_lt.mpr (hin l ls hl), fun _ => h4⟩

/-- The length of an instruction that the cache holds is told by its LEN bit (R163). -/
theorem lengthAt_of_cacheBytes {a : Nat} {bs : List Byte} (h : cacheBytes (s.tile p).seq.icache a 8 = some bs) :
    s.lengthAt p a = if fromLE bs % 2 = 1 then 16 else 8 := by
  rw [lengthAt, h]

theorem qloopx_leaves {l : LoopLevel} {ls : List LoopLevel} {bs : List Byte}
    (h : StreamAt s p k 8 (ScalarR.word 0x2A ⟨0, 0, 0, 0, 0, 0⟩)) (hl : ((s.tile p).slot k.num).loops = l :: ls)
    (hc : cacheBytes (s.tile p).seq.icache l.last 8 = some bs) {next : Nat}
    (hn : (l.last + (if fromLE bs % 2 = 1 then 16 else 8)) % 2 ^ 56 = next) :
    s.qloopx p k ⟨0, 0, 0, 0, 0, 0⟩ = s.modSlot p k.num fun x => { x with
      pc := (loopNext l.last next ls).1, loops := (loopNext l.last next ls).2 } := by
  subst hn
  have hk : s.lastKnown p l.last = true := by rw [lastKnown, hc]; rfl
  have hrun : s.qloopx p k ⟨0, 0, 0, 0, 0, 0⟩ = _ := scalar_runs s p k _ _ h rfl
  rw [hrun]
  dsimp only
  rw [hl]
  dsimp only
  rw [if_pos hk, lengthAt_of_cacheBytes hc]

/-! ### Reads (R167) -/

theorem qreg_advance (s : State) (p j n r : Nat) : (s.advance p j n).qreg p j r = s.qreg p j r :=
  (advance_only s p j n).2.2.2 r

theorem qreg_qldDone (s : State) (p k d : Nat) (bs : List Byte) : (s.qldDone p k d bs).qreg p k d = fromLE bs % 2 ^ 64 := by
  rw [qldDone, qreg_advance]
  simp [qreg, setQ]

theorem read_qldDone (s : State) (p k d : Nat) (bs : List Byte) : (((s.qldDone p k d bs).tile p).slot k).read = none := by
  simp [qldDone, advance]

theorem qldDone_mem (s : State) (p k d : Nat) (bs : List Byte) : (s.qldDone p k d bs).mem = s.mem := by simp [qldDone]

theorem qld_clean {f : ScalarI} (hlen : f.len = 0) (hrsv : f.rsv0 = 0) : f.clean = true := by
  simp [ScalarI.clean, hlen, hrsv]

/-- A QLD whose read is served at its home writes the bytes, or zero where their line has an eyespot, which fails the item. -/
theorem qld_served {s₁ s₂ : State} {f : ScalarI} {tgt pa ep : Nat} {bs : List Byte} {poison : Bool} (hf : f.clean = true)
    (h : StreamAt s p k 8 (f.word 0x21)) (hread : ((s.tile p).slot k.num).read = none) (ha : s.qAddr p k.num f % 8 = 0)
    (htr : s.translate p (s.missOf p (.stream p k) (s.qAddr p k.num f) .read ((s.tile p).slot k.num).pc) = (s₁, .ok tgt pa ep))
    (hrd : s₁.memRead p tgt pa ep 8 (.stream p k) = (s₂, .data bs poison)) :
    s.qld p k f = if poison = true then (s₂.failAt (s₂.itemOf p) stMemPoison).qldDone p k.num f.d.toNat (rep 8 0)
      else s₂.qldDone p k.num f.d.toNat bs := by
  rw [qld, scalar_runs s p k _ _ h hf]
  simp only [ha, hread, htr, hrd, ne_eq, not_true_eq_false, if_false]

/-- A QLD whose reply has come writes its bytes. -/
theorem qld_replied {s₁ : State} {f : ScalarI} {id : Nat} {bs : List Byte} (hf : f.clean = true)
    (h : StreamAt s p k 8 (f.word 0x21)) (hread : ((s.tile p).slot k.num).read = some id) (ha : s.qAddr p k.num f % 8 = 0)
    (ht : s.takeReq p 8 id = some (s₁, bs)) : s.qld p k f = s₁.qldDone p k.num f.d.toNat bs := by
  rw [qld, scalar_runs s p k _ _ h hf]
  simp only [ha, hread, ht, ne_eq, not_true_eq_false, if_false]

theorem qldsp_eq {f : ScalarI} (hf : f.clean = true) (h : StreamAt s p k 8 (f.word 0x22)) {a : Nat}
    (ha : (BitVec.ofNat 64 (s.qreg p k.num f.a.toNat) + f.imm.signExtend 64).toNat % spadSize = a) (h8 : a % 8 = 0) :
    s.qldsp p k f = ((s.spadCount p a 8).setQ p k.num f.d.toNat (fromLE ((s.tile p).spadBytes a 8))).advance p k.num 8 := by
  rw [qldsp, scalar_runs s p k _ _ h hf]
  dsimp only
  rw [ha, if_neg (by rw [h8]; decide), spadRead]

/-! ### Waits (R34, R167) -/

/-- Stream `k` of tile `p` waits, and the tile's sync engine evaluates its wait. -/
def stallOn (s : State) (p k : Nat) (w : SemWait) : State :=
  (s.modSlot p k fun x => { x with stall := .wait w [] }).modSyn p fun y => { y with waits := y.waits.put none k (some w) }

theorem sem_stallOn (s : State) (p k : Nat) (w : SemWait) (j : Nat) : (s.stallOn p k w).sem p j = s.sem p j := by
  simp [stallOn, sem]

theorem onlyTiles_stallOn (s : State) (p k : Nat) (w : SemWait) : s.onlyTiles (s.stallOn p k w) :=
  onlyTiles_trans (onlyTiles_modSlot ..) (onlyTiles_modSyn ..)

theorem tryGrant_none {w : SemWait} (h : s.sem p w.sem < w.count) : s.tryGrant p w = none := if_pos h

/-- Tile `p` grants a wait: GE_CONSUME takes the count off the semaphore (R206). -/
def grantSem (s : State) (p : Nat) (w : SemWait) : State :=
  if w.consume = true then s.modSyn p fun y => { y with sems := y.sems.put 0 w.sem (s.sem p w.sem - w.count) } else s

theorem tryGrant_some {w : SemWait} (h : w.count ≤ s.sem p w.sem) : s.tryGrant p w = some (s.grantSem p w) :=
  if_neg (Nat.not_lt.mpr h)

@[simp] theorem slot_of_grantSem (s : State) (p k : Nat) (w : SemWait) (q : Nat) :
    ((s.grantSem p w).tile q).slot k = (s.tile q).slot k := by
  unfold grantSem
  split <;> simp

@[simp] theorem kernel_of_grantSem (s : State) (p : Nat) (w : SemWait) (q : Nat) :
    ((s.grantSem p w).tile q).seq.kernel = (s.tile q).seq.kernel := by
  unfold grantSem
  split <;> simp

theorem onlyTiles_grantSem (s : State) (p : Nat) (w : SemWait) : s.onlyTiles (s.grantSem p w) := by
  unfold grantSem
  split <;> rfl

theorem sem_of_grantSem (s : State) (p : Nat) (w : SemWait) :
    (s.grantSem p w).sem p w.sem = if w.consume = true then s.sem p w.sem - w.count else s.sem p w.sem := by
  unfold grantSem
  split
  · simp [sem]
  · rfl

/-- A stream that waits on a tile alone goes on where the tile grants its wait. -/
theorem grantStream_alone {j : Nat} {w : SemWait} {l : List Nat} (hlead : s.leadOf p = p)
    (hw : ((s.tile p).slot j).stall = .wait w l) (hg : (s.tile p).gangSize = 1) :
    s.grantStream p j = (((s.modSyn p fun y => { y with waits := y.waits.put none j none }).modSlot p j
      fun x => { x with stall := .none }).advance p j 8) := by
  have hg' : ((s.modSyn p fun y => { y with waits := y.waits.put none j none }).tile p).gangSize = 1 := by
    rw [Tile.gangSize, kernel_of_modSyn]; exact hg
  simp only [grantStream, hlead, slot_of_modSyn, hw, hg', if_true]

/-- On a tile alone a wait that is granted at once lets its stream go on behind the QWAIT. -/
theorem grantStream_stallOn {j : Nat} {w : SemWait} (hlead : s.leadOf p = p) (hg : (s.tile p).gangSize = 1) {t : State}
    (ht : ((s.stallOn p j w).grantSem p w).grantStream p j = t) : s.onlyTiles t ∧ ((t.tile p).slot j).stall = .none
      ∧ ((t.tile p).slot j).pc = (loopNext ((s.tile p).slot j).pc ((((s.tile p).slot j).pc + 8) % 2 ^ 56) ((s.tile p).slot j).loops).1
      ∧ t.sem p w.sem = if w.consume = true then s.sem p w.sem - w.count else s.sem p w.sem := by
  have hlead' : ((s.stallOn p j w).grantSem p w).leadOf p = p := by simpa [leadOf, stallOn] using hlead
  have hg' : (((s.stallOn p j w).grantSem p w).tile p).gangSize = 1 := by simpa [Tile.gangSize, stallOn] using hg
  rw [grantStream_alone hlead' (w := w) (l := []) (by simp [stallOn]) hg'] at ht
  subst ht
  refine ⟨?_, ?_, ?_, ?_⟩
  · exact onlyTiles_trans (onlyTiles_trans (onlyTiles_trans (onlyTiles_trans (onlyTiles_stallOn ..) (onlyTiles_grantSem ..))
      (onlyTiles_modSyn ..)) (onlyTiles_modSlot ..)) (onlyTiles_advance ..)
  · simp [advance]
  · simp [advance, stallOn]
  · rw [← sem_stallOn s p j w w.sem, ← sem_of_grantSem]
    simp [sem, advance]

section
variable {f : ScalarW} (hlen : f.len = 0) (hrsv0 : f.rsv0 = 0) (hrsv1 : f.rsv1 = 0) (hcond : f.cond = 1 ∨ f.cond = 2)
  (h : StreamAt s p k 8 (f.word 0x2C)) (hgang : s.gangTiles p = [p])
include hlen hrsv0 hrsv1 hcond h hgang

/-- QWAIT on a tile alone: the stream waits, and the tile evaluates the wait at once. -/
theorem qwait_alone {w : SemWait} (hw : (⟨f.sem.toNat, f.count.toNat + 1, f.cond == 2⟩ : SemWait) = w) :
    s.qwait p k f = (((s.stallOn p k.num w).tryGrant p w).map (·.grantStream p k.num)).getD (s.stallOn p k.num w) := by
  subst hw
  have hok : (f.clean && (f.cond == 1 || f.cond == 2)) = true := by
    simpa [ScalarW.clean, hlen, hrsv0, hrsv1] using hcond
  have hlive : (s.tile p).live = true := live_of_streamLive h.1
  rw [qwait, scalar_runs s p k _ _ h hok]
  dsimp only
  rw [gangTiles_congr (kernel_of_modSlot ..) rfl, hgang, forEach, List.foldl_cons, List.foldl_nil, ← stallOn]
  rw [if_neg (by simp [stallOn, hlive])]
  cases (s.stallOn p k.num _).tryGrant p _ <;> rfl

end

end State

/-! ### The statement -/

/-- A change of one slot, and the slot that it leaves. -/
theorem slotOnly_and_slot (s : State) (p k : Nat) (g : Slot → Slot) :
    SlotOnly s (s.modSlot p k g) p k ∧ ((s.modSlot p k g).tile p).slot k = g ((s.tile p).slot k) :=
  ⟨slotOnly_modSlot s p k g, by simp⟩

theorem streamControl : Clause.StreamControl := by
  refine ⟨fun s p k h => ?_, fun s p k h => ?_, fun s p k f hlen hrsv hcond hab hoff h => ?_,
    fun s p k f hlen hrsv hge hal h => ?_, fun s p k l ls bs h hl hc => ?_⟩
  · exact ⟨_, congrArg Host.Outcome.next (State.qnop_eq h), advance_only s p k.num 8⟩
  · refine ⟨_, congrArg Host.Outcome.next (State.qend_eq h), (advance_only s p k.num 8).1.trans (slotOnly_modSlot ..),
      by simp, fun r => ?_⟩
    rw [← State.qreg_advance s p k.num 8 r]
    simp [State.qreg]
  · have hf : BranchLegal f := ⟨hlen, hrsv, hcond, hab, hoff⟩
    intro x a b taken target
    have hiff : branchHolds f.cond.toNat a b = true ↔ taken := branchHolds_iff hcond a b
    refine ⟨fun ht hin => ?_, fun ht => ?_⟩
    · exact ⟨_, congrArg Host.Outcome.next (State.qbr_taken hf h (hiff.mpr ht) (toNat_add_mod_va ..).symm hin),
        slotOnly_and_slot ..⟩
    · exact ⟨_, congrArg Host.Outcome.next (State.qbr_not_taken hf h (mt hiff.mp ht)), advance_only s p k.num 8⟩
  · intro x count last hcount hroom hin
    exact ⟨_, congrArg Host.Outcome.next (State.qloop_enters hlen hrsv hge hal h hcount hroom rfl hin),
      slotOnly_and_slot ..⟩
  · exact ⟨_, congrArg Host.Outcome.next (State.qloopx_leaves h hl hc rfl), slotOnly_and_slot ..⟩

/-- A QLD served at its home leaves in D the bytes, or zero where their line has an eyespot, and memory as the read left it. -/
theorem qld_served_effect {s s₁ s₂ : State} {p : Nat} {k : StreamId} {f : ScalarI} {tgt pa ep : Nat} {bs : List Byte} {poison : Bool}
    (hf : f.clean = true) (h : StreamAt s p k 8 (f.word 0x21)) (hread : ((s.tile p).slot k.num).read = none)
    (ha : s.qAddr p k.num f % 8 = 0)
    (htr : s.translate p (s.missOf p (.stream p k) (s.qAddr p k.num f) .read ((s.tile p).slot k.num).pc) = (s₁, .ok tgt pa ep))
    (hrd : s₁.memRead p tgt pa ep 8 (.stream p k) = (s₂, .data bs poison)) :
    ∃ t, exec (.qld p k f) s = .next t ∧ t.qreg p k.num f.d.toNat = (if poison then 0 else fromLE bs % 2 ^ 64)
      ∧ ∀ c, t.memByte c = s₂.memByte c := by
  have hq := State.qld_served hf h hread ha htr hrd
  cases poison with
  | true =>
    rw [if_pos rfl] at hq
    refine ⟨_, congrArg Host.Outcome.next hq, ?_, State.memByte_congr ?_⟩
    · rw [State.qreg_qldDone]; rfl
    · rw [State.qldDone_mem, State.failAt_mem]
  | false =>
    rw [if_neg (by decide)] at hq
    exact ⟨_, congrArg Host.Outcome.next hq, State.qreg_qldDone .., State.memByte_congr (State.qldDone_mem ..)⟩

/-- A QLDSP writes D and counts the accesses to the scratchpad's banks. -/
theorem qldsp_effect {s : State} {p : Nat} {k : StreamId} {f : ScalarI} (hf : f.clean = true) (h : StreamAt s p k 8 (f.word 0x22))
    {a : Nat} (ha : (BitVec.ofNat 64 (s.qreg p k.num f.a.toNat) + f.imm.signExtend 64).toNat % spadSize = a) (h8 : a % 8 = 0) :
    ∃ t, exec (.qldsp p k f) s = .next t ∧ s.onlyTilesFields t
      ∧ t.qreg p k.num f.d.toNat = fromLE ((s.tile p).spadBytes a 8) % 2 ^ 64
      ∧ (∀ r, r ≠ f.d.toNat → t.qreg p k.num r = s.qreg p k.num r) ∧ (t.tile p).spad = (s.tile p).spad := by
  obtain ⟨-, -, -, hq⟩ := setQ_advance (s.spadCount p a 8) p k.num f.d.toNat (fromLE ((s.tile p).spadBytes a 8)) 8
  have hcount : s.onlyFields (s.spadCount p a 8) := State.bump_onlyFields ..
  refine ⟨_, congrArg Host.Outcome.next (State.qldsp_eq hf h ha h8), ?_, ?_, fun r hr => ?_, ?_⟩
  · rw [State.onlyFields] at hcount
    rw [State.onlyTilesFields, hcount]
    rfl
  · exact (hq _).trans (if_pos rfl)
  · rw [(hq r).trans (if_neg hr), State.qreg, State.spadCount, State.tile_bump, ← State.qreg]
  · simp [State.advance, State.setQ, State.spadCount]

section
variable {s : State} {p : Nat} {k : StreamId} {f : ScalarW} (hlen : f.len = 0) (hrsv0 : f.rsv0 = 0) (hrsv1 : f.rsv1 = 0)
  (hcond : f.cond = 1 ∨ f.cond = 2) (h : StreamAt s p k 8 (f.word 0x2C)) (hgang : s.gangTiles p = [p])
include hlen hrsv0 hrsv1 hcond h hgang

/-- A QWAIT whose semaphore is below the count stalls its stream. -/
theorem qwait_stalls (hv : s.sem p f.sem.toNat < f.count.toNat + 1) :
    ∃ t, exec (.qwait p k f) s = .next t ∧ s.onlyTiles t
      ∧ ((t.tile p).slot k.num).stall = .wait ⟨f.sem.toNat, f.count.toNat + 1, f.cond == 2⟩ []
      ∧ ((t.tile p).slot k.num).pc = ((s.tile p).slot k.num).pc ∧ t.sem p f.sem.toNat = s.sem p f.sem.toNat := by
  have hq := State.qwait_alone hlen hrsv0 hrsv1 hcond h hgang rfl
  rw [State.tryGrant_none (by rw [State.sem_stallOn]; exact hv)] at hq
  exact ⟨_, congrArg Host.Outcome.next hq, State.onlyTiles_stallOn .., by simp [State.stallOn],
    by simp [State.stallOn], State.sem_stallOn ..⟩

/-- A QWAIT whose semaphore is at least the count is granted at once; GE_CONSUME takes the count off it. -/
theorem qwait_granted (hlead : s.leadOf p = p) (hsize : (s.tile p).gangSize = 1) (hv : f.count.toNat + 1 ≤ s.sem p f.sem.toNat) :
    ∃ t, exec (.qwait p k f) s = .next t ∧ s.onlyTiles t
      ∧ ((t.tile p).slot k.num).stall = .none
      ∧ ((t.tile p).slot k.num).pc = (loopNext ((s.tile p).slot k.num).pc ((((s.tile p).slot k.num).pc + 8) % 2 ^ 56)
          ((s.tile p).slot k.num).loops).1
      ∧ t.sem p f.sem.toNat =
          (if f.cond = 2 then s.sem p f.sem.toNat - (f.count.toNat + 1) else s.sem p f.sem.toNat) := by
  have hq := State.qwait_alone hlen hrsv0 hrsv1 hcond h hgang rfl
  rw [State.tryGrant_some (by rw [State.sem_stallOn]; exact hv), Option.map_some, Option.getD_some] at hq
  obtain ⟨htiles, hstall, hpc, hsem⟩ := State.grantStream_stallOn hlead hsize hq.symm
  refine ⟨_, rfl, htiles, hstall, hpc, ?_⟩
  simpa using hsem

end

theorem streamReadsAndWaits : Clause.StreamReadsAndWaits := by
  refine ⟨fun s s₁ s₂ p k f tgt pa ep bs poison hlen hrsv h hread => ?_, fun s s₁ p k f id bs hlen hrsv h hread ha ht => ?_,
    fun s p k f hlen hrsv h => ?_, fun s p k f hlen hrsv0 hrsv1 hcond h hgang hlead hsize => ?_⟩
  · exact qld_served_effect (State.qld_clean hlen hrsv) h hread
  · have ha' : s.qAddr p k.num f % 8 = 0 := by rw [State.qAddr]; omega
    exact ⟨_, congrArg Host.Outcome.next (State.qld_replied (State.qld_clean hlen hrsv) h hread ha' ht), State.qreg_qldDone ..,
      State.read_qldDone ..⟩
  · exact qldsp_effect (State.qld_clean hlen hrsv) h rfl
  · exact ⟨qwait_granted hlen hrsv0 hrsv1 hcond h hgang hlead hsize, qwait_stalls hlen hrsv0 hrsv1 hcond h hgang⟩

/-- Settles O2: each instruction at the program counter of its stream is one update of the stream's slot, a read followed by one,
or the stall and grant of a wait. -/
theorem streamInstructions : Obligations.StreamInstructions := ⟨streamControl, streamReadsAndWaits⟩

end Sys2Proof.Machine
end

section
/-!
PROOF. Instruction fetch, engine queues and gangs (R28, R31 to R33, R40 to R44, R191): what a fill leaves in its cache, what a push,
a dequeue that becomes visible, a broadcast, a credit and a grant do.
-/
namespace Sys2Proof.Machine

/-! ### Instruction caches (R28) -/

@[simp] theorem length_fit (n : Nat) (bs : List Byte) : (fit n bs).length = n := by
  simp [fit, rep]
  omega

/-- A line just kept in a cache of at least one line is there, behind lines of other addresses. -/
theorem keepLine_eq_append (c : List (Nat × List Byte)) {cap : Nat} (hcap : 0 < cap) (line : Nat) (bs : List Byte) :
    ∃ l, keepLine c cap line bs = l ++ [(line, bs)] ∧ ∀ x ∈ l, x.1 ≠ line := by
  have hother : ∀ x ∈ c.filter (·.1 != line), x.1 ≠ line := fun x hx => by simpa using (List.mem_filter.mp hx).2
  unfold keepLine
  generalize c.filter (·.1 != line) = l at hother ⊢
  dsimp only
  split
  next hlt =>
    rw [List.length_append, List.length_singleton] at hlt
    exact ⟨l.drop 1, List.drop_append_of_le_length (by omega), fun x hx => hother x (List.mem_of_mem_drop hx)⟩
  next => exact ⟨l, rfl, hother⟩

theorem cacheBytes_keepLine (c : List (Nat × List Byte)) {cap : Nat} (hcap : 0 < cap) (line : Nat) (bs : List Byte) :
    cacheBytes (keepLine c cap line (fit 64 bs)) (line * 64) 64 = some (fit 64 bs) := by
  obtain ⟨l, hl, hother⟩ := keepLine_eq_append c hcap line (fit 64 bs)
  have hfind : l.find? (fun x => x.1 == line) = none := by simpa using hother
  have htake : (fit 64 bs).take 64 = fit 64 bs := List.take_of_length_le (by simp)
  simp [cacheBytes, hl, List.find?_append, hfind, htake]

/-- The owner of a fetcher's read of memory outside the part. -/
def fetchOwner (p : Nat) : Fetcher → Owner
  | .stream k => .stream p k
  | .group g => .groupFetch p g

namespace State

variable {s : State} {p : Nat}

/-- A fetch whose line is translated and read at once fills it. -/
theorem instructionFill_served {s₁ s₂ : State} {who : Fetcher} {a instr tgt pa ep : Nat} {bs : List Byte} {poison : Bool}
    (hlive : (s.tile p).live = true) (hneed : s.fetchNeed p who = some (a, instr))
    (hnone : (s.tile p).seq.fetches.get none (fetchKey who) = none)
    (hwait : s.xlWaiting (fetchWho p who) (p / 104) (some p) = false)
    (htr : s.translate p (s.missOf p (fetchWho p who) a .fetch instr) = (s₁, .ok tgt pa ep))
    (hrd : s₁.memRead p tgt (pa / 64 * 64) ep 64 (fetchOwner p who) = (s₂, .data bs poison)) :
    s.instructionFill p who = s₂.fetchFill p who a instr bs poison := by
  cases who <;> simp only [fetchOwner] at hrd <;>
    simp only [instructionFill, hlive, hneed, hnone, hwait, htr, hrd, Bool.not_true, Bool.false_eq_true, if_false]

/-! ### Pushes (R31, R33, R40, R41) -/

@[simp] theorem queue_of_modQueue (s : State) (p k : Nat) (g : Queue → Queue) :
    ((s.modQueue p k g).tile p).queue k = g ((s.tile p).queue k) := by
  rw [modQueue, tile_modTile_self, queue_modQueue_self]

@[simp] theorem slot_of_modQueue (s : State) (q j p k : Nat) (g : Queue → Queue) :
    ((s.modQueue q j g).tile p).slot k = (s.tile p).slot k := apply_tile_modTile (·.slot k) q p

@[simp] theorem kernel_of_modQueue (s : State) (q j p : Nat) (g : Queue → Queue) :
    ((s.modQueue q j g).tile p).seq.kernel = (s.tile p).seq.kernel := apply_tile_modTile (·.seq.kernel) q p

@[simp] theorem live_of_modQueue (s : State) (q j p : Nat) (g : Queue → Queue) :
    ((s.modQueue q j g).tile p).live = (s.tile p).live := apply_tile_modTile (·.live) q p

theorem tileOnly_trans {t u : State} (h : TileOnly s t p) (h' : TileOnly t u p) : TileOnly s u p := by
  obtain ⟨ho, hb⟩ := h
  obtain ⟨ho', hb'⟩ := h'
  refine ⟨?_, fun q hq => (hb' q hq).trans (hb q hq)⟩
  rw [onlyTilesFields] at ho ho' ⊢
  rw [ho', ho]

theorem tileOnly_modTile (s : State) (p : Nat) (g : Tile → Tile) : TileOnly s (s.modTile p g) p :=
  ⟨rfl, fun q hq => tile_modTile_other s g (by simpa using hq)⟩

theorem tileOnly_modSlot (s : State) (p k : Nat) (g : Slot → Slot) : TileOnly s (s.modSlot p k g) p := tileOnly_modTile ..
theorem tileOnly_modQueue (s : State) (p k : Nat) (g : Queue → Queue) : TileOnly s (s.modQueue p k g) p := tileOnly_modTile ..
theorem tileOnly_advance (s : State) (p k n : Nat) : TileOnly s (s.advance p k n) p := tileOnly_modSlot s p k _

theorem onlyTilesFields_of_onlyFields {t : State} (h : s.onlyFields t) : s.onlyTilesFields t := by
  rw [onlyFields] at h
  rw [onlyTilesFields, h]

theorem tileOnly_bump (s : State) (c : Fld) (i n p : Nat) : TileOnly s (s.bump c i n) p :=
  ⟨onlyTilesFields_of_onlyFields (bump_onlyFields c i n), fun q _ => by rw [tile_bump]⟩

/-- The count of a pushed instruction, the end of its stall, and the stream behind it: what every push ends with. -/
def pushed (s : State) (p k : Nat) : State :=
  ((s.bump .SEQ_ISSUE_COUNT (4 * p + k)).modSlot p k fun x => { x with stall := .none }).advance p k 16

theorem tileOnly_pushed (s : State) (p k : Nat) : TileOnly s (s.pushed p k) p :=
  tileOnly_trans (tileOnly_trans (tileOnly_bump ..) (tileOnly_modSlot ..)) (tileOnly_advance ..)

theorem queue_of_pushed (s : State) (p k q j : Nat) : ((s.pushed p k).tile q).queue j = (s.tile q).queue j := by
  simp [pushed, advance]

theorem slot_of_pushed (s : State) (p k : Nat) : ((s.pushed p k).tile p).slot k = { (s.tile p).slot k with
    stall := .none
    pc := (loopNext ((s.tile p).slot k).pc ((((s.tile p).slot k).pc + 16) % 2 ^ 56) ((s.tile p).slot k).loops).1
    loops := (loopNext ((s.tile p).slot k).pc ((((s.tile p).slot k).pc + 16) % 2 ^ 56) ((s.tile p).slot k).loops).2 } := by
  simp [pushed, advance]

theorem pushNow_alone {k raw : Nat} (hgang : s.gangTiles p = [p]) : s.pushNow p k raw =
    (s.modQueue p k fun q => { q with held := q.held ++ [⟨raw, ((s.tile p).slot k).pc, ((s.tile p).slot k).q, 0⟩] }).pushed p k := by
  simp [pushNow, hgang, pushed]

/-- What a push on a tile alone does: its queue gains the entry at its tail, the stream goes on. -/
theorem pushNow_alone_effect {k raw : Nat} (hgang : s.gangTiles p = [p]) {t : State} (ht : s.pushNow p k raw = t) :
    TileOnly s t p
      ∧ (t.tile p).queue k = { (s.tile p).queue k with
          held := ((s.tile p).queue k).held ++ [⟨raw, ((s.tile p).slot k).pc, ((s.tile p).slot k).q, 0⟩] }
      ∧ ((t.tile p).slot k).stall = .none
      ∧ ((t.tile p).slot k).pc = (loopNext ((s.tile p).slot k).pc ((((s.tile p).slot k).pc + 16) % 2 ^ 56) ((s.tile p).slot k).loops).1
      ∧ ∀ r, t.qreg p k r = s.qreg p k r := by
  subst ht
  rw [pushNow_alone hgang]
  refine ⟨tileOnly_trans (tileOnly_modQueue ..) (tileOnly_pushed ..), ?_, ?_, ?_, fun r => ?_⟩
  · rw [queue_of_pushed, queue_of_modQueue]
  · rw [slot_of_pushed]
  · rw [slot_of_pushed, slot_of_modQueue]
  · rw [qreg, slot_of_pushed, slot_of_modQueue, qreg]

end State

/-- An instruction that a stream may push is no scalar one, and 16 bytes long (R163, R168). -/
theorem bit_and_class_of_engineOk {k raw : Nat} (h : engineOk k raw = true) : bit raw 0 = true ∧ streamClass raw = k + 1 := by
  unfold engineOk at h
  split at h
  · cases h
  · simp only [Bool.and_eq_true, beq_iff_eq] at h
    obtain ⟨⟨⟨⟨⟨⟨hbit, hclass⟩, -⟩, -⟩, -⟩, -⟩, -⟩ := h
    exact ⟨hbit, hclass⟩

namespace State

variable {s : State} {p : Nat}

/-- A legal engine instruction at the stream's program counter is pushed, or stalls its stream. -/
theorem enginePush_eq {k : StreamId} {raw : Nat} (h : StreamAt s p k 16 raw) (hok : engineOk k.num raw = true) :
    s.enginePush p k raw = if s.pushRoom p k.num = true then s.pushNow p k.num raw
      else s.modSlot p k.num fun x => { x with stall := .full raw } := by
  obtain ⟨hlive, hfetched, hal⟩ := h
  obtain ⟨hbit, hclass⟩ := bit_and_class_of_engineOk hok
  simp [enginePush, hbit, hal, hlive, hfetched, hclass, hok]

theorem pushRoom_alone {k : Nat} (hsize : (s.tile p).gangSize = 1) :
    s.pushRoom p k = decide (((s.tile p).queue k).held.length + ((s.tile p).queue k).freed < 64) := if_pos hsize

theorem pushRoom_gang {k : Nat} (hsize : (s.tile p).gangSize ≠ 1) :
    s.pushRoom p k = decide (((s.tile p).slot k).pushed < ((s.tile p).slot k).returned + 64) := if_neg hsize

theorem unstall_none {k stall : Nat} (h : ((s.tile p).slot k).stall = .none) : s.unstall p k stall = s := by
  rw [unstall, h]

theorem unstall_full {k stall raw : Nat} (h : ((s.tile p).slot k).stall = .full raw) (hlive : (s.tile p).live = true)
    (hroom : s.pushRoom p k = true) : s.unstall p k stall = (s.bump .SEQ_STALL_CYCLES_COUNT (4 * p + k) stall).pushNow p k raw := by
  have hroom' : (s.bump .SEQ_STALL_CYCLES_COUNT (4 * p + k) stall).pushRoom p k = true := by
    rw [pushRoom, tile_bump, ← pushRoom]; exact hroom
  rw [unstall, h]
  simp [hlive, hroom']

theorem entryFreed_eq {k : StreamId} {stall : Nat} (h : 0 < ((s.tile p).queue k.num).freed) : s.entryFreed p k stall =
    (s.modQueue p k.num fun q => { q with freed := q.freed - 1 }).unstall p k.num stall := if_neg (by omega)

/-- A dequeue that becomes visible to a stalled stream of a tile alone lets it push its instruction. -/
theorem entryFreed_pushes {k : StreamId} {stall raw : Nat} (hfreed : 0 < ((s.tile p).queue k.num).freed)
    (hstall : ((s.tile p).slot k.num).stall = .full raw) (hlive : (s.tile p).live = true) (hgang : s.gangTiles p = [p])
    (hsize : (s.tile p).gangSize = 1)
    (hheld : ((s.tile p).queue k.num).held.length + ((s.tile p).queue k.num).freed ≤ 64) {t : State}
    (ht : s.entryFreed p k stall = t) : s.onlyTilesFields t ∧ ((t.tile p).slot k.num).stall = .none
      ∧ ((t.tile p).queue k.num).held = ((s.tile p).queue k.num).held
        ++ [⟨raw, ((s.tile p).slot k.num).pc, ((s.tile p).slot k.num).q, 0⟩] := by
  have hfree := entryFreed_eq (stall := stall) hfreed
  have hstep := tileOnly_modQueue s p k.num fun q => { q with freed := q.freed - 1 }
  have hqueue := queue_of_modQueue s p k.num fun q => { q with freed := q.freed - 1 }
  have hslot := slot_of_modQueue s p k.num p k.num fun q => { q with freed := q.freed - 1 }
  have hkernel := kernel_of_modQueue s p k.num p fun q => { q with freed := q.freed - 1 }
  have hrun := live_of_modQueue s p k.num p fun q => { q with freed := q.freed - 1 }
  have hmgt : (s.modQueue p k.num fun q => { q with freed := q.freed - 1 }).mgt = s.mgt := rfl
  generalize (s.modQueue p k.num fun q => { q with freed := q.freed - 1 }) = u at *
  have hroom : u.pushRoom p k.num = true := by
    rw [pushRoom_alone (by rw [Tile.gangSize, hkernel]; exact hsize), hqueue, decide_eq_true_eq]
    simp only
    omega
  rw [unstall_full (hslot ▸ hstall) (hrun ▸ hlive) hroom] at hfree
  have hgang' : (u.bump .SEQ_STALL_CYCLES_COUNT (4 * p + k.num) stall).gangTiles p = [p] := by
    rw [gangTiles_congr (s := s) (by rw [tile_bump, hkernel]) (by rw [bump_mgt, hmgt]), hgang]
  obtain ⟨hpush, hq, hs, -, -⟩ := pushNow_alone_effect hgang' (hfree.symm.trans ht)
  refine ⟨(tileOnly_trans hstep (tileOnly_trans (tileOnly_bump ..) hpush)).1, hs, ?_⟩
  rw [hq, tile_bump, hqueue, hslot]

end State

/-! ### Gangs (R40 to R44) -/

/-- A tile to which an instruction of its lead is under way. -/
def Tile.sendEntry (t : Tile) (k : Nat) (e : Entry) : Tile := t.modQueue k fun x => { x with transit := x.transit ++ [e] }

namespace State

variable {s : State} {p : Nat}

section
variable {α : Type} (at_ : α → Nat) (g : α → Tile → Tile)

/-- A loop over tiles leaves every other tile alone. -/
theorem tile_forEach_modTile_other (l : List α) {q : Nat} (hq : q ∉ l.map at_) :
    (s.forEach l fun s x => s.modTile (at_ x) (g x)).tile q = s.tile q := by
  induction l generalizing s with
  | nil => rfl
  | cons x l ih =>
    rw [List.map_cons, List.mem_cons, not_or] at hq
    exact (ih hq.2).trans (tile_modTile_other s _ hq.1)

/-- A loop over different tiles gives each its own update. -/
theorem tile_forEach_modTile (l : List α) (hn : (l.map at_).Nodup) {x : α} (hx : x ∈ l) :
    (s.forEach l fun s x => s.modTile (at_ x) (g x)).tile (at_ x) = g x (s.tile (at_ x)) := by
  induction l generalizing s with
  | nil => cases hx
  | cons y l ih =>
    rw [List.map_cons, List.nodup_cons] at hn
    rcases List.mem_cons.mp hx with rfl | hx
    · exact (tile_forEach_modTile_other at_ g l hn.1).trans (tile_modTile_self ..)
    · have hne : at_ x ≠ at_ y := fun e => hn.1 (e ▸ List.mem_map_of_mem hx)
      exact (ih hn.2 hx).trans (by rw [tile_modTile_other s _ hne])

theorem onlyTiles_forEach_modTile (l : List α) : s.onlyTiles (s.forEach l fun s x => s.modTile (at_ x) (g x)) := by
  induction l generalizing s with
  | nil => rfl
  | cons x l ih => exact onlyTiles_trans (onlyTiles_modTile ..) ih

end

/-- The broadcast of an instruction: it is under way to every tile of the list, with the tile's rank (R40, R41). -/
def broadcast (s : State) (k raw pc : Nat) (q : FMap Nat) (tiles : List Nat) : State :=
  s.forEach (tiles.zip (List.range tiles.length)) fun s y => s.modTile y.1 (·.sendEntry k ⟨raw, pc, q, y.2⟩)

theorem onlyTiles_broadcast (s : State) (k raw pc : Nat) (q : FMap Nat) (tiles : List Nat) :
    s.onlyTiles (s.broadcast k raw pc q tiles) :=
  onlyTiles_forEach_modTile (α := Nat × Nat) (·.1) (fun y => (·.sendEntry k ⟨raw, pc, q, y.2⟩)) _

theorem transit_of_broadcast (s : State) (k raw pc : Nat) (q : FMap Nat) {tiles : List Nat} (hn : tiles.Nodup) {r : Nat}
    (hr : r < tiles.length) : (((s.broadcast k raw pc q tiles).tile tiles[r]).queue k).transit =
      ((s.tile tiles[r]).queue k).transit ++ [⟨raw, pc, q, r⟩] := by
  have hfst : (tiles.zip (List.range tiles.length)).map (·.1) = tiles := List.map_fst_zip (by simp)
  have hmem : (tiles[r], r) ∈ tiles.zip (List.range tiles.length) :=
    List.mem_iff_getElem.mpr ⟨r, by simpa using hr, by simp⟩
  have htile : (s.broadcast k raw pc q tiles).tile tiles[r] = (s.tile tiles[r]).sendEntry k ⟨raw, pc, q, r⟩ :=
    tile_forEach_modTile (α := Nat × Nat) (·.1) (fun y => (·.sendEntry k ⟨raw, pc, q, y.2⟩)) _ (by rw [hfst]; exact hn) hmem
  rw [htile, Tile.sendEntry, queue_modQueue_self]

theorem pushNow_gang {k raw : Nat} (hgang : (s.gangTiles p).length ≠ 1) : s.pushNow p k raw =
    ((s.broadcast k raw ((s.tile p).slot k).pc ((s.tile p).slot k).q (s.gangTiles p)).modSlot p k
      fun x => { x with pushed := x.pushed + 1 }).pushed p k := by
  simp [pushNow, hgang, pushed, broadcast, modQueue, Tile.sendEntry]

/-- What a push of a gang's lead does: the instruction is under way to every member, with the member's rank. -/
theorem pushNow_gang_effect {k raw : Nat} (hgang : (s.gangTiles p).length ≠ 1) (hn : (s.gangTiles p).Nodup) {t : State}
    (ht : s.pushNow p k raw = t) : s.onlyTilesFields t ∧ ∀ r (h : r < (s.gangTiles p).length),
      ((t.tile (s.gangTiles p)[r]).queue k).transit =
        ((s.tile (s.gangTiles p)[r]).queue k).transit ++ [⟨raw, ((s.tile p).slot k).pc, ((s.tile p).slot k).q, r⟩] := by
  subst ht
  rw [pushNow_gang hgang]
  refine ⟨?_, fun r h => ?_⟩
  · obtain ⟨hslot, -⟩ := tileOnly_trans (tileOnly_modSlot _ p k fun x => { x with pushed := x.pushed + 1 }) (tileOnly_pushed _ p k)
    have hcast := onlyTiles_broadcast s k raw ((s.tile p).slot k).pc ((s.tile p).slot k).q (s.gangTiles p)
    rw [onlyTilesFields] at hslot ⊢
    rw [onlyTiles] at hcast
    rw [hslot, hcast]
  · rw [queue_of_pushed, queue_of_modSlot, transit_of_broadcast _ _ _ _ _ hn h]

theorem creditReturn_eq {k : StreamId} {stall : Nat} (hsize : (s.tile p).gangSize ≠ 1) (hrank : (s.tile p).rank = 0)
    (hall : ∀ q ∈ s.gangTiles p, ((s.tile p).slot k.num).returned < ((s.tile q).queue k.num).taken) :
    s.creditReturn p k stall = (s.modSlot p k.num fun x => { x with returned := x.returned + 1 }).unstall p k.num stall := by
  refine if_neg ?_
  simpa [hsize, hrank] using hall

theorem gangWait_eq {k : StreamId} {w : SemWait} {l : List Nat} (hw : ((s.tile p).slot k.num).stall = .wait w l)
    (hsize : (s.tile p).gangSize ≠ 1) (hlive : (s.tile p).live = true) (hall : ∀ r, r < (s.tile p).gangSize → r ∈ l) :
    s.gangWait p k = (s.modSlot p k.num fun x => { x with stall := .none }).advance p k.num 8 := by
  rw [gangWait, hw]
  refine if_pos ⟨hsize, hlive, ?_⟩
  simpa using hall

theorem broadcastReceive_eq {k : StreamId} {e : Entry} {l : List Entry} (h : ((s.tile p).queue k.num).transit = e :: l) :
    ((s.broadcastReceive p k).tile p).queue k.num =
      { (s.tile p).queue k.num with held := ((s.tile p).queue k.num).held ++ [e], transit := l } := by
  rw [broadcastReceive, queue_of_modQueue, h]
  rfl

end State

/-! ### The statements -/

/-- Settles O4: a fill keeps its line at the end of the cache, a push appends to the queue where it shows a free entry. -/
theorem fetchAndPush : Obligations.FetchAndPush := by
  refine ⟨fun s s₁ s₂ p k a instr tgt pa ep bs hlive hneed hnone hwait htr hrd => ?_,
    fun s s₁ s₂ p g a instr tgt pa ep bs hlive hneed hnone hwait htr hrd => ?_,
    fun s p k raw h hok hgang hsize hfree => ?_, fun s p k raw h hok hsize hfull => ?_,
    fun s p stall k hfreed hstall => ?_, fun s p stall raw k hfreed hstall hlive hgang hsize hheld => ?_⟩
  · refine ⟨_, congrArg Host.Outcome.next (State.instructionFill_served hlive hneed hnone hwait htr hrd),
      ?_, rfl⟩
    simpa [State.fetchFill] using cacheBytes_keepLine _ (by decide) (a / 64) bs
  · refine ⟨_, congrArg Host.Outcome.next (State.instructionFill_served (who := .group g) hlive hneed hnone hwait htr hrd),
      ?_, rfl⟩
    simpa [State.fetchFill] using cacheBytes_keepLine _ (by decide) (a / 64) bs
  · have hpush := State.enginePush_eq h hok
    rw [if_pos (by rw [State.pushRoom_alone hsize]; exact decide_eq_true hfree)] at hpush
    obtain ⟨⟨ho, hb⟩, hqueue, -, hpc, hq⟩ := State.pushNow_alone_effect hgang hpush.symm
    exact ⟨_, rfl, ho, hb, hqueue, hpc, hq⟩
  · have hpush := State.enginePush_eq h hok
    rw [if_neg (by rw [State.pushRoom_alone hsize]; simpa using hfull)] at hpush
    exact ⟨_, congrArg Host.Outcome.next hpush, slotOnly_and_slot ..⟩
  · have hfree := State.entryFreed_eq (stall := stall) hfreed
    rw [State.unstall_none (by simpa using hstall)] at hfree
    exact ⟨_, congrArg Host.Outcome.next hfree, State.onlyTiles_modQueue .., (State.tileOnly_modQueue ..).2, by simp⟩
  · exact ⟨_, rfl, State.entryFreed_pushes hfreed hstall hlive hgang hsize hheld rfl⟩

/-- Settles O5: a push sends one entry to each tile of the gang, and a returned credit or the last grant lets the lead go on. -/
theorem gangStreams : Obligations.GangStreams := by
  refine ⟨fun s p k raw h hok hn hgang hsize hcredit => ?_, fun s p k e l h => ?_,
    fun s p stall k hsize hrank hall hstall => ?_, fun s p k w l hw hsize hlive hall => ?_⟩
  · have hpush := State.enginePush_eq h hok
    rw [if_pos (by rw [State.pushRoom_gang hsize]; exact decide_eq_true hcredit)] at hpush
    obtain ⟨ho, htransit⟩ := State.pushNow_gang_effect hgang hn hpush.symm
    exact ⟨_, rfl, ho, htransit⟩
  · exact ⟨_, rfl, State.onlyTiles_modQueue .., (State.tileOnly_modQueue ..).2, State.broadcastReceive_eq h⟩
  · have hcredit := State.creditReturn_eq (stall := stall) hsize hrank hall
    rw [State.unstall_none (by simpa using hstall)] at hcredit
    exact ⟨_, congrArg Host.Outcome.next hcredit, slotOnly_and_slot ..⟩
  · refine ⟨_, congrArg Host.Outcome.next (State.gangWait_eq hw hsize hlive hall), ?_, ?_, ?_⟩
    · exact (slotOnly_modSlot ..).trans (slotOnly_modSlot ..)
    · simp [State.advance]
    · simp [State.advance]

end Sys2Proof.Machine
end

section
/-!
PROOF. Launch and the end of a kernel (R36, R37, R202, R206, R283), and with it the end of an item (R286, R287): what the
operations on descriptors and items leave alone, and what they leave in the descriptor.
-/
namespace Sys2Proof.Machine

/-- The first member that satisfies a test which the update keeps is the updated first member. -/
theorem find?_updFirst {α : Type} (c : α → Bool) (g : α → α) (hg : ∀ x, c (g x) = c x) (l : List α) :
    (updFirst c g l).find? c = (l.find? c).map g := by
  induction l with
  | nil => rfl
  | cons x l ih =>
    by_cases hx : c x = true
    · simp [updFirst, hx, hg]
    · simp [updFirst, hx, ih]

/-- Values put at the keys of a list, each its own. -/
theorem FMap.get_foldl_put {α : Type} [DecidableEq α] (d : α) (h : Nat → α) (l : List Nat) (m : FMap α) (k : Nat) :
    (l.foldl (fun m k => m.put d k (h k)) m).get d k = if k ∈ l then h k else m.get d k := by
  induction l generalizing m with
  | nil => simp
  | cons a l ih =>
    rw [List.foldl_cons, ih, FMap.get_put]
    by_cases hk : k = a
    · simp [hk]
    · simp [hk]

namespace State

variable {s : State}

/-! ### Loops -/

/-- What each step of a loop leaves alone, the loop leaves alone. -/
theorem forEach_apply {α β : Type} (φ : State → β) {f : State → α → State} (l : List α)
    (hf : ∀ s x, φ (f s x) = φ s := by intro s x; rfl) : φ (s.forEach l f) = φ s := by
  induction l generalizing s with
  | nil => rfl
  | cons x l ih => exact ih.trans (hf s x)

/-- What a loop's step brings about for its member, and every step keeps, holds of all members after the loop. -/
theorem forEach_all {α : Type} {P : α → State → Prop} {f : State → α → State} (hself : ∀ s x, P x (f s x))
    (hkeep : ∀ s x y, P y s → P y (f s x)) (l : List α) : ∀ x ∈ l, P x (s.forEach l f) := by
  have hfold : ∀ (l : List α) (s : State) y, P y s → P y (s.forEach l f) := by
    intro l
    induction l with
    | nil => exact fun _ _ h => h
    | cons x l ih => exact fun s y h => ih (f s x) y (hkeep s x y h)
  induction l generalizing s with
  | nil => simp
  | cons x l ih =>
    intro y hy
    rcases List.mem_cons.mp hy with rfl | hy
    · exact hfold l _ y (hself s y)
    · exact ih y hy

/-! ### Descriptors and items -/

/-- Nothing but the command processors and register fields differs. -/
def onlyCpFields (s t : State) : Prop := t = { s with cp := t.cp, fields := t.fields }

theorem onlyCpFields_trans {t u : State} (h : s.onlyCpFields t) (h' : t.onlyCpFields u) : s.onlyCpFields u := by
  rw [onlyCpFields] at h h' ⊢
  rw [h', h]

theorem mem_of_onlyCpFields {t : State} (h : s.onlyCpFields t) : t.mem = s.mem := by rw [h]

theorem tiles_of_onlyCpFields {t : State} (h : s.onlyCpFields t) : t.tiles = s.tiles := by rw [h]

theorem tile_of_onlyCpFields {t : State} (h : s.onlyCpFields t) : t.tile = s.tile := by
  funext p
  rw [tile, tile, tiles_of_onlyCpFields h]

theorem die_of_onlyCpFields {t : State} (h : s.onlyCpFields t) : t.die = s.die := by
  funext d
  rw [die, die, h]

theorem onlyCpFields_modCp (s : State) (g : Cp → Cp) : s.onlyCpFields (s.modCp g) := rfl
theorem onlyCpFields_modDesc (s : State) (q n : Nat) (g : Desc → Desc) : s.onlyCpFields (s.modDesc q n g) := rfl

theorem onlyCpFields_bump (s : State) (c : Fld) (i n : Nat) : s.onlyCpFields (s.bump c i n) := by
  have h : s.onlyFields (s.bump c i n) := bump_onlyFields c i n
  rw [onlyFields] at h
  rw [onlyCpFields, h]

theorem onlyCpFields_complete (s : State) (q n : Nat) : s.onlyCpFields (s.complete q n) := by
  unfold complete
  split
  · rfl
  · exact onlyCpFields_trans (onlyCpFields_trans (onlyCpFields_trans (onlyCpFields_trans (onlyCpFields_bump ..)
      (onlyCpFields_bump ..)) (onlyCpFields_bump ..)) (onlyCpFields_modDesc ..)) (onlyCpFields_modCp ..)

theorem onlyCpFields_countAborted (s : State) (q n i : Nat) : s.onlyCpFields (s.countAborted q n i) := by
  unfold countAborted
  split
  · split <;> rfl
  · rfl

theorem onlyCpFields_endItem (s : State) (q n i : Nat) : s.onlyCpFields (s.endItem q n i) := by
  have h := onlyCpFields_trans (onlyCpFields_countAborted s q n i)
    (onlyCpFields_modDesc _ q n fun d => d.modItem i fun it => { it with stage := .ended })
  unfold endItem
  dsimp only
  split
  · split
    · exact onlyCpFields_trans h (onlyCpFields_complete ..)
    · exact h
  · exact h

theorem onlyCpFields_drainItem (s : State) (q n i : Nat) (ids : List Nat) : s.onlyCpFields (s.drainItem q n i ids) := by
  unfold drainItem
  split
  · exact onlyCpFields_endItem ..
  · rfl

theorem desc?_congr {t : State} (h : t.cp = s.cp) (q n : Nat) : t.desc? q n = s.desc? q n := by rw [desc?, desc?, h]

/-- A descriptor reads as its update leaves it, where the update keeps its queue and index. -/
theorem desc?_modDesc (s : State) (q n : Nat) {g : Desc → Desc}
    (hg : ∀ d, (g d).q = d.q ∧ (g d).n = d.n := by intro d; exact ⟨rfl, rfl⟩) :
    (s.modDesc q n g).desc? q n = (s.desc? q n).map g :=
  find?_updFirst _ g (fun d => by rw [(hg d).1, (hg d).2]) _

/-- A change of the command processors that keeps the descriptors. -/
theorem desc?_modCp (s : State) (q n : Nat) {g : Cp → Cp} (hg : ∀ c, (g c).descs = c.descs := by intro c; rfl) :
    (s.modCp g).desc? q n = s.desc? q n := by
  rw [desc?, desc?, modCp, hg]

theorem desc?_complete (s : State) (q n : Nat) :
    (s.complete q n).desc? q n = (s.desc? q n).map fun d => { d with stage := .complete } := by
  unfold complete
  cases hd : s.desc? q n with
  | none => exact hd
  | some d =>
    refine (desc?_modCp ..).trans ((desc?_modDesc ..).trans (congrArg _ ?_))
    rw [← hd]
    exact desc?_congr (by simp) q n

theorem desc?_countAborted (s : State) (q n i : Nat) : (s.countAborted q n i).desc? q n = s.desc? q n := by
  unfold countAborted
  split
  · split
    · exact desc?_modCp ..
    · rfl
  · rfl

/-- An item of a descriptor. -/
def item? (s : State) (q n i : Nat) : Option Item := (s.desc? q n).bind (·.items[i]?)

theorem bind_items_map {β : Type} (s : State) (q n i : Nat) (g : Item → β) :
    (s.desc? q n).bind (fun d => (d.items[i]?).map g) = (s.item? q n i).map g := by
  rw [item?]
  cases s.desc? q n <;> rfl

/-- A change of an item is what the item reads as afterwards. -/
theorem item?_modItem (s : State) (q n i : Nat) (g : Item → Item) :
    (s.modDesc q n fun d => d.modItem i g).item? q n i = (s.item? q n i).map g := by
  rw [item?, show (s.modDesc q n fun d => d.modItem i g).desc? q n = _ from desc?_modDesc .., item?]
  cases s.desc? q n <;> simp [Desc.modItem]

/-- An item ends with the code that it has. -/
theorem item?_endItem (s : State) (q n i : Nat) :
    (s.endItem q n i).item? q n i = (s.item? q n i).map fun it => { it with stage := .ended } := by
  have hended := item?_modItem (s.countAborted q n i) q n i fun it => { it with stage := .ended }
  have hcount : (s.countAborted q n i).item? q n i = s.item? q n i := by rw [item?, item?, desc?_countAborted]
  rw [hcount] at hended
  unfold endItem
  dsimp only
  generalize (s.countAborted q n i).modDesc q n _ = u at *
  rw [← hended]
  split
  · split
    · rw [item?, desc?_complete, item?]
      cases u.desc? q n <;> rfl
    · rfl
  · rfl

/-- An item with no stores under way ends at once (R202). -/
theorem drainItem_nil (s : State) (q n i : Nat) : s.drainItem q n i [] = s.endItem q n i := if_pos rfl

/-! ### Launch (R36, R206, R283) -/

/-- The slots that a launch message leaves. -/
def launchSlots (m : LaunchMsg) (lead : Nat) : FMap Slot :=
  (List.range 4).foldl (fun f k => FMap.put Slot.reset f k (launchSlot m lead k)) []

theorem slot_of_launchSlots (m : LaunchMsg) (lead : Nat) {k : Nat} (hk : k < 4) :
    (launchSlots m lead).get .reset k = launchSlot m lead k := by
  rw [launchSlots, FMap.get_foldl_put, if_pos (List.mem_range.mpr hk)]

/-- A lead's q0 to q3 are preset (R36). -/
theorem launchSlot_q (m : LaunchMsg) (lead k : Nat) (h : m.rank = 0) : let q := (launchSlot m lead k).q
    q.get 0 0 = m.args % 2 ^ 64 ∧ q.get 0 1 = m.job.item ∧ q.get 0 2 = 2 ^ m.gangLog2 ∧ q.get 0 3 = lead := by
  simp [launchSlot, h, List.range_succ, FMap.get_put]

/-- A slot executes where the lead's message enables it, from its entry point on. -/
theorem launchSlot_enabled (m : LaunchMsg) (lead k : Nat) (hc : m.job.copy = false) : let x := launchSlot m lead k
    (x.enabled = true ↔ m.rank = 0 ∧ bit m.enables k = true) ∧ x.ended = !x.enabled
      ∧ (x.enabled = true → x.pc = nth 0 m.pcs k) := by
  refine ⟨by simp [launchSlot, hc], rfl, fun h => ?_⟩
  exact if_pos h

/-- Root states of the barriers that a launch starts anew: those of the tile and, for a lead, of its gang (R212). -/
def launchRoots (s : State) (p : Nat) (m : LaunchMsg) : FMap BarRoot :=
  (List.range 8).foldl (fun r k =>
    let r := FMap.put BarRoot.reset r (rootKey 0 p k) .reset
    if m.rank = 0 then FMap.put BarRoot.reset r (rootKey 1 p k) .reset else r) s.roots

end State

/-- A tile that has taken the launch message of a kernel (R36, R206). -/
def Tile.launched (t : Tile) (m : LaunchMsg) (slots : FMap Slot) (sense : Nat) : Tile :=
  { t with
    seq := { t.seq with inbox := none, kernel := some m, run := if m.rank = 0 then .lead else .member, slots := slots,
                        queues := [], icache := [], tcache := [], fetches := [] },
    thr := { t.thr.discard.flushL1 with carve := 0 },
    mat := { t.mat.discard with tags := [], swaps := [], activeB := false },
    gat := { t.gat with ops := [], copied := 0, copyReq := none },
    syn := { t.syn with sems := [], signals := [], sense := sense, cur := none, waits := [], dead := [] } }

/-- A tile that has taken the message of a COPY item (R283). -/
def Tile.launchedCopy (t : Tile) (m : LaunchMsg) : Tile :=
  { t with seq := { t.seq with inbox := none, kernel := some m, run := .lead },
           gat := { t.gat with ops := [], copied := 0, copyReq := none } }

namespace State

variable {s : State} {p : Nat} {m : LaunchMsg}

/-- An idle tile takes its message once the other members of a lead's gang have taken theirs. -/
theorem launchMessage_eq (hinbox : (s.tile p).seq.inbox = some m) (hidle : (s.tile p).seq.run = .idle)
    (hhalt : (s.tile p).seq.halt = none) (hmembers : m.rank = 0 → ∀ r, 0 < r → r < 2 ^ m.gangLog2 →
      (s.tile (s.physOf (p / 104) ((s.localOf m.lead).getD 0 + r))).seq.run = .member) :
    s.launchMessage p = if m.job.copy = true then s.modTile p (·.launchedCopy m)
      else ({ s with roots := s.launchRoots p m }).modTile p
        (·.launched m (launchSlots m (s.logicalOf m.lead)) (s.launchSense m.job.ctx)) := by
  rw [launchMessage, hinbox]
  dsimp only
  rw [if_neg]
  · rfl
  · simp only [hidle, hhalt, Bool.or_eq_true, Bool.and_eq_true, not_or, not_and]
    refine ⟨⟨by decide, by decide⟩, fun hrank hnone => ?_⟩
    simp only [Bool.not_eq_true', List.all_eq_false, List.mem_filterMap, List.mem_range] at hnone
    obtain ⟨q, ⟨r, hr, hq⟩, hrun⟩ := hnone
    split at hq
    · cases hq
    · cases hq
      exact hrun (by simp [hmembers (by simpa using hrank) r (by omega) hr])

end State

/-! ### The end of a kernel (R37, R202) -/

/-- A tile whose kernel has ended. -/
def Tile.stopped (t : Tile) : Tile :=
  { t with seq := { t.seq with run := .idle, kernel := none, queues := [], fetches := [] }, thr := t.thr.flushL1,
           gat := { t.gat with copied := 0 } }

/-- The owners that are stores of these tiles. -/
def storeOf (tiles : List Nat) : Owner → Bool
  | .store q _ => tiles.contains q
  | _ => false

namespace State

variable {s : State}

/-- The tiles of a gang stop. -/
def stopTiles (s : State) (tiles : List Nat) : State := s.forEach tiles fun s q => (s.orphan q).modTile q Tile.stopped

theorem stopTiles_mem (s : State) (tiles : List Nat) : (s.stopTiles tiles).mem = s.mem :=
  forEach_apply (·.mem) tiles

theorem stopTiles_cp (s : State) (tiles : List Nat) : (s.stopTiles tiles).cp = s.cp :=
  forEach_apply (·.cp) tiles

theorem tile_orphan (s : State) (q p : Nat) : (s.orphan q).tile p = s.tile p := rfl

theorem stopTiles_stopped (s : State) (tiles : List Nat) : ∀ q ∈ tiles, ((s.stopTiles tiles).tile q).seq.run = .idle
    ∧ ((s.stopTiles tiles).tile q).seq.kernel = none ∧ ((s.stopTiles tiles).tile q).thr.l1 = [] := by
  refine forEach_all (P := fun q s => (s.tile q).seq.run = .idle ∧ (s.tile q).seq.kernel = none ∧ (s.tile q).thr.l1 = [])
    (fun s q => ?_) (fun s q r h => ?_) tiles
  · rw [tile_modTile_self]
    exact ⟨rfl, rfl, rfl⟩
  · by_cases hr : r = q
    · rw [hr, tile_modTile_self]
      exact ⟨rfl, rfl, rfl⟩
    · rw [tile_modTile_other _ _ hr, tile_orphan]
      exact h

/-- The lead ends its kernel once every tile of the gang is drained and none has halted. -/
theorem kernelEnd_eq {p : Nat} {m : LaunchMsg} (hkernel : (s.tile p).seq.kernel = some m) (hcopy : m.job.copy = false)
    (hlead : (s.tile p).seq.run = .lead) (hhalt : (s.tile p).seq.halt = none)
    (hall : ∀ q ∈ s.gangTiles p, s.drained q = true ∧ (s.tile q).seq.halt = none) :
    s.kernelEnd p = (s.stopTiles (s.gangTiles p)).drainItem m.job.q m.job.n m.job.item (s.owned (storeOf (s.gangTiles p))) := by
  have hdrained : (s.gangTiles p).all s.drained = true := List.all_eq_true.mpr fun q hq => (hall q hq).1
  have hrunning : (s.gangTiles p).all (fun q => (s.tile q).seq.halt.isNone) = true :=
    List.all_eq_true.mpr fun q hq => by rw [(hall q hq).2]; rfl
  rw [kernelEnd, hkernel]
  dsimp only
  rw [if_neg]
  · rfl
  · simp [hcopy, hlead, hhalt, hdrained, hrunning]

end State

/-! ### The statement -/

/-- What a tile and its gang's streams show once it has taken the message of a kernel. -/
theorem launched_effect (s : State) (p : Nat) (m : LaunchMsg) {t : State}
    (ht : ({ s with roots := s.launchRoots p m } : State).modTile p
      (·.launched m (State.launchSlots m (s.logicalOf m.lead)) (s.launchSense m.job.ctx)) = t) :
    (t.tile p).seq.inbox = none ∧ (t.tile p).seq.kernel = some m
      ∧ (t.tile p).seq.run = (if m.rank = 0 then .lead else .member)
      ∧ (∀ k, k < 4 → (t.tile p).slot k = State.launchSlot m (s.logicalOf m.lead) k)
      ∧ (∀ n, t.sem p n = 0) ∧ s.tilesBut t [p] ∧ t.mem = s.mem ∧ t.fields = s.fields := by
  have htile : t.tile p = (s.tile p).launched m (State.launchSlots m (s.logicalOf m.lead)) (s.launchSense m.job.ctx) := by
    rw [← ht, State.tile_modTile_self]
    rfl
  refine ⟨by rw [htile]; rfl, by rw [htile]; rfl, by rw [htile]; rfl, fun k hk => ?_, fun n => ?_, fun q hq => ?_, ?_, ?_⟩
  · rw [htile]
    exact State.slot_of_launchSlots m (s.logicalOf m.lead) hk
  · rw [State.sem, htile]
    rfl
  · rw [← ht, State.tile_modTile_other _ _ (by simpa using hq)]
    rfl
  · rw [← ht, State.modTile_mem]
  · rw [← ht, State.modTile_fields]

/-- Settles O3: what a launch message leaves is the launched tile; the end of a kernel stops the gang's tiles and
drains the item. -/
theorem launchAndKernelEnd : Obligations.LaunchAndKernelEnd := by
  refine ⟨fun s p m hinbox hcopy hidle hhalt hmembers => ?_, fun s p m hinbox hcopy hidle hhalt hmembers => ?_,
    fun s p m hkernel hcopy hlead hhalt hall => ?_⟩
  · have hlaunch := State.launchMessage_eq hinbox hidle hhalt hmembers
    rw [hcopy, if_neg (by decide)] at hlaunch
    obtain ⟨hinbox', hkernel, hrun, hslot, hsem, hbut, hmem, hfields⟩ := launched_effect s p m hlaunch.symm
    refine ⟨_, rfl, hinbox', hkernel, hrun, fun k hk => ?_, hsem, hbut, hmem, hfields⟩
    rw [hslot k hk]
    obtain ⟨henabled, hended, hpc⟩ := State.launchSlot_enabled m (s.logicalOf m.lead) k hcopy
    refine ⟨henabled, hended, hpc, fun hrank => ?_⟩
    simp only [State.qreg, hslot k hk]
    exact State.launchSlot_q m (s.logicalOf m.lead) k hrank
  · have hlaunch := State.launchMessage_eq hinbox hidle hhalt hmembers
    rw [if_pos hcopy] at hlaunch
    exact ⟨_, congrArg Host.Outcome.next hlaunch, State.onlyTiles_modTile .., by simp [Tile.launchedCopy],
      by simp [Tile.launchedCopy], by simp [Tile.launchedCopy]⟩
  · have hend := State.kernelEnd_eq hkernel hcopy hlead hhalt hall
    have hframe := State.onlyCpFields_drainItem (s.stopTiles (s.gangTiles p)) m.job.q m.job.n m.job.item
      (s.owned (storeOf (s.gangTiles p)))
    refine ⟨_, congrArg Host.Outcome.next hend, ?_, ?_, fun d hd hi hstores => ?_⟩
    · rw [State.mem_of_onlyCpFields hframe, State.stopTiles_mem]
    · rw [State.tile_of_onlyCpFields hframe]
      exact State.stopTiles_stopped s (s.gangTiles p)
    · have hnone : s.owned (storeOf (s.gangTiles p)) = [] := hstores
      have hitem : (s.stopTiles (s.gangTiles p)).item? m.job.q m.job.n m.job.item = some d.items[m.job.item] := by
        rw [State.item?, State.desc?_congr (State.stopTiles_cp s _), hd]
        exact List.getElem?_eq_getElem hi
      have hended := State.item?_endItem (s.stopTiles (s.gangTiles p)) m.job.q m.job.n m.job.item
      rw [hitem, Option.map_some] at hended
      rw [hnone, State.drainItem_nil, State.bind_items_map, hended]
      rfl

end Sys2Proof.Machine
end

section
/-!
PROOF. Dispatch of items (R36, R39, R272) and the work of a codec engine (R157, R284): which item and which gang a die takes, what
its launch message leaves, and how the item in front of a codec engine ends.
-/
namespace Sys2Proof.Machine

/-! ### The item and the gang that a die takes (R39, R272) -/

/-- Of two waiting items the earlier one goes on unless the later is of a higher class. -/
def preferItem (b : Option (Nat × Nat × Nat × Nat)) (x : Nat × Nat × Nat × Nat) : Option (Nat × Nat × Nat × Nat) :=
  match b with
  | some y => if y.1 < x.1 then some x else b
  | none => some x

/-- An item of the highest class is kept against all later ones. -/
theorem foldl_preferItem_keeps {x : Nat × Nat × Nat × Nat} (l : List (Nat × Nat × Nat × Nat)) (h : ∀ y ∈ l, y.1 ≤ x.1) :
    l.foldl preferItem (some x) = some x := by
  induction l with
  | nil => rfl
  | cons y l ih =>
    have hy : preferItem (some x) y = some x := if_neg (Nat.not_lt.mpr (h y (List.mem_cons_self ..)))
    rw [List.foldl_cons, hy]
    exact ih fun z hz => h z (List.mem_cons_of_mem _ hz)

/-- It is taken after any number of items of lower classes. -/
theorem foldl_preferItem_takes {x : Nat × Nat × Nat × Nat} (l : List (Nat × Nat × Nat × Nat)) (h : ∀ y ∈ l, y.1 < x.1)
    (b : Option (Nat × Nat × Nat × Nat)) (hb : ∀ y ∈ b, y.1 < x.1) : preferItem (l.foldl preferItem b) x = some x := by
  induction l generalizing b with
  | nil =>
    cases b with
    | none => rfl
    | some y => exact if_pos (hb y rfl)
  | cons y l ih =>
    refine ih (fun z hz => h z (List.mem_cons_of_mem _ hz)) _ fun z hz => ?_
    have hy := h y (List.mem_cons_self ..)
    unfold preferItem at hz
    split at hz
    · split at hz
      · cases hz; exact hy
      · exact hb z hz
    · cases hz; exact hy

namespace State

variable {s : State}

/-- The next item is the oldest of the highest class. -/
theorem nextItem_eq {die : Nat} {x : Nat × Nat × Nat × Nat} (hx : x ∈ (s.die die).waiting)
    (hmax : ∀ y ∈ (s.die die).waiting, y.1 ≤ x.1) (hfirst : ∀ y ∈ (s.die die).waiting.takeWhile (· ≠ x), y.1 < x.1) :
    s.nextItem die = some x := by
  obtain ⟨older, newer, hw, hnot⟩ := List.eq_append_cons_of_mem hx
  have hne : ∀ y ∈ older, decide (y ≠ x) = true := fun y hy => decide_eq_true fun e => hnot (e ▸ hy)
  rw [hw, List.takeWhile_append_of_pos hne] at hfirst
  have hlower : ∀ y ∈ older, y.1 < x.1 := fun y hy => hfirst y (List.mem_append_left _ hy)
  have hnewer : ∀ y ∈ newer, y.1 ≤ x.1 := fun y hy => hmax y (by rw [hw]; simp [hy])
  change (s.die die).waiting.foldl preferItem none = some x
  rw [hw, List.foldl_append, List.foldl_cons, foldl_preferItem_takes older hlower none (by simp),
    foldl_preferItem_keeps newer hnewer]

/-- The gang is the lowest-numbered aligned one whose tiles are all idle. -/
theorem idleGang_eq {die g l : Nat} (hal : l % 2 ^ g = 0) (hle : l + 2 ^ g ≤ 96)
    (hidle : ∀ k, k < 2 ^ g → s.tileIdle (s.physOf die (l + k)) = true)
    (hlow : ∀ m, m < l → m % 2 ^ g = 0 → ∃ k, k < 2 ^ g ∧ s.tileIdle (s.physOf die (m + k)) = false) :
    s.idleGang die g = some l := by
  have hpos : 0 < 2 ^ g := Nat.two_pow_pos g
  obtain ⟨j, rfl⟩ : ∃ j, l = j * 2 ^ g := ⟨l / 2 ^ g, (Nat.div_mul_cancel (Nat.dvd_of_mod_eq_zero hal)).symm⟩
  rw [idleGang, List.find?_map, Option.map_eq_some_iff]
  refine ⟨j, List.find?_range_eq_some.mpr ⟨?_, ?_, fun i hi => ?_⟩, rfl⟩
  · simpa [span] using hidle
  · rw [List.mem_range, Nat.lt_iff_add_one_le, Nat.le_div_iff_mul_le hpos, Nat.add_one_mul]
    exact hle
  · have hlt : i * 2 ^ g < j * 2 ^ g := Nat.mul_lt_mul_of_pos_right hi hpos
    obtain ⟨k, hk, hbusy⟩ := hlow (i * 2 ^ g) hlt (Nat.mul_mod_left ..)
    simpa [span] using ⟨k, hk, hbusy⟩

end State

/-! ### The launch message (R36) -/

/-- A tile to which a launch message has come. -/
def Tile.deliver (t : Tile) (m : LaunchMsg) : Tile := { t with seq := { t.seq with inbox := some m } }

namespace State

variable {s : State}

/-- Launch messages go to the tiles of the physical numbers that the logical ones have when the item is dispatched. -/
theorem forEach_deliver_eq (die l : Nat) (msg : Nat → LaunchMsg) (ranks : List Nat) :
    (s.forEach ranks fun t r => t.modTile (t.physOf die (l + r)) (·.deliver (msg r)))
      = s.forEach ranks fun t r => t.modTile (s.physOf die (l + r)) (·.deliver (msg r)) := by
  have hloop : ∀ (ranks : List Nat) (t : State), t.mgt = s.mgt →
      (t.forEach ranks fun t r => t.modTile (t.physOf die (l + r)) (·.deliver (msg r)))
        = t.forEach ranks fun t r => t.modTile (s.physOf die (l + r)) (·.deliver (msg r)) := by
    intro ranks
    induction ranks with
    | nil => exact fun _ _ => rfl
    | cons r ranks ih =>
      intro t ht
      have hp : t.physOf die (l + r) = s.physOf die (l + r) := by rw [physOf, physOf, ht]
      rw [forEach, forEach, List.foldl_cons, List.foldl_cons, hp]
      exact ih _ ht
  exact hloop ranks s rfl

theorem cp_of_onlyTiles {t : State} (h : s.onlyTiles t) : t.cp = s.cp := by rw [h]

theorem die_of_onlyTiles {t : State} (h : s.onlyTiles t) : t.die = s.die := by
  funext d
  rw [die, die, h]

/-- The message that the tile of a rank gets of item `i` of descriptor `(q, n)`. -/
def itemMsg (s : State) (die q n i l g : Nat) (d : Desc) (r : Nat) : LaunchMsg :=
  ⟨⟨d.ctx, q, n, i, d.opcode == 2⟩, d.pcs, d.enables, (d.q64 10 + i * d.stride) % 2 ^ 64, g, s.physOf die l, r⟩

/-- The die with its item taken and marked as running. -/
def takeItem (s : State) (die pr q n i : Nat) : State :=
  (s.modDie die fun y => { y with waiting := y.waiting.erase (pr, q, n, i) }).modDesc q n
    fun d => d.modItem i fun it => { it with stage := .running }

theorem itemDispatch_eq {die pr q n i l : Nat} {d : Desc} (hproc : s.procRunning (2 + die) = true)
    (hquiet : bit (s.f .MGT_MOULT_CTRL_QUIESCE) die = false) (hnext : s.nextItem die = some (pr, q, n, i))
    (hd : s.desc? q n = some d) (hgang : s.idleGang die (if d.opcode = 1 then d.gangLog2 else 0) = some l) :
    s.itemDispatch die = (s.takeItem die pr q n i).forEach (List.range (2 ^ (if d.opcode = 1 then d.gangLog2 else 0)))
      fun t r => t.modTile (s.physOf die (l + r))
        (·.deliver (s.itemMsg die q n i l (if d.opcode = 1 then d.gangLog2 else 0) d r)) := by
  have hguard : (!s.procRunning (2 + die) || bit (s.f .MGT_MOULT_CTRL_QUIESCE) die) = false := by rw [hproc, hquiet]; rfl
  rw [itemDispatch, hguard, if_neg (by decide), hnext]
  dsimp only
  rw [hd]
  dsimp only
  rw [hgang]
  exact forEach_deliver_eq (s := s.takeItem die pr q n i) die l (s.itemMsg die q n i l _ d) _

end State

/-- The die's next item takes the lowest-numbered idle gang of its size. -/
theorem itemDispatches : Clause.ItemDispatches := by
  intro s die pr q n i l d hs hproc hquiet hx _ hmax hfirst hd size hal hle hidle hlow hn
  have hsize : size = 2 ^ (if d.opcode = 1 then d.gangLog2 else 0) := rfl
  have hrun := State.itemDispatch_eq hproc hquiet (State.nextItem_eq hx hmax hfirst) hd
    (State.idleGang_eq hal hle hidle hlow)
  rw [← hsize] at hrun
  set g := if d.opcode = 1 then d.gangLog2 else 0
  have htiles := State.onlyTiles_forEach_modTile (s := s.takeItem die pr q n i) (fun r => s.physOf die (l + r))
    (fun r => (·.deliver (s.itemMsg die q n i l g d r))) (List.range size)
  have htile := fun r => State.tile_forEach_modTile (s := s.takeItem die pr q n i) (fun r => s.physOf die (l + r))
    (fun r => (·.deliver (s.itemMsg die q n i l g d r))) (List.range size) hn (x := r)
  have hother := fun p => State.tile_forEach_modTile_other (s := s.takeItem die pr q n i) (fun r => s.physOf die (l + r))
    (fun r => (·.deliver (s.itemMsg die q n i l g d r))) (List.range size) (q := p)
  generalize (s.takeItem die pr q n i).forEach (List.range size) _ = t at *
  refine ⟨t, congrArg Host.Outcome.next hrun, ?_, ?_, ?_, fun r hr => ?_, fun p hp => ?_⟩
  · rw [State.onlyTiles] at htiles
    rw [htiles]
    rfl
  · rw [State.die_of_onlyTiles htiles, State.takeItem, State.die_of_onlyCpFields (State.onlyCpFields_modDesc ..),
      State.die_modDie_self]
  · rw [State.desc?_congr (State.cp_of_onlyTiles htiles), State.takeItem, State.desc?_modDesc,
      State.desc?_congr (s := s) (State.modDie_cp ..), hd]
    rfl
  · rw [htile r (List.mem_range.mpr hr)]
    rfl
  · exact hother p hp

/-! ### The item in front of a codec engine (R157, R284) -/

namespace State

variable {s : State}

theorem owned_congr {t : State} (hchl : t.chl = s.chl) (hfab : t.fab = s.fab) (g : Owner → Bool) : t.owned g = s.owned g := by
  rw [owned, owned, hchl, hfab]

/-- The end of a codec's item takes it off the engine and touches nothing but the command processors, counters and the die. -/
theorem codecEnd_frame (s : State) (die q n i : Nat) : (s.codecEnd die q n i).mem = s.mem
    ∧ (s.codecEnd die q n i).tiles = s.tiles ∧ ((s.codecEnd die q n i).die die).codec = ((s.die die).codec).drop 1 := by
  have hframe := onlyCpFields_drainItem (s.modDie die fun x => { x with codec := x.codec.drop 1 }) q n i
    ((s.modDie die fun x => { x with codec := x.codec.drop 1 }).owned fun o => o == .item q n i)
  refine ⟨?_, ?_, ?_⟩
  · rw [codecEnd, mem_of_onlyCpFields hframe, modDie_mem]
  · rw [codecEnd, tiles_of_onlyCpFields hframe, modDie_tiles]
  · rw [codecEnd, die_of_onlyCpFields hframe, die_modDie_self]

theorem item?_codecEnd {die q n i : Nat} (h : s.owned (· == .item q n i) = []) :
    (s.codecEnd die q n i).item? q n i = (s.item? q n i).map fun it => { it with stage := .ended } := by
  have hnone : (s.modDie die fun x => { x with codec := x.codec.drop 1 }).owned (fun o => o == .item q n i) = [] :=
    (owned_congr rfl rfl _).trans h
  rw [codecEnd, hnone, drainItem_nil, item?_endItem]
  rfl

/-- A running item without a failure, none of whose stores is under way, ends with the code of the failure that it meets. -/
theorem codecFail_effect {die q n i code : Nat} {it : Item} (hit : s.item? q n i = some it) (hstage : it.stage = .running)
    (hcode : it.code = 0) (hstores : s.owned (· == .item q n i) = []) {t : State} (ht : s.codecFail die q n i code = t) :
    t.mem = s.mem ∧ t.tiles = s.tiles ∧ (t.die die).codec = ((s.die die).codec).drop 1
      ∧ (t.item? q n i).map (fun x => (x.stage, x.code)) = some (.ended, code) := by
  subst ht
  obtain ⟨hmem, htiles, hcodec⟩ := codecEnd_frame (s.failItem q n i code) die q n i
  refine ⟨hmem, htiles, hcodec, ?_⟩
  have hfail : (s.failItem q n i code).item? q n i = some (it.fail code) := by rw [failItem, item?_modItem, hit]; rfl
  have hstores' : (s.failItem q n i code).owned (· == .item q n i) = [] := (owned_congr rfl rfl _).trans hstores
  rw [codecFail, item?_codecEnd hstores', hfail]
  simp [Item.fail, hstage, hcode]

section
variable {die ctx q n i src dst len cap width : Nat} {tag : List Nat} {hs : HostMem}

theorem codecCompress_corrupt (h : len % 64 ≠ 0 ∨ len < 64 ∨ 2 ^ 32 - 64 < len) :
    s.codecCompress die ctx q n i src dst len cap width tag hs = s.codecFail die q n i 0x0040 := if_pos h

theorem codecCompress_overflow (hal : len % 64 = 0) (hlo : 64 ≤ len) (hhi : len ≤ 2 ^ 32 - 64)
    (hcap : cap < 64 + 66 * (len / 64)) :
    s.codecCompress die ctx q n i src dst len cap width tag hs = s.codecFail die q n i 0x0041 :=
  (if_neg (by omega)).trans (if_pos hcap)

/-- A frame that has room is written once its bytes are read, and its item then waits for the stores. -/
theorem codecCompress_written (hal : len % 64 = 0) (hlo : 64 ≤ len) (hhi : len ≤ 2 ^ 32 - 64)
    (hcap : 64 + 66 * (len / 64) ≤ cap) {s₂ s₃ : State} {bs f : List Byte}
    (hread : vReadRuns (.codec die) die ctx hs (runsOf src len) s = (s₂, some (bs, 0, false)))
    (hf : codeFrame width bs tag = f)
    (hwrite : vWriteRuns (.codec die) die ctx hs (q, n, i) (runsOf dst f.length) f s₂ = (s₃, true)) :
    s.codecCompress die ctx q n i src dst len cap width tag hs = s₃.codecEnd die q n i := by
  subst hf
  rw [codecCompress, if_neg (by omega), if_neg (by omega), hread]
  simp only [codecWrite, hwrite, Bool.false_eq_true, if_false, if_true]

theorem codecDecompress_corrupt (h : len < 64) :
    s.codecDecompress die ctx q n i src dst len cap hs = s.codecFail die q n i 0x0040 := if_pos h

end

/-- The item in front of the engine begins to run. -/
def codecRun (s : State) (q n i : Nat) : State := s.modDesc q n fun y => y.modItem i fun it => { it with stage := .running }

section
variable {die q n i : Nat} {d : Desc} {it : Item} {rest : List (Nat × Nat × Nat)}
  (hcodec : (s.die die).codec = (q, n, i) :: rest)
  (hd : s.desc? q n = some d) (hq : d.q = q) (hn : d.n = n) (hit : d.items[i]? = some it)
include hcodec hd hq hn hit

theorem codecFrame_eq (hs : HostMem) {w : Nat → Nat} (hw : ∀ k, nth 0 it.entry k + 2 ^ 32 * nth 0 it.entry (k + 1) = w k) :
    s.codecFrame die hs =
    if d.opcode = 3 then (s.codecRun q n i).codecCompress die d.ctx q n i (w 0) (w 2) (w 4) (w 6) (bits (d.w 13) 11 8)
      ((it.entry.drop 8).take 4) hs
    else (s.codecRun q n i).codecDecompress die d.ctx q n i (w 0) (w 2) (w 4) (w 6) hs := by
  have hitem : s.codecItem die = some (d, i, it.entry) := by
    rw [codecItem, hcodec]
    dsimp only
    rw [hd, Option.map_some, hit]
    rfl
  subst hq hn
  simp only [← hw]
  rw [codecFrame, hitem]
  rfl

end

end State

/-- The item in front of a codec engine fails by the checks of its lengths, or has its frame written. -/
theorem codecItems : Clause.CodecItems := by
  intro s die q n i d it rest hs hcodec hd hq hn hit hstage hcode hstores w len cap ends
  have hframe := State.codecFrame_eq hcodec hd hq hn hit hs fun _ => rfl
  have hitem : (s.codecRun q n i).item? q n i = some { it with stage := .running } := by
    have hfront : s.item? q n i = some it := by rw [State.item?, hd]; exact hit
    rw [State.codecRun, State.item?_modItem, hfront]
    rfl
  have hfails : ∀ code, s.codecFrame die hs = (s.codecRun q n i).codecFail die q n i code →
      ∃ t, exec (.codecFrameComplete die hs) s = .next t ∧ ends t code := by
    intro code hfail
    obtain ⟨hmem, htiles, hrest, hend⟩ := State.codecFail_effect hitem rfl hcode
      ((State.owned_congr (t := s.codecRun q n i) rfl rfl _).trans hstores) hfail.symm
    refine ⟨_, rfl, hmem, htiles, ?_, hend⟩
    rw [hrest, State.codecRun, State.die_of_onlyCpFields (State.onlyCpFields_modDesc ..), hcodec]
    rfl
  refine ⟨fun hop hlen => ?_, fun hop hal hlo hhi hcap => ?_, fun hop hlen => ?_,
    fun hop hal hlo hhi hcap s₂ s₃ bs hread => ?_⟩
  · rw [if_pos hop] at hframe
    exact hfails _ (hframe.trans (State.codecCompress_corrupt hlen))
  · rw [if_pos hop] at hframe
    exact hfails _ (hframe.trans (State.codecCompress_overflow hal hlo hhi hcap))
  · rw [if_neg (by rw [hop]; decide)] at hframe
    exact hfails _ (hframe.trans (State.codecDecompress_corrupt hlen))
  · intro f hwrite
    rw [if_pos hop] at hframe
    obtain ⟨hmem, -, hrest⟩ := State.codecEnd_frame s₃ die q n i
    exact ⟨_, congrArg Host.Outcome.next (hframe.trans (State.codecCompress_written hal hlo hhi hcap hread rfl hwrite)),
      hmem, hrest⟩

/-- Settles O30: a dispatch delivers a message to each tile of the chosen gang; a codec item fails by the checks of its lengths,
or has its frame written. -/
theorem itemsAndCodec : Obligations.ItemsAndCodec := ⟨itemDispatches, codecItems⟩

end Sys2Proof.Machine
end

section
/-!
PROOF. The thread engine's shared operations (R59 to R61, R187): bits of masks, a group of a tile after an update, an instruction
that has issued, and what bringing the waits of a tile up to date (`State.settle`) can change.
-/
namespace Sys2Proof.Machine

/-! ### Bits of masks -/

/-- A power of two added to a number without that bit sets the bit, with no carry. -/
theorem testBit_add_two_pow {x n : Nat} (h : x.testBit n = false) (j : Nat) :
    (x + 2 ^ n).testBit j = (x.testBit j || decide (j = n)) := by
  induction n generalizing x j with
  | zero =>
    rw [Nat.testBit_zero, decide_eq_false_iff_not] at h
    cases j with
    | zero => simp only [Nat.testBit_zero]; grind
    | succ j =>
      have hdiv : (x + 2 ^ 0) / 2 = x / 2 := by omega
      rw [Nat.testBit_succ, Nat.testBit_succ, hdiv]
      simp
  | succ n ih =>
    rw [Nat.testBit_succ] at h
    have hdiv : (x + 2 ^ (n + 1)) / 2 = x / 2 + 2 ^ n := by rw [Nat.pow_succ]; omega
    cases j with
    | zero => simp [Nat.testBit_zero, Nat.pow_succ]
    | succ j => rw [Nat.testBit_succ, hdiv, ih h, Nat.testBit_succ]; simp

theorem bit_setBit (x n j : Nat) : bit (setBit x n) j = (bit x j || decide (j = n)) := by
  rw [setBit]
  split
  next h => by_cases hj : j = n <;> simp [hj, h]
  next h =>
    rw [Bool.not_eq_true, bit_eq_testBit] at h
    rw [bit_eq_testBit, testBit_add_two_pow h, bit_eq_testBit]

theorem bit_clearBit_self (x n : Nat) : bit (clearBit x n) n = false := by
  rw [clearBit]
  split
  next h =>
    rw [bit_eq_testBit] at h ⊢
    have hand : x &&& 2 ^ n = 2 ^ n := by simp [Nat.and_two_pow, h]
    rw [← hand, testBit_sub_and]
    simp
  next h => simpa using h

/-- A mask made of lanes has exactly their bits. -/
theorem bit_maskOf {l : List Nat} (hn : l.Nodup) (j : Nat) : bit (maskOf l) j = decide (j ∈ l) := by
  induction l generalizing j with
  | nil => simp [maskOf, bit]
  | cons a l ih =>
    obtain ⟨ha, hn⟩ := List.nodup_cons.mp hn
    have hcons : maskOf (a :: l) = maskOf l + 2 ^ a := by simp [maskOf, Nat.add_comm]
    have hclear : (maskOf l).testBit a = false := by simpa [bit_eq_testBit, ha] using ih hn a
    rw [hcons, bit_eq_testBit, testBit_add_two_pow hclear, ← bit_eq_testBit, ih hn]
    simp [Bool.or_comm]

theorem nodup_lanesOf (m : Nat) : (lanesOf m).Nodup := List.nodup_range.filter _

theorem maskOf_eq_zero {l : List Nat} : maskOf l = 0 ↔ l = [] := by
  cases l <;> simp [maskOf]


/-! ### A group of a tile after an update -/

/-- A change of one group changes nothing of its tile but that group. -/
theorem Tile.modGroup_frame (t : Tile) (g : Nat) (h : Group → Group) :
    t.modGroup g h = { t with thr := { t.thr with groups := (t.modGroup g h).thr.groups } } := by
  unfold Tile.modGroup
  split <;> rfl

theorem Tile.group?_modGroup_self (t : Tile) (g : Nat) (h : Group → Group) :
    (t.modGroup g h).group? g = (t.group? g).map h := by
  unfold Tile.modGroup
  cases hg : t.group? g with
  | none => exact hg
  | some x => exact State.group_setGroup_self ..

theorem Tile.group?_modGroup_other (t : Tile) {g j : Nat} (h : Group → Group) (hj : j ≠ g) :
    (t.modGroup g h).group? j = t.group? j := by
  unfold Tile.modGroup
  split
  · exact State.group_setGroup_other _ _ hj
  · rfl

namespace State

section
variable (s : State) (p g : Nat)

@[simp] theorem group_of_modGroup (h : Group → Group) :
    ((s.modGroup p g h).tile p).group? g = ((s.tile p).group? g).map h := by
  rw [modGroup, tile_modTile_self, Tile.group?_modGroup_self]

theorem group_of_modGroup_other (h : Group → Group) {j : Nat} (hj : j ≠ g) :
    ((s.modGroup p g h).tile p).group? j = (s.tile p).group? j := by
  rw [modGroup, tile_modTile_self, Tile.group?_modGroup_other _ _ hj]

/-- What no group is a part of, a change of a group leaves alone. -/
theorem apply_modGroup {β : Type} (φ : Tile → β) (h : Group → Group)
    (hφ : ∀ t gs, φ { t with thr := { t.thr with groups := gs } } = φ t) :
    φ ((s.modGroup p g h).tile p) = φ (s.tile p) := by
  rw [modGroup, tile_modTile_self, Tile.modGroup_frame, hφ]

@[simp] theorem thr_of_modThr (h : Thr → Thr) : ((s.modThr p h).tile p).thr = h (s.tile p).thr := by
  rw [modThr, tile_modTile_self]

/-- What no part of the thread engine is a part of, a change of the thread engine leaves alone. -/
theorem apply_modThr {β : Type} (φ : Tile → β) (h : Thr → Thr)
    (hφ : ∀ t y, φ { t with thr := y } = φ t) : φ ((s.modThr p h).tile p) = φ (s.tile p) := by
  rw [modThr, tile_modTile_self, hφ]

/-- A change of the thread engine that keeps the groups. -/
theorem group_of_modThr {h : Thr → Thr} (j : Nat) (hh : ∀ y, (h y).groups = y.groups) :
    ((s.modThr p h).tile p).group? j = (s.tile p).group? j := by
  rw [Tile.group?, thr_of_modThr, hh, Tile.group?]

theorem group_of_modBlock (b j : Nat) (h : Block → Block) :
    ((s.modTile p (·.modBlock b h)).tile p).group? j = (s.tile p).group? j := by
  rw [tile_modTile_self]
  rfl

theorem syn_of_modBlock (b : Nat) (h : Block → Block) : ((s.modTile p (·.modBlock b h)).tile p).syn = (s.tile p).syn := by
  rw [tile_modTile_self]
  rfl

theorem syn_of_modGroup (h : Group → Group) : ((s.modGroup p g h).tile p).syn = (s.tile p).syn :=
  apply_modGroup s p g (·.syn) h fun _ _ => rfl

theorem syn_of_modThr (h : Thr → Thr) : ((s.modThr p h).tile p).syn = (s.tile p).syn :=
  apply_modThr s p (·.syn) h fun _ _ => rfl

theorem tileOnly_modGroup (h : Group → Group) : TileOnly s (s.modGroup p g h) p := tileOnly_modTile ..
theorem tileOnly_modThr (h : Thr → Thr) : TileOnly s (s.modThr p h) p := tileOnly_modTile ..
theorem tileOnly_modSyn (h : Syn → Syn) : TileOnly s (s.modSyn p h) p := tileOnly_modTile ..

end

variable {s t : State} {p g : Nat}

theorem tileOnly_refl (s : State) (p : Nat) : TileOnly s s p := ⟨rfl, fun _ _ => rfl⟩

theorem mem_of_tileOnly (h : TileOnly s t p) : t.mem = s.mem := by rw [h.1]
theorem chl_of_tileOnly (h : TileOnly s t p) : t.chl = s.chl := by rw [h.1]
theorem fab_of_tileOnly (h : TileOnly s t p) : t.fab = s.fab := by rw [h.1]

/-- The requests of an owner do not depend on tiles or register fields. -/
theorem owned_of_tileOnly (h : TileOnly s t p) : t.owned = s.owned := by
  funext o
  rw [owned, owned, chl_of_tileOnly h, fab_of_tileOnly h]

/-! ### An instruction that has issued (R59, R60, R80) -/

end State

/-- A group behind an instruction whose effect on it is `h`: a stepping group stops there. -/
def Group.issued (x : Group) (h : Group → Group) : Group :=
  let y := Group.reconverge 34 (h { x with pc := (x.pc + 8) % 2 ^ 56 })
  if y.stepping ∧ y.wait = .none then { y with stepping := false, dbgHalted := true, active := false } else y

/-- Reconvergence moves a group between its paths. -/
theorem Group.reconverge_frame (n : Nat) (x : Group) : Group.reconverge n x = { x with
    pc := (Group.reconverge n x).pc, mask := (Group.reconverge n x).mask, rpc := (Group.reconverge n x).rpc,
    stack := (Group.reconverge n x).stack } := by
  induction n generalizing x with
  | zero => rfl
  | succ n ih =>
    unfold Group.reconverge
    split
    · split
      · rfl
      · rw [ih]
    · rfl

/-- What an instruction leaves to its own effect. -/
theorem Group.issued_frame (x : Group) (h : Group → Group) : let z := h { x with pc := (x.pc + 8) % 2 ^ 56 }
    (x.issued h).v = z.v ∧ (x.issued h).u = z.u ∧ (x.issued h).loads = z.loads ∧ (x.issued h).alive = z.alive
      ∧ (x.issued h).wait = z.wait ∧ (x.issued h).haltPending = z.haltPending ∧ (x.issued h).firstStore = z.firstStore
      ∧ (x.issued h).block = z.block
      ∧ (z.wait ≠ .none → (x.issued h).active = z.active ∧ (x.issued h).stepping = z.stepping) := by
  intro z
  have hf := Group.reconverge_frame 34 z
  rw [Group.issued]
  rw [hf]
  split
  · next hw => exact ⟨rfl, rfl, rfl, rfl, rfl, rfl, rfl, rfl, fun hn => absurd hw.2 hn⟩
  · exact ⟨rfl, rfl, rfl, rfl, rfl, rfl, rfl, rfl, fun _ => ⟨rfl, rfl⟩⟩

/-- An instruction that keeps its group's path leaves it behind the instruction. -/
theorem Group.behind_issued (x : Group) {h : Group → Group}
    (hh : ∀ y, (h y).pc = y.pc ∧ (h y).mask = y.mask ∧ (h y).stack = y.stack ∧ (h y).rpc = y.rpc) :
    Behind x (x.issued h) := by
  intro hm hr
  obtain ⟨hpc, hmask, hstack, hrpc⟩ := hh { x with pc := (x.pc + 8) % 2 ^ 56 }
  rw [Group.issued]
  rw [reconverge_stays 34 _ (by rw [hmask]; exact hm) (by rw [hrpc, hpc]; exact hr)]
  split <;> exact ⟨hpc, hmask, hstack, hrpc⟩

/-- Two groups with the same register maps. -/
theorem sameRegs_of_eq {x y : Group} (hv : y.v = x.v) (hu : y.u = x.u) : SameRegs x y :=
  ⟨fun r l => by rw [Group.vreg, Group.vreg, hv], fun r => by rw [Group.ureg, Group.ureg, hu]⟩

namespace State

variable {s t : State} {p g : Nat}

theorem retire_eq (s : State) (p g : Nat) (h : Group → Group) :
    s.retire p g h = (s.bump .THR_ISSUE_COUNT p).modGroup p g (·.issued h) := rfl

theorem group_of_retire {x : Group} (hg : (s.tile p).group? g = some x) (h : Group → Group) :
    ((s.retire p g h).tile p).group? g = some (x.issued h) := by
  rw [retire_eq, group_of_modGroup, tile_bump, hg, Option.map_some]

theorem tileOnly_retire (s : State) (p g : Nat) (h : Group → Group) : TileOnly s (s.retire p g h) p :=
  tileOnly_trans (tileOnly_bump ..) (tileOnly_modGroup ..)

/-- What no group is a part of, an instruction that has issued leaves alone. -/
theorem apply_retire {β : Type} (φ : Tile → β) (s : State) (p g : Nat) (h : Group → Group)
    (hφ : ∀ t gs, φ { t with thr := { t.thr with groups := gs } } = φ t) :
    φ ((s.retire p g h).tile p) = φ (s.tile p) := by
  rw [retire_eq, apply_modGroup _ p g φ _ hφ, tile_bump]

/-- An instruction that has issued changes its group and the count of issued instructions. -/
theorem groupOnly_retire (s : State) (p g : Nat) (h : Group → Group) : GroupOnly s (s.retire p g h) p g := by
  obtain ⟨honly, hbut⟩ := tileOnly_retire s p g h
  refine ⟨honly, hbut, ?_, fun j hj => ?_, fun y j hy => ?_⟩
  · rw [retire_eq, modGroup, tile_modTile_self, tile_bump]
    exact Tile.modGroup_frame ..
  · rw [retire_eq, group_of_modGroup_other _ _ _ _ hj, tile_bump]
  · simp only [List.mem_cons, List.not_mem_nil, or_false, not_or] at hy
    rw [retire_eq, f, modGroup, modTile_fields, ← f]
    refine f_bump_other s 1 hy.1 fun w k b e => ?_
    cases e
    exact hy.2


end State

/-! ### Bringing the waits of a tile up to date (R61, R187, R210) -/

/-- Two groups that differ in their wait and in what the debugger has asked of them, at most. -/
def Group.WaitOnly (x y : Group) : Prop := y = { x with
  active := y.active, wait := y.wait, dbgHalted := y.dbgHalted, haltPending := y.haltPending, stepping := y.stepping }

theorem Group.waitOnly_trans {x y z : Group} (h : x.WaitOnly y) (h' : y.WaitOnly z) : x.WaitOnly z := by
  rw [Group.WaitOnly] at *
  rw [h', h]

/-- What no wait is a part of is the same in both groups. -/
theorem Group.waitOnly_apply {β : Type} {x y : Group} (h : x.WaitOnly y) (φ : Group → β)
    (hφ : ∀ x a w d hp st, φ { x with active := a, wait := w, dbgHalted := d, haltPending := hp, stepping := st } = φ x) :
    φ y = φ x := by
  rw [Group.WaitOnly] at h
  rw [h, hφ]

namespace State

/-- What bringing the waits of tile `p` up to date may change: the waits of its groups, the arrivals at its blocks, and its
signals; a group that becomes ready goes behind those that are. -/
structure Settled (s t : State) (p : Nat) : Prop where
  only : TileOnly s t p
  tile : t.tile p = { s.tile p with
    thr := { (s.tile p).thr with groups := (t.tile p).thr.groups, blocks := (t.tile p).thr.blocks,
                                 promo := (t.tile p).thr.promo, sigs := (t.tile p).thr.sigs },
    syn := { (s.tile p).syn with signals := (t.tile p).syn.signals } }
  promo : (s.tile p).thr.promo ⊆ (t.tile p).thr.promo
  groups : ∀ g x, (s.tile p).group? g = some x → ∃ y, (t.tile p).group? g = some y ∧ x.WaitOnly y

theorem Settled.refl (s : State) (p : Nat) : Settled s s p :=
  ⟨tileOnly_refl s p, rfl, List.Subset.refl _, fun _ x h => ⟨x, h, rfl⟩⟩

theorem Settled.trans {s t u : State} {p : Nat} (h : Settled s t p) (h' : Settled t u p) : Settled s u p where
  only := tileOnly_trans h.only h'.only
  tile := by rw [h'.tile, h.tile]
  promo := List.Subset.trans h.promo h'.promo
  groups g x hx := by
    obtain ⟨y, hy, hxy⟩ := h.groups g x hx
    obtain ⟨z, hz, hyz⟩ := h'.groups g y hy
    exact ⟨z, hz, Group.waitOnly_trans hxy hyz⟩

/-- What none of this is a part of is as it was. -/
theorem Settled.apply {β : Type} {s t : State} {p : Nat} (h : Settled s t p) (φ : Tile → β)
    (hφ : ∀ (x : Tile) gs bl ps sg sl, φ { x with
      thr := { x.thr with groups := gs, blocks := bl, promo := ps, sigs := sg }, syn := { x.syn with signals := sl } } = φ x) :
    φ (t.tile p) = φ (s.tile p) := by
  rw [h.tile, hφ]

variable {s t : State} {p g : Nat}

/-- A change of a group's wait. -/
theorem settled_modGroup (s : State) (p g : Nat) {h : Group → Group} (hh : ∀ x : Group, x.WaitOnly (h x)) :
    Settled s (s.modGroup p g h) p where
  only := tileOnly_modGroup s p g h
  tile := by
    rw [modGroup, tile_modTile_self]
    conv_lhs => rw [Tile.modGroup_frame]
    rw [Tile.modGroup_frame]
  promo := by rw [apply_modGroup s p g (·.thr.promo) _ fun _ _ => rfl]; exact List.Subset.refl _
  groups j x hx := by
    by_cases hj : j = g
    · subst hj
      exact ⟨h x, by rw [group_of_modGroup, hx, Option.map_some], hh x⟩
    · exact ⟨x, by rw [group_of_modGroup_other _ _ _ _ hj, hx], rfl⟩

theorem settled_modBlock (s : State) (p b : Nat) (h : Block → Block) : Settled s (s.modTile p (·.modBlock b h)) p where
  only := tileOnly_modTile ..
  tile := by rw [tile_modTile_self]; rfl
  promo := by rw [tile_modTile_self]; exact List.Subset.refl _
  groups j x hx := ⟨x, by rw [tile_modTile_self]; exact hx, rfl⟩

/-- A group goes behind those that are ready. -/
theorem settled_addPromo (s : State) (p g : Nat) : Settled s (s.modThr p fun y => { y with promo := y.promo ++ [g] }) p where
  only := tileOnly_modThr ..
  tile := by rw [modThr, tile_modTile_self]
  promo := by rw [thr_of_modThr]; exact List.subset_append_left ..
  groups j x hx := ⟨x, by rw [group_of_modThr]; exacts [hx, fun _ => rfl], rfl⟩

theorem settled_setSigs (s : State) (p : Nat) (f : List Sig → List Sig) :
    Settled s (s.modThr p fun y => { y with sigs := f y.sigs }) p where
  only := tileOnly_modThr ..
  tile := by rw [modThr, tile_modTile_self]
  promo := by rw [thr_of_modThr]; exact List.Subset.refl _
  groups j x hx := ⟨x, by rw [group_of_modThr]; exacts [hx, fun _ => rfl], rfl⟩

theorem settled_raiseSem (s : State) (p k n : Nat) : Settled s (s.raiseSem p k n) p where
  only := tileOnly_trans (tileOnly_bump ..) (tileOnly_modSyn ..)
  tile := by rw [raiseSem, modSyn, tile_modTile_self, tile_bump]
  promo := by rw [raiseSem, modSyn, tile_modTile_self, tile_bump]; exact List.Subset.refl _
  groups j x hx := ⟨x, by rw [raiseSem, modSyn, tile_modTile_self, tile_bump]; exact hx, rfl⟩

theorem settled_forEach {α : Type} {f : State → α → State} (hf : ∀ s x, Settled s (f s x) p) (l : List α) (s : State) :
    Settled s (s.forEach l f) p := by
  induction l generalizing s with
  | nil => exact Settled.refl s p
  | cons x l ih => exact (hf s x).trans (ih (f s x))

theorem settled_ite {u : State} {c : Prop} [Decidable c] (ht : Settled s t p) (hu : Settled s u p) :
    Settled s (if c then t else u) p := by
  split
  exacts [ht, hu]

theorem settled_wake (s : State) (p g : Nat) : Settled s (s.wake p g) p := by
  unfold wake
  split
  · exact Settled.refl s p
  · refine settled_ite (settled_modGroup s p g fun _ => rfl) (Settled.trans ?_ (settled_addPromo ..))
    exact settled_modGroup s p g fun _ => rfl

theorem settled_arrive (s : State) (p g : Nat) : Settled s (s.arrive p g) p := by
  unfold arrive
  split
  · split
    · refine Settled.trans ?_ (settled_modBlock ..)
      exact settled_modGroup s p g fun _ => rfl
    · exact Settled.refl s p
  · exact Settled.refl s p

theorem settled_raiseSigs (s : State) (p : Nat) : Settled s (s.raiseSigs p) p := by
  rw [raiseSigs]
  exact (settled_setSigs s p fun l => l.filter _).trans (settled_forEach (fun s (z : Sig) => settled_raiseSem s p z.sem z.count) _ _)

/-- The turn of one group in bringing the waits up to date. -/
def settleGroup (s : State) (p g : Nat) : State :=
  let s := s.arrive p g
  match (s.tile p).group? g with
  | some x => if s.waitOver p g x then s.wake p g else s
  | none => s

theorem settle_eq (s : State) (p : Nat) :
    s.settle p = (s.raiseSigs p).forEach ((s.raiseSigs p).tile p).resident fun s g => s.settleGroup p g := rfl

theorem settled_settleGroup (s : State) (p g : Nat) : Settled s (s.settleGroup p g) p := by
  unfold settleGroup
  dsimp only
  split
  · split
    · exact (settled_arrive s p g).trans (settled_wake ..)
    · exact settled_arrive s p g
  · exact settled_arrive s p g

theorem settled_settle (s : State) (p : Nat) : Settled s (s.settle p) p :=
  (settled_raiseSigs s p).trans (settled_forEach (fun s g => settled_settleGroup s p g) _ _)

/-! What a turn leaves of the other groups, and what it makes of its own. -/

theorem group_of_addPromo (s : State) (p g j : Nat) :
    ((s.modThr p fun y => { y with promo := y.promo ++ [g] }).tile p).group? j = (s.tile p).group? j :=
  group_of_modThr s p j fun _ => rfl

theorem group_of_wake_other (s : State) (p : Nat) {g j : Nat} (hj : j ≠ g) :
    ((s.wake p g).tile p).group? j = (s.tile p).group? j := by
  unfold wake
  split
  · rfl
  · rw [apply_ite (fun u : State => (u.tile p).group? j), group_of_addPromo, group_of_modGroup_other _ _ _ _ hj,
      group_of_modGroup_other _ _ _ _ hj, ite_self]

theorem group_of_arrive_other (s : State) (p : Nat) {g j : Nat} (hj : j ≠ g) :
    ((s.arrive p g).tile p).group? j = (s.tile p).group? j := by
  unfold arrive
  split
  · split
    · rw [group_of_modBlock, group_of_modGroup_other _ _ _ _ hj]
    · rfl
  · rfl

theorem group_of_settleGroup_other (s : State) (p : Nat) {g j : Nat} (hj : j ≠ g) :
    ((s.settleGroup p g).tile p).group? j = (s.tile p).group? j := by
  unfold settleGroup
  dsimp only
  split
  · split
    · rw [group_of_wake_other _ _ hj, group_of_arrive_other _ _ hj]
    · exact group_of_arrive_other _ _ hj
  · exact group_of_arrive_other _ _ hj

/-- A group that does not wait to arrive in a BARB does not arrive. -/
theorem arrive_eq_self {x : Group} (hg : (s.tile p).group? g = some x)
    (hx : ¬ (x.wait = .barb false ∧ x.loads = [] ∧ (s.tile p).thr.inSb g x.firstStore (s.tile p).thr.nextStore = false)) :
    s.arrive p g = s := by
  rw [arrive, hg]
  refine if_neg fun h => hx ?_
  simpa using h

theorem group_of_arrive {x : Group} (hg : (s.tile p).group? g = some x) (hw : x.wait = .barb false) (hl : x.loads = [])
    (hsb : (s.tile p).thr.inSb g x.firstStore (s.tile p).thr.nextStore = false) :
    ((s.arrive p g).tile p).group? g = some { x with wait := .barb true } := by
  have hcond : x.wait = .barb false ∧ x.loads = [] ∧ !(s.tile p).thr.inSb g x.firstStore (s.tile p).thr.nextStore := by
    simp [hw, hl, hsb]
  rw [arrive, hg]
  dsimp only
  rw [if_pos hcond, group_of_modBlock, group_of_modGroup, hg, Option.map_some]

/-- A group that the debugger has asked nothing of becomes ready when its wait ends. -/
theorem wake_eq {x : Group} (hg : (s.tile p).group? g = some x) (hh : x.haltPending = false) (hs : x.stepping = false) :
    s.wake p g = (s.modGroup p g fun x => { x with wait := .none, active := false }).modThr p
      fun y => { y with promo := y.promo ++ [g] } := by
  rw [wake, hg]
  dsimp only
  rw [if_neg (by simp [hh, hs])]

theorem group_of_wake {x : Group} (hg : (s.tile p).group? g = some x) (hh : x.haltPending = false) (hs : x.stepping = false) :
    ((s.wake p g).tile p).group? g = some { x with wait := .none, active := false }
      ∧ g ∈ ((s.wake p g).tile p).thr.promo := by
  rw [wake_eq hg hh hs, group_of_addPromo, group_of_modGroup, hg, thr_of_modThr]
  exact ⟨rfl, List.mem_append_right _ (List.mem_singleton_self g)⟩

/-- A turn of a group whose wait has not ended, and that does not arrive, changes nothing. -/
theorem settleGroup_eq_self {x : Group} (hg : (s.tile p).group? g = some x) (ha : s.arrive p g = s)
    (hw : s.waitOver p g x = false) : s.settleGroup p g = s := by
  rw [settleGroup, ha, hg]
  dsimp only
  rw [if_neg (by simp [hw])]

end State

/-- The SEMSIGs whose stores have left both buffers. -/
def Thr.due (y : Thr) : List Sig :=
  y.sigs.filter fun z => !y.inSb z.group z.first z.limit && !y.inWb z.group z.first z.limit

namespace State

variable {s t : State} {p g : Nat}

theorem tile_forEach_raiseSem (l : List Sig) (s : State) (p : Nat) :
    (s.forEach l fun s z => s.raiseSem p z.sem z.count).tile p
      = { s.tile p with syn := { (s.tile p).syn with signals := (s.tile p).syn.signals ++ l.map fun z => (z.sem, z.count) } } := by
  induction l generalizing s with
  | nil => simp [forEach]
  | cons z l ih =>
    have htile : (s.raiseSem p z.sem z.count).tile p
        = { s.tile p with syn := { (s.tile p).syn with signals := (s.tile p).syn.signals ++ [(z.sem, z.count)] } } := by
      rw [raiseSem, modSyn, tile_modTile_self, tile_bump]
    exact (ih _).trans (by simp [htile])

/-- Raising the due SEMSIGs appends them to the tile's signals. -/
theorem tile_raiseSigs (s : State) (p : Nat) : (s.raiseSigs p).tile p = { s.tile p with
    thr := { (s.tile p).thr with sigs := (s.tile p).thr.sigs.filter fun z => !(s.tile p).thr.due.contains z }
    syn := { (s.tile p).syn with signals :=
      (s.tile p).syn.signals ++ (s.tile p).thr.due.map fun z => (z.sem, z.count) } } := by
  rw [raiseSigs]
  exact (tile_forEach_raiseSem _ _ p).trans (by rw [modThr, tile_modTile_self]; rfl)

theorem syn_of_wake (s : State) (p g : Nat) : ((s.wake p g).tile p).syn = (s.tile p).syn := by
  unfold wake
  split
  · rfl
  · rw [apply_ite (fun u : State => (u.tile p).syn), syn_of_modThr, syn_of_modGroup, syn_of_modGroup, ite_self]

theorem syn_of_arrive (s : State) (p g : Nat) : ((s.arrive p g).tile p).syn = (s.tile p).syn := by
  unfold arrive
  split
  · split
    · rw [syn_of_modBlock, syn_of_modGroup]
    · rfl
  · rfl

theorem syn_of_settleGroup (s : State) (p g : Nat) : ((s.settleGroup p g).tile p).syn = (s.tile p).syn := by
  unfold settleGroup
  dsimp only
  split
  · split
    · rw [syn_of_wake, syn_of_arrive]
    · exact syn_of_arrive ..
  · exact syn_of_arrive ..

/-- Bringing the waits up to date raises the due SEMSIGs and no other signal. -/
theorem signals_of_settle (s : State) (p : Nat) : ((s.settle p).tile p).syn.signals
    = (s.tile p).syn.signals ++ (s.tile p).thr.due.map fun z => (z.sem, z.count) := by
  rw [settle_eq, forEach_apply (fun u : State => (u.tile p).syn) _ fun s g => syn_of_settleGroup s p g, tile_raiseSigs]

end State

theorem FMap.mem_keys_of_get_ne {α : Type} {d : α} {m : FMap α} {k : Nat} (h : m.get d k ≠ d) : k ∈ m.keys := by
  induction m with
  | nil => exact absurd rfl h
  | cons x m ih =>
    obtain ⟨j, v⟩ := x
    by_cases hj : j = k
    · exact hj ▸ List.mem_cons_self ..
    · exact List.mem_cons_of_mem _ (ih (by simpa [FMap.get, hj] using h))

theorem Tile.mem_resident {t : Tile} {g : Nat} {x : Group} (h : t.group? g = some x) : g ∈ t.resident :=
  FMap.mem_keys_of_get_ne (d := none) (by rw [← Tile.group?, h]; exact Option.some_ne_none x)

namespace State

variable {s t : State} {p g : Nat}

/-- What its own turn brings about for a group, and every later turn keeps, holds when the waits are up to date. -/
theorem settle_turn {x : Group} {Q : State → Prop} (hg : (s.tile p).group? g = some x)
    (hself : ∀ u, Settled s u p → (u.tile p).group? g = some x → Q (u.settleGroup p g))
    (hkeep : ∀ u j, Settled s u p → Q u → Q (u.settleGroup p j)) : Q (s.settle p) := by
  have hkept : ∀ (l : List Nat) u, Settled s u p → Q u → Q (u.forEach l fun s g => s.settleGroup p g) := by
    intro l
    induction l with
    | nil => exact fun _ _ hq => hq
    | cons j l ih => exact fun u hu hq => ih _ (hu.trans (settled_settleGroup ..)) (hkeep u j hu hq)
  have hreach : ∀ (l : List Nat) u, g ∈ l → Settled s u p → (u.tile p).group? g = some x →
      Q (u.forEach l fun s g => s.settleGroup p g) := by
    intro l
    induction l with
    | nil => exact fun _ hm => absurd hm List.not_mem_nil
    | cons j l ih =>
      intro u hm hu hx
      by_cases hj : g = j
      · exact hkept l _ (hu.trans (settled_settleGroup ..)) (hj ▸ hself u hu hx)
      · exact ih _ (List.mem_of_ne_of_mem hj hm) (hu.trans (settled_settleGroup ..))
          ((group_of_settleGroup_other u p hj).trans hx)
  have hraised : ((s.raiseSigs p).tile p).group? g = some x := by rw [tile_raiseSigs]; exact hg
  exact hreach _ _ (Tile.mem_resident hraised) (settled_raiseSigs s p) hraised

/-- A group whose turn never changes it is as it was when the waits are up to date. -/
theorem group_of_settle_still {x : Group} (hg : (s.tile p).group? g = some x)
    (hself : ∀ u, Settled s u p → (u.tile p).group? g = some x → ((u.settleGroup p g).tile p).group? g = some x) :
    ((s.settle p).tile p).group? g = some x := by
  refine settle_turn (Q := fun u => (u.tile p).group? g = some x) hg hself fun u j hu hx => ?_
  by_cases hj : g = j
  · exact hj ▸ hself u hu hx
  · exact (group_of_settleGroup_other u p hj).trans hx

end State

end Sys2Proof.Machine
end

section
/-!
PROOF. Maintenance of the L1 (R69, R71, R72): CINV, the disabling of a way and the end of its error window.
-/
namespace Sys2Proof.Machine

namespace State

variable {s t : State} {p g : Nat}

/-! ### CINV (R69, R71) -/

/-- The address of a line is covered by a CINV. -/
def cinvCovers (x : Group) (f : ThreadFields) (line : Nat) : Bool :=
  f.modBit 0 || (decide (0 < (x.ureg f.b.toNat).toNat)
    && decide (line * 128 < (x.ureg f.a.toNat).toNat % 2 ^ 56 + (x.ureg f.b.toNat).toNat)
    && decide ((x.ureg f.a.toNat).toNat % 2 ^ 56 < line * 128 + 128))

/-- The lines that a CINV leaves in the L1. -/
def cinvKept (x : Group) (f : ThreadFields) (y : Thr) : FMap (Option (Nat × List Byte)) :=
  y.l1.filter fun e => bit y.locked (e.1 % 8) || !(e.2.any fun z => cinvCovers x f z.1)

theorem cinv_eq {x : Group} {f : ThreadFields} (h : GroupAt s p g x 5 0x07 f) :
    s.cinv p g f = (s.modThr p fun y => { y with l1 := cinvKept x f y }).retire p g id := thread_runs s p g _ h

theorem tileOnly_of_groupOnly (h : GroupOnly s t p g) : TileOnly s t p := ⟨h.1, h.2.1⟩

/-- An instruction that issues with no effect of its own keeps the registers. -/
theorem retire_id {x : Group} (hg : (s.tile p).group? g = some x) :
    GroupOnly s (s.retire p g id) p g ∧ GroupNext (s.retire p g id) p g x x.vreg x.ureg :=
  retire_spec s p g hg id fun _ => ⟨rfl, rfl, rfl, rfl, rfl, rfl, rfl⟩

/-! ### What a log record and a nomination change (R381, R386) -/

/-- Nothing differs but port messages, register fields and the management processor's state without the repair state. -/
def recordsOnly (s t : State) : Prop :=
  t = { s with mgt := t.mgt, chl := t.chl, fields := t.fields } ∧ t.mgt.repair = s.mgt.repair

theorem recordsOnly_trans {u : State} (h : s.recordsOnly t) (h' : t.recordsOnly u) : s.recordsOnly u := by
  obtain ⟨ho, hr⟩ := h
  obtain ⟨ho', hr'⟩ := h'
  exact ⟨by rw [ho', ho], hr'.trans hr⟩

theorem recordsOnly_modMgt (s : State) {h : Mgt → Mgt} (hh : ∀ m, (h m).repair = m.repair) :
    s.recordsOnly (s.modMgt h) := ⟨rfl, hh s.mgt⟩

theorem recordsOnly_of_onlyFields (h : s.onlyFields t) : s.recordsOnly t := by
  rw [onlyFields] at h
  rw [h]
  exact ⟨rfl, rfl⟩

theorem recordsOnly_log (s : State) (kind : Nat) (r : Bool) (src : Nat) (b : List Nat) :
    s.recordsOnly (s.log kind r src b) := by
  unfold log
  split
  · exact recordsOnly_modMgt s fun _ => rfl
  · split
    · exact recordsOnly_modMgt s fun _ => rfl
    · refine recordsOnly_trans ?_ (recordsOnly_of_onlyFields (bump_onlyFields ..))
      exact recordsOnly_modMgt s fun _ => rfl

theorem recordsOnly_raise (s : State) (v : Nat) : s.recordsOnly (s.raise v) := by
  unfold raise
  dsimp only
  split
  · exact recordsOnly_of_onlyFields rfl
  · rw [sendMsg_frame]
    exact ⟨rfl, rfl⟩

theorem recordsOnly_raiseMgt (s : State) (en : Fld) : s.recordsOnly (s.raiseMgt en) := by
  unfold raiseMgt when
  split
  · exact recordsOnly_raise ..
  · exact ⟨rfl, rfl⟩

theorem recordsOnly_nominate (s : State) (p cause : Nat) : s.recordsOnly (s.nominate p cause) := by
  unfold nominate
  dsimp only
  split
  · exact ⟨rfl, rfl⟩
  · split
    · exact recordsOnly_trans (recordsOnly_log ..) (recordsOnly_raiseMgt ..)
    · refine recordsOnly_trans ?_ (recordsOnly_trans (recordsOnly_log ..) (recordsOnly_raiseMgt ..))
      exact recordsOnly_modMgt s fun _ => rfl

theorem tile_of_recordsOnly (h : s.recordsOnly t) : t.tile = s.tile := by rw [h.1]; rfl
theorem mem_of_recordsOnly (h : s.recordsOnly t) : t.mem = s.mem := by rw [h.1]

theorem wayOn_of_recordsOnly (h : s.recordsOnly t) : t.wayOn = s.wayOn := by
  funext q w
  rw [wayOn, wayOn, h.2]

/-- A log record changes no field but the count of dropped records. -/
theorem f_log_other (s : State) (kind : Nat) (r : Bool) (src : Nat) (b : List Nat) {x : Fld} {i : Nat}
    (hx : x ≠ .MGT_LOG_DROPPED_COUNT) (hw : x ≠ .MGT_COUNTER_WRAP_LOG_DROPPED_WRAPPED) :
    (s.log kind r src b).f x i = s.f x i := by
  unfold log
  split
  · rfl
  · split
    · rfl
    · refine (f_bump_other _ 1 (fun e => hx (Prod.mk.inj e).1) fun w k b h => ?_).trans rfl
      cases h
      exact fun e => hw (Prod.mk.inj e).1

end State

/-! ### Ways (R72) -/

/-- The L1 and the locks of a tile whose way `w` is disabled: its lines are dropped, its lock released. -/
def Thr.dropWay (y : Thr) (w : Nat) : Thr := { y with
  l1 := (List.range 256).foldl (fun m i => m.put none (8 * i + w) none) y.l1, locked := clearBit y.locked w }

theorem Thr.l1_of_dropWay (y : Thr) {w i : Nat} (hi : i < 256) : (y.dropWay w).l1.get none (8 * i + w) = none := by
  have hfold : (y.dropWay w).l1 = ((List.range 256).map (8 * · + w)).foldl (fun m k => m.put none k none) y.l1 := by
    simp only [Thr.dropWay, List.foldl_map]
  rw [hfold, FMap.get_foldl_put none fun _ => none, if_pos (List.mem_map.mpr ⟨i, List.mem_range.mpr hi, rfl⟩)]

namespace State

variable {s t : State} {p g : Nat}

/-- The errors of a way counted in its window are cleared. -/
def clearErrors (s : State) (p w : Nat) : State := s.modThr p fun y => { y with
  ways := y.ways.put ⟨0, 0⟩ w { (s.tile p).thr.ways.get ⟨0, 0⟩ w with errors := 0 } }

/-- A way is disabled in the repair state. -/
def turnWayOff (s : State) (p w : Nat) : State :=
  s.modMgt fun m => { m with repair := { m.repair with ways := m.repair.ways.put false (8 * p + w) true } }

/-- A way with its lines, its lock and its count of errors gone, and its disabling noted for the register's event bit. -/
def dropWay (s : State) (p w : Nat) : State :=
  (((s.clearErrors p w).modThr p (·.dropWay w)).turnWayOff p w).orBit .THR_L1_WAYS_DISABLED_EVENT p w

theorem wayDisable_eq {w : Nat} (hw : w < 8) (hon : s.wayOn p w = true)
    (herr : 16 ≤ ((s.tile p).thr.ways.get ⟨0, 0⟩ w).errors) : s.wayDisable p w =
      if (s.enabledWays p).length ≤ 4 then (s.clearErrors p w).nominate p 3
      else (s.dropWay p w).log 0x0B true (dcIx (p / 104)) [p + w * 2 ^ 10] := by
  rw [wayDisable]
  dsimp only
  rw [if_neg (by simp only [hon]; simp; omega)]
  rfl

theorem wayOn_dropWay (s : State) (p w v : Nat) : (s.dropWay p w).wayOn p v = (s.wayOn p v && decide (v ≠ w)) := by
  have hget : (s.dropWay p w).wayOn p v = !(s.mgt.repair.ways.put false (8 * p + w) true).get false (8 * p + v) := rfl
  rw [hget, FMap.get_put, wayOn]
  by_cases hv : v = w <;> simp [hv]

theorem tile_dropWay (s : State) (p w q : Nat) :
    (s.dropWay p w).tile q = ((s.clearErrors p w).modThr p (·.dropWay w)).tile q := by
  simp only [dropWay, tile, orBit_tiles, turnWayOff, modMgt_tiles]

theorem dropWay_mem (s : State) (p w : Nat) : (s.dropWay p w).mem = s.mem := by
  simp [dropWay, turnWayOff, clearErrors]

theorem tilesBut_dropWay (s : State) (p w : Nat) : s.tilesBut (s.dropWay p w) [p] := fun q hq => by
  rw [tile_dropWay, (tileOnly_modThr (s.clearErrors p w) p (·.dropWay w)).2 q hq, clearErrors]
  exact (tileOnly_modThr ..).2 q hq

/-- A bit set in a field of at least that many bits. -/
theorem bit_f_orBit (s : State) (x : Fld) (i : Nat) {n : Nat} (hn : n < x.width) : bit ((s.orBit x i n).f x i) n = true := by
  rw [orBit, f_setF_self, bit_eq_testBit, Nat.testBit_mod_two_pow, ← bit_eq_testBit, bit_setBit]
  simp [hn]

end State

open State in
/-- Settles O12: CINV filters the L1 before it issues, a way's disabling is one update of the L1 and the repair state or a
nomination, the end of a window one of the way's counts. -/
theorem l1Maintenance : Obligations.L1Maintenance := by
  refine ⟨fun s p g x f h => ?_, fun s p w hw hon herr => ?_, fun s p w hfull => ?_⟩
  · intro a n
    have hfirst := tileOnly_modThr s p fun y => { y with l1 := cinvKept x f y }
    have hg : ((s.modThr p fun y => { y with l1 := cinvKept x f y }).tile p).group? g = some x := by
      rw [group_of_modThr]
      exacts [h.1, fun _ => rfl]
    obtain ⟨honly, hnext⟩ := retire_id hg
    obtain ⟨hfields, hbut⟩ := tileOnly_trans hfirst (tileOnly_of_groupOnly honly)
    refine ⟨_, congrArg Host.Outcome.next (cinv_eq h), hfields, hbut, hnext, fun k line bs => ?_⟩
    have hl1 : ((((s.modThr p fun y => { y with l1 := cinvKept x f y }).retire p g id).tile p).thr).l1
        = cinvKept x f (s.tile p).thr := by
      rw [apply_retire (·.thr.l1) _ _ _ _ fun _ _ => rfl, thr_of_modThr]
    have hcover : cinvCovers x f line = true ↔ f.modBit 0 = true ∨ (0 < n ∧ line * 128 < a + n ∧ a < line * 128 + 128) := by
      simp [cinvCovers, a, n, and_assoc]
    rw [hl1, cinvKept, List.mem_filter, ← hcover]
    simp
  · have hexec := congrArg (Host.Outcome.next (φ := Fault) (ρ := Refusal)) (wayDisable_eq hw hon herr)
    refine ⟨fun hmany => ?_, fun hfew => ?_⟩
    · rw [if_neg (by omega)] at hexec
      have hrec := recordsOnly_log (s.dropWay p w) 0x0B true (dcIx (p / 104)) [p + w * 2 ^ 10]
      have htile := tile_of_recordsOnly hrec
      have hon' := wayOn_of_recordsOnly hrec
      refine ⟨_, hexec, ?_, fun q hq => ?_, ?_, fun v hv _ => ?_, ?_, ?_, fun i hi => ?_⟩
      · rw [mem_of_recordsOnly hrec, dropWay_mem]
      · rw [htile, tilesBut_dropWay s p w q hq]
      · rw [hon', wayOn_dropWay]; simp
      · rw [hon', wayOn_dropWay]; simp [hv]
      · rw [f_log_other _ _ _ _ _ (x := .THR_L1_WAYS_DISABLED_EVENT) (by decide) (by decide)]
        exact bit_f_orBit _ _ p hw
      · rw [htile, tile_dropWay, thr_of_modThr]
        exact bit_clearBit_self ..
      · rw [htile, tile_dropWay, thr_of_modThr]
        exact Thr.l1_of_dropWay _ hi
    · rw [if_pos hfew] at hexec
      have hrec := recordsOnly_nominate (s.clearErrors p w) p 3
      refine ⟨_, hexec, ?_, fun q hq => ?_, ?_, ?_⟩
      · rw [mem_of_recordsOnly hrec, clearErrors, modThr_mem]
      · rw [tile_of_recordsOnly hrec]; exact (tileOnly_modThr ..).2 q hq
      · rw [wayOn_of_recordsOnly hrec]; exact hon
      · rw [tile_of_recordsOnly hrec, clearErrors, thr_of_modThr]
  · refine ⟨_, congrArg Host.Outcome.next (if_neg (by omega)), rfl, fun q hq => ?_, ?_, ?_, fun v hv => ?_⟩
    · exact (tileOnly_modThr ..).2 q hq
    · rw [thr_of_modThr, FMap.get_put_self]
    · rw [thr_of_modThr]
    · rw [thr_of_modThr, FMap.get_put_other _ _ _ hv]

end Sys2Proof.Machine
end

section
/-!
PROOF. Waits, ends and events of a thread group (R52, R58, R59, R61, R64, R78, R80, R187, R200, R206, R210). An instruction that
waits issues, and then the waits of its tile are brought up to date; what becomes of its own group is decided in the group's
turn (`State.settle_turn`).
-/
namespace Sys2Proof.Machine

/-! ### END (R52, R58, R187) -/

/-- The lanes of a mask that an END of a group's active lanes leaves. -/
def Group.survivors (x : Group) (m : Nat) : Nat := maskOf ((lanesOf m).filter fun l => !bit x.mask l)

theorem Group.bit_survivors (x : Group) (m j : Nat) :
    bit (x.survivors m) j = (decide (j < 32) && bit m j && !bit x.mask j) := by
  rw [Group.survivors, bit_maskOf ((nodup_lanesOf m).filter _)]
  simp [mem_lanesOf]

theorem Group.survivors_eq_zero (x : Group) (m : Nat) :
    x.survivors m = 0 ↔ ∀ l, l < 32 → bit m l = true → bit x.mask l = true := by
  rw [Group.survivors, maskOf_eq_zero, List.filter_eq_nil_iff]
  simp [mem_lanesOf]

/-- A group some of whose lanes have ended: they have left every path (R52). -/
def Group.endLanes (x y : Group) : Group :=
  { y with alive := x.survivors y.alive, mask := 0, stack := y.stack.map fun e => { e with mask := x.survivors e.mask } }

/-- The group of a block that has left it. -/
def Block.leave (g : Nat) (b : Block) : Block :=
  { b with groups := b.groups.filter (· != g), arrived := b.arrived.filter (· != g) }

theorem Tile.block?_modBlock_self (t : Tile) (b : Nat) (h : Block → Block) : (t.modBlock b h).block? b = (t.block? b).map h :=
  FMap.get_upd_self ..

namespace State

variable {s t : State} {p g : Nat}

theorem wait_of_groupAt {x : Group} {cls op : Nat} {f : ThreadFields} (h : GroupAt s p g x cls op f) : x.wait = .none := by
  obtain ⟨-, hissue, -⟩ := h
  simp only [canIssue, Bool.and_eq_true, beq_iff_eq] at hissue
  exact hissue.1.1.1.2

theorem thrEnd_eq {x : Group} {f : ThreadFields} (h : GroupAt s p g x 5 0x06 f) : s.thrEnd p g f =
    if x.survivors x.alive = 0 then
      if x.loads ≠ [] then s.hold p g (.data (x.loads.map (·.id)) []) else (s.bump .THR_ISSUE_COUNT p).endGroup p g x.block
    else s.retire p g x.endLanes := thread_runs s p g _ h

/-- A tile whose group `g`, of block `b`, has left its slot and its block. -/
def leaveGroup (s : State) (p g b : Nat) : State := (s.modTile p (·.setGroup g none)).modTile p (·.modBlock b (·.leave g))

theorem endGroup_eq (s : State) (p g b : Nat) : s.endGroup p g b =
    if (((s.leaveGroup p g b).tile p).block? b).map (·.groups) = some [] then
      (s.leaveGroup p g b).modThr p fun y => { y with blocks := y.blocks.put none b none }
    else s.leaveGroup p g b := rfl

theorem tileOnly_endGroup (s : State) (p g b : Nat) : TileOnly s (s.endGroup p g b) p := by
  have hleave : TileOnly s (s.leaveGroup p g b) p := tileOnly_trans (tileOnly_modTile ..) (tileOnly_modTile ..)
  rw [endGroup_eq]
  split
  · exact tileOnly_trans hleave (tileOnly_modThr ..)
  · exact hleave

theorem group_of_leaveGroup (s : State) (p g b j : Nat) :
    ((s.leaveGroup p g b).tile p).group? j = ((s.tile p).setGroup g none).group? j := by
  rw [leaveGroup, tile_modTile_self, tile_modTile_self]
  rfl

theorem group_of_endGroup (s : State) (p g b j : Nat) :
    ((s.endGroup p g b).tile p).group? j = ((s.tile p).setGroup g none).group? j := by
  rw [endGroup_eq, apply_ite (fun u : State => (u.tile p).group? j), group_of_modThr, ite_self, group_of_leaveGroup]
  exact fun _ => rfl

theorem block_of_leaveGroup (s : State) (p g b : Nat) :
    ((s.leaveGroup p g b).tile p).block? b = ((s.tile p).block? b).map (·.leave g) := by
  rw [leaveGroup, tile_modTile_self, tile_modTile_self, Tile.block?_modBlock_self]
  rfl

/-- The block of a group that was its last leaves its slot. -/
theorem block_of_endGroup {b : Nat} {y : Block} (hb : (s.tile p).block? b = some y) (hy : y.groups = [g]) :
    ((s.endGroup p g b).tile p).block? b = none := by
  have hempty : (((s.leaveGroup p g b).tile p).block? b).map (·.groups) = some [] := by
    simp [block_of_leaveGroup, hb, Block.leave, hy]
  rw [endGroup_eq, if_pos hempty, Tile.block?, thr_of_modThr, FMap.get_put_self]

end State

/-- The last lanes of a group without loads end: its slot is free, and its block's with the block's last group. -/
theorem end_of_group {s : State} {p g : Nat} {x : Group} {f : ThreadFields} (h : GroupAt s p g x 5 0x06 f) (hl : x.loads = [])
    (hall : ∀ l, l < 32 → bit x.alive l = true → bit x.mask l = true) :
    ∃ t, exec (.thrEnd p g f) s = .next t ∧ TileOnly s t p ∧ (t.tile p).group? g = none
      ∧ (∀ j, j ≠ g → (t.tile p).group? j = (s.tile p).group? j)
      ∧ ∀ b, (s.tile p).block? x.block = some b → b.groups = [g] → (t.tile p).block? x.block = none := by
  have heq := State.thrEnd_eq h
  rw [if_pos ((x.survivors_eq_zero _).mpr hall), if_neg (by simp [hl])] at heq
  refine ⟨_, congrArg Host.Outcome.next heq, State.tileOnly_trans (State.tileOnly_bump ..) (State.tileOnly_endGroup ..), ?_,
    fun j hj => ?_, fun b hb hg => ?_⟩
  · rw [State.group_of_endGroup, State.group_setGroup_self]
  · rw [State.group_of_endGroup, State.group_setGroup_other _ _ hj, State.tile_bump]
  · exact State.block_of_endGroup (by rw [State.tile_bump]; exact hb) hg

/-- Lanes of a group end while others are alive. -/
theorem end_of_lanes {s : State} {p g : Nat} {x : Group} {f : ThreadFields} {l : Nat} (h : GroupAt s p g x 5 0x06 f)
    (hl : l < 32) (ha : bit x.alive l = true) (hm : bit x.mask l = false) :
    ∃ t y, exec (.thrEnd p g f) s = .next t ∧ GroupOnly s t p g ∧ (t.tile p).group? g = some y ∧ SameRegs x y
      ∧ ∀ j, bit y.alive j = (decide (j < 32) && bit x.alive j && !bit x.mask j) := by
  have hsome : ¬ x.survivors x.alive = 0 := fun hz => by
    rw [Group.survivors_eq_zero] at hz
    simp [hz l hl ha] at hm
  have heq := State.thrEnd_eq h
  rw [if_neg hsome] at heq
  obtain ⟨hv, hu, -, halive, -⟩ := x.issued_frame x.endLanes
  refine ⟨_, _, congrArg Host.Outcome.next heq, State.groupOnly_retire .., State.group_of_retire h.1 _, sameRegs_of_eq hv hu,
    fun j => ?_⟩
  rw [halive]
  exact x.bit_survivors ..

/-! ### Instructions that wait (R187, R200, R206, R210) -/

/-- A group that leaves the active set with a wait. -/
def Group.stopped (w : GWait) (x : Group) : Group := { x with active := false, wait := w }

/-- A group whose instruction has issued and which waits behind it. -/
theorem Group.issued_stopped (x : Group) {w : GWait} (hw : w ≠ .none) : let y := x.issued (Group.stopped w)
    Behind x y ∧ SameRegs x y ∧ y.active = false ∧ y.wait = w ∧ y.loads = x.loads ∧ y.firstStore = x.firstStore
      ∧ y.haltPending = x.haltPending ∧ y.stepping = x.stepping := by
  intro y
  obtain ⟨hv, hu, hloads, -, hwait, hhalt, hfirst, -, hrest⟩ := x.issued_frame (Group.stopped w)
  obtain ⟨hactive, hstep⟩ := hrest hw
  exact ⟨x.behind_issued fun _ => ⟨rfl, rfl, rfl, rfl⟩, sameRegs_of_eq hv hu, hactive, hwait, hloads, hfirst, hhalt, hstep⟩

namespace State

variable {s t : State} {p g : Nat}

/-- Group `g` of tile `p` waits behind its instruction. -/
def stopFor (s : State) (p g : Nat) (w : GWait) : State := s.retire p g (Group.stopped w)

/-- What no group is a part of is as it was. -/
theorem apply_stopFor {β : Type} (φ : Tile → β) (s : State) (p g : Nat) (w : GWait)
    (hφ : ∀ t gs, φ { t with thr := { t.thr with groups := gs } } = φ t) :
    φ ((s.stopFor p g w).tile p) = φ (s.tile p) := by
  rw [stopFor, apply_retire φ s p g _ hφ]

theorem barb_eq {x : Group} {f : ThreadFields} (h : GroupAt s p g x 6 0x01 f) :
    s.barb p g f = (s.stopFor p g (.barb false)).settle p := thread_runs s p g _ h

theorem membar_eq {x : Group} {f : ThreadFields} (h : GroupAt s p g x 6 0x02 f) :
    s.membar p g f = (s.stopFor p g (.membar f.kind (s.tile p).thr.nextStore)).settle p := thread_runs s p g _ h

/-- Its turn leaves a group that has arrived, or has not, in its BARB. -/
theorem waitOver_barb {x : Group} {a : Bool} (h : x.wait = .barb a) : s.waitOver p g x = false := by
  rw [waitOver, h]

/-- A group in a BARB arrives in its turn where its loads are performed and its stores have left the store buffer. -/
theorem group_of_settle_barb {y : Group} (hg : (s.tile p).group? g = some y) (hw : y.wait = .barb false) :
    ((s.settle p).tile p).group? g = some { y with
      wait := .barb (y.loads.isEmpty && !(s.tile p).thr.inSb g y.firstStore (s.tile p).thr.nextStore) } := by
  have hsb : ∀ u, Settled s u p → (u.tile p).thr.inSb g y.firstStore (u.tile p).thr.nextStore
      = (s.tile p).thr.inSb g y.firstStore (s.tile p).thr.nextStore :=
    fun u hu => hu.apply (fun t => t.thr.inSb g y.firstStore t.thr.nextStore) fun _ _ _ _ _ _ => rfl
  by_cases harr : y.loads = [] ∧ (s.tile p).thr.inSb g y.firstStore (s.tile p).thr.nextStore = false
  · obtain ⟨hl, hs⟩ := harr
    have hstill : ∀ u : State, (u.tile p).group? g = some { y with wait := .barb true } → u.settleGroup p g = u := fun u hu =>
      settleGroup_eq_self hu (arrive_eq_self hu (by simp)) (waitOver_barb rfl)
    have hturn : ((s.settle p).tile p).group? g = some { y with wait := .barb true } := by
      refine settle_turn (Q := fun u => (u.tile p).group? g = some { y with wait := .barb true }) hg (fun u hu hx => ?_)
        fun u j _ hx => ?_
      · have harrive := group_of_arrive hx hw hl ((hsb u hu).trans hs)
        rw [settleGroup]
        simp only [harrive, waitOver_barb (a := true) (x := { y with wait := .barb true }) rfl]
        exact harrive
      · by_cases hj : g = j
        · subst hj
          rw [hstill u hx]
          exact hx
        · exact (group_of_settleGroup_other u p hj).trans hx
    simpa [hl, hs] using hturn
  · have hstill : ((s.settle p).tile p).group? g = some y := by
      refine group_of_settle_still hg fun u hu hx => ?_
      have hno : u.arrive p g = u := arrive_eq_self hx fun h => harr ⟨h.2.1, (hsb u hu).symm.trans h.2.2⟩
      rw [settleGroup_eq_self hx hno (waitOver_barb hw)]
      exact hx
    have hfalse : (y.loads.isEmpty && !(s.tile p).thr.inSb g y.firstStore (s.tile p).thr.nextStore) = false := by
      simpa using harr
    rw [hfalse, hstill, ← hw]

theorem waitOver_membar {x : Group} {scope limit : Nat} (h : x.wait = .membar scope limit) : s.waitOver p g x =
    (x.loads.isEmpty && !(s.tile p).thr.inSb g x.firstStore limit && (scope == 0 || !(s.tile p).thr.inWb g x.firstStore limit)
      && (scope != 3 || (s.storesOut p g x.firstStore limit).isEmpty)) := by
  rw [waitOver, h]

/-- What a MEMBAR waits for does not change while the waits are brought up to date. -/
theorem Settled.waitOver_membar (h : Settled s t p) {x : Group} {scope limit : Nat} (hw : x.wait = .membar scope limit) :
    t.waitOver p g x = s.waitOver p g x := by
  have hsb := h.apply (fun t => t.thr.inSb g x.firstStore limit) fun _ _ _ _ _ _ => rfl
  have hwb := h.apply (fun t => t.thr.inWb g x.firstStore limit) fun _ _ _ _ _ _ => rfl
  have hout : t.storesOut p g x.firstStore limit = s.storesOut p g x.firstStore limit := congrFun (owned_of_tileOnly h.only) _
  rw [State.waitOver_membar hw, State.waitOver_membar hw, hsb, hwb, hout]

/-- A group whose wait has ended is ready when the waits are up to date (R61). -/
theorem group_of_settle_over {y : Group} (hg : (s.tile p).group? g = some y) (hw : ∀ a, y.wait ≠ .barb a)
    (hh : y.haltPending = false) (hs : y.stepping = false) (hover : ∀ u, Settled s u p → u.waitOver p g y = true) :
    ((s.settle p).tile p).group? g = some { y with wait := .none, active := false } ∧ g ∈ ((s.settle p).tile p).thr.promo := by
  refine settle_turn (Q := fun u => (u.tile p).group? g = some { y with wait := .none, active := false } ∧ g ∈ (u.tile p).thr.promo)
    hg (fun u hu hx => ?_) fun u j _ hq => ?_
  · have hno : u.arrive p g = u := arrive_eq_self hx fun h => hw _ h.1
    rw [settleGroup, hno]
    simp only [hx, hover u hu, if_true]
    exact group_of_wake hx hh hs
  · refine ⟨?_, (settled_settleGroup u p j).promo hq.2⟩
    by_cases hj : g = j
    · subst hj
      rw [settleGroup_eq_self hq.1 (arrive_eq_self hq.1 (by simp)) (by rw [waitOver])]
      exact hq.1
    · exact (group_of_settleGroup_other u p hj).trans hq.1

/-- A group whose wait goes on is as it was when the waits are up to date. -/
theorem group_of_settle_waiting {y : Group} (hg : (s.tile p).group? g = some y) (hw : ∀ a, y.wait ≠ .barb a)
    (hover : ∀ u, Settled s u p → u.waitOver p g y = false) : ((s.settle p).tile p).group? g = some y :=
  group_of_settle_still hg fun u hu hx => by
    rw [settleGroup_eq_self hx (arrive_eq_self hx fun h => hw _ h.1) (hover u hu)]
    exact hx

end State

/-- BARB stops its group, which has arrived where nothing of its own is outstanding. -/
theorem barb_stops {s : State} {p g : Nat} {x : Group} {f : ThreadFields} (h : GroupAt s p g x 6 0x01 f) :
    ∃ t y, exec (.barb p g f) s = .next t ∧ TileOnly s t p ∧ (t.tile p).group? g = some y ∧ Behind x y ∧ SameRegs x y
      ∧ y.active = false
      ∧ y.wait = .barb (x.loads.isEmpty && !(s.tile p).thr.inSb g x.firstStore (s.tile p).thr.nextStore) := by
  obtain ⟨hbehind, hregs, hactive, hwait, hloads, hfirst, -, -⟩ :=
    x.issued_stopped (w := .barb false) (by simp)
  have hg : ((s.stopFor p g (.barb false)).tile p).group? g = some _ := State.group_of_retire h.1 _
  have hsb := State.apply_stopFor (fun t => t.thr.inSb g x.firstStore t.thr.nextStore) s p g (.barb false) fun _ _ => rfl
  refine ⟨_, _, congrArg Host.Outcome.next (State.barb_eq h),
    State.tileOnly_trans (State.tileOnly_retire ..) (State.settled_settle ..).only,
    State.group_of_settle_barb hg hwait, hbehind, hregs, hactive, ?_⟩
  rw [hloads, hfirst]
  dsimp only at hsb ⊢
  rw [hsb]

/-- MEMBAR stops its group until its earlier accesses are performed at its scope. -/
theorem membar_stops {s : State} {p g : Nat} {x : Group} {f : ThreadFields} (h : GroupAt s p g x 6 0x02 f)
    (hhalt : x.haltPending = false) (hstep : x.stepping = false) : let y := (s.tile p).thr
    let done := x.loads.isEmpty && !y.inSb g x.firstStore y.nextStore && (f.kind == 0 || !y.inWb g x.firstStore y.nextStore)
      && (f.kind != 3 || (s.storesOut p g x.firstStore y.nextStore).isEmpty)
    ∃ t z, exec (.membar p g f) s = .next t ∧ TileOnly s t p ∧ (t.tile p).group? g = some z ∧ Behind x z ∧ SameRegs x z
      ∧ z.active = false ∧ (done = true → z.wait = .none ∧ g ∈ (t.tile p).thr.promo)
      ∧ (done = false → z.wait = .membar f.kind y.nextStore) := by
  intro y done
  let w := GWait.membar f.kind y.nextStore
  let z := x.issued (Group.stopped w)
  obtain ⟨hbehind, hregs, hactive, hwait, hloads, hfirst, hh, hs⟩ := x.issued_stopped (w := w) (by simp [w])
  have honly : TileOnly s (s.stopFor p g w) p := State.tileOnly_retire ..
  have hg : ((s.stopFor p g w).tile p).group? g = some z := State.group_of_retire h.1 _
  have hover : ∀ u, State.Settled (s.stopFor p g w) u p → u.waitOver p g z = done := fun u hu => by
    have hsb := State.apply_stopFor (fun t => t.thr.inSb g x.firstStore y.nextStore) s p g w fun _ _ => rfl
    have hwb := State.apply_stopFor (fun t => t.thr.inWb g x.firstStore y.nextStore) s p g w fun _ _ => rfl
    have hout : (s.stopFor p g w).storesOut p g x.firstStore y.nextStore = s.storesOut p g x.firstStore y.nextStore :=
      congrFun (State.owned_of_tileOnly honly) _
    rw [hu.waitOver_membar hwait, State.waitOver_membar hwait, hloads, hfirst, hout]
    exact congrArg₂ (fun a b => x.loads.isEmpty && !a && (f.kind == 0 || !b)
      && (f.kind != 3 || (s.storesOut p g x.firstStore y.nextStore).isEmpty)) hsb hwb
  have hnot : ∀ a, z.wait ≠ .barb a := fun a => by rw [hwait]; simp [w]
  refine ⟨(s.stopFor p g w).settle p, if done = true then { z with wait := .none, active := false } else z,
    congrArg Host.Outcome.next (State.membar_eq h), State.tileOnly_trans honly (State.settled_settle ..).only, ?_⟩
  cases hdone : done with
  | true =>
    obtain ⟨hz, hmem⟩ := State.group_of_settle_over hg hnot (hh.trans hhalt) (hs.trans hstep) fun u hu => (hover u hu).trans hdone
    exact ⟨hz, hbehind, hregs, rfl, fun _ => ⟨rfl, hmem⟩, fun hf => absurd hf (by simp)⟩
  | false =>
    have hz := State.group_of_settle_waiting hg hnot fun u hu => (hover u hu).trans hdone
    exact ⟨hz, hbehind, hregs, hactive, fun hf => absurd hf (by simp), fun _ => hwait⟩

namespace State

variable {s t : State} {p g : Nat}

theorem semwait_eq {x : Group} {f : ThreadFields} {w : SemWait} (h : GroupAt s p g x 6 0x03 f)
    (hw : w = ⟨f.imm.toNat % 32, f.imm.toNat / 32 % 16 + 1, bit f.imm.toNat 9⟩) : s.semwait p g f =
    if w.count ≤ s.sem p w.sem then ((s.stopFor p g (.sem w)).grantSem p w).wake p g else s.stopFor p g (.sem w) := by
  have hbits : (⟨bits f.imm.toNat 4 0, bits f.imm.toNat 8 5 + 1, bit f.imm.toNat 9⟩ : SemWait) = w := by
    rw [hw]
    simp [bits]
  have hsem : (s.stopFor p g (.sem w)).sem p w.sem = s.sem p w.sem :=
    apply_stopFor (fun t => t.syn.sems.get 0 w.sem) s p g _ fun _ _ => rfl
  rw [semwait, thread_runs s p g _ h]
  dsimp only
  rw [hbits]
  change (match (s.stopFor p g (.sem w)).tryGrant p w with | some s => s.wake p g | none => s.stopFor p g (.sem w)) = _
  split_ifs with hv
  · rw [tryGrant_some (s := s.stopFor p g (.sem w)) (by rw [hsem]; exact hv)]
  · rw [tryGrant_none (s := s.stopFor p g (.sem w)) (by rw [hsem]; omega)]

theorem tileOnly_grantSem (s : State) (p : Nat) (w : SemWait) : TileOnly s (s.grantSem p w) p := by
  unfold grantSem
  split
  · exact tileOnly_modSyn ..
  · exact tileOnly_refl ..

theorem thr_of_grantSem (s : State) (p : Nat) (w : SemWait) : ((s.grantSem p w).tile p).thr = (s.tile p).thr := by
  unfold grantSem
  split
  · rw [modSyn, tile_modTile_self]
  · rfl

end State

/-- SEMWAIT stops its group; where its condition holds the wait is granted at once. -/
theorem semwait_stops {s : State} {p g : Nat} {x : Group} {f : ThreadFields} (h : GroupAt s p g x 6 0x03 f)
    (hhalt : x.haltPending = false) (hstep : x.stepping = false) : let i := f.imm.toNat
    let v := s.sem p (i % 32)
    let n := i / 32 % 16 + 1
    ∃ t z, exec (.semwait p g f) s = .next t ∧ TileOnly s t p ∧ (t.tile p).group? g = some z ∧ Behind x z ∧ SameRegs x z
      ∧ z.active = false
      ∧ (n ≤ v → z.wait = .none ∧ g ∈ (t.tile p).thr.promo
          ∧ t.sem p (i % 32) = (if bit i 9 = true then v - n else v))
      ∧ (v < n → z.wait = .sem ⟨i % 32, n, bit i 9⟩ ∧ t.sem p (i % 32) = v) := by
  intro i v n
  let w : SemWait := ⟨i % 32, n, bit i 9⟩
  let z := x.issued (Group.stopped (.sem w))
  obtain ⟨hbehind, hregs, hactive, hwait, -, -, hh, hs⟩ := x.issued_stopped (w := .sem w) (by simp)
  have honly : TileOnly s (s.stopFor p g (.sem w)) p := State.tileOnly_retire ..
  have hg : ((s.stopFor p g (.sem w)).tile p).group? g = some z := State.group_of_retire h.1 _
  have hsem : (s.stopFor p g (.sem w)).sem p w.sem = v :=
    State.apply_stopFor (fun t => t.syn.sems.get 0 w.sem) s p g _ fun _ _ => rfl
  have hrun := State.semwait_eq (w := w) h rfl
  by_cases hv : n ≤ v
  · rw [if_pos hv] at hrun
    have hg' : (((s.stopFor p g (.sem w)).grantSem p w).tile p).group? g = some z := by
      rw [Tile.group?, State.thr_of_grantSem]; exact hg
    obtain ⟨hz, hmem⟩ := State.group_of_wake hg' (hh.trans hhalt) (hs.trans hstep)
    refine ⟨_, _, congrArg Host.Outcome.next hrun,
      State.tileOnly_trans (State.tileOnly_trans honly (State.tileOnly_grantSem ..)) (State.settled_wake ..).only,
      hz, hbehind, hregs, rfl, fun _ => ⟨rfl, hmem, ?_⟩, fun hf => absurd hv (Nat.not_le.mpr hf)⟩
    have hsyn : (((s.stopFor p g (.sem w)).grantSem p w).wake p g).sem p w.sem
        = ((s.stopFor p g (.sem w)).grantSem p w).sem p w.sem := by
      rw [State.sem, State.syn_of_wake, State.sem]
    rw [← hsem]
    exact hsyn.trans (State.sem_of_grantSem ..)
  · rw [if_neg hv] at hrun
    exact ⟨_, _, congrArg Host.Outcome.next hrun, honly, hg, hbehind, hregs, hactive, fun hf => absurd hf hv,
      fun _ => ⟨hwait, hsem⟩⟩

theorem Thr.due_of_one (y : Thr) (z : Sig) : ({ y with sigs := [z] } : Thr).due =
    if (y.inSb z.group z.first z.limit || y.inWb z.group z.first z.limit) = true then [] else [z] := by
  have hfilter : ({ y with sigs := [z] } : Thr).due
      = [z].filter fun z => !y.inSb z.group z.first z.limit && !y.inWb z.group z.first z.limit := rfl
  rw [hfilter, List.filter_singleton]
  cases y.inSb z.group z.first z.limit <;> cases y.inWb z.group z.first z.limit <;> rfl

/-- A SEMSIG that its group has issued. -/
def State.addSig (s : State) (p : Nat) (z : Nat → Sig) : State := s.modThr p fun y => { y with sigs := y.sigs ++ [z y.nextStore] }

section
variable (s : State) (p : Nat) (z : Nat → Sig)

theorem State.tile_of_addSig : (s.addSig p z).tile p
    = { s.tile p with thr := { (s.tile p).thr with sigs := (s.tile p).thr.sigs ++ [z (s.tile p).thr.nextStore] } } := by
  rw [addSig, modThr, tile_modTile_self]

theorem State.tileOnly_addSig : TileOnly s (s.addSig p z) p := tileOnly_modThr ..

end

theorem State.semsig_eq {s : State} {p g : Nat} {x : Group} {f : ThreadFields} (h : GroupAt s p g x 6 0x04 f) :
    s.semsig p g f = ((s.retire p g id).addSig p fun limit =>
      ⟨g, x.firstStore, limit, bits f.imm.toNat 4 0, bits f.imm.toNat 8 5 + 1⟩).settle p := thread_runs s p g _ h

/-- SEMSIG: the signal is raised with the waits of its tile, once the stores before it have left both buffers. -/
theorem semsig_signals {s : State} {p g : Nat} {x : Group} {f : ThreadFields} (h : GroupAt s p g x 6 0x04 f)
    (hsigs : (s.tile p).thr.sigs = []) : let y := (s.tile p).thr
    let i := f.imm.toNat
    ∃ t, exec (.semsig p g f) s = .next t ∧ TileOnly s t p
      ∧ (if (y.inSb g x.firstStore y.nextStore || y.inWb g x.firstStore y.nextStore) = true
         then (t.tile p).syn.signals = (s.tile p).syn.signals
         else (t.tile p).syn.signals = (s.tile p).syn.signals ++ [(i % 32, i / 32 % 16 + 1)]) := by
  intro y i
  refine ⟨_, congrArg Host.Outcome.next (State.semsig_eq h), State.tileOnly_trans (State.tileOnly_trans
    (State.tileOnly_retire ..) (State.tileOnly_addSig ..)) (State.settled_settle ..).only, ?_⟩
  rw [State.signals_of_settle, State.tile_of_addSig]
  have hkeep : ∀ {β : Type} (φ : Tile → β), (∀ t gs, φ { t with thr := { t.thr with groups := gs } } = φ t) →
      φ ((s.retire p g id).tile p) = φ (s.tile p) := fun φ hφ => State.apply_retire φ s p g id hφ
  have hsyn := hkeep (·.syn.signals) fun _ _ => rfl
  have hdue := hkeep (fun t => ({ t.thr with sigs := t.thr.sigs ++
    [⟨g, x.firstStore, t.thr.nextStore, bits i 4 0, bits i 8 5 + 1⟩] } : Thr).due) fun _ _ => rfl
  rw [hsigs] at hdue
  dsimp only at hsyn hdue ⊢
  rw [hsyn, hdue, List.nil_append, Thr.due_of_one]
  split <;> simp [bits]

/-! ### Events of a group (R59, R61, R64, R78, R80) -/

theorem Tile.halt_of_live {t : Tile} (h : t.live = true) : t.seq.halt = none := by
  rw [Tile.live, Bool.and_eq_true, Option.isNone_iff_eq_none] at h
  exact h.2

namespace State

variable {s : State} {p g : Nat}

/-- A running tile that meets a reason halts with it (R192). -/
theorem haltTile_of_live (h : (s.tile p).live = true) (reason kind stream group addr : Nat) :
    let t := s.haltTile p reason kind stream group addr
    s.onlyTiles t ∧ s.tilesBut t [p] ∧ HaltedAt t p reason kind (if kind = 1 then group else stream) addr := by
  simp only [haltTile, Tile.halt_of_live h]
  refine ⟨onlyTiles_modTile .., (tileOnly_modTile ..).2, ?_⟩
  rw [HaltedAt, tile_modTile_self]
  exact ⟨rfl, _, rfl, rfl, rfl, rfl, rfl⟩

theorem onlyTiles_modGroup_modThr (s : State) (p g : Nat) (h : Group → Group) (f : Thr → Thr) :
    s.onlyTiles ((s.modGroup p g h).modThr p f) ∧ s.tilesBut ((s.modGroup p g h).modThr p f) [p] := by
  refine ⟨?_, (tileOnly_trans (tileOnly_modGroup s p g h) (tileOnly_modThr _ p f)).2⟩
  rw [modThr, modGroup]
  exact onlyTiles_trans (onlyTiles_modTile ..) (onlyTiles_modTile ..)

/-- The selected group of a tile that goes on behind those that are ready. -/
theorem grpResume_of_halted {x : Group} (step : Bool) (hg : (s.tile p).group? (s.f .GRP_DBG_SEL_GROUP p) = some x)
    (hh : x.dbgHalted = true) :
    let t := s.grpResume p step
    s.onlyTiles t ∧ s.tilesBut t [p]
      ∧ (t.tile p).group? (s.f .GRP_DBG_SEL_GROUP p) = some { x with dbgHalted := false, stepping := step }
      ∧ (t.tile p).thr.promo = (s.tile p).thr.promo ++ [s.f .GRP_DBG_SEL_GROUP p] := by
  simp only [grpResume, hg, hh, if_true]
  obtain ⟨honly, hbut⟩ := onlyTiles_modGroup_modThr s p (s.f .GRP_DBG_SEL_GROUP p)
    (fun x => { x with dbgHalted := false, stepping := step })
    fun y => { y with promo := y.promo ++ [s.f .GRP_DBG_SEL_GROUP p] }
  refine ⟨honly, hbut, ?_, ?_⟩
  · rw [group_of_modThr, group_of_modGroup, hg, Option.map_some]
    exact fun _ => rfl
  · rw [thr_of_modThr, apply_modGroup s p _ (·.thr.promo) _ fun _ _ => rfl]

/-- GROUP_PROMOTION takes the first ready group into an active set that holds fewer than eight. -/
theorem promote_of_ready {rest : List Nat} {x : Group} (hp : ((s.settle p).tile p).thr.promo = g :: rest)
    (hlive : (s.tile p).live = true) (hx : ((s.settle p).tile p).group? g = some x) :
    (((s.settle p).tile p).activeCount < 8 → ∃ t, exec (.groupPromotion p) s = .next t ∧ TileOnly s t p
      ∧ (t.tile p).group? g = some { x with active := true } ∧ (t.tile p).thr.promo = rest)
    ∧ (8 ≤ ((s.settle p).tile p).activeCount → exec (.groupPromotion p) s = .next (s.settle p)) := by
  have hsettled := settled_settle s p
  have hrun : s.promote p = if 8 ≤ ((s.settle p).tile p).activeCount then s.settle p
      else ((s.settle p).modThr p fun y => { y with promo := rest }).modGroup p g fun x => { x with active := true } := by
    have hlive' : ((s.settle p).tile p).live = true := (hsettled.apply Tile.live fun _ _ _ _ _ _ => rfl).trans hlive
    simp only [promote, hp, hlive']
    simp
  refine ⟨fun hlt => ⟨_, congrArg Host.Outcome.next (hrun.trans (if_neg (by omega))), ?_, ?_, ?_⟩,
    fun hle => congrArg Host.Outcome.next (hrun.trans (if_pos hle))⟩
  · exact tileOnly_trans (tileOnly_trans hsettled.only (tileOnly_modThr ..)) (tileOnly_modGroup ..)
  · rw [group_of_modGroup, group_of_modThr, hx, Option.map_some]
    exact fun _ => rfl
  · rw [apply_modGroup _ p g (·.thr.promo) _ fun _ _ => rfl, thr_of_modThr]

/-- A group that may make no more progress halts its tile (R64). -/
theorem noProgress_halts {x : Group} (hlive : (s.tile p).live = true) (hg : (s.tile p).group? g = some x)
    (hn : s.f .THR_SETUP_PROGRESS_LIMIT_LOG2 p ≠ 0) (hx : 2 ^ s.f .THR_SETUP_PROGRESS_LIMIT_LOG2 p ≤ x.progress) :
    ∃ t, exec (.groupNoProgress p g) s = .next t ∧ s.onlyTiles t ∧ s.tilesBut t [p] ∧ HaltedAt t p 0x000F 1 g x.lastBranch := by
  have hmay : s.mayProgress p x = false := by
    simp only [mayProgress, Bool.or_eq_false_iff, beq_eq_false_iff_ne, decide_eq_false_iff_not, Nat.not_lt]
    exact ⟨hn, hx⟩
  have hrun : s.noProgress p g = s.haltTile p rNoProgress 1 0 g x.lastBranch := by
    simp [noProgress, hg, hlive, hmay]
  exact ⟨_, congrArg Host.Outcome.next hrun, haltTile_of_live hlive ..⟩

/-- GRP_DBG_HALT stops a group that waits for nothing. -/
theorem grpHalt_of_ready {x : Group} (hg : (s.tile p).group? (s.f .GRP_DBG_SEL_GROUP p) = some x) (hh : x.dbgHalted = false)
    (hw : x.wait = .none) :
    ∃ t, exec (.grpDbgHalt p) s = .next t ∧ s.onlyTiles t ∧ s.tilesBut t [p]
      ∧ (t.tile p).group? (s.f .GRP_DBG_SEL_GROUP p) = some { x with active := false, stepping := false, dbgHalted := true }
      ∧ s.f .GRP_DBG_SEL_GROUP p ∉ (t.tile p).thr.promo := by
  have hrun : s.grpHalt p = (s.modGroup p (s.f .GRP_DBG_SEL_GROUP p) fun x =>
      { x with wait := .none, active := false, stepping := false, dbgHalted := true }).modThr p
        fun y => { y with promo := y.promo.filter (· != s.f .GRP_DBG_SEL_GROUP p) } := by
    simp [grpHalt, hg, hh, hw]
  refine ⟨_, congrArg Host.Outcome.next hrun, (onlyTiles_modGroup_modThr ..).1, (onlyTiles_modGroup_modThr ..).2, ?_, ?_⟩
  · rw [group_of_modThr, group_of_modGroup, hg, Option.map_some, ← hw]
    exact fun _ => rfl
  · rw [thr_of_modThr]
    simp

/-- GRP_DBG_HALT of a group that its BARB holds takes effect at the end of the wait. -/
theorem grpHalt_of_barb {x : Group} {w : Bool} (hg : (s.tile p).group? (s.f .GRP_DBG_SEL_GROUP p) = some x)
    (hh : x.dbgHalted = false) (hw : x.wait = .barb w) :
    ∃ t, exec (.grpDbgHalt p) s = .next t ∧ s.onlyTiles t ∧ s.tilesBut t [p]
      ∧ (t.tile p).group? (s.f .GRP_DBG_SEL_GROUP p) = some { x with haltPending := true } := by
  have hrun : s.grpHalt p = s.modGroup p (s.f .GRP_DBG_SEL_GROUP p) fun x => { x with haltPending := true } := by
    simp [grpHalt, hg, hh, hw]
  refine ⟨_, congrArg Host.Outcome.next hrun, onlyTiles_modTile .., (tileOnly_modGroup ..).2, ?_⟩
  rw [group_of_modGroup, hg, Option.map_some]

end State

/-- Settles O15: every instruction that waits issues first, and its group's turn in bringing the waits up to date decides
whether the wait is over; the events act on one group of the tile. -/
theorem groupWaits : Obligations.GroupWaits :=
  ⟨⟨fun _ _ _ _ _ h hl hall => end_of_group h hl hall, fun _ _ _ _ _ _ h hl ha hm => end_of_lanes h hl ha hm,
      fun _ _ _ _ _ h => barb_stops h, fun _ _ _ _ _ h hh hs => membar_stops h hh hs,
      fun _ _ _ _ _ h hh hs => semwait_stops h hh hs, fun _ _ _ _ _ h hsigs => semsig_signals h hsigs⟩,
    fun _ _ _ _ _ hp hlive hx => State.promote_of_ready hp hlive hx,
    fun _ _ _ _ hlive hg hn hx => State.noProgress_halts hlive hg hn hx,
    fun _ _ _ hg hh hw => State.grpHalt_of_ready hg hh hw,
    fun _ _ _ _ hg hh hw => State.grpHalt_of_barb hg hh hw,
    fun _ _ _ hg hh => ⟨_, rfl, State.grpResume_of_halted false hg hh⟩,
    fun _ _ _ hg hh => ⟨_, rfl, State.grpResume_of_halted true hg hh⟩⟩

end Sys2Proof.Machine
end

section
/-!
PROOF. Loads of a thread group (R59, R67, R335, R339). A load of another part's memory that no live direction reaches
declares that part dead, and the stores to it that still wait then fail: each becomes known to the tile that sent it, which
need not be the tile of the load.
-/
namespace Sys2Proof.Machine

/-! ### A load that finds its part dead -/

/-- The fields of ULD of the address in u63. -/
def deadLoad : ThreadFields := ⟨63, 63, 0, 0, 0, 0⟩

/-- A group whose first instruction is at 0x1000. -/
def deadGroup : Group where
  block := 0
  index := 0
  n := 8
  launch := 0
  firstStore := 0
  pc := 0x1000
  mask := 2 ^ 32 - 1
  alive := 2 ^ 32 - 1
  rpc := none
  stack := []
  progress := 0
  v := []
  u := []
  active := true
  wait := .none
  loads := []
  lastBranch := 0
  dbgHalted := false
  haltPending := false
  stepping := false

/-- Tile 5 runs that group in slot 0, at a ULD; its first page lies in the memory of part 1. -/
def deadTile : Tile := { Tile.reset with
  seq := { SeqState.reset with
    run := .lead
    kernel := some ⟨⟨0, 0, 0, 0, false⟩, [0, 0, 0, 0], 15, 7, 0, 5, 0⟩
    tcache := [(0x40, toLE 64 (deadLoad.word 8 0x0A))] }
  thr := { Thr.reset with groups := [(0, some deadGroup)], blocks := [(0, some ⟨⟨0, 0, [], 0⟩, 0, [0], 0, 0, []⟩)] }
  xc := [⟨0, 0, 12, 0, 2, 0, 1, true, true, 3, true, true, 3⟩] }

/-- A store of tile 6 to part 1 that waits for its acknowledgement. -/
def deadStore : FabReq :=
  ⟨0, 0, 0, 0, 1, Pk.make (Pk.header 1 1 0 0 0 1 0 false 0 0) [0], .store 6 [(0, 0)], none, none, true, true, .waiting, [], false⟩

/-- The first of two parts: the transport runs, no link leads to the second. -/
def deadState : State :=
  (({ State.reset with tiles := [(5, deadTile)], fab := { State.reset.fab with reqs := [deadStore] } }.setF .FAB_STATUS_RUNNING 0 1).setF
    .FAB_DIM_SIZE 0 2)

/-- The lane's access as translated, and the state that the translation leaves. -/
def deadLane : LaneAcc := ⟨0, 0, 2, 0, 1, 0, 0⟩
def deadXlat : State := (State.xlLanes 5 0 0x1000 .read [laneAt 0 0 0 0] deadState).1

theorem groupAt_dead : GroupAt deadState 5 0 deadGroup 8 0x0A deadLoad := by
  unfold GroupAt
  decide

theorem lanesAt_dead :
    LanesAt deadState 5 0 deadGroup false 8 .read [laneAt 0 (deadGroup.uniAddr deadLoad) 0 0] [deadLane] deadXlat := by
  refine ⟨by decide, ?_⟩
  rw [if_neg (by decide)]
  decide

/-- The load tells tile 6 that its store's destination is dead. -/
theorem tile_of_deadLoad : ((deadState.uld 5 0 deadLoad).tile 6).syn.dead = [(1, [(0, 0)])] := by decide

/-- Refutes O10: a load leaves the other tiles alone only where it declares no part dead. Tile 5's ULD of part 1's memory
finds no live direction towards part 1; that part is dead from then on, and tile 6, whose store to it waits, learns so. -/
theorem not_loadsAndReturns : ¬ Obligations.LoadsAndReturns := by
  unfold Obligations.LoadsAndReturns
  rintro ⟨⟨-, -, -, huld⟩, -⟩
  obtain ⟨t, y, o, hrun, -, -, -, -, -, -, -, -, -, hbut⟩ := huld deadState deadXlat 5 0 deadGroup deadLoad [deadLane]
    groupAt_dead (by decide) lanesAt_dead (by decide) (by decide)
  have ht : deadState.uld 5 0 deadLoad = t := by injection hrun
  have hsame : (t.tile 6).syn.dead = (deadState.tile 6).syn.dead := by rw [hbut 6 (by decide)]
  rw [← ht, tile_of_deadLoad] at hsame
  exact absurd hsame (by decide)

end Sys2Proof.Machine
end

section
/-!
PROOF. Thread blocks (R34, R53, R55 to R58, R139, R172): the head of an engine's queue begins, a block becomes resident with its
groups in their slots, a THR instruction completes and raises its signal.
-/
namespace Sys2Proof.Machine

/-! ### Tables that loops fill -/

/-- The groups of a tile after a loop that gives slots their groups. -/
def Tile.fillGroups (t : Tile) (h : Nat → Group) (l : List (Nat × Nat)) : Tile :=
  l.foldl (fun t x => t.setGroup x.1 (some (h x.2))) t

/-- Filling slots changes nothing of a tile but its groups. -/
theorem Tile.apply_fillGroups {β : Type} (φ : Tile → β) (h : Nat → Group)
    (hφ : ∀ t gs, φ { t with thr := { t.thr with groups := gs } } = φ t) (l : List (Nat × Nat)) (t : Tile) :
    φ (t.fillGroups h l) = φ t := by
  induction l generalizing t with
  | nil => rfl
  | cons x l ih => exact (ih _).trans (hφ ..)

theorem Tile.group?_fillGroups_other (h : Nat → Group) {l : List (Nat × Nat)} (t : Tile) {j : Nat} (hj : j ∉ l.map (·.1)) :
    (t.fillGroups h l).group? j = t.group? j := by
  induction l generalizing t with
  | nil => rfl
  | cons x l ih =>
    rw [List.map_cons, List.mem_cons, not_or] at hj
    exact (ih _ hj.2).trans (State.group_setGroup_other _ _ hj.1)

/-- Filling different slots gives each its own group. -/
theorem Tile.group?_fillGroups (h : Nat → Group) {l : List (Nat × Nat)} (t : Tile) (hn : (l.map (·.1)).Nodup) {x : Nat × Nat}
    (hx : x ∈ l) : (t.fillGroups h l).group? x.1 = some (h x.2) := by
  induction l generalizing t with
  | nil => cases hx
  | cons y l ih =>
    rw [List.map_cons, List.nodup_cons] at hn
    rcases List.mem_cons.mp hx with rfl | hx
    · exact (Tile.group?_fillGroups_other h _ hn.1).trans (State.group_setGroup_self ..)
    · exact ih _ hn.2 hx

/-- A loop of updates of one tile updates that tile. -/
theorem State.forEach_modTile {α : Type} (s : State) (p : Nat) (g : α → Tile → Tile) (l : List α) :
    (s.forEach l fun s x => s.modTile p (g x)).tile p = l.foldl (fun t x => g x t) (s.tile p) := by
  induction l generalizing s with
  | nil => rfl
  | cons x l ih => exact (ih _).trans (by rw [tile_modTile_self]; rfl)

theorem State.tileOnly_forEach_modTile {α : Type} (s : State) (p : Nat) (g : α → Tile → Tile) (l : List α) :
    TileOnly s (s.forEach l fun s x => s.modTile p (g x)) p := by
  induction l generalizing s with
  | nil => exact tileOnly_refl s p
  | cons x l ih => exact tileOnly_trans (tileOnly_modTile s p (g x)) (ih _)

/-! ### A group as its block starts (R53) -/

/-- Every lane's v0 holds its number, every other vector register 0. -/
theorem Group.vreg_start (e : Entry) (b launch first i v : Nat) {l : Nat} (hl : l < 32) :
    (Group.start e b launch first i).vreg v l = if v = 0 then BitVec.ofNat 32 l else 0 := by
  have hget : (Group.start e b launch first i).v.get 0 (32 * v + l) = if v = 0 then l else 0 := by
    rw [Group.start, FMap.get_foldl_put 0 fun l => l]
    by_cases hv : v = 0
    · simp [hv, hl]
    · rw [if_neg (by rw [List.mem_range]; omega), if_neg hv]
      rfl
  rw [Group.vreg, hget]
  split <;> rfl

/-- u0 and u1 come from the entry, u2 is the group's number and u3 the count. -/
theorem Group.ureg_start (e : Entry) (b launch first i u : Nat) :
    (Group.start e b launch first i).ureg u = if u = 0 then BitVec.ofNat 64 (e.qWord (e.f 1 26 18))
      else if u = 1 then BitVec.ofNat 64 (e.qWord (e.f 1 17 9)) else if u = 2 then BitVec.ofNat 64 i
      else if u = 3 then BitVec.ofNat 64 e.thrGroups else 0 := by
  have hu : (Group.start e b launch first i).u = FMap.put 0 (FMap.put 0 (FMap.put 0 (FMap.put 0 []
      0 (e.qWord (e.f 1 26 18))) 1 (e.qWord (e.f 1 17 9))) 2 i) 3 e.thrGroups := rfl
  rw [Group.ureg, hu, FMap.get_put, FMap.get_put, FMap.get_put, FMap.get_put]
  rcases u with _ | _ | _ | _ | u
  · rfl
  · rfl
  · rfl
  · rfl
  · simp

/-! ### The head of an engine's queue (R31, R34) -/

namespace State

variable {s s₁ : State} {p k op : Nat} {e : Entry}

/-- A head whose wait is granted now has taken its count off a semaphore; nothing else differs but that it is granted. -/
theorem headReady_frame (h : s.headReady p k e = some s₁) : s.onlyTiles s₁ ∧ s.tilesBut s₁ [p] ∧ s₁.tile p = { s.tile p with
    seq := { (s.tile p).seq with queues := (s₁.tile p).seq.queues }
    syn := { (s.tile p).syn with sems := (s₁.tile p).syn.sems } } := by
  have hself : s.onlyTiles s ∧ s.tilesBut s [p] ∧ s.tile p = { s.tile p with
      seq := { (s.tile p).seq with queues := (s.tile p).seq.queues }
      syn := { (s.tile p).syn with sems := (s.tile p).syn.sems } } := ⟨rfl, fun _ _ => rfl, rfl⟩
  unfold headReady at h
  split at h
  · cases h
    exact hself
  · split at h
    · cases h
      exact hself
    · rename_i w _
      by_cases hw : w.count ≤ s.sem p w.sem
      · rw [tryGrant_some hw, Option.map_some, Option.some.injEq] at h
        subst h
        refine ⟨onlyTiles_trans (onlyTiles_grantSem ..) (onlyTiles_modQueue ..),
          (tileOnly_trans (tileOnly_grantSem ..) (tileOnly_modQueue ..)).2, ?_⟩
        rw [modQueue, tile_modTile_self, grantSem]
        split
        · rw [modSyn, tile_modTile_self]
          rfl
        · rfl
      · rw [tryGrant_none (Nat.not_le.mp hw)] at h
        cases h

/-- The head of an engine's queue that may begin runs its body. -/
theorem beginHead_eq (h : EngineHead s p k op e s₁) (body : State → Entry → State) : s.beginHead p k op body = body s₁ e := by
  obtain ⟨hlive, hhead, hop, hready⟩ := h
  rw [beginHead, hhead]
  simp [hlive, hop, hready]

theorem tileOnly_of_onlyTiles {t : State} (h : s.onlyTiles t) (hbut : s.tilesBut t [p]) : TileOnly s t p :=
  ⟨by rw [onlyTiles] at h; rw [onlyTilesFields, h], hbut⟩

theorem tileOnly_of_engineHead (h : EngineHead s p k op e s₁) : TileOnly s s₁ p :=
  tileOnly_of_onlyTiles (headReady_frame h.2.2.2).1 (headReady_frame h.2.2.2).2.1

/-- What no queue and no semaphore is a part of is as it was. -/
theorem apply_engineHead {β : Type} (h : EngineHead s p k op e s₁) (φ : Tile → β)
    (hφ : ∀ (t : Tile) qs sems, φ { t with seq := { t.seq with queues := qs }, syn := { t.syn with sems := sems } } = φ t) :
    φ (s₁.tile p) = φ (s.tile p) := by
  rw [(headReady_frame h.2.2.2).2.2, hφ]

/-- An illegal engine instruction halts its tile at the address of its push (R189). -/
theorem haltEngine_of_head (h : EngineHead s p k op e s₁) (reason : Nat) :
    s.onlyTiles (s₁.haltEngine p k reason e) ∧ s.tilesBut (s₁.haltEngine p k reason e) [p]
      ∧ HaltedAt (s₁.haltEngine p k reason e) p reason 0 k e.addr := by
  obtain ⟨honly, hbut, -⟩ := headReady_frame h.2.2.2
  have hlive : (s₁.tile p).live = true := (apply_engineHead h Tile.live fun _ _ _ => rfl).trans h.1
  obtain ⟨honly', hbut', hhalt⟩ := haltTile_of_live hlive reason 0 k 0 e.addr
  exact ⟨onlyTiles_trans honly honly', fun q hq => (hbut' q hq).trans (hbut q hq), hhalt⟩

variable (s p k)

theorem tileOnly_dequeue : TileOnly s (s.dequeue p k) p := tileOnly_modQueue ..

theorem held_of_dequeue : (((s.dequeue p k).tile p).queue k).held = ((s.tile p).queue k).held.drop 1 := by
  rw [dequeue, modQueue, tile_modTile_self, queue_modQueue_self]

/-- What no queue is a part of is as it was. -/
theorem apply_dequeue {β : Type} (φ : Tile → β)
    (hφ : ∀ (t : Tile) qs, φ { t with seq := { t.seq with queues := qs } } = φ t) :
    φ ((s.dequeue p k).tile p) = φ (s.tile p) := by
  rw [dequeue, modQueue, tile_modTile_self, Tile.modQueue, hφ]

theorem tileOnly_raiseEntry (e : Entry) : TileOnly s (s.raiseEntry p e) p := by
  unfold raiseEntry
  split
  · exact tileOnly_trans (tileOnly_bump ..) (tileOnly_modSyn ..)
  · exact tileOnly_refl ..

theorem queue_of_modThr (h : Thr → Thr) : ((s.modThr p h).tile p).queue k = (s.tile p).queue k := by
  rw [modThr, tile_modTile_self]
  rfl

/-- The signal of a completed instruction is raised. -/
theorem tile_of_raiseEntry (e : Entry) : (s.raiseEntry p e).tile p
    = { s.tile p with syn := { (s.tile p).syn with signals := (s.tile p).syn.signals ++ e.signal.toList } } := by
  unfold raiseEntry
  split
  · rename_i h
    rw [h, raiseSem, modSyn, tile_modTile_self, tile_bump]
    rfl
  · rename_i h
    simp [h]

theorem queue_of_raiseEntry (e : Entry) : ((s.raiseEntry p e).tile p).queue k = (s.tile p).queue k := by
  rw [tile_of_raiseEntry]
  rfl

theorem thr_of_raiseEntry (e : Entry) : ((s.raiseEntry p e).tile p).thr = (s.tile p).thr := by
  rw [tile_of_raiseEntry]

end State

/-! ### TLAUNCH (R53, R55 to R58) -/

namespace State

variable {s s₁ : State} {p k op : Nat} {e : Entry}

/-- Block slot `b` holds the block of launch `l`, which begins, its groups in slots `gs`, its rows from `r` on. -/
def enterThr (e : Entry) (b l r : Nat) (gs : List Nat) (y : Thr) : Thr :=
  { y with nextStore := l + 1
           running := y.running ++ [(e, some l)]
           blocks := y.blocks.put none b (some ⟨e, l, gs, r, e.thrRows, []⟩)
           promo := y.promo ++ gs }

def enterBlock (s : State) (p : Nat) (e : Entry) (b r : Nat) (gs : List Nat) : State :=
  (s.dequeue p 0).modThr p (enterThr e b (s.tile p).thr.nextStore r gs)

/-- The block begins, and its slots hold its groups. -/
def launchBlock (s : State) (p : Nat) (e : Entry) (b r : Nat) (gs : List Nat) : State :=
  let l := (s.tile p).thr.nextStore
  (s.enterBlock p e b r gs).forEach (gs.zip (List.range e.thrGroups)) fun s x =>
    s.modTile p (·.setGroup x.1 (some (Group.start e b l (l + 1) x.2)))

/-- The slots of a tile without a group, ascending. -/
def freeSlots (s : State) (p : Nat) : List Nat := (List.range 64).filter fun g => ((s.tile p).group? g).isNone

theorem nodup_freeSlots (s : State) (p : Nat) : (s.freeSlots p).Nodup := List.nodup_range.filter _

theorem tileOnly_launchBlock (s : State) (p : Nat) (e : Entry) (b r : Nat) (gs : List Nat) :
    TileOnly s (s.launchBlock p e b r gs) p := by
  have henter : TileOnly s (s.enterBlock p e b r gs) p := tileOnly_trans (tileOnly_dequeue s p 0) (tileOnly_modThr (s.dequeue p 0) p _)
  exact tileOnly_trans henter (tileOnly_forEach_modTile _ p (fun (x : Nat × Nat) => (·.setGroup x.1 _)) _)

theorem tile_launchBlock (s : State) (p : Nat) (e : Entry) (b r : Nat) (gs : List Nat) :
    (s.launchBlock p e b r gs).tile p = ((s.enterBlock p e b r gs).tile p).fillGroups
      (Group.start e b (s.tile p).thr.nextStore ((s.tile p).thr.nextStore + 1)) (gs.zip (List.range e.thrGroups)) :=
  forEach_modTile _ p (fun (x : Nat × Nat) => (·.setGroup x.1 _)) _

theorem block_of_launchBlock (s : State) (p : Nat) (e : Entry) (b r : Nat) (gs : List Nat) :
    ((s.launchBlock p e b r gs).tile p).block? b = some ⟨e, (s.tile p).thr.nextStore, gs, r, e.thrRows, []⟩ := by
  rw [tile_launchBlock, Tile.apply_fillGroups (·.block? b) _ fun _ _ => rfl, Tile.block?, enterBlock, thr_of_modThr, enterThr,
    FMap.get_put_self]

theorem held_of_launchBlock (s : State) (p : Nat) (e : Entry) (b r : Nat) (gs : List Nat) :
    (((s.launchBlock p e b r gs).tile p).queue 0).held = ((s.tile p).queue 0).held.drop 1 := by
  rw [tile_launchBlock, Tile.apply_fillGroups (fun t => (t.queue 0).held) _ fun _ _ => rfl, enterBlock,
    apply_modThr _ p (fun t => (t.queue 0).held) _ fun _ _ => rfl, held_of_dequeue]

theorem group_of_launchBlock_other (s : State) (p : Nat) (e : Entry) (b r : Nat) {gs : List Nat} {j : Nat} (hj : j ∉ gs) :
    ((s.launchBlock p e b r gs).tile p).group? j = (s.tile p).group? j := by
  have hkeys : j ∉ (gs.zip (List.range e.thrGroups)).map (·.1) := fun hmem => by
    obtain ⟨x, hx, rfl⟩ := List.mem_map.mp hmem
    exact hj (List.of_mem_zip hx).1
  rw [tile_launchBlock, Tile.group?_fillGroups_other _ _ hkeys, enterBlock, group_of_modThr,
    apply_dequeue s p 0 (·.group? j) fun _ _ => rfl]
  exact fun _ => rfl

theorem group_of_launchBlock (s : State) (p : Nat) (e : Entry) (b r : Nat) {gs : List Nat} (hn : gs.Nodup)
    (hlen : gs.length = e.thrGroups) {i : Nat} (hi : i < gs.length) :
    ((s.launchBlock p e b r gs).tile p).group? gs[i]
      = some (Group.start e b (s.tile p).thr.nextStore ((s.tile p).thr.nextStore + 1) i) := by
  have hkeys : (gs.zip (List.range e.thrGroups)).map (·.1) = gs := List.map_fst_zip (by simp [hlen])
  have hmem : (gs[i], i) ∈ gs.zip (List.range e.thrGroups) := List.mem_iff_getElem.mpr ⟨i, by simpa [hlen] using hi, by simp⟩
  rw [tile_launchBlock]
  exact Tile.group?_fillGroups _ _ (by rw [hkeys]; exact hn) hmem

/-- A TLAUNCH that is legal, and for which the tile has room, makes its block resident. -/
theorem tlaunch_eq {b r : Nat} (h : EngineHead s p 0 1 e s₁) (hr1 : 1 ≤ e.thrRegs) (hr2 : e.thrRegs ≤ 255) (hn1 : 1 ≤ e.thrGroups)
    (hn2 : e.thrGroups ≤ 16) (hrows : e.thrRows ≤ (s₁.tile p).thr.carve) (hentry : e.thrEntry % 8 = 0) (hb : b < 16)
    (hfree : (s₁.tile p).block? b = none) (hfirst : ∀ c, c < b → (s₁.tile p).block? c ≠ none)
    (hgroups : e.thrGroups ≤ (s₁.freeSlots p).length)
    (hregs : ((s₁.tile p).resident.map fun g => (((s₁.tile p).group? g).map fun x => granted x.n).getD 0).sum
      + e.thrGroups * granted e.thrRegs ≤ 4096)
    (hfit : firstFit (((FMap.keys (s₁.tile p).thr.blocks).filterMap (s₁.tile p).block?).map fun z => (z.rowFirst, z.rows))
      (s₁.tile p).thr.carve e.thrRows = some r) :
    s.tlaunch p = s₁.launchBlock p e b r ((s₁.freeSlots p).take e.thrGroups) := by
  have hslot : (List.range 16).find? (fun c => ((s₁.tile p).block? c).isNone) = some b := by
    rw [List.find?_range_eq_some]
    refine ⟨by simp [hfree], List.mem_range.mpr hb, fun c hc => ?_⟩
    simpa [Option.isSome_iff_ne_none] using hfirst c hc
  rw [tlaunch, beginHead_eq h]
  dsimp only
  rw [if_neg (by omega), hslot, hfit]
  exact if_neg (not_or.mpr ⟨Nat.not_lt.mpr hgroups, Nat.not_lt.mpr hregs⟩)

/-- An illegal TLAUNCH halts its tile. -/
theorem tlaunch_illegal (h : EngineHead s p 0 1 e s₁)
    (hbad : e.thrRegs = 0 ∨ 255 < e.thrRegs ∨ e.thrGroups = 0 ∨ 16 < e.thrGroups ∨ (s₁.tile p).thr.carve < e.thrRows
      ∨ e.thrEntry % 8 ≠ 0) :
    ∃ t, exec (.tlaunch p) s = .next t ∧ s.onlyTiles t ∧ HaltedAt t p 0x0001 0 0 e.addr := by
  have hrun : s.tlaunch p = s₁.haltEngine p 0 rIllegal e := by
    rw [tlaunch, beginHead_eq h]
    exact if_pos hbad
  obtain ⟨honly, -, hhalt⟩ := haltEngine_of_head h rIllegal
  exact ⟨_, congrArg Host.Outcome.next hrun, honly, hhalt⟩

/-! ### TCARVE, TNOP and the end of a THR instruction (R34, R58, R139, R172) -/

/-- TCARVE sets the carve-out of a tile without blocks and completes. -/
theorem tcarve_sets (h : EngineHead s p 0 2 e s₁) (hblocks : (s₁.tile p).thr.blocks = []) (hmax : e.f 1 10 0 ≤ 1024) :
    ∃ t, exec (.tcarve p) s = .next t ∧ TileOnly s t p ∧ (t.tile p).thr.carve = e.f 1 10 0
      ∧ ((t.tile p).queue 0).held = ((s₁.tile p).queue 0).held.drop 1
      ∧ (t.tile p).syn.signals = (s.tile p).syn.signals ++ e.signal.toList := by
  have hrun : s.tcarve p = ((s₁.dequeue p 0).modThr p fun y => { y with carve := e.f 1 10 0 }).raiseEntry p e := by
    rw [tcarve, beginHead_eq h]
    rw [if_neg (by simp [hblocks]), if_neg (by omega)]
  refine ⟨_, congrArg Host.Outcome.next hrun, tileOnly_trans (tileOnly_trans (tileOnly_trans (tileOnly_of_engineHead h)
    (tileOnly_dequeue ..)) (tileOnly_modThr ..)) (tileOnly_raiseEntry ..), ?_, ?_, ?_⟩
  · rw [thr_of_raiseEntry, thr_of_modThr]
  · rw [queue_of_raiseEntry, queue_of_modThr, held_of_dequeue]
  · rw [tile_of_raiseEntry]
    dsimp only
    rw [syn_of_modThr, apply_dequeue _ p 0 (·.syn.signals) fun _ _ => rfl, apply_engineHead h (·.syn.signals) fun _ _ _ => rfl]

/-- TNOP begins. -/
theorem tnop_begins (h : EngineHead s p 0 4 e s₁) :
    ∃ t, exec (.tnop p) s = .next t ∧ TileOnly s t p ∧ ((t.tile p).queue 0).held = ((s₁.tile p).queue 0).held.drop 1
      ∧ (t.tile p).thr.running = (s.tile p).thr.running ++ [(e, none)] := by
  have hrun : s.tnop p = (s₁.dequeue p 0).modThr p fun y => { y with running := y.running ++ [(e, none)] } := by
    rw [tnop, beginHead_eq h]
  refine ⟨_, congrArg Host.Outcome.next hrun, tileOnly_trans (tileOnly_trans (tileOnly_of_engineHead h)
    (tileOnly_dequeue ..)) (tileOnly_modThr ..), ?_, ?_⟩
  · rw [queue_of_modThr, held_of_dequeue]
  · rw [thr_of_modThr]
    dsimp only
    rw [apply_dequeue _ p 0 (·.thr.running) fun _ _ => rfl, apply_engineHead h (·.thr.running) fun _ _ _ => rfl]

/-- The oldest THR instruction, a TNOP, completes. -/
theorem thrComplete_nop {rest : List (Entry × Option Nat)} (h : (s.tile p).thr.running = (e, none) :: rest) :
    s.thrComplete p = (s.modThr p fun y => { y with running := y.running.eraseIdx 0 }).raiseEntry p e := by
  have hfind : ((s.tile p).thr.running.zip (List.range (s.tile p).thr.running.length)).find?
      (fun z => s.thrDone p z.2 z.1.2) = some ((e, none), 0) := by
    rw [h, List.length_cons, List.range_succ_eq_map, List.zip_cons_cons]
    rfl
  rw [thrComplete, hfind]

/-- A TNOP that has begun completes and raises its signal. -/
theorem nop_completes {rest : List (Entry × Option Nat)} (mt : MatTime) (hsigs : (s.tile p).thr.sigs = [])
    (hrunning : (s.tile p).thr.running = (e, none) :: rest) :
    ∃ t, exec (.engineInstructionComplete p .thr mt) s = .next t ∧ t.mem = s.mem ∧ s.tilesBut t [p]
      ∧ (t.tile p).thr.running = rest ∧ (t.tile p).syn.signals = (s.tile p).syn.signals ++ e.signal.toList := by
  have hsettled := settled_settle s p
  have hrun : s.engineComplete p .thr mt
      = ((s.settle p).modThr p fun y => { y with running := y.running.eraseIdx 0 }).raiseEntry p e :=
    thrComplete_nop ((hsettled.apply (·.thr.running) fun _ _ _ _ _ _ => rfl).trans hrunning)
  have hnone : (s.tile p).thr.due = [] := by rw [Thr.due, hsigs, List.filter_nil]
  have honly : TileOnly s (s.engineComplete p .thr mt) p := by
    rw [hrun]
    exact tileOnly_trans (tileOnly_trans hsettled.only (tileOnly_modThr ..)) (tileOnly_raiseEntry _ p e)
  rw [hrun] at honly
  refine ⟨_, congrArg Host.Outcome.next hrun, mem_of_tileOnly honly, honly.2, ?_, ?_⟩
  · rw [thr_of_raiseEntry, thr_of_modThr]
    dsimp only
    rw [hsettled.apply (·.thr.running) fun _ _ _ _ _ _ => rfl, hrunning]
    rfl
  · rw [tile_of_raiseEntry]
    dsimp only
    rw [syn_of_modThr, signals_of_settle, hnone, List.map_nil, List.append_nil]

end State

/-- TLAUNCH, TCARVE, TNOP and the completion of a THR instruction. -/
theorem blockLaunch : Clause.BlockLaunch := by
  refine ⟨?_, fun _ _ _ _ h hbad => State.tlaunch_illegal h hbad, fun _ _ _ _ h hblocks hmax => State.tcarve_sets h hblocks hmax,
    fun _ _ _ _ h => State.tnop_begins h, fun _ _ _ _ mt hsigs hrunning => State.nop_completes mt hsigs hrunning⟩
  intro s s₁ p e b r h y n free hr1 hr2 hn1 hn2 hrows hentry hb hfree hfirst hgroups hregs hfit
  have hrun := State.tlaunch_eq h hr1 hr2 hn1 hn2 hrows hentry hb hfree hfirst hgroups hregs hfit
  have honly := State.tileOnly_trans (State.tileOnly_of_engineHead h)
    (State.tileOnly_launchBlock s₁ p e b r ((s₁.freeSlots p).take e.thrGroups))
  have hlen : ((s₁.freeSlots p).take e.thrGroups).length = e.thrGroups := List.length_take.trans (Nat.min_eq_left hgroups)
  refine ⟨_, _, congrArg Host.Outcome.next hrun, honly, State.mem_of_tileOnly honly, State.block_of_launchBlock .., rfl, rfl, rfl,
    State.held_of_launchBlock .., fun g hg => State.group_of_launchBlock_other s₁ p e b r hg, fun i hi => ?_⟩
  refine ⟨_, State.group_of_launchBlock s₁ p e b r ((State.nodup_freeSlots ..).sublist (List.take_sublist ..)) hlen hi,
    rfl, rfl, rfl, rfl, rfl, rfl, rfl, rfl, fun v l hl => Group.vreg_start e b _ _ i v hl, fun u => Group.ureg_start e b _ _ i u⟩

end Sys2Proof.Machine
end

section
/-!
PROOF. TPRELOAD (R71, R172): reads of part memory and of the translation tables leave every tile as it is, so a preload changes
its own tile alone; the line that it reads is in the way that it fills, which it then locks.
-/
namespace Sys2Proof.Machine.State

/-! ### Reads leave the tiles alone (R222, R243 to R247, R313) -/

section
variable (s : State)

theorem tiles_sendTagged (id k : Nat) (c : Channel) (tag hdr : Nat) (data : List Byte) :
    (s.sendTagged id k c tag hdr data).tiles = s.tiles := by
  unfold sendTagged
  split
  · rw [sendMsg_frame]
  · rfl

theorem tiles_sendSnoop (k line : Nat) (data evict : Bool) (owner : Owner) :
    (s.sendSnoop k line data evict owner).tiles = s.tiles :=
  (tiles_sendTagged ..).trans (bump_tiles ..)

theorem tiles_snoopBlockers (bl : List (Nat × FilterEntry)) (from_ : Option Nat) (write : Bool) :
    (s.snoopBlockers bl from_ write).tiles = s.tiles := by
  unfold snoopBlockers
  refine forEach_apply State.tiles _ fun s x => ?_
  split
  · rfl
  · exact forEach_apply State.tiles _ fun s k => tiles_sendSnoop ..

theorem tiles_of_mustWait {t : State} {pa n : Nat} {write : Bool} (h : s.mustWait pa n write = some t) : t.tiles = s.tiles := by
  unfold mustWait at h
  dsimp only at h
  split at h
  · cases h
    exact tiles_snoopBlockers ..
  · split at h
    · cases h
    · cases h
      rfl

theorem tiles_countAbsent (d : Option Nat) : (s.countAbsent d).tiles = s.tiles := by
  simp only [countAbsent]
  split
  · rfl
  · exact bump_tiles ..

theorem tiles_readLine (line : Nat) : (s.readLine line .none).1.tiles = s.tiles := by
  unfold readLine when
  dsimp only [meetErr]
  split
  · rw [bump_tiles, bump_tiles]
  · exact bump_tiles ..

theorem tiles_physRead (d : Option Nat) (pa n : Nat) : (s.physRead d pa n).s.tiles = s.tiles := by
  unfold physRead
  generalize hg : (⟨s, [], false, false⟩ : Got) = g
  have hs : g.s.tiles = s.tiles := by rw [← hg]
  clear hg
  induction partsOf pa n generalizing g with
  | nil => exact hs
  | cons x l ih =>
    refine ih _ ?_
    dsimp only
    split
    · exact (tiles_countAbsent ..).trans hs
    · exact (tiles_readLine ..).trans hs

theorem tiles_failAt (it : Option (Nat × Nat × Nat)) (code : Nat) : (s.failAt it code).tiles = s.tiles := by
  unfold failAt
  split
  · exact failItem_tiles ..
  · rfl

/-- A read of part memory leaves the tiles alone. -/
theorem tiles_memRead {t : State} {p pa ep n : Nat} {o : Owner} {r : RdRes} (h : s.memRead p 0 pa ep n o = (t, r)) :
    t.tiles = s.tiles := by
  unfold memRead at h
  rw [if_pos rfl] at h
  split at h
  · rename_i hw
    cases h
    exact tiles_of_mustWait s hw
  · cases h
    split
    · exact (tiles_failAt ..).trans (tiles_physRead ..)
    · exact tiles_physRead ..

theorem tiles_walkRead (d : Nat) (hs : HostMem) (target a : Nat) : (s.walkRead d hs target a).1.tiles = s.tiles := by
  unfold walkRead
  split
  · split
    · rename_i hw
      exact tiles_of_mustWait s hw
    · exact tiles_physRead ..
  · split <;> rfl

end

/-- A stage 2 walk reads its tables and keeps their entries in its die's cache. -/
theorem tiles_s2Levels (d : Nat) (hs : HostMem) (table : Bool) (il : Option Nat) (acc : Access)
    (ipa n target fuel level base : Nat) (s : State) :
    (s2Levels d hs table il acc ipa n target fuel level base s).1.tiles = s.tiles := by
  fun_induction s2Levels d hs table il acc ipa n target fuel level base s <;> grind [tiles_walkRead, modDie_tiles]

theorem tiles_stage2 (s : State) (d : Nat) (hs : HostMem) (table : Bool) (il : Option Nat) (acc : Access) (ipa : Nat) :
    (s.stage2 d hs table il acc ipa).1.tiles = s.tiles := by
  unfold stage2
  dsimp only
  split
  · rfl
  · split
    · rfl
    · exact tiles_s2Levels ..

/-- A stage 1 walk translates the addresses of its tables, reads them and keeps their entries. -/
theorem tiles_s1Levels (d : Nat) (hs : HostMem) (ctx : Nat) (acc : Access) (va n fuel level base : Nat) (s : State) :
    (s1Levels d hs ctx acc va n fuel level base s).1.tiles = s.tiles := by
  fun_induction s1Levels d hs ctx acc va n fuel level base s <;> grind [tiles_walkRead, modDie_tiles, tiles_stage2]

theorem tiles_walk (s : State) (d : Nat) (hs : HostMem) (ctx va : Nat) (acc : Access) :
    (s.walk d hs ctx va acc).1.tiles = s.tiles := by
  unfold walk
  dsimp only
  split
  · rfl
  · split
    · rfl
    · exact tiles_s1Levels ..

/-! ### The lines of a preload (R71) -/

section
variable {s t : State} {p : Nat}

theorem tile_of_tiles (h : t.tiles = s.tiles) (q : Nat) : t.tile q = s.tile q := by
  rw [tile, tile, h]

/-- The address of a line of a preload: nothing of the tiles changes but the tile's translation cache. -/
theorem tile_of_preloadAddr {va : Nat} {hs : HostMem} {r : Option (Nat × Nat × Nat)}
    (h : s.preloadAddr p va hs = (t, some r)) :
    s.tilesBut t [p] ∧ t.tile p = { s.tile p with xc := (t.tile p).xc } := by
  have hsame : ∀ u : State, u.tiles = s.tiles → s.tilesBut u [p] ∧ u.tile p = { s.tile p with xc := (u.tile p).xc } :=
    fun u hu => ⟨fun q _ => tile_of_tiles hu q, by rw [tile_of_tiles hu]⟩
  have hwalk : ∀ (va : Nat), ((((s.bump .XLTC_LOOKUPS_COUNT p).bump .XLTC_MISSES_COUNT p).bump .XLT_WALKS_COUNT).walk (p / 104)
      hs ((s.ctxOf p).getD 0) va .read).1.tiles = s.tiles := fun va => by
    rw [tiles_walk, bump_tiles, bump_tiles, bump_tiles]
  unfold preloadAddr at h
  dsimp only at h
  split at h
  · cases h
    exact hsame _ (bump_tiles ..)
  · cases h
    exact hsame _ (bump_tiles ..)
  · split at h
    · rename_i u e hw
      have hu : u.tiles = s.tiles := by
        rw [← hwalk va, hw]
      split at h
      · cases h
        obtain ⟨hbut, htile⟩ := hsame u hu
        refine ⟨fun q hq => ?_, ?_⟩
        · rw [fillTile, tile_modTile_other _ _ (by simpa using hq)]
          exact hbut q hq
        · rw [fillTile, tile_modTile_self, htile]
      · cases h
        exact hsame _ hu
    · rename_i u f hw
      split at h
      · cases h
      · cases h
        exact hsame t (by rw [← hwalk va, hw])

/-- A line of a preload that lies in part memory is read there. -/
theorem tiles_of_preloadRead {a : Nat} {hs : HostMem} {r : List Byte × Bool} (h : s.preloadRead p 0 a hs = (t, some r)) :
    t.tiles = s.tiles := by
  unfold preloadRead at h
  rw [if_pos rfl] at h
  split at h
  · cases h
  · split at h
    · rename_i u b0 e0 hread
      split at h
      · rename_i v b1 e1 hread'
        cases h
        exact (tiles_memRead _ hread').trans (tiles_memRead _ hread)
      · cases h
    · cases h

theorem bit_foldl_setBit (l : List Nat) (x j : Nat) : bit (l.foldl setBit x) j = (bit x j || decide (j ∈ l)) := by
  induction l generalizing x with
  | nil => simp
  | cons n l ih =>
    rw [List.foldl_cons, ih, bit_setBit]
    simp [Bool.or_assoc]

/-- A way into which a line has been put holds it. -/
theorem l1At_l1Put (t : Tile) (va w : Nat) (bs : List Byte) : (t.l1Put va w bs).l1At va w = some bs := by
  rw [Tile.l1At, Tile.l1Put]
  dsimp only
  rw [FMap.get_put_self]
  simp

/-- Way `w` of the L1 holds a line, which a preload has read. -/
def fillLine (s : State) (p va w : Nat) (bs : List Byte) : State := (s.modTile p (·.l1Put va w bs)).wayAccess p w

theorem tileOnly_fillLine (s : State) (p va w : Nat) (bs : List Byte) : TileOnly s (s.fillLine p va w bs) p := by
  rw [fillLine, wayAccess]
  exact tileOnly_trans (tileOnly_modTile ..) (tileOnly_modThr ..)

theorem l1At_fillLine (s : State) (p va w : Nat) (bs : List Byte) :
    ((s.fillLine p va w bs).tile p).l1At va w = some bs := by
  rw [Tile.l1At, fillLine, wayAccess, thr_of_modThr]
  dsimp only
  rw [← Tile.l1At, tile_modTile_self, l1At_l1Put]

theorem queue_of_fillLine (s : State) (p va w : Nat) (bs : List Byte) (k : Nat) :
    ((s.fillLine p va w bs).tile p).queue k = (s.tile p).queue k := by
  rw [fillLine, wayAccess, queue_of_modThr, tile_modTile_self]
  rfl

end

variable {s s₁ s₂ s₃ : State} {p : Nat} {e : Entry} {hs : HostMem}

/-- A preload of one line of part memory without an eyespot puts it into the first of its ways. -/
theorem preloadLines_one {w line a ep : Nat} {ws : List Nat} {bs : List Byte}
    (haddr : s₁.preloadAddr p (line * 128 % 2 ^ 56) hs = (s₂, some (some (0, a, ep))))
    (hread : s₂.preloadRead p 0 a hs = (s₃, some (bs, true))) (hwb : (s₃.tile p).thr.wb = []) :
    preloadLines p (w :: ws) hs 1 line [] s₁ = (s₃.fillLine p (line * 128 % 2 ^ 56) w bs, true) := by
  have hway : ((w :: ws).find? fun v => !([] : List Nat).contains (l1Key (line * 128 % 2 ^ 56) v)) = some w := rfl
  unfold preloadLines
  simp only [hway, haddr, hread, hwb]
  simp [preloadLines, wbMerge, fillLine, List.take_append_drop]

/-- TPRELOAD of a range within one line (R71, R172). -/
theorem tpreload_line {w a ep : Nat} {ws : List Nat} {bs : List Byte} (h : EngineHead s p 0 3 e s₁)
    (hcount : wayCount (e.f 1 20 13 ||| (s₁.tile p).thr.locked) ≤ 6) (hways : s₁.preloadWays p (e.f 1 20 13) = w :: ws)
    (hn : 0 < e.reg (e.f 1 12 9) % 2 ^ 32) (hline : e.qAddr (e.f 1 8 0) % 128 + e.reg (e.f 1 12 9) % 2 ^ 32 ≤ 128)
    (haddr : s₁.preloadAddr p (e.qAddr (e.f 1 8 0) / 128 * 128) hs = (s₂, some (some (0, a, ep))))
    (hread : s₂.preloadRead p 0 a hs = (s₃, some (bs, true))) (hwb : (s₃.tile p).thr.wb = []) :
    ∃ t, exec (.tpreload p hs) s = .next t ∧ t.mem = s₃.mem ∧ s.tilesBut t [p]
      ∧ (t.tile p).l1At (e.qAddr (e.f 1 8 0) / 128 * 128) w = some bs
      ∧ bit (t.tile p).thr.locked w = true ∧ ((t.tile p).queue 0).held = ((s₁.tile p).queue 0).held.drop 1 := by
  generalize hva : e.qAddr (e.f 1 8 0) / 128 * 128 = va at haddr ⊢
  have hmod : e.qAddr (e.f 1 8 0) / 128 * 128 % 2 ^ 56 = va := by
    have hlt : e.qAddr (e.f 1 8 0) < 2 ^ 56 := Nat.mod_lt _ (by decide)
    omega
  have hone : (e.qAddr (e.f 1 8 0) + e.reg (e.f 1 12 9) % 2 ^ 32 - 1) / 128 + 1 - e.qAddr (e.f 1 8 0) / 128 = 1 := by omega
  have hlines := preloadLines_one (w := w) (ws := ws) (line := e.qAddr (e.f 1 8 0) / 128) (by rw [hmod]; exact haddr) hread hwb
  have hrun : s.tpreload p hs = (((s₃.fillLine p va w bs).dequeue p 0).modThr p
      fun y => { y with locked := (w :: ws).foldl setBit y.locked }).raiseEntry p e := by
    rw [tpreload, beginHead_eq h]
    dsimp only
    rw [if_neg (Nat.not_lt.mpr hcount), if_neg (Nat.pos_iff_ne_zero.mp hn), hways, hone, hlines, hmod]
  obtain ⟨hbut₂, htile₂⟩ := tile_of_preloadAddr haddr
  have htiles₃ := tiles_of_preloadRead hread
  have hqueue : (s₃.tile p).queue 0 = (s₁.tile p).queue 0 := by rw [tile_of_tiles htiles₃, htile₂]; rfl
  have honly : TileOnly s₃ (s.tpreload p hs) p := by
    rw [hrun]
    exact tileOnly_trans (tileOnly_trans (tileOnly_trans (tileOnly_fillLine ..) (tileOnly_dequeue ..)) (tileOnly_modThr ..))
      (tileOnly_raiseEntry ..)
  refine ⟨s.tpreload p hs, rfl, mem_of_tileOnly honly, fun q hq => ?_, ?_, ?_, ?_⟩
  · calc (s.tpreload p hs).tile q = s₃.tile q := honly.2 q hq
      _ = s₂.tile q := tile_of_tiles htiles₃ q
      _ = s₁.tile q := hbut₂ q hq
      _ = s.tile q := (tileOnly_of_engineHead h).2 q hq
  · have hl1 : ∀ u : Thr, ({ u with locked := (w :: ws).foldl setBit u.locked } : Thr).l1 = u.l1 := fun _ => rfl
    rw [hrun, Tile.l1At, thr_of_raiseEntry, thr_of_modThr, hl1, apply_dequeue _ p 0 (·.thr.l1) fun _ _ => rfl,
      ← Tile.l1At, l1At_fillLine]
  · rw [hrun, thr_of_raiseEntry, thr_of_modThr]
    dsimp only
    rw [bit_foldl_setBit]
    simp
  · rw [hrun, queue_of_raiseEntry, queue_of_modThr, held_of_dequeue, queue_of_fillLine, hqueue]

/-- A TPRELOAD that would lock more than six ways halts its tile (R71). -/
theorem tpreload_illegal (h : EngineHead s p 0 3 e s₁) (hcount : 6 < wayCount (e.f 1 20 13 ||| (s₁.tile p).thr.locked)) :
    ∃ t, exec (.tpreload p hs) s = .next t ∧ s.onlyTiles t ∧ HaltedAt t p 0x0001 0 0 e.addr := by
  have hrun : s.tpreload p hs = s₁.haltEngine p 0 rIllegal e := by
    rw [tpreload, beginHead_eq h]
    exact if_pos hcount
  obtain ⟨honly, -, hhalt⟩ := haltEngine_of_head h rIllegal
  exact ⟨_, congrArg Host.Outcome.next hrun, honly, hhalt⟩

end Sys2Proof.Machine.State

namespace Sys2Proof.Machine

/-- Settles O14: a head that may begin runs its instruction's body; a launch fills free slots with groups as R53 says, and a
preload reads its line without changing another tile. -/
theorem blocks : Obligations.Blocks := by
  refine ⟨blockLaunch, ?_, fun _ _ _ _ _ h hcount => State.tpreload_illegal h hcount⟩
  intro s s₁ s₂ s₃ p e hs w ws a ep bs h hcount hways va hn hline haddr hread _ hwb
  exact State.tpreload_line h hcount hways hn hline haddr hread hwb

end Sys2Proof.Machine
end

section
/-!
PROOF. Stores and atomics enter the store buffer (R59, R65, R67, R73, R186): the lanes of an access that are translated, and the
entry that takes them.
-/
namespace Sys2Proof.Machine

namespace State

variable {s s₁ : State} {p g : Nat} {x : Group} {ls ls' : List LaneAcc}

/-! ### The lanes of an access (R57, R73) -/

/-- A translation that the tile's cache holds only counts. -/
theorem translate_of_ok {m : Miss} {tgt pa ep : Nat} (h : s.translate p m = (s₁, .ok tgt pa ep)) :
    s₁ = s.bump .XLTC_LOOKUPS_COUNT p := by
  unfold translate at h
  dsimp only at h
  split at h <;> cases h
  rfl

/-- Lanes that are all translated leave every tile as it was. -/
theorem xlLanes_frame {pc : Nat} {acc : Access} (h : xlLanes p g pc acc ls s = (s₁, some ls')) :
    TileOnly s s₁ p ∧ s₁.tile p = s.tile p := by
  induction ls generalizing s s₁ ls' with
  | nil =>
    cases h
    exact ⟨tileOnly_refl .., rfl⟩
  | cons l ls ih =>
    unfold xlLanes at h
    split at h
    · rename_i u tgt a ep hl
      have hu := translate_of_ok hl
      subst hu
      split at h
      · rename_i v r hr
        cases h
        obtain ⟨honly, htile⟩ := ih hr
        exact ⟨tileOnly_trans (tileOnly_bump ..) honly, by rw [htile, tile_bump]⟩
      · cases h
    · cases h

theorem lanesAt_frame {loc : Bool} {size : Nat} {acc : Access} (h : LanesAt s p g x loc size acc ls ls' s₁) :
    TileOnly s s₁ p ∧ s₁.tile p = s.tile p := by
  obtain ⟨-, h⟩ := h
  split at h
  · rw [h.1]
    exact ⟨tileOnly_refl .., rfl⟩
  · exact xlLanes_frame h

/-- An access whose lanes are aligned, and within the local rows or translated, goes on with them. -/
theorem withLanes_eq {loc : Bool} {size : Nat} {acc : Access} (h : LanesAt s p g x loc size acc ls ls' s₁)
    (k : State → List LaneAcc → State) : s.withLanes p g x loc size acc ls k = k s₁ ls' := by
  obtain ⟨halign, h⟩ := h
  have hno : (ls.any fun l => l.va % size != 0) = false := by
    simpa using halign
  cases loc with
  | true =>
    obtain ⟨rfl, b, hb, hrange, rfl⟩ := h
    have hin : (ls.any fun l => decide (b.rows * 1024 < l.va + size)) = false := by
      simpa using hrange
    unfold withLanes
    simp only [hno, hb, hin]
    simp
  | false =>
    rw [if_neg (by decide)] at h
    unfold withLanes
    simp only [hno, h]
    simp

/-! ### An entry of the store buffer (R65) -/

/-- Lanes that name different places are all stored. -/
theorem pickLanes_of_nodup (s : State) (h : (ls.map fun l => (l.target, l.endpoint, l.pa)).Nodup) :
    pickLanes ls s = (s, ls) := by
  induction ls with
  | nil => rfl
  | cons l ls ih =>
    rw [List.map_cons, List.nodup_cons] at h
    have hnone : (ls.any fun z => z.target == l.target && z.endpoint == l.endpoint && z.pa == l.pa) = false := by
      rw [List.any_eq_false]
      intro z hz hsame
      simp only [Bool.and_eq_true, beq_iff_eq] at hsame
      obtain ⟨⟨ht, he⟩, ha⟩ := hsame
      exact h.1 (List.mem_map.mpr ⟨z, hz, by rw [ht, he, ha]⟩)
    unfold pickLanes
    rw [ih h.2]
    simp [hnone]

theorem tileOnly_takeEntry (s : State) (p g : Nat) (x : Group) (atomic : Option Nat) (release : Bool) (size : Nat)
    (ls : List LaneAcc) : TileOnly s (s.takeEntry p g x atomic release size ls) p := tileOnly_modThr ..

theorem tile_of_takeEntry (s : State) (p g : Nat) (x : Group) (atomic : Option Nat) (release : Bool) (size : Nat)
    (ls : List LaneAcc) : (s.takeEntry p g x atomic release size ls).tile p = { s.tile p with thr := { (s.tile p).thr with
      nextStore := (s.tile p).thr.nextStore + 1
      sb := (s.tile p).thr.sb ++ [⟨(s.tile p).thr.nextStore, g, x.launch, atomic, release, size, ls⟩] } } := by
  rw [takeEntry, modThr, tile_modTile_self]

/-- A store or an atomic of group `g` that takes an entry and lets the group go on, `h` being what it leaves in the group. -/
theorem enterStore {atomic : Option Nat} {release : Bool} {size : Nat} (ls : List LaneAcc) (h : Group → Group)
    (hg : (s.tile p).group? g = some x) :
    let t := (s.takeEntry p g x atomic release size ls).retire p g h
    TileOnly s t p ∧ (t.tile p).spad = (s.tile p).spad ∧ (t.tile p).group? g = some (x.issued h)
      ∧ (t.tile p).thr.sb = (s.tile p).thr.sb ++ [⟨(s.tile p).thr.nextStore, g, x.launch, atomic, release, size, ls⟩] := by
  have htile := tile_of_takeEntry s p g x atomic release size ls
  refine ⟨tileOnly_trans (tileOnly_takeEntry ..) (tileOnly_retire ..), ?_, group_of_retire ?_ h, ?_⟩
  · rw [apply_retire (·.spad) _ _ _ _ fun _ _ => rfl, htile]
  · rw [htile]
    exact hg
  · rw [apply_retire (·.thr.sb) _ _ _ _ fun _ _ => rfl, htile]

/-! ### ST and ATOM (R59, R65, R67, R186) -/

/-- ST with its lanes at hand: a full store buffer holds it back. -/
theorem st_eq {f : ThreadFields} (h : GroupAt s p g x 3 2 f)
    (hfirst : if f.modBit 5 = true then x.loads = [] else x.acquires = [])
    (hlanes : LanesAt s p g x (f.space == 2) f.size .store ((lanesOf x.mask).map fun l =>
      laneAt l (if f.space = 2 then x.localAddr f l else x.globalAddr f l)
        ((if f.size = 8 then (x.vpair f.b.toNat l).toNat else (x.vreg f.b.toNat l).toNat) % 2 ^ (8 * f.size)) 0) ls s₁)
    (hn : (ls.map fun l => (l.target, l.endpoint, l.pa)).Nodup) : s.st p g f =
    if 32 ≤ (s₁.tile p).thr.sb.length then s₁.hold p g .full
    else (s₁.takeEntry p g x none (f.modBit 5) f.size ls).retire p g fun x => { x with progress := 0 } := by
  have hwait : (if f.modBit 5 then x.loads.map (·.id) else x.acquires) = [] := by
    split at hfirst
    · simp_all
    · simp_all
  have hkind : (f.kind == 3) = decide (f.size = 8) := by
    have hlt : f.kind < 4 := Nat.mod_lt _ (by decide)
    rw [ThreadFields.size]
    generalize f.kind = n at hlt
    decide +revert
  have hdata : ∀ l, x.data (f.kind == 3) f.b.toNat l
      = if f.size = 8 then (x.vpair f.b.toNat l).toNat else (x.vreg f.b.toNat l).toNat := fun l => by
    rw [Group.data, hkind]
    simp
  rw [st, thread_runs s p g _ h]
  dsimp only
  rw [if_neg (by simpa using hwait)]
  simp only [hdata, beq_iff_eq]
  rw [withLanes_eq hlanes, pickLanes_of_nodup s₁ hn]

/-- ATOM with its lanes at hand and room in the store buffer. -/
theorem atom_eq {f : ThreadFields} (h : GroupAt s p g x 4 1 f) (hacq : x.acquires = [])
    (hlanes : LanesAt s p g x (f.modBit 5) (if f.wide then 8 else 4) .atomic ((lanesOf x.mask).map fun l =>
      laneAt l (if f.modBit 5 = true then (x.vreg f.a.toNat l).toNat else x.atomAddr f l)
        (if f.wide then (x.vpair f.b.toNat l).toNat else (x.vreg f.b.toNat l).toNat)
        (if f.wide then (x.vpair f.c.toNat l).toNat else (x.vreg f.c.toNat l).toNat)) ls s₁)
    (hroom : (s₁.tile p).thr.sb.length < 32) : s.atom p g f =
    (s₁.takeEntry p g x (some (f.mod.toNat % 16)) false (if f.wide then 8 else 4) ls).retire p g fun x => { x with
      loads := x.loads ++ [⟨(s₁.tile p).thr.nextStore, true, false, false, ⟨false, f.d.toNat, if f.wide then 8 else 4, false⟩, ls,
        false, f.mod.toNat % 16 == 9, [], []⟩] } := by
  rw [atom, thread_runs s p g _ h]
  dsimp only
  rw [if_neg (by simpa using hacq)]
  exact (withLanes_eq hlanes _).trans (if_neg (Nat.not_le.mpr hroom))

end State

/-- ST and ATOM take one entry of the store buffer. -/
theorem storesAndAtomics : Clause.StoresAndAtomics := by
  constructor
  · intro s s₁ p g x f ls h hfirst hlanes hn
    obtain ⟨honly, htile⟩ := State.lanesAt_frame hlanes
    have hg : (s₁.tile p).group? g = some x := by rw [htile]; exact h.1
    have hrun := State.st_eq h hfirst hlanes hn
    rw [htile] at hrun
    constructor
    · intro hroom
      rw [if_neg (Nat.not_le.mpr hroom)] at hrun
      obtain ⟨honly', hspad, hgroup, hsb⟩ := State.enterStore (atomic := none) (release := f.modBit 5) (size := f.size) ls
        (fun x => { x with progress := 0 }) hg
      have hboth := State.tileOnly_trans honly honly'
      obtain ⟨hv, hu, hloads, halive, hwait, -⟩ := x.issued_frame fun x => { x with progress := 0 }
      obtain ⟨hvreg, hureg⟩ := sameRegs_of_eq hv hu
      rw [htile] at hspad hsb
      exact ⟨_, congrArg Host.Outcome.next hrun, State.mem_of_tileOnly hboth, hboth.2, hspad,
        ⟨_, hgroup, fun r l _ => hvreg r l, hureg, hloads, halive, hwait,
          x.behind_issued fun _ => ⟨rfl, rfl, rfl, rfl⟩⟩, hsb⟩
    · intro hfull
      rw [if_pos hfull] at hrun
      refine ⟨_, congrArg Host.Outcome.next hrun, ?_, ?_, ?_⟩
      · exact State.mem_of_tileOnly (State.tileOnly_trans honly (State.tileOnly_modGroup ..))
      · rw [State.hold, State.group_of_modGroup, hg, Option.map_some]
      · rw [State.hold, State.apply_modGroup _ p g (·.thr.sb) _ fun _ _ => rfl, htile]
  · intro s s₁ p g x f ls h hacq hroom hlanes id
    obtain ⟨honly, htile⟩ := State.lanesAt_frame hlanes
    have hg : (s₁.tile p).group? g = some x := by rw [htile]; exact h.1
    have hrun := State.atom_eq h hacq hlanes (by rw [htile]; exact hroom)
    rw [htile] at hrun
    generalize ho : (⟨(s.tile p).thr.nextStore, true, false, false, ⟨false, f.d.toNat, if f.wide then 8 else 4, false⟩, ls,
      false, f.mod.toNat % 16 == 9, [], []⟩ : LoadOp) = o at hrun
    obtain ⟨honly', hspad, hgroup, hsb⟩ := State.enterStore (atomic := some (f.mod.toNat % 16)) (release := false)
      (size := if f.wide then 8 else 4) ls (fun x => { x with loads := x.loads ++ [o] }) hg
    have hboth := State.tileOnly_trans honly honly'
    obtain ⟨hv, hu, hloads, -⟩ := x.issued_frame fun x => { x with loads := x.loads ++ [o] }
    rw [htile] at hspad hsb
    exact ⟨_, _, o, congrArg Host.Outcome.next hrun, State.mem_of_tileOnly hboth, hboth.2, hspad, hsb, hgroup,
      x.behind_issued fun _ => ⟨rfl, rfl, rfl, rfl⟩, sameRegs_of_eq hv hu, hloads, by rw [← ho], by rw [← ho],
      by rw [← ho], by rw [← ho]⟩

end Sys2Proof.Machine
end

section
/-!
PROOF. The store buffer drains to the scratchpad and to the write buffer (R65, R67, R68): the bytes that the lanes of a store
leave.
-/
namespace Sys2Proof.Machine

/-! ### Bytes of tables -/

theorem length_toLE (n x : Nat) : (toLE n x).length = n := by
  induction n generalizing x with
  | zero => rfl
  | succ n ih => rw [toLE, List.length_cons, ih]

theorem FMap.getList_eq_map {α : Type} (d : α) (m : FMap α) (k n : Nat) :
    FMap.getList d m k n = (List.range n).map fun i => m.get d (k + i) := by
  induction n generalizing k with
  | zero => rfl
  | succ n ih =>
    rw [FMap.getList, ih, List.range_succ_eq_map, List.map_cons, List.map_map]
    simp [Function.comp_def, Nat.add_assoc, Nat.add_comm 1]

/-- Tables that agree on a range hold the same list there. -/
theorem FMap.getList_congr {α : Type} {d : α} {m m' : FMap α} {k n : Nat}
    (h : ∀ a, k ≤ a → a < k + n → m'.get d a = m.get d a) : FMap.getList d m' k n = FMap.getList d m k n := by
  rw [FMap.getList_eq_map, FMap.getList_eq_map]
  refine List.map_congr_left fun i hi => h _ (Nat.le_add_right ..) ?_
  have := List.mem_range.mp hi
  omega

theorem FMap.getList_putList_self {α : Type} [DecidableEq α] (d : α) (m : FMap α) (k : Nat) (bs : List α) :
    FMap.getList d (m.putList d k bs) k bs.length = bs := by
  rw [FMap.getList_eq_map]
  refine List.ext_getElem (by simp) fun i h _ => ?_
  have hi : i < bs.length := by simpa using h
  rw [List.getElem_map, List.getElem_range, FMap.get_putList, if_pos (by omega), Nat.add_sub_cancel_left, List.getD_eq_getElem _ _ hi]

/-- The table after lanes of `n` bytes have stored their data. -/
def putLanes (n : Nat) (ls : List LaneAcc) (m : FMap Byte) : FMap Byte :=
  ls.foldl (fun m l => FMap.putList 0 m l.pa (toLE n l.a)) m

/-- Lanes store at their own places only. -/
theorem get_putLanes_other {n a : Nat} {ls : List LaneAcc} (m : FMap Byte) (h : ∀ l ∈ ls, ¬ (l.pa ≤ a ∧ a < l.pa + n)) :
    (putLanes n ls m).get 0 a = m.get 0 a := by
  induction ls generalizing m with
  | nil => rfl
  | cons l ls ih =>
    obtain ⟨hl, hls⟩ := List.forall_mem_cons.mp h
    exact (ih _ hls).trans (by rw [FMap.get_putList, length_toLE, if_neg hl])

/-- A lane whose place no other lane shares has stored its data there. -/
theorem getList_putLanes {n : Nat} {ls : List LaneAcc} (m : FMap Byte)
    (hd : ls.Pairwise fun a b => a.pa + n ≤ b.pa ∨ b.pa + n ≤ a.pa) {l : LaneAcc} (hl : l ∈ ls) :
    FMap.getList 0 (putLanes n ls m) l.pa n = toLE n l.a := by
  induction ls generalizing m with
  | nil => cases hl
  | cons y ls ih =>
    obtain ⟨hy, hd⟩ := List.pairwise_cons.mp hd
    rcases List.mem_cons.mp hl with rfl | hl
    · have hself := FMap.getList_putList_self 0 m l.pa (toLE n l.a)
      rw [length_toLE] at hself
      refine (FMap.getList_congr fun a ha hb => ?_).trans hself
      refine get_putLanes_other (n := n) (ls := ls) _ fun z hz => ?_
      have := hy z hz
      omega
    · exact ih _ hd hl

/-- The scratchpad after a store's lanes. -/
theorem Tile.spad_foldl_spadPut (n : Nat) (ls : List LaneAcc) (t : Tile) :
    (ls.foldl (fun t l => t.spadPut l.pa (toLE n l.a)) t).spad = putLanes n ls t.spad := by
  induction ls generalizing t with
  | nil => rfl
  | cons l ls ih => exact ih _

theorem Tile.thr_foldl_spadPut (n : Nat) (ls : List LaneAcc) (t : Tile) :
    (ls.foldl (fun t l => t.spadPut l.pa (toLE n l.a)) t).thr = t.thr := by
  induction ls generalizing t with
  | nil => rfl
  | cons l ls ih => exact ih _

/-- Bytes put one after another, each as present, from key `c` on. -/
theorem FMap.get_foldl_zip (c : Nat) (bs : List Byte) (j : Nat) (m : FMap (Option Byte)) (i : Nat) :
    ((bs.zip (List.range' j bs.length)).foldl (fun m z => FMap.put none m (c + z.2) (some z.1)) m).get none i
      = if c + j ≤ i ∧ i < c + j + bs.length then bs[i - (c + j)]? else m.get none i := by
  induction bs generalizing j m with
  | nil => exact (if_neg (by rw [List.length_nil]; omega)).symm
  | cons b bs ih =>
    rw [List.length_cons, List.range'_succ, List.zip_cons_cons, List.foldl_cons, ih, FMap.get_put]
    rcases Nat.lt_trichotomy i (c + j) with h | rfl | h
    · rw [if_neg (by omega), if_neg (by omega), if_neg (by omega)]
    · rw [if_neg (by omega), if_pos rfl, if_pos (by omega), Nat.sub_self]
      rfl
    · rw [if_neg (show i ≠ c + j by omega)]
      by_cases hi : i < c + j + (bs.length + 1)
      · obtain ⟨n, rfl⟩ : ∃ n, i = c + j + 1 + n := ⟨i - (c + j + 1), by omega⟩
        have h1 : c + j + 1 + n - (c + (j + 1)) = n := by omega
        have h2 : c + j + 1 + n - (c + j) = n + 1 := by omega
        rw [if_pos (by omega), if_pos (by omega), h1, h2, List.getElem?_cons_succ]
      · rw [if_neg (by omega), if_neg (by omega)]

namespace State

variable {s : State} {p : Nat} {e : SbEntry} {rest : List SbEntry}

/-! ### The head of the store buffer (R65) -/

/-- Groups that wait for room in the store buffer count the cycles. -/
def countFull (s : State) (p full : Nat) : State :=
  if ((s.tile p).resident.any fun g => ((s.tile p).group? g).any (·.wait == .full)) = true
    then s.bump .THR_SB_FULL_CYCLES_COUNT p full else s

theorem countFull_cases (s : State) (p full : Nat) :
    s.countFull p full = s.bump .THR_SB_FULL_CYCLES_COUNT p full ∨ s.countFull p full = s := by
  unfold countFull
  split
  · exact .inl rfl
  · exact .inr rfl

theorem tileOnly_countFull (s : State) (p full : Nat) : TileOnly s (s.countFull p full) p := by
  rcases s.countFull_cases p full with h | h <;> rw [h]
  · exact tileOnly_bump ..
  · exact tileOnly_refl ..

theorem tile_countFull (s : State) (p full q : Nat) : (s.countFull p full).tile q = s.tile q := by
  rcases s.countFull_cases p full with h | h <;> rw [h]
  rw [tile_bump]

/-- The head of the store buffer drains where no older load of its group is outstanding and it is no release. -/
theorem storeDrain_eq (full : Nat) (hsb : (s.tile p).thr.sb = e :: rest) (hrel : e.release = false)
    (hold : ∀ x, (s.tile p).group? e.group = some x → ∀ o ∈ x.loads, ¬ o.id < e.id) :
    s.storeDrain p full .none = (match e.atomic with
      | none => (s.countFull p full).drainStore p e .none
      | some op => (s.countFull p full).drainAtomic p e op .none).settle p := by
  have holder : (((s.tile p).group? e.group).any fun x => decide (x.firstStore ≤ e.id) && x.loads.any fun o =>
      decide (o.id < e.id) && o.lanes.any fun a => e.lanes.any fun b => a.meets o.dest.size b e.size) = false := by
    cases hg : (s.tile p).group? e.group with
    | none => rfl
    | some x =>
      have hno := hold x hg
      rw [Option.any_some, Bool.and_eq_false_iff]
      refine .inr (List.any_eq_false.mpr fun o ho => ?_)
      simp [hno o ho]
  rw [storeDrain, hsb]
  dsimp only
  rw [holder, hrel, Bool.false_and, Bool.or_false, if_neg Bool.false_ne_true]
  rfl

/-! ### Stores (R67, R68) -/

/-- A store of local rows: its lanes write the scratchpad, and its entry leaves the buffer. -/
def drainLocal (s : State) (p : Nat) (e : SbEntry) : State :=
  ((s.bump .SPAD_ACCESS_COUNT p (laneCells e.lanes e.size).length).forEach e.lanes
    fun s l => s.modTile p (·.spadPut l.pa (toLE e.size l.a))).modThr p fun y => { y with sb := y.sb.drop 1 }

theorem drainStore_local (s : State) (p : Nat) (hne : e.lanes ≠ []) (hloc : ∀ l ∈ e.lanes, l.target = 3) :
    s.drainStore p e .none = s.drainLocal p e := by
  have hany : (e.lanes.any (·.target == 3)) = true := by
    obtain ⟨l, hl⟩ := List.exists_mem_of_ne_nil _ hne
    exact List.any_eq_true.mpr ⟨l, hl, by simp [hloc l hl]⟩
  rw [drainStore, if_pos hany]
  rfl

theorem tileOnly_drainLocal (s : State) (p : Nat) (e : SbEntry) : TileOnly s (s.drainLocal p e) p := by
  have hloop := tileOnly_forEach_modTile (s.bump .SPAD_ACCESS_COUNT p (laneCells e.lanes e.size).length) p
    (fun (l : LaneAcc) => (·.spadPut l.pa (toLE e.size l.a))) e.lanes
  exact tileOnly_trans (tileOnly_trans (tileOnly_bump ..) hloop) (tileOnly_modThr ..)

theorem spad_of_drainLocal (s : State) (p : Nat) (e : SbEntry) :
    ((s.drainLocal p e).tile p).spad = putLanes e.size e.lanes (s.tile p).spad := by
  rw [drainLocal, apply_modThr _ p (·.spad) _ fun _ _ => rfl,
    forEach_modTile _ p fun (l : LaneAcc) => (·.spadPut l.pa (toLE e.size l.a)), Tile.spad_foldl_spadPut, tile_bump]

theorem sb_of_drainLocal (s : State) (p : Nat) (e : SbEntry) :
    ((s.drainLocal p e).tile p).thr.sb = (s.tile p).thr.sb.drop 1 := by
  rw [drainLocal, thr_of_modThr]
  dsimp only
  rw [forEach_modTile _ p fun (l : LaneAcc) => (·.spadPut l.pa (toLE e.size l.a)), Tile.thr_foldl_spadPut, tile_bump]

/-- A store of local rows writes its lanes' bytes of the scratchpad and no other (R67). -/
theorem storeBufferDrain_local (full : Nat) (hsb : (s.tile p).thr.sb = e :: rest) (hatomic : e.atomic = none)
    (hrel : e.release = false) (hne : e.lanes ≠ []) (hloc : ∀ l ∈ e.lanes, l.target = 3)
    (hloads : ∀ x, (s.tile p).group? e.group = some x → x.loads = [])
    (hd : e.lanes.Pairwise fun a b => a.pa + e.size ≤ b.pa ∨ b.pa + e.size ≤ a.pa) :
    ∃ t, exec (.storeBufferDrain p full .none) s = .next t ∧ t.mem = s.mem ∧ s.tilesBut t [p] ∧ (t.tile p).thr.sb = rest
      ∧ (∀ l ∈ e.lanes, (t.tile p).spadBytes l.pa e.size = toLE e.size l.a)
      ∧ ∀ a, (∀ l ∈ e.lanes, ¬ (l.pa ≤ a ∧ a < l.pa + e.size)) → (t.tile p).spad.get 0 a = (s.tile p).spad.get 0 a := by
  let u := (s.countFull p full).drainLocal p e
  have hrun : s.storeDrain p full .none = u.settle p := by
    rw [storeDrain_eq full hsb hrel fun x hx o ho => absurd ho (by simp [hloads x hx]), hatomic]
    dsimp only
    rw [drainStore_local _ p hne hloc]
  have hsettled := settled_settle u p
  have honly : TileOnly s (u.settle p) p :=
    tileOnly_trans (tileOnly_trans (tileOnly_countFull ..) (tileOnly_drainLocal ..)) hsettled.only
  have hspad : ((u.settle p).tile p).spad = putLanes e.size e.lanes (s.tile p).spad := by
    rw [hsettled.apply (·.spad) fun _ _ _ _ _ _ => rfl, spad_of_drainLocal, tile_countFull]
  refine ⟨_, congrArg Host.Outcome.next hrun, mem_of_tileOnly honly, honly.2, ?_, fun l hl => ?_, fun a ha => ?_⟩
  · rw [hsettled.apply (·.thr.sb) fun _ _ _ _ _ _ => rfl, sb_of_drainLocal, tile_countFull, hsb]
    rfl
  · rw [Tile.spadBytes, hspad, getList_putLanes _ hd hl]
  · rw [hspad, get_putLanes_other _ ha]

/-- The write-buffer entry that a lane of a store begins. -/
def newLine (e : SbEntry) (l : LaneAcc) : WbEntry where
  line := l.pa / 128
  target := l.target
  pa := l.pa / 128 * 128
  endpoint := l.endpoint
  bytes := ((toLE e.size l.a).zip (List.range e.size)).foldl (fun m z => FMap.put none m (l.pa % 128 + z.2) (some z.1)) []
  stores := [(e.group, e.id, e.launch)]

theorem bytes_of_newLine (e : SbEntry) (l : LaneAcc) (i : Nat) : (newLine e l).bytes.get none i
    = if l.pa % 128 ≤ i ∧ i < l.pa % 128 + e.size then (toLE e.size l.a)[i - l.pa % 128]? else none := by
  have h := FMap.get_foldl_zip (l.pa % 128) (toLE e.size l.a) 0 [] i
  rw [length_toLE, ← List.range_eq_range'] at h
  exact h

theorem tileOnly_l1Store (s : State) (p : Nat) (e : SbEntry) (l : LaneAcc) : TileOnly s (s.l1Store p e l) p := by
  unfold l1Store
  split
  · exact tileOnly_trans (tileOnly_modTile ..) (tileOnly_modThr ..)
  · exact tileOnly_refl ..

theorem l1Drop_frame (t : Tile) (va : Nat) : t.l1Drop va = { t with thr := { t.thr with l1 := (t.l1Drop va).thr.l1 } } := by
  unfold Tile.l1Drop
  generalize List.range 8 = ws
  have hfold : ∀ y : Thr, ws.foldl (fun y w => if (t.l1At va w).isSome then { y with l1 := y.l1.put none (l1Key va w) none } else y) y
      = { y with l1 := (ws.foldl (fun y w =>
          if (t.l1At va w).isSome then { y with l1 := y.l1.put none (l1Key va w) none } else y) y).l1 } := by
    induction ws with
    | nil => exact fun _ => rfl
    | cons w ws ih =>
      intro y
      rw [List.foldl_cons, ih]
      split <;> rfl
  rw [hfold]

/-- An update of the L1 leaves the other parts of its tile alone. -/
theorem apply_l1Store {β : Type} (φ : Tile → β) (s : State) (p : Nat) (e : SbEntry) (l : LaneAcc)
    (hφ : ∀ (t : Tile) l1 ws, φ { t with thr := { t.thr with l1 := l1, ways := ws } } = φ t) :
    φ ((s.l1Store p e l).tile p) = φ (s.tile p) := by
  have hput : ∀ (t : Tile) va w bs ws, φ { t.l1Put va w bs with thr := { (t.l1Put va w bs).thr with ways := ws } } = φ t :=
    fun t va w bs ws => by
      rw [Tile.l1Put, l1Drop_frame]
      exact hφ t _ ws
  unfold l1Store
  split
  · rw [wayAccess, modThr, tile_modTile_self, tile_modTile_self]
    exact hput ..
  · rfl

/-- A store to memory of one lane, the write buffer empty, begins an entry of it. -/
theorem drainStore_memory {l : LaneAcc} (hl : e.lanes = [l]) (htgt : l.target ≠ 3) (hwb : (s.tile p).thr.wb = []) :
    s.drainStore p e .none = ((s.modThr p fun _ => { (s.tile p).thr with wb := [newLine e l] }).l1Store p e l).modThr p
      fun y => { y with sb := y.sb.drop 1 } := by
  have henter : wbEnter (s.tile p).thr e l = some { (s.tile p).thr with wb := [newLine e l] } := by
    rw [wbEnter, hwb]
    rfl
  have hby : byLine [l] = [l] := by simp [byLine, distinct]
  have hdrain : drainLanes p e [l] s = ((s.modThr p fun _ => { (s.tile p).thr with wb := [newLine e l] }).l1Store p e l, []) := by
    rw [drainLanes, henter]
    rfl
  rw [drainStore, hl, if_neg (by simpa using htgt), hby, hdrain]
  rfl

/-- A store to memory goes to the write buffer's line (R67, R68). -/
theorem storeBufferDrain_memory (full : Nat) {l : LaneAcc} (hsb : (s.tile p).thr.sb = e :: rest) (hatomic : e.atomic = none)
    (hrel : e.release = false) (hl : e.lanes = [l]) (htgt : l.target ≠ 3) (hwb : (s.tile p).thr.wb = [])
    (hloads : ∀ x, (s.tile p).group? e.group = some x → x.loads = []) :
    ∃ t w, exec (.storeBufferDrain p full .none) s = .next t ∧ t.mem = s.mem ∧ s.tilesBut t [p] ∧ (t.tile p).thr.sb = rest
      ∧ (t.tile p).thr.wb = [w] ∧ w.target = l.target ∧ w.line = l.pa / 128 ∧ w.endpoint = l.endpoint
      ∧ ∀ i, w.bytes.get none i = if l.pa % 128 ≤ i ∧ i < l.pa % 128 + e.size
          then (toLE e.size l.a)[i - l.pa % 128]? else none := by
  let v := s.countFull p full
  let u := ((v.modThr p fun _ => { (v.tile p).thr with wb := [newLine e l] }).l1Store p e l).modThr p
    fun y => { y with sb := y.sb.drop 1 }
  have hrun : s.storeDrain p full .none = u.settle p := by
    rw [storeDrain_eq full hsb hrel fun x hx o ho => absurd ho (by simp [hloads x hx]), hatomic]
    dsimp only
    rw [drainStore_memory hl htgt (by rw [tile_countFull]; exact hwb)]
  have hsettled := settled_settle u p
  have honly : TileOnly s (u.settle p) p := tileOnly_trans (tileOnly_trans (tileOnly_countFull s p full) (tileOnly_trans
    (tileOnly_trans (tileOnly_modThr ..) (tileOnly_l1Store ..)) (tileOnly_modThr ..))) hsettled.only
  refine ⟨_, newLine e l, congrArg Host.Outcome.next hrun, mem_of_tileOnly honly, honly.2, ?_, ?_, rfl, rfl, rfl,
    bytes_of_newLine e l⟩
  · rw [hsettled.apply (·.thr.sb) fun _ _ _ _ _ _ => rfl, thr_of_modThr]
    dsimp only
    rw [apply_l1Store (·.thr.sb) _ _ _ _ fun _ _ _ => rfl, thr_of_modThr, tile_countFull, hsb]
    rfl
  · rw [hsettled.apply (·.thr.wb) fun _ _ _ _ _ _ => rfl, thr_of_modThr]
    dsimp only
    rw [apply_l1Store (·.thr.wb) _ _ _ _ fun _ _ _ => rfl, thr_of_modThr]

end State

end Sys2Proof.Machine
end

section
/-!
PROOF. Atomics and the write buffer reach part memory (R67, R68, R186, R222 to R224): where an address lies in part memory depends
on the states of the stacks alone, which no store changes; an atomic stores at its home what its operation gives, and a line of the
write buffer stores exactly its bytes.
-/
namespace Sys2Proof.Machine

namespace State

/-! ### Where an address lies (R222 to R224) -/

/-- Both states place every address of part memory alike, and the same stacks serve. -/
structure SameHome (s t : State) : Prop where
  fuses : t.fuses = s.fuses
  trained : ∀ k, t.f .HBM_STATUS_STATE k = s.f .HBM_STATUS_STATE k
  trips : ∀ k, t.f .HBM_STATUS_TRIPPED k = s.f .HBM_STATUS_TRIPPED k

variable {s t u : State}

theorem SameHome.trans (h : SameHome s t) (h' : SameHome t u) : SameHome s u :=
  ⟨h'.fuses.trans h.fuses, fun k => (h'.trained k).trans (h.trained k), fun k => (h'.trips k).trans (h.trips k)⟩

theorem sameHome_of_eq (hfuses : t.fuses = s.fuses) (hfields : t.fields = s.fields) : SameHome s t :=
  ⟨hfuses, fun _ => by rw [f, f, hfields], fun _ => by rw [f, f, hfields]⟩

/-- A counter is no state of a stack. -/
theorem sameHome_bump (s : State) (c : Fld) (i n : Nat) (hc : c ≠ .HBM_STATUS_STATE ∧ c ≠ .HBM_STATUS_TRIPPED)
    (hw : ∀ w k b, c.wrap i = some (w, k, b) → w ≠ .HBM_STATUS_STATE ∧ w ≠ .HBM_STATUS_TRIPPED) : SameHome s (s.bump c i n) where
  fuses := bump_fuses ..
  trained _ := f_bump_other s n (fun e => hc.1 (congrArg Prod.fst e).symm) fun w k b e e' => (hw w k b e).1 (congrArg Prod.fst e').symm
  trips _ := f_bump_other s n (fun e => hc.2 (congrArg Prod.fst e).symm) fun w k b e e' => (hw w k b e).2 (congrArg Prod.fst e').symm

theorem SameHome.stackPresent (h : SameHome s t) : t.stackPresent = s.stackPresent := by
  funext k
  rw [State.stackPresent, State.stackPresent, variant, variant, h.fuses, h.trained]

theorem SameHome.dieStacks (h : SameHome s t) : t.dieStacks = s.dieStacks := by
  funext d
  rw [State.dieStacks, State.dieStacks, h.stackPresent]

theorem SameHome.presentStacks (h : SameHome s t) : t.presentStacks = s.presentStacks := by
  rw [State.presentStacks, State.presentStacks, h.stackPresent]

theorem SameHome.cellOf (h : SameHome s t) : t.cellOf = s.cellOf := by
  funext pa
  rw [State.cellOf, State.cellOf, h.dieStacks, h.presentStacks]

theorem SameHome.aliases (h : SameHome s t) : t.aliases = s.aliases := by
  funext c
  rw [State.aliases, State.aliases, dieLocal, dieLocal, packageWide, packageWide, h.dieStacks, h.presentStacks]

theorem SameHome.serves (h : SameHome s t) : t.serves = s.serves := by
  funext c
  rw [State.serves, State.serves, flag, flag, h.trips]

/-- An access need not wait where no port holds one of its lines in a way that counts, the stacks serve, and none of its lines
is being snooped. -/
theorem mustWait_eq_none (s : State) (pa n : Nat) (write : Bool) : s.mustWait pa n write = none ↔
    ((s.cellsOf pa n).flatMap fun c => s.blockers c none false) = []
      ∧ ((s.cellsOf pa n).all fun c => s.serves c && !((s.aliases c).any s.snooped)) = true := by
  unfold mustWait
  dsimp only
  by_cases hb : ((s.cellsOf pa n).flatMap fun c => s.blockers c none false) = []
  · rw [if_neg (not_not_intro hb)]
    by_cases hall : ((s.cellsOf pa n).all fun c => s.serves c && !((s.aliases c).any s.snooped)) = true
    · rw [if_pos hall]
      exact ⟨fun _ => ⟨hb, hall⟩, fun _ => rfl⟩
    · rw [if_neg hall]
      exact ⟨fun h => (Option.some_ne_none _ h).elim, fun h => (hall h.2).elim⟩
  · rw [if_pos hb]
    exact ⟨fun h => (Option.some_ne_none _ h).elim, fun h => (hb h.1).elim⟩

/-- An access that need not wait for a snoop need not where the host port is the same. -/
theorem SameHome.mustWait (h : SameHome s t) (hchl : t.chl = s.chl) {pa n : Nat} {write : Bool}
    (hw : s.mustWait pa n write = none) : t.mustWait pa n write = none := by
  have hblockers : t.blockers = s.blockers := by
    funext c from_ own
    simp only [blockers, h.aliases, filterAt, hchl]
  have hsnooped : t.snooped = s.snooped := by
    funext l
    rw [snooped, snooped, hchl]
  rw [mustWait_eq_none] at hw ⊢
  rw [cellsOf, h.cellOf, hblockers, h.serves, h.aliases, hsnooped]
  exact hw

/-! ### Snoops and reads change neither memory nor tiles -/

/-- Memory, tiles and the places of addresses are the same in both states. -/
structure Quiet (s t : State) : Prop where
  mem : t.mem = s.mem
  eyes : t.eyes = s.eyes
  tiles : t.tiles = s.tiles
  home : SameHome s t

theorem Quiet.refl (s : State) : Quiet s s := ⟨rfl, rfl, rfl, sameHome_of_eq rfl rfl⟩

theorem Quiet.trans (h : Quiet s t) (h' : Quiet t u) : Quiet s u :=
  ⟨h'.mem.trans h.mem, h'.eyes.trans h.eyes, h'.tiles.trans h.tiles, h.home.trans h'.home⟩

theorem quiet_forEach {α : Type} {f : State → α → State} (hf : ∀ s x, Quiet s (f s x)) (l : List α) (s : State) :
    Quiet s (s.forEach l f) := by
  induction l generalizing s with
  | nil => exact Quiet.refl s
  | cons x l ih => exact (hf s x).trans (ih (f s x))

theorem quiet_bump (s : State) (c : Fld) (i n : Nat) (hc : c ≠ .HBM_STATUS_STATE ∧ c ≠ .HBM_STATUS_TRIPPED)
    (hw : ∀ w k b, c.wrap i = some (w, k, b) → w ≠ .HBM_STATUS_STATE ∧ w ≠ .HBM_STATUS_TRIPPED) : Quiet s (s.bump c i n) :=
  ⟨bump_mem .., bump_eyes .., bump_tiles .., sameHome_bump s c i n hc hw⟩

theorem quiet_sendTagged (s : State) (id k : Nat) (c : Channel) (tag hdr : Nat) (data : List Byte) :
    Quiet s (s.sendTagged id k c tag hdr data) := by
  unfold sendTagged
  split
  · rw [sendMsg_frame]
    exact ⟨rfl, rfl, rfl, sameHome_of_eq rfl rfl⟩
  · exact ⟨rfl, rfl, rfl, sameHome_of_eq rfl rfl⟩

theorem quiet_sendSnoop (s : State) (k line : Nat) (data evict : Bool) (owner : Owner) :
    Quiet s (s.sendSnoop k line data evict owner) := by
  have hbump : Quiet s (s.bump .CHL_SNOOPS_COUNT) :=
    quiet_bump s _ _ _ (by decide) fun w k b h => by cases h; decide
  have hsent := hbump.trans (quiet_sendTagged (s.bump .CHL_SNOOPS_COUNT) s.nextId k .snp (s.nextTag k .snp)
    (Msg.header (if data then 0x11 else 0x10) 0 ((s.port k).aperture + line * 64)) [])
  exact ⟨hsent.mem, hsent.eyes, hsent.tiles, hsent.home.trans (sameHome_of_eq rfl rfl)⟩

theorem quiet_snoopShared (s : State) (pa n : Nat) (owner : Owner) : Quiet s (s.snoopShared pa n owner) := by
  unfold snoopShared
  refine quiet_forEach (fun s l => ?_) _ s
  split
  · split
    · exact Quiet.refl s
    · exact quiet_forEach (fun s k => quiet_sendSnoop ..) _ s
  · exact Quiet.refl s

theorem quiet_countFull (s : State) (p full : Nat) : Quiet s (s.countFull p full) := by
  rcases s.countFull_cases p full with h | h <;> rw [h]
  · exact quiet_bump s _ _ _ (by decide) fun w k b h => by cases h; decide
  · exact Quiet.refl s

/-! ### Atomics at part memory (R67, R186) -/

/-- A read of a line without an eyespot. -/
theorem readLine_plain (s : State) (line : Nat) (heye : s.eye line = false) : s.readLine line .none
    = (s.bump .HBM_READS_COUNT (line / 2 ^ 30), (s.bump .HBM_READS_COUNT (line / 2 ^ 30)).memBytes (line * 64) 64, false) := by
  have heye' : (s.bump .HBM_READS_COUNT (line / 2 ^ 30)).eye line = false := by
    rw [eye, bump_eyes]
    exact heye
  rw [readLine]
  dsimp only [meetErr, when]
  rw [heye', if_neg Bool.false_ne_true, heye']

/-- An atomic at a cell without an eyespot stores what its operation gives and returns the old value. -/
theorem atomicAt_eq (s : State) (c op : Nat) (wide : Bool) (a b : Nat) (heye : s.eye (c / 64) = false) :
    let n := if wide then 8 else 4
    let old := fromLE (s.memBytes c n)
    ∃ u, Quiet s u ∧ s.atomicAt c op wide a b .none
      = (u.putBytes c (toLE n (atomicOp op (8 * n) old (a % 2 ^ (8 * n)) (b % 2 ^ (8 * n)))), old, false) := by
  intro n old
  have hread := quiet_bump s .HBM_READS_COUNT (c / 64 / 2 ^ 30) 1 (by decide) fun w k b h => by cases h; decide
  have hwrite := quiet_bump (s.bump .HBM_READS_COUNT (c / 64 / 2 ^ 30) 1) .HBM_WRITES_COUNT (c / 2 ^ 36) 1 (by decide)
    fun w k b h => by cases h; decide
  have hmem : (s.bump .HBM_READS_COUNT (c / 64 / 2 ^ 30)).memBytes c n = s.memBytes c n := by rw [memBytes, hread.mem, memBytes]
  refine ⟨_, hread.trans hwrite, ?_⟩
  rw [atomicAt, readLine_plain s _ heye]
  dsimp only
  rw [if_neg Bool.false_ne_true, hmem]

/-- One lane of an atomic whose cell is in part memory. -/
theorem atomLane_home {p g c op : Nat} {e : SbEntry} {l : LaneAcc} (htgt : l.target = 0) (hsize : e.size = 4 ∨ e.size = 8)
    (hc : s.cellOf l.pa = some c) (heye : s.eye (c / 64) = false) : let n := e.size
    let old := fromLE (s.memBytes c n)
    ∃ u, s.atomLane p g e op .none l = (u, some old, none) ∧ u.tiles = (s.modTile p (·.l1Drop l.va)).tiles
      ∧ u.mem = FMap.putList memDefault s.mem c (toLE n (atomicOp op (8 * n) old (l.a % 2 ^ (8 * n)) (l.b % 2 ^ (8 * n)))) := by
  intro n old
  have hwide : (if (e.size == 8) = true then 8 else 4) = n := by
    rcases hsize with h | h <;> simp [n, h]
  have hhome : SameHome s (s.modTile p (·.l1Drop l.va)) := sameHome_of_eq rfl rfl
  obtain ⟨u, hu, hat⟩ := atomicAt_eq (s.modTile p (·.l1Drop l.va)) c op (e.size == 8) l.a l.b heye
  rw [hwide] at hat
  have hsnoop := quiet_snoopShared (u.putBytes c (toLE n (atomicOp op (8 * n) old (l.a % 2 ^ (8 * n)) (l.b % 2 ^ (8 * n)))))
    l.pa e.size (.store p [(e.group, e.id)])
  refine ⟨_, ?_, hsnoop.tiles.trans hu.tiles, ?_⟩
  · unfold atomLane
    dsimp only
    rw [if_neg (by omega), if_pos htgt, hhome.cellOf, hc]
    dsimp only
    rw [hat]
    rfl
  · rw [hsnoop.mem, putBytes, hu.mem]
    rfl

/-- The group of an atomic that has been performed: its load has the old values `got`. -/
def atomicReturned (e : SbEntry) (wrote : Bool) (got : FMap Nat) (x : Group) : Group :=
  if e.id < x.firstStore then x else
    { x with progress := if wrote then 0 else x.progress,
             loads := x.loads.map fun o => if o.id = e.id then { o with issued := true, got := got, reqs := [] } else o }

/-- An atomic of one lane at part memory, the write buffer empty and no snoop to wait for, is performed. -/
theorem drainAtomic_eq {p op old : Nat} {e : SbEntry} {l : LaneAcc} {u : State} (hl : e.lanes = [l]) (htgt : l.target = 0)
    (hwb : (s.tile p).thr.wb = []) (hwait : s.mustWait l.pa e.size true = none)
    (hlane : s.atomLane p e.group e op .none l = (u, some old, none)) :
    ∃ wrote, s.drainAtomic p e op .none = (u.modThr p fun y => { y with sb := y.sb.drop 1 }).modGroup p e.group
      (atomicReturned e wrote (FMap.put 0 [] l.lane old)) := by
  refine ⟨op != 9 || old == l.a, ?_⟩
  rw [drainAtomic, hwb, hl, List.any_nil, if_neg Bool.false_ne_true, List.findSome?_cons, if_pos htgt, hwait]
  simp only [List.findSome?_nil, List.foldl_cons, List.foldl_nil, hlane]
  rfl

/-- An atomic on part memory stores its result at its home and returns the old value (R67, R186). -/
theorem storeBufferDrain_atomic {p c op : Nat} (full : Nat) {e : SbEntry} {rest : List SbEntry} {l : LaneAcc} {x : Group}
    {o : LoadOp} (hsb : (s.tile p).thr.sb = e :: rest) (hatomic : e.atomic = some op) (hrel : e.release = false)
    (hl : e.lanes = [l]) (htgt : l.target = 0) (hsize : e.size = 4 ∨ e.size = 8) (hwb : (s.tile p).thr.wb = [])
    (hg : (s.tile p).group? e.group = some x) (hloads : x.loads = [o]) (hid : o.id = e.id) (hfirst : x.firstStore ≤ e.id)
    (hwait : s.mustWait l.pa e.size true = none) (hc : s.cellOf l.pa = some c) (heye : s.eye (c / 64) = false) :
    let n := e.size
    let old := fromLE (s.memBytes c n)
    ∃ t y, exec (.storeBufferDrain p full .none) s = .next t ∧ s.tilesBut t [p] ∧ (t.tile p).thr.sb = rest
      ∧ t.memBytes c n = toLE n (atomicOp op (8 * n) old (l.a % 2 ^ (8 * n)) (l.b % 2 ^ (8 * n))) ∧ s.memBut t c n
      ∧ (t.tile p).group? e.group = some y ∧ ∃ o', y.loads = [o'] ∧ o'.issued = true ∧ o'.reqs = []
      ∧ FMap.get 0 o'.got l.lane = old := by
  intro n old
  let v := s.countFull p full
  have hv : Quiet s v := quiet_countFull s p full
  have hvchl : v.chl = s.chl := chl_of_tileOnly (tileOnly_countFull s p full)
  obtain ⟨u, hlane, htiles, hmem⟩ := atomLane_home (s := v) (p := p) (g := e.group) (c := c) (op := op) (e := e) htgt hsize
    (by rw [hv.home.cellOf]; exact hc) (by rw [eye, hv.eyes]; exact heye)
  rw [memBytes, hv.mem, ← memBytes] at hlane hmem
  obtain ⟨wrote, hdrain⟩ := drainAtomic_eq hl htgt (by rw [tile_countFull]; exact hwb)
    (hv.home.mustWait hvchl hwait) hlane
  generalize hw : (u.modThr p fun y => { y with sb := y.sb.drop 1 }).modGroup p e.group
    (atomicReturned e wrote (FMap.put 0 [] l.lane old)) = w at hdrain
  have hrun : s.storeDrain p full .none = w.settle p := by
    rw [storeDrain_eq full hsb hrel fun y hy o' ho' => ?_, hatomic]
    · exact congrArg (·.settle p) hdrain
    · rw [hg, Option.some.injEq] at hy
      rw [← hy, hloads, List.mem_singleton] at ho'
      rw [ho', hid]
      exact Nat.lt_irrefl _
  have hutile : u.tile p = (s.tile p).l1Drop l.va := by rw [tile_of_tiles htiles, tile_modTile_self, tile_countFull]
  have hwonly : TileOnly u w p := by
    rw [← hw]
    exact tileOnly_trans (tileOnly_modThr ..) (tileOnly_modGroup ..)
  have hsettled := settled_settle w p
  have honly : TileOnly u (w.settle p) p := tileOnly_trans hwonly hsettled.only
  have hmem' : (w.settle p).mem = FMap.putList memDefault s.mem c
      (toLE n (atomicOp op (8 * n) old (l.a % 2 ^ (8 * n)) (l.b % 2 ^ (8 * n)))) :=
    (mem_of_tileOnly honly).trans hmem
  have hwgroup : (w.tile p).group? e.group = some (atomicReturned e wrote (FMap.put 0 [] l.lane old) x) := by
    rw [← hw, group_of_modGroup, group_of_modThr, hutile, l1Drop_frame]
    exacts [congrArg (Option.map _) hg, fun _ => rfl]
  obtain ⟨y, hy, hxy⟩ := hsettled.groups _ _ hwgroup
  refine ⟨_, y, congrArg Host.Outcome.next hrun, fun q hq => ?_, ?_, ?_, fun a ha => ?_, hy,
    { o with issued := true, got := FMap.put 0 [] l.lane old, reqs := [] }, ?_, rfl, rfl, FMap.get_put_self ..⟩
  · rw [honly.2 q hq, tile_of_tiles htiles, tile_modTile_other _ _ (by simpa using hq), tile_countFull]
  · rw [hsettled.apply (·.thr.sb) fun _ _ _ _ _ _ => rfl, ← hw, apply_modGroup _ p _ (·.thr.sb) _ fun _ _ => rfl, thr_of_modThr]
    dsimp only
    rw [hutile, l1Drop_frame]
    exact congrArg (List.drop 1) hsb
  · rw [memBytes, hmem']
    have hself := FMap.getList_putList_self memDefault s.mem c (toLE n (atomicOp op (8 * n) old (l.a % 2 ^ (8 * n)) (l.b % 2 ^ (8 * n))))
    rw [length_toLE] at hself
    exact hself
  · rw [memByte, hmem', FMap.get_putList, length_toLE, if_neg ha, memByte]
  · have hyloads : y.loads = (atomicReturned e wrote (FMap.put 0 [] l.lane old) x).loads :=
      Group.waitOnly_apply hxy (·.loads) fun _ _ _ _ _ _ => rfl
    rw [hyloads, atomicReturned, if_neg (Nat.not_lt.mpr hfirst), hloads, List.map_singleton, if_pos hid]

end State

end Sys2Proof.Machine
end

section
/-!
PROOF. The write buffer drains to part memory (R54, R68): the runs of a byte mask cover exactly its bits, so a masked write stores
exactly the bytes that the mask names.
-/
namespace Sys2Proof.Machine

/-! ### Byte masks and their runs (R68) -/

/-- Some run of the list covers position `k`. -/
def inRuns (l : List (Nat × Nat)) (k : Nat) : Prop := ∃ x ∈ l, x.1 ≤ k ∧ k < x.1 + x.2

theorem inRuns_nil (k : Nat) : ¬ inRuns [] k := by simp [inRuns]

theorem inRuns_cons (x : Nat × Nat) (l : List (Nat × Nat)) (k : Nat) :
    inRuns (x :: l) k ↔ (x.1 ≤ k ∧ k < x.1 + x.2) ∨ inRuns l k := by
  simp [inRuns]

/-- The runs of a mask cover its bits and no others. -/
theorem inRuns_maskRuns (m k n i : Nat) : inRuns (maskRuns n i m) k ↔ i ≤ k ∧ k < i + n ∧ bit m k = true := by
  induction n generalizing i with
  | zero =>
    simp only [maskRuns, inRuns_nil, false_iff]
    omega
  | succ n ih =>
    have hrest := ih (i + 1)
    by_cases hi : bit m i = true
    · have hcover : i ≤ k ∧ k < i + (n + 1) ∧ bit m k = true ↔ k = i ∨ inRuns (maskRuns n (i + 1) m) k := by
        rw [hrest]
        by_cases hk : k = i
        · simp [hk, hi]
        · constructor
          · exact fun ⟨h1, h2, h3⟩ => .inr ⟨by omega, by omega, h3⟩
          · rintro (h | ⟨h1, h2, h3⟩)
            · exact absurd h hk
            · exact ⟨by omega, by omega, h3⟩
      rw [hcover, maskRuns, if_pos hi]
      cases hruns : maskRuns n (i + 1) m with
      | nil =>
        simp only [inRuns_cons, inRuns_nil, or_false]
        omega
      | cons x rest =>
        obtain ⟨j, l⟩ := x
        dsimp only
        split
        · simp only [inRuns_cons]
          rw [← or_assoc]
          exact or_congr_left (by omega)
        · simp only [inRuns_cons]
          exact or_congr_left (by omega)
    · rw [maskRuns, if_neg hi, hrest]
      constructor
      · exact fun ⟨h1, h2, h3⟩ => ⟨by omega, by omega, h3⟩
      · intro ⟨h1, h2, h3⟩
        have hk : k ≠ i := fun h => hi (h ▸ h3)
        exact ⟨by omega, by omega, h3⟩

/-- A sum of the powers that a condition selects is the mask of the selected positions. -/
theorem sum_ite_two_pow (c : Nat → Bool) (l : List Nat) :
    (l.map fun i => if c i = true then 2 ^ i else 0).sum = maskOf (l.filter c) := by
  induction l with
  | nil => rfl
  | cons a l ih =>
    rw [List.map_cons, List.sum_cons, ih, List.filter_cons]
    split
    · rfl
    · exact Nat.zero_add _

/-- The mask of a half of a write-buffer entry names the bytes that the entry holds. -/
theorem bit_wbHalf (e : WbEntry) (h i : Nat) :
    bit (State.wbHalf e h).1 i = (decide (i < 64) && (e.bytes.get none (64 * h + i)).isSome) := by
  rw [State.wbHalf]
  dsimp only
  rw [sum_ite_two_pow (fun i => (e.bytes.get none (64 * h + i)).isSome), bit_maskOf (List.nodup_range.filter _)]
  simp

theorem length_wbHalf (e : WbEntry) (h : Nat) : (State.wbHalf e h).2.length = 64 := by simp [State.wbHalf]

theorem getD_wbHalf (e : WbEntry) (h : Nat) {i : Nat} (hi : i < 64) :
    (State.wbHalf e h).2.getD i memDefault = (e.bytes.get none (64 * h + i)).getD 0 := by
  rw [State.wbHalf, List.getD_eq_getElem _ _ (by simpa using hi), List.getElem_map, List.getElem_range]

theorem fit_of_length {n : Nat} {bs : List Byte} (h : bs.length = n) : fit n bs = bs := by
  rw [fit, ← h, List.take_left]

namespace State

variable {s : State} {p : Nat}

/-! ### A masked write of a line (R223) -/

/-- The runs of a line are written one after another. -/
def writeRuns (s : State) (line : Nat) (bs : List Byte) (runs : List (Nat × Nat)) : State :=
  s.forEach runs fun s x => s.putBytes (line * 64 + x.1) ((bs.drop x.1).take x.2)

/-- What no write of bytes changes, the runs leave alone. -/
theorem apply_writeRuns {β : Type} (φ : State → β) (s : State) (line : Nat) (bs : List Byte) (runs : List (Nat × Nat))
    (hφ : ∀ s a b, φ (s.putBytes a b) = φ s) : φ (s.writeRuns line bs runs) = φ s :=
  forEach_apply φ runs fun _ _ => hφ ..

/-- A byte of the line that a run covers has been written; no other byte has. -/
theorem memByte_writeRuns (s : State) (line : Nat) {bs : List Byte} (hbs : bs.length = 64) (runs : List (Nat × Nat)) (a : Nat) :
    (a / 64 = line ∧ inRuns runs (a % 64) → (s.writeRuns line bs runs).memByte a = bs.getD (a % 64) memDefault)
    ∧ (¬ (a / 64 = line ∧ inRuns runs (a % 64)) → (s.writeRuns line bs runs).memByte a = s.memByte a) := by
  induction runs generalizing s with
  | nil => exact ⟨fun h => absurd h.2 (inRuns_nil _), fun _ => rfl⟩
  | cons x runs ih =>
    obtain ⟨hin, hout⟩ := ih (s.putBytes (line * 64 + x.1) ((bs.drop x.1).take x.2))
    have hput := memByte_putBytes s (line * 64 + x.1) a ((bs.drop x.1).take x.2)
    have hlen : ((bs.drop x.1).take x.2).length = min x.2 (64 - x.1) := by simp [hbs]
    rw [hlen] at hput
    constructor
    · intro ⟨hline, hcover⟩
      by_cases hrest : inRuns runs (a % 64)
      · exact hin ⟨hline, hrest⟩
      · obtain hx | hx := (inRuns_cons ..).mp hcover
        · rw [if_pos (by omega)] at hput
          refine (hout fun h => hrest h.2).trans (hput.trans ?_)
          have hidx : x.1 + (a - (line * 64 + x.1)) = a % 64 := by omega
          have hlt : a - (line * 64 + x.1) < x.2 := by omega
          rw [List.getD_eq_getElem?_getD, List.getElem?_take_of_lt hlt, List.getElem?_drop, hidx, ← List.getD_eq_getElem?_getD]
        · exact absurd hx hrest
    · intro hno
      have hnot : ¬ (line * 64 + x.1 ≤ a ∧ a < line * 64 + x.1 + min x.2 (64 - x.1)) := fun h =>
        hno ⟨by omega, (inRuns_cons ..).mpr (.inl (by omega))⟩
      rw [if_neg hnot] at hput
      exact (hout fun h => hno ⟨h.1, (inRuns_cons ..).mpr (.inr h.2)⟩).trans hput

/-- A masked write stores the bytes of its line that the mask names, and no others. -/
theorem writeMasked_effect (s : State) (line mask : Nat) {bs : List Byte} (hbs : bs.length = 64) :
    let t := s.writeMasked line mask bs .none
    t.tiles = s.tiles ∧ SameHome s t
      ∧ (∀ a, a / 64 = line ∧ bit mask (a % 64) = true → t.memByte a = bs.getD (a % 64) memDefault)
      ∧ ∀ a, ¬ (a / 64 = line ∧ bit mask (a % 64) = true) → t.memByte a = s.memByte a := by
  have hbump := quiet_bump s .HBM_WRITES_COUNT (line / 2 ^ 30) 1 (by decide) fun w k b h => by cases h; decide
  have hfit := fit_of_length hbs
  intro t
  by_cases hmask : mask = 2 ^ 64 - 1
  · have ht : t = ((s.bump .HBM_WRITES_COUNT (line / 2 ^ 30)).setEye line false).putBytes (line * 64) bs := by
      simp only [t]
      rw [writeMasked, if_pos hmask, hfit, writeLine]
      exact if_pos hbs
    have hput : ∀ a, t.memByte a = if line * 64 ≤ a ∧ a < line * 64 + bs.length then bs.getD (a - line * 64) memDefault
        else s.memByte a := fun a => by
      rw [ht, memByte_putBytes]
      congr 1
      rw [memByte, memByte, setEye_mem, hbump.mem]
    have hbit : ∀ a, bit mask (a % 64) = true := fun a => by
      rw [hmask, bit_eq_testBit, Nat.testBit_two_pow_sub_one]
      simp [Nat.mod_lt]
    refine ⟨?_, ?_, fun a ha => ?_, fun a ha => ?_⟩
    · rw [ht]
      exact hbump.tiles
    · rw [ht]
      exact hbump.home.trans (sameHome_of_eq rfl rfl)
    · have hidx : a - line * 64 = a % 64 := by omega
      rw [hput, if_pos (by omega), hidx]
    · rw [hput, if_neg fun h => ha ⟨by omega, hbit a⟩]
  · have ht : t = (s.bump .HBM_WRITES_COUNT (line / 2 ^ 30)).writeRuns line bs (maskRuns 64 0 mask) := by
      simp only [t]
      rw [writeMasked, if_neg hmask, hfit]
      rfl
    have hruns := memByte_writeRuns (s.bump .HBM_WRITES_COUNT (line / 2 ^ 30)) line hbs (maskRuns 64 0 mask)
    have hcover : ∀ a, inRuns (maskRuns 64 0 mask) (a % 64) ↔ bit mask (a % 64) = true := fun a => by
      rw [inRuns_maskRuns]
      exact ⟨fun h => h.2.2, fun h => ⟨by omega, by omega, h⟩⟩
    rw [ht]
    refine ⟨?_, ?_, fun a ha => (hruns a).1 (by rw [hcover]; exact ha), fun a ha => ?_⟩
    · exact (apply_writeRuns State.tiles _ line bs _ fun _ _ _ => rfl).trans hbump.tiles
    · exact hbump.home.trans (sameHome_of_eq (apply_writeRuns State.fuses _ line bs _ fun _ _ _ => rfl)
        (apply_writeRuns State.fields _ line bs _ fun _ _ _ => rfl))
    · rw [(hruns a).2 (by rw [hcover]; exact ha), memByte, hbump.mem, memByte]

/-! ### WRITE_BUFFER_DRAIN (R54, R68) -/

/-- A half of an entry for part memory reaches its line: exactly its bytes. -/
theorem drainHalf_home {e : WbEntry} {h c : Nat} (htgt : e.target = 0) (hc : s.cellOf (e.pa + 64 * h) = some (64 * c)) :
    let t := s.drainHalf p e h
    t.tiles = s.tiles ∧ SameHome s t
      ∧ (∀ a, a / 64 = c → t.memByte a = (e.bytes.get none (64 * h + a % 64)).getD (s.memByte a))
      ∧ ∀ a, a / 64 ≠ c → t.memByte a = s.memByte a := by
  intro t
  have hnone : ∀ a, bit (wbHalf e h).1 (a % 64) = false → e.bytes.get none (64 * h + a % 64) = none := fun a ha => by
    rw [bit_wbHalf] at ha
    simpa [Nat.mod_lt] using ha
  by_cases hmask : (wbHalf e h).1 = 0
  · have ht : t = s := by
      simp only [t, drainHalf]
      exact if_pos hmask
    rw [ht]
    refine ⟨rfl, sameHome_of_eq rfl rfl, fun a _ => ?_, fun _ _ => rfl⟩
    rw [hnone a (by rw [hmask]; simp [bit])]
    rfl
  · have ht : t = (s.writeMasked c (wbHalf e h).1 (wbHalf e h).2 .none).snoopShared (e.pa + 64 * h) 64
        (.store p (e.stores.map fun y => (y.1, y.2.1))) := by
      have hline : 64 * c / 64 = c := by omega
      simp only [t, drainHalf]
      rw [if_neg hmask, if_pos htgt, hc]
      dsimp only
      rw [hline]
    obtain ⟨htiles, hhome, hin, hout⟩ := s.writeMasked_effect c (wbHalf e h).1 (length_wbHalf e h)
    have hsnoop := quiet_snoopShared (s.writeMasked c (wbHalf e h).1 (wbHalf e h).2 .none) (e.pa + 64 * h) 64
      (.store p (e.stores.map fun y => (y.1, y.2.1)))
    have hmem : ∀ a, t.memByte a = (s.writeMasked c (wbHalf e h).1 (wbHalf e h).2 .none).memByte a := fun a => by
      rw [ht, memByte, hsnoop.mem, memByte]
    refine ⟨by rw [ht, hsnoop.tiles, htiles], by rw [ht]; exact hhome.trans hsnoop.home, fun a ha => ?_,
      fun a ha => (hmem a).trans (hout a fun h => ha h.1)⟩
    by_cases hbit : bit (wbHalf e h).1 (a % 64) = true
    · rw [hmem, hin a ⟨ha, hbit⟩, getD_wbHalf e h (Nat.mod_lt a (by decide))]
      rw [bit_wbHalf, Bool.and_eq_true, Option.isSome_iff_exists] at hbit
      obtain ⟨-, v, hv⟩ := hbit
      rw [hv]
      rfl
    · rw [hmem, hout a fun h => hbit h.2, hnone a (by simpa using hbit)]
      rfl

/-- A write-buffer entry writes exactly its bytes of its line in part memory. -/
theorem writeBufferDrain_home {e : WbEntry} {rest : List WbEntry} {c : Nat → Nat} (hwb : (s.tile p).thr.wb = e :: rest)
    (htgt : e.target = 0) (hc : ∀ h, h < 2 → s.cellOf (e.pa + 64 * h) = some (64 * c h)) (hne : c 0 ≠ c 1)
    (hwait : ∀ h, h < 2 → s.mustWait (e.pa + 64 * h) 64 true = none) :
    ∃ t, exec (.writeBufferDrain p) s = .next t ∧ s.tilesBut t [p] ∧ (t.tile p).thr.wb = rest
      ∧ (∀ h i, h < 2 → i < 64 →
          t.memByte (64 * c h + i) = (e.bytes.get none (64 * h + i)).getD (s.memByte (64 * c h + i)))
      ∧ ∀ a, a / 64 ≠ c 0 → a / 64 ≠ c 1 → t.memByte a = s.memByte a := by
  obtain ⟨htiles₀, hhome₀, hin₀, hout₀⟩ := drainHalf_home (p := p) htgt (hc 0 (by decide))
  obtain ⟨htiles₁, -, hin₁, hout₁⟩ := drainHalf_home (s := s.drainHalf p e 0) (p := p) htgt
    (by rw [hhome₀.cellOf]; exact hc 1 (by decide))
  let u := ((s.drainHalf p e 0).drainHalf p e 1).modThr p fun y => { y with wb := rest }
  have hnowait : ([0, 1].findSome? fun h => if (wbHalf e h).1 = 0 then none else s.mustWait (e.pa + 64 * h) 64 true) = none := by
    rw [List.findSome?_eq_none_iff]
    intro h hh
    rw [hwait h (by simp only [List.mem_cons, List.not_mem_nil, or_false] at hh; omega), ite_self]
  have hrun : s.writeDrain p = u.settle p := by
    rw [writeDrain, hwb]
    dsimp only
    rw [if_pos htgt, hnowait]
  have hsettled := settled_settle u p
  have honly : TileOnly ((s.drainHalf p e 0).drainHalf p e 1) (u.settle p) p := tileOnly_trans (tileOnly_modThr ..) hsettled.only
  have hmem : ∀ a, (u.settle p).memByte a = ((s.drainHalf p e 0).drainHalf p e 1).memByte a := fun a => by
    rw [memByte, mem_of_tileOnly honly, memByte]
  refine ⟨_, congrArg Host.Outcome.next hrun, fun q hq => ?_, ?_, fun h i hh hi => ?_, fun a h0 h1 => ?_⟩
  · rw [honly.2 q hq, tile_of_tiles htiles₁, tile_of_tiles htiles₀]
  · rw [hsettled.apply (·.thr.wb) fun _ _ _ _ _ _ => rfl, thr_of_modThr]
  · have hdiv : ∀ k, (64 * c k + i) / 64 = c k := fun k => by omega
    have hmod : (64 * c h + i) % 64 = i := by omega
    rw [hmem]
    obtain rfl | rfl : h = 0 ∨ h = 1 := by omega
    · rw [hout₁ _ (by rw [hdiv]; exact hne), hin₀ _ (hdiv 0), hmod]
    · rw [hin₁ _ (hdiv 1), hout₀ _ (by rw [hdiv]; exact hne.symm), hmod]
  · rw [hmem, hout₁ a h1, hout₀ a h0]

end State

/-- Settles O11: an entry of the store buffer takes the lanes with their data; where it drains, the bytes of its lanes reach the
scratchpad, the write buffer or part memory. -/
theorem storesAndBuffers : Obligations.StoresAndBuffers :=
  ⟨storesAndAtomics,
    fun _ _ full _ _ hsb ha hr hne hloc hloads hd => State.storeBufferDrain_local full hsb ha hr hne hloc hloads hd,
    fun _ _ full _ _ _ hsb ha hr hl ht hwb hloads => State.storeBufferDrain_memory full hsb ha hr hl ht hwb hloads,
    fun _ _ full _ _ _ _ _ _ _ hsb ha hr hl ht hn hwb hg hloads hid hf hw hc he =>
      State.storeBufferDrain_atomic full hsb ha hr hl ht hn hwb hg hloads hid hf hw hc he,
    fun _ _ _ _ _ hwb ht hc hne hwait => State.writeBufferDrain_home hwb ht hc hne hwait⟩

end Sys2Proof.Machine
end

section
/-!
PROOF. The cycles of the matrix engine (R87): whatever its instructions do as they pass, part memory and the other tiles stay as
they are.
-/
namespace Sys2Proof.Machine

/-- Part memory and every tile but `p` are as they were. -/
structure AtTile (s t : State) (p : Nat) : Prop where
  mem : t.mem = s.mem
  but : s.tilesBut t [p]

theorem AtTile.refl (s : State) (p : Nat) : AtTile s s p := ⟨rfl, fun _ _ => rfl⟩

theorem AtTile.trans {s t u : State} {p : Nat} (h : AtTile s t p) (h' : AtTile t u p) : AtTile s u p :=
  ⟨h'.mem.trans h.mem, fun q hq => (h'.but q hq).trans (h.but q hq)⟩

namespace State

variable {s t u : State} {p : Nat}

theorem atTile_of_tileOnly (h : TileOnly s t p) : AtTile s t p := ⟨mem_of_tileOnly h, h.2⟩

theorem tileOnly_modMat (s : State) (p : Nat) (g : Mat → Mat) : TileOnly s (s.modMat p g) p := tileOnly_modTile ..

theorem atTile_modMat (s : State) (p : Nat) (g : Mat → Mat) : AtTile s (s.modMat p g) p := atTile_of_tileOnly (tileOnly_modMat ..)

theorem atTile_bump (s : State) (c : Fld) (i n p : Nat) : AtTile s (s.bump c i n) p := atTile_of_tileOnly (tileOnly_bump ..)

theorem atTile_ite {c : Prop} [Decidable c] (ht : AtTile s t p) (hu : AtTile s u p) : AtTile s (if c then t else u) p := by
  split
  exacts [ht, hu]

theorem atTile_forEach {α : Type} {f : State → α → State} (hf : ∀ s x, AtTile s (f s x) p) (l : List α) (s : State) :
    AtTile s (s.forEach l f) p := by
  induction l generalizing s with
  | nil => exact AtTile.refl s p
  | cons x l ih => exact (hf s x).trans (ih _)

/-- A choice between states that carry a result. -/
theorem atTile_fst_ite {α : Type} {c : Prop} [Decidable c] {a b : α} (ht : AtTile s t p) (hu : AtTile s u p) :
    AtTile s (if c then (t, a) else (u, b)).1 p := by
  split
  exacts [ht, hu]

/-- A loop that carries a result beside the state. -/
theorem atTile_foldl_fst {α β : Type} {f : State × β → α → State × β} (hf : ∀ x a, AtTile x.1 (f x a).1 p) (l : List α)
    (x : State × β) : AtTile x.1 (l.foldl f x).1 p := by
  induction l generalizing x with
  | nil => exact AtTile.refl x.1 p
  | cons a l ih => exact (hf x a).trans (ih _)

/-! ### Hazards and accumulators (R97, R110, R111) -/

theorem tileOnly_haltTile (s : State) (p reason kind stream group addr : Nat) :
    TileOnly s (s.haltTile p reason kind stream group addr) p := by
  unfold haltTile
  dsimp only
  split
  · split
    · exact tileOnly_modTile ..
    · exact tileOnly_refl ..
  · exact tileOnly_modTile ..

/-- A halt leaves the engines of its tile as they are. -/
theorem mat_of_haltTile (s : State) (p reason kind stream group addr : Nat) :
    ((s.haltTile p reason kind stream group addr).tile p).mat = (s.tile p).mat := by
  unfold haltTile
  dsimp only
  split
  · split
    · rw [tile_modTile_self]
    · rfl
  · rw [tile_modTile_self]

@[simp] theorem mat_of_modMat (s : State) (p : Nat) (g : Mat → Mat) : ((s.modMat p g).tile p).mat = g (s.tile p).mat := by
  rw [modMat, tile_modTile_self]

theorem tile_setF (s : State) (x : Fld) (i v p : Nat) : (s.setF x i v).tile p = s.tile p := rfl
theorem tileOnly_setF (s : State) (x : Fld) (i v p : Nat) : TileOnly s (s.setF x i v) p :=
  ⟨onlyTilesFields_of_onlyFields rfl, fun _ _ => rfl⟩

/-- The first hazard of a tile, in the registers that keep it (R111). -/
def noteHazard (s : State) (p kind accRow planeRow plane : Nat) (g : Option Nat) (addr : Nat) : State :=
  let s := (((s.setFlag .MAT_HAZARD_FIRST_VALID p true).setF .MAT_HAZARD_FIRST_KIND p kind).setF .MAT_HAZARD_FIRST_ACC_ROW p accRow).setF
    .MAT_HAZARD_FIRST_PLANE_ROW p planeRow
  (((s.setF .MAT_HAZARD_FIRST_PLANE p plane).setFlag .MAT_HAZARD_FIRST_SOURCE p g.isSome).setF .MAT_HAZARD_FIRST_GROUP p
    (g.getD 0)).setF .MAT_HAZARD_ADDR_ADDR p addr

theorem tileOnly_noteHazard (s : State) (p kind accRow planeRow plane : Nat) (g : Option Nat) (addr : Nat) :
    TileOnly s (s.noteHazard p kind accRow planeRow plane g addr) p := by
  unfold noteHazard
  iterate 8 refine tileOnly_trans ?_ (tileOnly_setF ..)
  exact tileOnly_refl s p

theorem mat_of_noteHazard (s : State) (p kind accRow planeRow plane : Nat) (g : Option Nat) (addr : Nat) :
    ((s.noteHazard p kind accRow planeRow plane g addr).tile p).mat = (s.tile p).mat := by
  simp only [noteHazard, setFlag, tile_setF]

/-- The count of a hazard of an instruction, with the instruction marked. -/
def countHazard (s : State) (p num : Nat) : State :=
  (s.bump .MAT_HAZARD_COUNT_COUNT p).modMat p fun m =>
    { m with ops := m.ops.map fun o => if o.num = num then { o with hazard := true } else o }

/-- A hazard marks instructions of the engine, at most, and may halt the tile. -/
theorem matHazard_frame (s : State) (p num kind accRow planeRow plane : Nat) :
    TileOnly s (s.matHazard p num kind accRow planeRow plane) p
      ∧ (((s.matHazard p num kind accRow planeRow plane).tile p).mat = (s.tile p).mat
        ∨ ((s.matHazard p num kind accRow planeRow plane).tile p).mat = ((s.countHazard p num).tile p).mat) := by
  have hcount : TileOnly s (s.countHazard p num) p :=
    tileOnly_trans (tileOnly_bump s .MAT_HAZARD_COUNT_COUNT p 1 p) (tileOnly_modMat ..)
  unfold matHazard
  dsimp only
  split
  · exact ⟨tileOnly_refl .., .inl rfl⟩
  · split
    · exact ⟨tileOnly_refl .., .inl rfl⟩
    · split
      · exact ⟨hcount, .inr rfl⟩
      · split
        · exact ⟨tileOnly_trans hcount (tileOnly_noteHazard ..), .inr (mat_of_noteHazard ..)⟩
        · split
          · exact ⟨tileOnly_trans (tileOnly_trans hcount (tileOnly_noteHazard ..)) (tileOnly_haltTile ..),
              .inr ((mat_of_haltTile ..).trans (mat_of_noteHazard ..))⟩
          · exact ⟨tileOnly_trans (tileOnly_trans hcount (tileOnly_noteHazard ..)) (tileOnly_haltTile ..),
              .inr ((mat_of_haltTile ..).trans (mat_of_noteHazard ..))⟩

theorem atTile_matHazard (s : State) (p num kind accRow planeRow plane : Nat) :
    AtTile s (s.matHazard p num kind accRow planeRow plane) p := atTile_of_tileOnly (matHazard_frame ..).1

theorem atTile_accReadHazards (s : State) (p num row col : Nat) : AtTile s (s.accReadHazards p num row col) p := by
  unfold accReadHazards
  dsimp only
  split
  · exact (atTile_ite (atTile_matHazard ..) (AtTile.refl ..)).trans (atTile_matHazard ..)
  · exact atTile_ite (atTile_matHazard ..) (AtTile.refl ..)

theorem atTile_accPut (s : State) (p row col : Nat) (w : AccWrite) : AtTile s (s.accPut p row col w) p := by
  unfold accPut
  dsimp only
  split
  · exact (atTile_modMat ..).trans (atTile_matHazard ..)
  · exact atTile_modMat ..

/-! ### One cycle (R87) -/

theorem atTile_chooseCell (s : State) (p c : Nat) (olds : List (List Byte)) : AtTile s (s.chooseCell p c olds).1 p :=
  atTile_foldl_fst (f := fun y old => (y.1.choose.2, if y.1.choose.1 then old else y.2)) (fun _ _ => ⟨rfl, fun _ _ => rfl⟩)
    olds (s, (s.tile p).cell c)

theorem atTile_matBytes (s : State) (p : Nat) (olds : FMap (List (List Byte))) (a n : Nat) : AtTile s (s.matBytes p olds a n).1 p :=
  (atTile_bump ..).trans (atTile_foldl_fst
    (f := fun y c => ((y.1.chooseCell p c (olds.get [] c)).1, y.2 ++ (y.1.chooseCell p c (olds.get [] c)).2))
    (fun _ _ => atTile_chooseCell ..) _ (s.spadCount p a n, []))

theorem atTile_modMatOp (s : State) (p num : Nat) (g : MatOp → MatOp) : AtTile s (s.modMatOp p num g) p := atTile_modMat ..

theorem atTile_tickLoad (s : State) (p : Nat) (o : MatOp) : AtTile s (s.tickLoad p o) p := by
  unfold tickLoad
  split
  · dsimp only
    split
    · exact AtTile.refl ..
    · refine .trans ?_ (atTile_modMat ..)
      refine .trans ?_ (atTile_fst_ite (.trans (atTile_matBytes ..) (atTile_matBytes ..)) (atTile_matBytes ..))
      refine atTile_forEach (fun s x => ?_) _ s
      split
      · exact atTile_ite (atTile_matHazard ..) (AtTile.refl ..)
      · exact atTile_ite (atTile_matHazard ..) (AtTile.refl ..)
      · exact AtTile.refl ..
  · exact AtTile.refl ..

theorem atTile_zeroRow (s : State) (p row num : Nat) : AtTile s (s.zeroRow p row num) p :=
  atTile_forEach (fun s _ => atTile_accPut s ..) _ s

theorem atTile_spadWrite (s : State) (p a : Nat) (bs : List Byte) : AtTile s (s.spadWrite p a bs) p :=
  (atTile_bump ..).trans (atTile_of_tileOnly (tileOnly_modTile ..))

theorem atTile_tickDrain (s : State) (p : Nat) (o : MatOp) : AtTile s (s.tickDrain p o) p := by
  unfold tickDrain
  dsimp only
  split
  · exact atTile_ite (atTile_zeroRow ..) (AtTile.refl ..)
  · refine (AtTile.trans ?_ (atTile_forEach (fun s w => atTile_forEach (fun s x => atTile_spadWrite s ..) _ s) _ _)).trans
      (atTile_modMatOp ..)
    split
    · exact AtTile.refl ..
    · refine .trans ?_ (atTile_ite (.trans (atTile_modMatOp ..) (atTile_zeroRow ..)) (atTile_modMatOp ..))
      refine .trans ?_ (atTile_fst_ite (atTile_matBytes ..) (AtTile.refl ..))
      exact atTile_forEach (fun s c => atTile_accReadHazards ..) _ s
  · exact AtTile.refl ..

theorem atTile_tickStream (s : State) (p : Nat) (o : MatOp) : AtTile s (s.tickStream p o) p := by
  unfold tickStream
  split
  · dsimp only
    refine (atTile_forEach (fun s i => (atTile_matBytes ..).trans (atTile_modMatOp ..)) _ s).trans
      (atTile_forEach (fun s c => ?_) _ _)
    split
    · exact AtTile.refl ..
    · refine .trans (.trans ?_ (atTile_ite (atTile_bump ..) (AtTile.refl ..))) (atTile_accPut ..)
      exact atTile_ite (atTile_accReadHazards ..) (AtTile.refl ..)
  · exact AtTile.refl ..

/-- A part of a cycle, for each of the instructions of these numbers that is still in flight. -/
def eachOp (p : Nat) (g : State → MatOp → State) (nums : List Nat) (s : State) : State :=
  nums.foldl (fun s n => match (s.tile p).mat.ops.find? (·.num == n) with
    | some o => g s o
    | none => s) s

theorem atTile_eachOp {g : State → MatOp → State} (hg : ∀ s o, AtTile s (g s o) p) (nums : List Nat) (s : State) :
    AtTile s (eachOp p g nums s) p := by
  refine atTile_forEach (fun s n => ?_) nums s
  split
  · exact hg ..
  · exact AtTile.refl ..

/-- A cycle: the drainer, the streamer, then the loader; a busy streamer is counted. -/
theorem matTick_eq (s : State) (p : Nat) : s.matTick p =
    let m := (s.tile p).mat
    let nums := (m.ops.filter (!·.done)).map (·.num)
    let t := eachOp p (·.tickLoad p) nums (eachOp p (·.tickStream p) nums (eachOp p (·.tickDrain p) nums s))
    (if m.now < m.streamerFree then t.bump (if m.streamerGmma then .MAT_GMMA_CYCLES_COUNT else .MAT_STREAM_CYCLES_COUNT) p
      else t).modMat p fun m => { m with now := m.now + 1 } := rfl

theorem atTile_matTick (s : State) (p : Nat) : AtTile s (s.matTick p) p := by
  rw [matTick_eq]
  dsimp only
  refine .trans (.trans ?_ (atTile_ite (atTile_bump ..) (AtTile.refl ..))) (atTile_modMat ..)
  exact ((atTile_eachOp (fun s o => atTile_tickDrain s p o) _ s).trans (atTile_eachOp (fun s o => atTile_tickStream s p o) _ _)).trans
    (atTile_eachOp (fun s o => atTile_tickLoad s p o) _ _)

theorem atTile_matAdvance (p n : Nat) (s : State) : AtTile s (matAdvance p n s) p := by
  induction n generalizing s with
  | zero => exact AtTile.refl s p
  | succ n ih => exact (atTile_matTick s p).trans (ih _)

/-- The cycles that a command names. -/
theorem atTile_matTime (s : State) (p : Nat) (mt : MatTime) : AtTile s (s.matTime p mt) p :=
  (atTile_matAdvance ..).trans (atTile_bump ..)

end State

end Sys2Proof.Machine
end

section
/-!
PROOF. The instructions of the matrix engine as they begin (R86, R89 to R92, R101 to R103), and those that halt their tile
because they break a check (R90, R94, R136, R175).
-/
namespace Sys2Proof.Machine

/-! ### Runs of keys of a map -/

theorem FMap.length_getList {α : Type} (d : α) (m : FMap α) (k n : Nat) : (FMap.getList d m k n).length = n := by
  rw [getList_eq_map, List.length_map, List.length_range]

theorem FMap.getList_add {α : Type} (d : α) (m : FMap α) (k a b : Nat) :
    FMap.getList d m k (a + b) = FMap.getList d m k a ++ FMap.getList d m (k + a) b := by
  simp only [getList_eq_map, List.range_add, List.map_append, List.map_map, Function.comp_def, Nat.add_assoc]

/-- A part of a run is the run of its own keys. -/
theorem FMap.slice_getList {α : Type} (d : α) (m : FMap α) (k : Nat) {n i l : Nat} (h : i + l ≤ n) :
    ((FMap.getList d m k n).drop i).take l = FMap.getList d m (k + i) l := by
  obtain ⟨r, rfl⟩ := Nat.exists_eq_add_of_le h
  rw [Nat.add_assoc, getList_add, getList_add, List.drop_left' (length_getList ..), List.take_left' (length_getList ..)]

/-! ### The engine after a begin (R86) -/

/-- An instruction that begins now, in flight until cycle now + `len`. -/
def Mat.nextOp (m : Mat) (e : Entry) (len : Nat) (work : MatWork) (reads : FMap (List Byte)) (olds : FMap (List (List Byte))) :
    MatOp := ⟨m.nums, m.now, m.now + len, e, work, reads, olds, [], false, false⟩

/-- The engine with an instruction begun: its unit taken, the instruction in flight. -/
def Mat.begun (m : Mat) (e : Entry) (u : MatUnit) (busy len : Nat) (work : MatWork) (reads : FMap (List Byte))
    (olds : FMap (List (List Byte))) : Mat :=
  { (m.occupy u busy false) with
    nums := m.nums + 1, lastBegin := some m.now, headOlds := []
    ops := m.ops ++ [m.nextOp e len work reads olds] }

/-- A plane's tag holds from the cycle that sets it (R90). -/
theorem Mat.tagAt_setTag (m : Mat) {plane : Nat} (hp : plane < 2) (fmt : Nat) (paired : Bool) :
    (m.setTag plane fmt paired).tagAt plane m.now = (fmt, paired) := by
  have hcases : plane = 0 ∨ plane = 1 := by omega
  rcases hcases with rfl | rfl
  · simp [setTag, tagAt]
  · have hnone : ((m.tags.filter (·.2.1 == 0)).take 4).find? (fun e => e.2.1 == 1 && decide (e.1 ≤ m.now)) = none := by
      rw [List.find?_eq_none]
      intro x hx
      have hzero := (List.mem_filter.mp (List.mem_of_mem_take hx)).2
      rw [beq_iff_eq] at hzero
      simp [hzero]
    simp [setTag, tagAt, List.find?_append, hnone]

namespace State

variable {s s₂ s₃ : State} {p op : Nat} {u : MatUnit} {mt : MatTime} {e : Entry}

/-- The head of MATQ that may begin runs its body. -/
theorem beginMat_eq (h : MatHead s p op u mt e s₂) (body : State → Entry → State) : s.beginMat p op u mt body = body s₂ e := by
  obtain ⟨⟨hlive, hhead, hop, hready⟩, hearly, hlast, hfree⟩ := h
  rw [beginMat, hhead]
  dsimp only
  rw [hready]
  simp [hlive, hop, hlast, Nat.not_lt.mpr hearly, Nat.not_lt.mpr hfree]

theorem atTile_of_matHead (h : MatHead s p op u mt e s₂) : AtTile s s₂ p :=
  (atTile_matTime s p mt).trans (atTile_of_tileOnly (tileOnly_of_engineHead h.1))

/-- What a begin changes: the engine as `Mat.begun` says, and the queue, which its head leaves. -/
theorem matBegun_effect (s : State) (p : Nat) (e : Entry) (u : MatUnit) (busy len : Nat) (work : MatWork) (reads : FMap (List Byte))
    (olds : FMap (List (List Byte))) : let t := s.matBegun p e u busy len work reads olds
    TileOnly s t p ∧ (t.tile p).mat = (s.tile p).mat.begun e u busy len work reads olds
      ∧ ((t.tile p).queue 1).held = ((s.tile p).queue 1).held.drop 1 ∧ (t.tile p).spad = (s.tile p).spad := by
  intro t
  have ht : t = (s.dequeue p 1).modMat p fun m => m.begun e u busy len work reads olds := rfl
  have htile : t.tile p = { (s.dequeue p 1).tile p with mat := ((s.dequeue p 1).tile p).mat.begun e u busy len work reads olds } := by
    rw [ht, modMat, tile_modTile_self]
  refine ⟨tileOnly_trans (tileOnly_dequeue ..) (tileOnly_modMat ..), ?_, ?_, ?_⟩
  · rw [htile, apply_dequeue s p 1 (·.mat) fun _ _ => rfl]
  · rw [htile]
    exact held_of_dequeue s p 1
  · rw [htile, apply_dequeue s p 1 (·.spad) fun _ _ => rfl]

/-- A begin after which the engine changes once more, in the same cycle. -/
theorem matBegun_modMat_effect (s : State) (p : Nat) (e : Entry) (u : MatUnit) (busy len : Nat) (work : MatWork)
    (reads : FMap (List Byte)) (olds : FMap (List (List Byte))) (g : Mat → Mat) :
    let t := (s.matBegun p e u busy len work reads olds).modMat p g
    TileOnly s t p ∧ (t.tile p).mat = g ((s.tile p).mat.begun e u busy len work reads olds)
      ∧ ((t.tile p).queue 1).held = ((s.tile p).queue 1).held.drop 1 := by
  obtain ⟨honly, hmat, hheld, -⟩ := matBegun_effect s p e u busy len work reads olds
  refine ⟨tileOnly_trans honly (tileOnly_modMat ..), by rw [mat_of_modMat, hmat], ?_⟩
  rw [← hheld, modMat, tile_modTile_self]
  rfl

/-! ### What each instruction does -/

theorem mldp_begins (h : MatHead s p 1 .loader mt e s₂) (hfits : mldpFits e = true) (hok : mldpOk e = true) :
    let m := (s₂.tile p).mat
    ∃ t o, exec (.mldp p mt) s = .next t ∧ t.mem = s.mem ∧ s.tilesBut t [p] ∧ (t.tile p).mat.loaderFree = m.now + e.ldRows
      ∧ (t.tile p).mat.tagAt e.ldPlane m.now = (e.ldFmt, e.ldPaired) ∧ (t.tile p).mat.ops = m.ops ++ [o]
      ∧ o.start = m.now ∧ o.due = m.now + e.ldRows ∧ o.entry = e ∧ (t.tile p).mat.acc = m.acc ∧ (t.tile p).mat.plane = m.plane
      ∧ ((t.tile p).queue 1).held = ((s₂.tile p).queue 1).held.drop 1 := by
  intro m
  let work := MatWork.mldp e.ldPlane e.ldFirst e.ldRows e.ldPaired (FMap.getList 0 m.tables (16 * e.ldPlane) 16)
  let tag := fun m : Mat => m.setTag e.ldPlane e.ldFmt e.ldPaired
  obtain ⟨honly, hmat, hheld⟩ := matBegun_modMat_effect s₂ p e .loader e.ldRows e.ldRows work [] m.headOlds tag
  have hrun : s.mldp p mt = (s₂.matBegun p e .loader e.ldRows e.ldRows work [] m.headOlds).modMat p tag := by
    rw [mldp, beginMat_eq h, hfits, hok]
    rfl
  have hat := (atTile_of_matHead h).trans (atTile_of_tileOnly honly)
  have hplane : e.ldPlane < 2 := Nat.mod_lt _ (by decide)
  refine ⟨_, m.nextOp e e.ldRows work [] m.headOlds, congrArg Host.Outcome.next hrun, hat.mem, hat.but, ?_⟩
  rw [hmat]
  exact ⟨rfl, Mat.tagAt_setTag _ hplane _ _, rfl, rfl, rfl, rfl, rfl, rfl, hheld⟩

theorem mlut_begins (h : MatHead s p 2 .loader mt e s₂) (hal : e.qSpad (e.f 1 8 0) % 32 = 0)
    (hin : e.qSpad (e.f 1 8 0) + 32 ≤ 3145728) :
    let m := (s₂.tile p).mat
    ∃ t, exec (.mlut p mt) s = .next t ∧ t.mem = s.mem ∧ s.tilesBut t [p] ∧ (t.tile p).mat.loaderFree = m.now + 1
      ∧ (∀ i, i < 16 → (t.tile p).mat.tables.get 0 (16 * e.f 1 9 9 + i) =
          fromLE ((s₂.tile p).spadBytes (e.qSpad (e.f 1 8 0) + 2 * i) 2))
      ∧ (∀ i, ¬ (16 * e.f 1 9 9 ≤ i ∧ i < 16 * e.f 1 9 9 + 16) → (t.tile p).mat.tables.get 0 i = m.tables.get 0 i)
      ∧ (t.tile p).mat.acc = m.acc ∧ (t.tile p).mat.plane = m.plane := by
  intro m
  let src := e.qSpad (e.f 1 8 0)
  let values := (List.range 16).map fun i => fromLE ((((s₂.tile p).spadBytes src 32).drop (2 * i)).take 2)
  let store : Mat → Mat := fun m => { m with tables := FMap.putList 0 m.tables (16 * e.f 1 9 9) values }
  obtain ⟨honly, hmat, -⟩ := matBegun_modMat_effect (s₂.spadCount p src 32) p e .loader 1 1 .mlut [] [] store
  have hrun : s.mlut p mt = ((s₂.spadCount p src 32).matBegun p e .loader 1 1 .mlut [] []).modMat p store := by
    rw [mlut, beginMat_eq h]
    dsimp only
    have hroom : ¬ spadSize < src + 32 := Nat.not_lt.mpr hin
    rw [if_neg hroom, if_neg (not_not.mpr hal)]
    rfl
  have hat := ((atTile_of_matHead h).trans (atTile_bump ..)).trans (atTile_of_tileOnly honly)
  rw [spadCount, tile_bump] at hmat
  have hvalues : values.length = 16 := by simp [values]
  refine ⟨_, congrArg Host.Outcome.next hrun, hat.mem, hat.but, ?_⟩
  rw [spadCount, hmat]
  refine ⟨rfl, fun i hi => ?_, fun i hi => ?_, rfl, rfl⟩
  · have hget : (store (m.begun e .loader 1 1 .mlut [] [])).tables.get 0 (16 * e.f 1 9 9 + i) = values.getD i 0 := by
      refine (FMap.get_putList ..).trans ?_
      rw [if_pos (by omega), Nat.add_sub_cancel_left]
    refine hget.trans ?_
    rw [List.getD_eq_getElem _ _ (by omega), List.getElem_map, List.getElem_range]
    exact congrArg fromLE (FMap.slice_getList 0 (s₂.tile p).spad src (by omega))
  · refine (FMap.get_putList ..).trans ?_
    rw [if_neg (by omega)]
    rfl

theorem mswap_begins (h : MatHead s p 3 .none mt e s₂) :
    let m := (s₂.tile p).mat
    ∃ t, exec (.mswap p mt) s = .next t ∧ t.mem = s.mem ∧ s.tilesBut t [p] ∧ (t.tile p).mat.activeB = !m.activeB
      ∧ (t.tile p).mat.swaps.head? = some m.now ∧ (t.tile p).mat.acc = m.acc ∧ (t.tile p).mat.plane = m.plane
      ∧ (t.tile p).mat.loaderFree = m.loaderFree ∧ (t.tile p).mat.streamerFree = m.streamerFree
      ∧ (t.tile p).mat.drainerFree = m.drainerFree := by
  intro m
  obtain ⟨honly, hmat, -⟩ := matBegun_modMat_effect s₂ p e .none 0 2 .mswap [] [] fun m =>
    { m with activeB := !m.activeB, swaps := (m.now :: m.swaps).take 4 }
  have hrun : s.mswap p mt = _ := beginMat_eq h _
  have hat := (atTile_of_matHead h).trans (atTile_of_tileOnly honly)
  refine ⟨_, congrArg Host.Outcome.next hrun, hat.mem, hat.but, ?_⟩
  rw [hmat]
  exact ⟨rfl, rfl, rfl, rfl, rfl, rfl, rfl⟩

theorem mdly_begins (h : MatHead s p 7 .none mt e s₂) :
    let m := (s₂.tile p).mat
    let n := if e.f 1 15 0 = 0 then 1 else e.f 1 15 0
    ∃ t, exec (.mdly p mt) s = .next t ∧ t.mem = s.mem ∧ s.tilesBut t [p] ∧ (t.tile p).mat.earliest = m.now + n
      ∧ (t.tile p).mat.acc = m.acc ∧ (t.tile p).mat.plane = m.plane := by
  intro m n
  obtain ⟨honly, hmat, -⟩ := matBegun_modMat_effect s₂ p e .none 0 n .mdly [] [] fun m => { m with earliest := m.now + n }
  have hrun : s.mdly p mt = _ := beginMat_eq h _
  have hat := (atTile_of_matHead h).trans (atTile_of_tileOnly honly)
  refine ⟨_, congrArg Host.Outcome.next hrun, hat.mem, hat.but, ?_⟩
  rw [hmat]
  exact ⟨rfl, rfl, rfl⟩

theorem mzero_begins (h : MatHead s p 6 .drainer mt e s₂) :
    let m := (s₂.tile p).mat
    ∃ t o, exec (.mzero p mt) s = .next t ∧ t.mem = s.mem ∧ s.tilesBut t [p] ∧ (t.tile p).mat.drainerFree = m.now + e.drnN
      ∧ (t.tile p).mat.ops = m.ops ++ [o] ∧ o.start = m.now ∧ o.work = .mzero e.drnBase e.drnN ∧ (t.tile p).mat.acc = m.acc := by
  intro m
  obtain ⟨honly, hmat, -⟩ := matBegun_effect s₂ p e .drainer e.drnN (e.drnN + 5) (.mzero e.drnBase e.drnN) [] []
  have hrun : s.mzero p mt = _ := beginMat_eq h _
  have hat := (atTile_of_matHead h).trans (atTile_of_tileOnly honly)
  refine ⟨_, m.nextOp e (e.drnN + 5) (.mzero e.drnBase e.drnN) [] [], congrArg Host.Outcome.next hrun, hat.mem, hat.but, ?_⟩
  rw [hmat]
  exact ⟨rfl, rfl, rfl, rfl, rfl⟩

/-- MDRN with the scales of its columns read, which only counts accesses of the scratchpad. -/
theorem mdrn_eq (h : MatHead s p 5 .drainer mt e s₂) (hfits : mdrnFits e = true) (hok : mdrnOk e = true) :
    ∃ s₃ cols, TileOnly s₂ s₃ p ∧ s₃.tile p = s₂.tile p
      ∧ s.mdrn p mt = s₃.matBegun p e .drainer e.drnN (e.drnN + 8) (.mdrn e.drnBase e.drnN cols) [] [] := by
  rw [mdrn, beginMat_eq h, hfits, hok]
  by_cases hvec : e.drnVec = 2
  · refine ⟨s₂.spadCount p e.drnSvec (4 * e.drnCount),
      bytesWords e.drnCount ((s₂.tile p).spadBytes e.drnSvec (4 * e.drnCount)), tileOnly_bump .., by rw [spadCount, tile_bump], ?_⟩
    rw [if_pos hvec]
    rfl
  · refine ⟨s₂, [], tileOnly_refl .., rfl, ?_⟩
    rw [if_neg hvec]
    rfl

theorem mdrn_begins (h : MatHead s p 5 .drainer mt e s₂) (hfits : mdrnFits e = true) (hok : mdrnOk e = true) :
    let m := (s₂.tile p).mat
    ∃ t o, exec (.mdrn p mt) s = .next t ∧ t.mem = s.mem ∧ s.tilesBut t [p] ∧ (t.tile p).mat.drainerFree = m.now + e.drnN
      ∧ (t.tile p).mat.ops = m.ops ++ [o] ∧ o.start = m.now ∧ o.due = m.now + e.drnN + 8 ∧ (t.tile p).mat.acc = m.acc
      ∧ (t.tile p).spad = (s₂.tile p).spad := by
  intro m
  obtain ⟨s₃, cols, hread, htile, hrun⟩ := mdrn_eq h hfits hok
  obtain ⟨honly, hmat, -, hspad⟩ := matBegun_effect s₃ p e .drainer e.drnN (e.drnN + 8) (.mdrn e.drnBase e.drnN cols) [] []
  have hat := (atTile_of_matHead h).trans (atTile_of_tileOnly (tileOnly_trans hread honly))
  refine ⟨_, m.nextOp e (e.drnN + 8) (.mdrn e.drnBase e.drnN cols) [] [], congrArg Host.Outcome.next hrun, hat.mem, hat.but, ?_⟩
  rw [hmat, hspad, htile]
  exact ⟨rfl, rfl, rfl, (Nat.add_assoc ..).symm, rfl, rfl⟩

/-- What no instruction in flight is a part of, a hazard leaves alone. -/
theorem apply_matHazard {β : Type} (φ : Mat → β) (s : State) (p num kind accRow planeRow plane : Nat)
    (hφ : ∀ m ops, φ { m with ops := ops } = φ m) :
    φ ((s.matHazard p num kind accRow planeRow plane).tile p).mat = φ (s.tile p).mat := by
  obtain ⟨-, h | h⟩ := matHazard_frame s p num kind accRow planeRow plane <;> rw [h]
  rw [countHazard, mat_of_modMat, hφ, tile_bump]

/-- An instruction in flight stays so, marked at most. -/
theorem mem_ops_of_matHazard {o : MatOp} (s : State) (p num kind accRow planeRow plane : Nat) (ho : o ∈ (s.tile p).mat.ops) :
    ∃ b, { o with hazard := b } ∈ ((s.matHazard p num kind accRow planeRow plane).tile p).mat.ops := by
  obtain ⟨-, h | h⟩ := matHazard_frame s p num kind accRow planeRow plane <;> rw [h]
  · exact ⟨o.hazard, ho⟩
  · refine ⟨if o.num = num then true else o.hazard, ?_⟩
    rw [countHazard, mat_of_modMat, tile_bump]
    refine List.mem_map.mpr ⟨o, ho, ?_⟩
    split <;> rfl

theorem mstr_begins (h : MatHead s p 4 .streamer mt e s₂) :
    let m := (s₂.tile p).mat
    let plane := m.activeAt (m.now - 2)
    let tag := m.tagAt plane (m.now - 2)
    let w := passWidth tag.1 e.strFmt
    mstrFits e tag.2 = true → mstrOk e tag.1 tag.2 = true →
    ∃ t o, exec (.mstr p mt .none) s = .next t ∧ t.mem = s.mem ∧ s.tilesBut t [p]
      ∧ (t.tile p).mat.streamerFree = m.now + e.strM * w ∧ (t.tile p).mat.acc = m.acc ∧ (t.tile p).mat.plane = m.plane
      ∧ o ∈ (t.tile p).mat.ops ∧ o.start = m.now ∧ o.due = m.now + (e.strM - 1) * w + 135
      ∧ o.work = .mstr plane tag.1 tag.2 e.strM e.strK w := by
  intro m plane tag w hfits hok
  let work := MatWork.mstr plane tag.1 tag.2 e.strM e.strK w
  let olds := earlyWaves m e (arrayRows e.strK tag.2)
  let b := s₂.matBegun p e .streamer (e.strM * w) ((e.strM - 1) * w + 135) work [] olds
  obtain ⟨honly, hmat, -, -⟩ := matBegun_effect s₂ p e .streamer (e.strM * w) ((e.strM - 1) * w + 135) work [] olds
  have hrun : s.mstr p mt .none = if (m.swaps.any fun c => c + 1 == m.now) = true then b.matHazard p m.nums 3 0 0 plane else b := by
    rw [mstr, beginMat_eq h]
    dsimp only
    rw [hfits, hok]
    rfl
  have hat := (atTile_of_matHead h).trans (atTile_of_tileOnly honly)
  have hin : m.nextOp e ((e.strM - 1) * w + 135) work [] olds ∈ (b.tile p).mat.ops := by
    rw [hmat]
    exact List.mem_append_right m.ops (List.mem_singleton_self _)
  by_cases hshort : (m.swaps.any fun c => c + 1 == m.now) = true
  · rw [if_pos hshort] at hrun
    have hat' := hat.trans (atTile_matHazard b p m.nums 3 0 0 plane)
    obtain ⟨marked, ho⟩ := mem_ops_of_matHazard b p m.nums 3 0 0 plane hin
    refine ⟨_, _, congrArg Host.Outcome.next hrun, hat'.mem, hat'.but, ?_, ?_, ?_, ho, rfl, (Nat.add_assoc ..).symm, rfl⟩
    · rw [apply_matHazard (·.streamerFree) b p _ _ _ _ _ fun _ _ => rfl, hmat]
      rfl
    · rw [apply_matHazard (·.acc) b p _ _ _ _ _ fun _ _ => rfl, hmat]
      rfl
    · rw [apply_matHazard (·.plane) b p _ _ _ _ _ fun _ _ => rfl, hmat]
      rfl
  · rw [if_neg hshort] at hrun
    refine ⟨_, _, congrArg Host.Outcome.next hrun, hat.mem, hat.but, ?_, ?_, ?_, hin, rfl, (Nat.add_assoc ..).symm, rfl⟩
    all_goals
      rw [hmat]
      rfl

/-! ### What halts a tile as it begins (R175, R189) -/

/-- A MAT instruction that breaks a check halts its tile at the address of its push. -/
theorem haltEngine_of_matHead (h : MatHead s p op u mt e s₂) (reason : Nat) : let t := s₂.haltEngine p 1 reason e
    AtTile s t p ∧ HaltedAt t p reason 0 1 e.addr :=
  ⟨(atTile_of_matHead h).trans (atTile_of_tileOnly (tileOnly_haltTile ..)), (haltEngine_of_head h.1 reason).2.2⟩

theorem mldp_breaks (h : MatHead s p 1 .loader mt e s₂) :
    (mldpFits e = false → ∃ t, exec (.mldp p mt) s = .next t ∧ HaltedAt t p 0x0006 0 1 e.addr)
    ∧ (mldpFits e = true → mldpOk e = false → ∃ t, exec (.mldp p mt) s = .next t ∧ HaltedAt t p 0x0007 0 1 e.addr) := by
  refine ⟨fun hfits => ?_, fun hfits hok => ?_⟩
  · have hrun : s.mldp p mt = s₂.haltEngine p 1 rScratchRange e := by
      rw [mldp, beginMat_eq h, hfits]
      rfl
    exact ⟨_, congrArg Host.Outcome.next hrun, (haltEngine_of_matHead h _).2⟩
  · have hrun : s.mldp p mt = s₂.haltEngine p 1 rMatInconsistent e := by
      rw [mldp, beginMat_eq h, hfits, hok]
      rfl
    exact ⟨_, congrArg Host.Outcome.next hrun, (haltEngine_of_matHead h _).2⟩

theorem mstr_of_unloaded (err : TileErr) (h : MatHead s p 4 .streamer mt e s₂) : let m := (s₂.tile p).mat
    let plane := m.activeAt (m.now - 2)
    mstrFits e (m.tagAt plane (m.now - 2)).2 = true → (m.tagAt plane (m.now - 2)).1 = 0 →
    ∃ t, exec (.mstr p mt err) s = .next t ∧ t.mem = s.mem ∧ HaltedAt t p 0x0007 0 1 e.addr := by
  intro m plane hfits htag
  have hok : mstrOk e (m.tagAt plane (m.now - 2)).1 (m.tagAt plane (m.now - 2)).2 = false := by
    rw [mstrOk, htag]
    rfl
  have hrun : s.mstr p mt err = s₂.haltEngine p 1 rMatInconsistent e := by
    rw [mstr, beginMat_eq h]
    dsimp only
    rw [hfits, hok]
    rfl
  obtain ⟨hat, hhalt⟩ := haltEngine_of_matHead h rMatInconsistent
  exact ⟨_, congrArg Host.Outcome.next hrun, hat.mem, hhalt⟩

theorem mdrn_breaks (h : MatHead s p 5 .drainer mt e s₂) :
    (mdrnFits e = false → ∃ t, exec (.mdrn p mt) s = .next t ∧ HaltedAt t p 0x0006 0 1 e.addr)
    ∧ (mdrnFits e = true → mdrnOk e = false → ∃ t, exec (.mdrn p mt) s = .next t ∧ HaltedAt t p 0x0007 0 1 e.addr) := by
  refine ⟨fun hfits => ?_, fun hfits hok => ?_⟩
  · have hrun : s.mdrn p mt = s₂.haltEngine p 1 rScratchRange e := by
      rw [mdrn, beginMat_eq h, hfits]
      rfl
    exact ⟨_, congrArg Host.Outcome.next hrun, (haltEngine_of_matHead h _).2⟩
  · have hrun : s.mdrn p mt = s₂.haltEngine p 1 rMatInconsistent e := by
      rw [mdrn, beginMat_eq h, hfits, hok]
      rfl
    exact ⟨_, congrArg Host.Outcome.next hrun, (haltEngine_of_matHead h _).2⟩

end State

theorem matrixBegins : Clause.MatrixBegins :=
  ⟨fun _ _ _ _ _ h hfits hok => State.mldp_begins h hfits hok, fun _ _ _ _ _ h hal hin => State.mlut_begins h hal hin,
    fun _ _ _ _ _ h => State.mswap_begins h, fun _ _ _ _ _ h => State.mstr_begins h,
    fun _ _ _ _ _ h hfits hok => State.mdrn_begins h hfits hok, fun _ _ _ _ _ h => State.mzero_begins h,
    fun _ _ _ _ _ h => State.mdly_begins h⟩

theorem matrixChecks : Clause.MatrixChecks :=
  ⟨fun _ _ _ _ _ h => State.mldp_breaks h, fun _ _ _ _ _ err h => State.mstr_of_unloaded err h,
    fun _ _ _ _ _ h => State.mdrn_breaks h⟩

/-- Settles O16: each MAT instruction leaves the engine as its begin says; one that breaks a check halts its tile. -/
theorem matrixInstructions : Obligations.MatrixInstructions := ⟨matrixBegins, matrixChecks⟩

end Sys2Proof.Machine
end

section
/-!
PROOF. A plane load (R89, R104): each cycle of an MLDP alone in flight writes one plane row from its source row, and after the
last it completes.
-/
namespace Sys2Proof.Machine

/-! ### Reads of the scratchpad in the cells that hold them (R133) -/

/-- Cells one after another hold the bytes of a run. -/
theorem flatMap_cell_span (t : Tile) (b n : Nat) : (span b n).flatMap t.cell = FMap.getList 0 t.spad (32 * b) (32 * n) := by
  induction n with
  | zero => rfl
  | succ n ih =>
    have hsucc : span b (n + 1) = span b n ++ [b + n] := by simp [span, List.range_succ]
    have hkey : 32 * b + 32 * n = 32 * (b + n) := (Nat.mul_add ..).symm
    rw [hsucc, List.flatMap_append, ih, List.flatMap_singleton, Nat.mul_succ, FMap.getList_add, hkey]
    rfl

/-- The bytes of a run, out of the cells that it touches. -/
theorem slice_spadCells (t : Tile) (a n : Nat) : (((spadCells a n).flatMap t.cell).drop (a % 32)).take n = t.spadBytes a n := by
  rcases Nat.eq_zero_or_pos n with rfl | hn
  · rfl
  · have hstart : 32 * (a / 32) + a % 32 = a := Nat.div_add_mod a 32
    rw [spadCells, if_neg (Nat.pos_iff_ne_zero.mp hn), flatMap_cell_span, FMap.slice_getList 0 t.spad _ (by omega), hstart]
    rfl

namespace State

variable {s : State} {p : Nat}

/-- An instruction whose cells nothing has rewritten reads the bytes that the scratchpad holds. -/
theorem matBytes_current (s : State) (p a n : Nat) : s.matBytes p [] a n = (s.spadCount p a n, (s.tile p).spadBytes a n) := by
  have hcells : ∀ (u : State) (l : List Nat) (bs : List Byte), l.foldl (fun (y : State × List Byte) c =>
      ((y.1.chooseCell p c []).1, y.2 ++ (y.1.chooseCell p c []).2)) (u, bs) = (u, bs ++ l.flatMap (u.tile p).cell) := by
    intro u l
    induction l with
    | nil => intro bs; simp
    | cons c l ih =>
      intro bs
      rw [List.foldl_cons, List.flatMap_cons, ← List.append_assoc]
      exact ih _
  have htile : (s.spadCount p a n).tile p = s.tile p := by rw [spadCount, tile_bump]
  unfold matBytes
  refine (congrArg (fun y : State × List Byte => (y.1, (y.2.drop (a % 32)).take n))
    (hcells (s.spadCount p a n) (spadCells a n) [])).trans ?_
  rw [List.nil_append, slice_spadCells, htile]

end State

/-! ### A cycle of the loader (R89) -/

/-- Value `c` of source row `j` of an MLDP, as stored. -/
def Entry.sourceValue (e : Entry) (t : Tile) (j c : Nat) : Nat :=
  packedValue e.ldStored (t.spadBytes (e.ldSrc + j * e.ldStride) (rowBytes e.ldStored)) c

/-- The engine a cycle later, with source row `j` of an MLDP in plane row `first + j`. -/
def Tile.loadRow (t : Tile) (e : Entry) (plane first j : Nat) : Mat :=
  { t.mat.setPlaneRow plane (first + j) ((List.range 64).map (e.sourceValue t j)) with now := t.mat.now + 1 }

theorem Tile.plane_loadRow (t : Tile) (e : Entry) (plane first j : Nat) {r c : Nat} (hc : c < 64) :
    (t.loadRow e plane first j).plane.get 0 (plane * 4096 + r * 64 + c) =
      if r = first + j then e.sourceValue t j c else t.mat.plane.get 0 (plane * 4096 + r * 64 + c) := by
  have hput := FMap.get_putList 0 ((List.range 64).map (e.sourceValue t j)) t.mat.plane (plane * 4096 + (first + j) * 64)
    (plane * 4096 + r * 64 + c)
  rw [List.length_map, List.length_range] at hput
  refine hput.trans ?_
  by_cases hr : r = first + j
  · subst hr
    rw [if_pos (by omega), if_pos rfl, Nat.add_sub_cancel_left, List.getD_eq_getElem _ _ (by simpa using hc), List.getElem_map,
      List.getElem_range]
  · rw [if_neg (by omega), if_neg hr]

/-- An MLDP of kind 0, not complete, for whose source no cell has been rewritten. -/
structure MatOp.Loads (o : MatOp) (plane first n : Nat) (table : List Nat) : Prop where
  work : o.work = .mldp plane first n false table
  kind : o.entry.ldKind = 0
  olds : o.olds = []
  done : o.done = false

namespace State

variable {s : State} {p : Nat} {o : MatOp} {plane first n : Nat} {table : List Nat}

theorem eachOp_alone (g : State → MatOp → State) (hops : (s.tile p).mat.ops = [o]) : eachOp p g [o.num] s = g s o := by
  simp [eachOp, hops]

theorem tickLoad_alone {j : Nat} (ho : o.Loads plane first n table) (hops : (s.tile p).mat.ops = [o])
    (hnow : (s.tile p).mat.now = o.start + j) (hj : j < n) : s.tickLoad p o =
      (s.spadCount p (o.entry.ldSrc + j * o.entry.ldStride) (rowBytes o.entry.ldStored)).modMat p
        fun m => m.setPlaneRow plane (first + j) ((List.range 64).map (o.entry.sourceValue (s.tile p) j)) := by
  have hcycle : o.start + j - o.start = j := Nat.add_sub_cancel_left ..
  have hrow : ∀ sz v, expand 0 o.entry.ldStored o.entry.ldFmt table sz v = v := fun _ _ => rfl
  rw [tickLoad, ho.work]
  simp only [hnow, hcycle, hops, ho.olds, ho.kind, hrow, matBytes_current, Nat.not_le.mpr hj, if_false, Bool.false_eq_true]
  simp only [List.filter_singleton, Nat.lt_irrefl, decide_false, Bool.false_and, cond_false]
  rfl

/-- A cycle in which an MLDP alone writes source row `j`. -/
theorem tile_matTick_load {j : Nat} (ho : o.Loads plane first n table) (hops : (s.tile p).mat.ops = [o])
    (hnow : (s.tile p).mat.now = o.start + j) (hj : j < n) :
    (s.matTick p).tile p = { s.tile p with mat := (s.tile p).loadRow o.entry plane first j } := by
  have hnums : ((s.tile p).mat.ops.filter (!·.done)).map (·.num) = [o.num] := by simp [hops, ho.done]
  have hdrain : s.tickDrain p o = s := by rw [tickDrain, ho.work]
  have hstream : s.tickStream p o = s := by rw [tickStream, ho.work]
  have hbusy : ∀ (c : Prop) [Decidable c] (u : State) f, (if c then u.bump f p else u).tile p = u.tile p := by
    intro c _ u f
    split
    · rw [tile_bump]
    · rfl
  rw [matTick_eq]
  dsimp only
  rw [hnums, eachOp_alone _ hops, hdrain, eachOp_alone _ hops, hstream, eachOp_alone _ hops, tickLoad_alone ho hops hnow hj, modMat,
    tile_modTile_self, hbusy, modMat, tile_modTile_self, spadCount, tile_bump]
  rfl

/-- Cycles in which an MLDP alone writes source rows `j … j + i - 1`. -/
theorem matAdvance_load (ho : o.Loads plane first n table) (i : Nat) {s : State} {j : Nat} (hops : (s.tile p).mat.ops = [o])
    (hnow : (s.tile p).mat.now = o.start + j) (hij : j + i ≤ n) : let t := (matAdvance p i s).tile p
    t = { s.tile p with mat := t.mat } ∧ t.mat.ops = [o] ∧ t.mat.now = o.start + (j + i) ∧ t.mat.acc = (s.tile p).mat.acc
      ∧ ∀ r c, c < 64 → t.mat.plane.get 0 (plane * 4096 + r * 64 + c) =
          if first + j ≤ r ∧ r < first + j + i then o.entry.sourceValue (s.tile p) (r - first) c
          else (s.tile p).mat.plane.get 0 (plane * 4096 + r * 64 + c) := by
  induction i generalizing s j with
  | zero =>
    refine ⟨rfl, hops, hnow, rfl, fun r c _ => ?_⟩
    rw [if_neg (by omega)]
    rfl
  | succ i ih =>
    have htick := tile_matTick_load ho hops hnow (show j < n by omega)
    have hspad : ((s.matTick p).tile p).spad = (s.tile p).spad := by rw [htick]
    have hops' : ((s.matTick p).tile p).mat.ops = [o] := by rw [htick]; exact hops
    have hnow' : ((s.matTick p).tile p).mat.now = o.start + (j + 1) := by
      rw [htick]
      exact congrArg (· + 1) hnow
    obtain ⟨hframe, hops'', hnow'', hacc, hplane⟩ := ih hops' hnow' (by omega)
    refine ⟨?_, hops'', by rw [matAdvance, hnow'']; omega, ?_, fun r c hc => ?_⟩
    · rw [matAdvance, hframe, htick]
    · rw [matAdvance, hacc, htick]
      rfl
    · have hsource : o.entry.sourceValue ((s.matTick p).tile p) (r - first) c = o.entry.sourceValue (s.tile p) (r - first) c := by
        rw [Entry.sourceValue, Entry.sourceValue, Tile.spadBytes, Tile.spadBytes, hspad]
      rw [matAdvance, hplane r c hc, hsource, htick]
      dsimp only
      rw [Tile.plane_loadRow _ _ _ _ _ hc]
      by_cases hr : r = first + j
      · rw [if_neg (by omega), if_pos hr, if_pos (by omega), hr, Nat.add_sub_cancel_left]
      · rw [if_neg hr]
        exact if_congr (by omega) rfl rfl

/-! ### Completion (R104) -/

theorem atTile_matDone (s : State) (p num : Nat) : AtTile s (s.matDone p num) p := (atTile_modMatOp ..).trans (atTile_modMat ..)

/-- The one instruction in flight leaves it. -/
theorem tile_matDone_alone (hops : (s.tile p).mat.ops = [o]) :
    (s.matDone p o.num).tile p = { s.tile p with mat := { (s.tile p).mat with ops := [] } } := by
  rw [matDone, modMat, tile_modTile_self, modMatOp, modMat, tile_modTile_self]
  simp [Mat.prune, hops]

theorem matComplete_alone {mt : MatTime} (hops : ((s.matTime p mt).tile p).mat.ops = [o]) (hdone : o.done = false)
    (hwork : o.isGmma = false) (hdue : o.due ≤ ((s.matTime p mt).tile p).mat.now) :
    s.matComplete p mt = ((s.matTime p mt).matDone p o.num).raiseEntry p o.entry := by
  have hfirst : ((s.matTime p mt).tile p).mat.firstDue (!·.isGmma) = some o := by simp [Mat.firstDue, hops, hdone, hwork]
  rw [matComplete, matDue, hfirst]
  dsimp only
  rw [if_pos hdue]

end State

theorem planeLoad : Clause.PlaneLoad := by
  intro s p plane first n frozen num table e hkind hops _ _ _ _ _
  let o : MatOp := ⟨num, (s.tile p).mat.now, (s.tile p).mat.now + n, e, .mldp plane first n false table, [], [], [], false, false⟩
  have ho : o.Loads plane first n table := ⟨rfl, hkind, rfl, rfl⟩
  obtain ⟨hframe, hops', hnow, hacc, hplane⟩ := State.matAdvance_load (s := s) (j := 0) ho n hops rfl (by omega)
  have htime : (s.matTime p ⟨n, frozen⟩).tile p = (State.matAdvance p n s).tile p := by rw [State.matTime, State.tile_bump]
  rw [← htime] at hframe hops' hnow hacc hplane
  rw [Nat.zero_add] at hnow
  have hrun : s.engineComplete p .mat ⟨n, frozen⟩ = ((s.matTime p ⟨n, frozen⟩).matDone p num).raiseEntry p e :=
    State.matComplete_alone hops' rfl rfl (Nat.le_of_eq hnow.symm)
  have hat : AtTile s (((s.matTime p ⟨n, frozen⟩).matDone p num).raiseEntry p e) p :=
    ((State.atTile_matTime ..).trans (State.atTile_matDone ..)).trans (State.atTile_of_tileOnly (State.tileOnly_raiseEntry _ p e))
  have hdone := State.tile_matDone_alone (s := s.matTime p ⟨n, frozen⟩) hops'
  refine ⟨_, congrArg Host.Outcome.next hrun, hat.mem, hat.but, ?_⟩
  rw [State.tile_of_raiseEntry, hdone]
  refine ⟨hnow, rfl, hacc, ?_, ?_, fun r c _ hc => ?_⟩
  · dsimp only
    rw [hframe]
  · dsimp only
    rw [hframe]
  · refine (hplane r c hc).trans ?_
    rw [Nat.add_zero]
    rfl

end Sys2Proof.Machine
end

section
/-!
PROOF. The group matrix instruction (R76, R77, R107 to R109): its issue, its begin in the streamer, its results in the registers
of its group.
-/
namespace Sys2Proof.Machine

/-! ### Results in registers (R108) -/

/-- Lane `i` takes results in the first `k` registers from `dest` on; `h` gives each from the old value, the lane and the
column. -/
def Group.laneResults (x : Group) (h : Nat → Nat → Nat → Nat) (dest k i : Nat) : Group :=
  (List.range k).foldl (fun x c => x.setV (dest + c) i (BitVec.ofNat 32 (h (x.vreg (dest + c) i).toNat i c))) x

/-- The first `n` lanes take results. -/
def Group.results (x : Group) (h : Nat → Nat → Nat → Nat) (dest k n : Nat) : Group :=
  (List.range n).foldl (fun x i => x.laneResults h dest k i) x

section
variable (x : Group) (h : Nat → Nat → Nat → Nat) (dest : Nat)

theorem Group.laneResults_succ (k i : Nat) : x.laneResults h dest (k + 1) i =
    (x.laneResults h dest k i).setV (dest + k) i (BitVec.ofNat 32 (h ((x.laneResults h dest k i).vreg (dest + k) i).toNat i k)) := by
  rw [laneResults, List.range_succ, List.foldl_append]
  rfl

theorem Group.results_succ (k n : Nat) : x.results h dest k (n + 1) = (x.results h dest k n).laneResults h dest k n := by
  rw [results, List.range_succ, List.foldl_append]
  rfl

theorem Group.sameButV_laneResults (k i : Nat) : sameButV x (x.laneResults h dest k i) := by
  induction k with
  | zero => rfl
  | succ k ih =>
    rw [laneResults_succ]
    exact sameButV_trans ih (sameButV_setV ..)

theorem Group.sameButV_results (k n : Nat) : sameButV x (x.results h dest k n) := by
  induction n with
  | zero => rfl
  | succ n ih =>
    rw [results_succ]
    exact sameButV_trans ih (sameButV_laneResults ..)

theorem Group.vreg_laneResults (k : Nat) {i : Nat} (hi : i < 32) (r : Nat) {l : Nat} (hl : l < 32) :
    (x.laneResults h dest k i).vreg r l =
      if l = i ∧ dest ≤ r ∧ r < dest + k then BitVec.ofNat 32 (h (x.vreg r l).toNat l (r - dest)) else x.vreg r l := by
  induction k generalizing r l with
  | zero =>
    rw [if_neg (by omega)]
    rfl
  | succ k ih =>
    have hold : (x.laneResults h dest k i).vreg (dest + k) i = x.vreg (dest + k) i := by
      rw [ih _ hi, if_neg (by omega)]
    rw [laneResults_succ, vreg_setV _ _ _ _ hi hl, hold, ih r hl]
    by_cases hr : r = dest + k ∧ l = i
    · obtain ⟨rfl, rfl⟩ := hr
      rw [if_pos ⟨rfl, rfl⟩, if_pos (by omega), Nat.add_sub_cancel_left]
    · rw [if_neg hr]
      exact if_congr (by omega) rfl rfl

/-- Each lane's results stand in its registers; every other register is as it was. -/
theorem Group.vreg_results (k : Nat) {n : Nat} (hn : n ≤ 32) (r : Nat) {l : Nat} (hl : l < 32) :
    (x.results h dest k n).vreg r l =
      if l < n ∧ dest ≤ r ∧ r < dest + k then BitVec.ofNat 32 (h (x.vreg r l).toNat l (r - dest)) else x.vreg r l := by
  induction n with
  | zero =>
    rw [if_neg (by omega)]
    rfl
  | succ n ih =>
    rw [results_succ, vreg_laneResults _ _ _ _ (by omega) _ hl, ih (by omega)]
    by_cases hln : l = n
    · subst hln
      simp
    · rw [if_neg (by omega)]
      exact if_congr (by omega) rfl rfl

end

/-- A GMMA that begins now on a plane of format `fmt`. -/
def Mat.gmmaOp (m : Mat) (w : GmmaWait) (fmt : Nat) : MatOp :=
  m.nextOp ⟨0, w.addr, [], 0⟩ (31 * passWidth fmt w.leftFmt + 129)
    (.gmma w.group w.plane fmt w.half w.k (passWidth fmt w.leftFmt) w.left w.leftFmt w.dest w.accumulate) [] []

/-- The engine with its oldest GMMA begun: the streamer taken, the others still waiting. -/
def Mat.gmmaBegun (m : Mat) (w : GmmaWait) (fmt : Nat) (rest : List GmmaWait) : Mat :=
  { (m.occupy .streamer (32 * passWidth fmt w.leftFmt) true) with
    nums := m.nums + 1, gmmas := rest, ops := m.ops ++ [m.gmmaOp w fmt] }

namespace State

variable {s s₁ : State} {p g : Nat} {x : Group} {f : ThreadFields} {mt : MatTime}

/-! ### Issue (R76, R107) -/

/-- What a GMMA that issues leaves for the array: its left operand is read from its group's registers. -/
def gmmaWait (g : Nat) (x : Group) (f : ThreadFields) : GmmaWait where
  group := g
  addr := x.pc
  plane := b2n (f.modBit 0)
  half := b2n (f.modBit 1)
  k := if f.modBit 2 then 64 else 32
  left := (List.range 32).flatMap fun l =>
    (List.range (gmmaLeft (f.b.toNat % 16))).map fun r => (x.vreg (f.a.toNat + r) l).toNat
  leftFmt := f.b.toNat % 16
  dest := f.d.toNat
  accumulate := f.modBit 3

theorem gmma_eq (h : GroupAt s p g x 7 1 f) : s.gmma p g f =
    if f.b.toNat % 16 < 3 ∨ 8 < f.b.toNat % 16 then s.haltGroup p g rMatInconsistent
    else if x.mask ≠ 2 ^ 32 - 1 then s.haltGroup p g rMatDivergent
    else (s.modMat p fun m => { m with gmmas := m.gmmas ++ [gmmaWait g x f] }).stopFor p g .array := thread_runs s p g _ h

theorem live_of_groupAt {cls op : Nat} (h : GroupAt s p g x cls op f) : (s.tile p).live = true := by
  obtain ⟨-, hissue, -⟩ := h
  simp only [canIssue, Bool.and_eq_true] at hissue
  obtain ⟨⟨⟨⟨⟨hlive, -⟩, -⟩, -⟩, -⟩, -⟩ := hissue
  exact hlive

/-- An instruction of a group that may not issue halts the tile at its address. -/
theorem haltGroup_of_groupAt {cls op : Nat} (h : GroupAt s p g x cls op f) (reason : Nat) : let t := s.haltGroup p g reason
    s.onlyTiles t ∧ HaltedAt t p reason 1 g x.pc := by
  obtain ⟨honly, -, hhalt⟩ := haltTile_of_live (live_of_groupAt h) reason 1 0 g x.pc
  rw [haltGroup, h.1]
  exact ⟨honly, hhalt⟩

theorem group_of_modMat (s : State) (p : Nat) (h : Mat → Mat) (j : Nat) :
    ((s.modMat p h).tile p).group? j = (s.tile p).group? j := by
  rw [modMat, tile_modTile_self]
  rfl

theorem group_of_matDone (s : State) (p num j : Nat) : ((s.matDone p num).tile p).group? j = (s.tile p).group? j := by
  rw [matDone, group_of_modMat, modMatOp, group_of_modMat]

theorem gmma_issues (h : GroupAt s p g x 7 1 f) (hlow : 3 ≤ f.b.toNat % 16) (hhigh : f.b.toNat % 16 ≤ 8)
    (hmask : x.mask = 2 ^ 32 - 1) : ∃ t y, exec (.gmma p g f) s = .next t ∧ TileOnly s t p ∧ (t.tile p).group? g = some y
      ∧ Behind x y ∧ SameRegs x y ∧ y.wait = .array ∧ y.active = false
      ∧ (t.tile p).mat.gmmas = (s.tile p).mat.gmmas ++ [gmmaWait g x f] := by
  have hrun : s.gmma p g f = (s.modMat p fun m => { m with gmmas := m.gmmas ++ [gmmaWait g x f] }).stopFor p g .array := by
    rw [gmma_eq h, if_neg (by omega), if_neg (not_not.mpr hmask)]
  obtain ⟨hbehind, hregs, hactive, hwait, -⟩ := x.issued_stopped (w := .array) (by decide)
  refine ⟨_, _, congrArg Host.Outcome.next hrun, tileOnly_trans (tileOnly_modMat ..) (tileOnly_retire ..), ?_, hbehind, hregs, hwait,
    hactive, ?_⟩
  · exact group_of_retire ((group_of_modMat ..).trans h.1) _
  · rw [apply_stopFor (·.mat.gmmas) _ p g _ fun _ _ => rfl, mat_of_modMat]

/-! ### Begin (R107, R109) -/

/-- The oldest GMMA that waits, its turn come: it begins, or halts its tile where its plane does not suit it. -/
theorem gmmaBegin_eq {w : GmmaWait} {rest : List GmmaWait} (ht : s.matTime p mt = s₁) (hw : (s₁.tile p).mat.gmmas = w :: rest)
    (hlive : (s₁.tile p).live = true) (hfree : (s₁.tile p).mat.streamerFree ≤ (s₁.tile p).mat.now)
    (hfirst : s₁.mstrFirst p = false) {tag : Nat × Bool} (htag : (s₁.tile p).mat.tagAt w.plane (s₁.tile p).mat.now = tag) : s.gmmaBegin p mt =
    if tag.1 = 0 ∨ tag.2 = true ∨ (!pairingOk tag.1 false w.leftFmt) = true
      then s₁.haltTile p rMatInconsistent 1 0 w.group w.addr else s₁.modMat p fun m => m.gmmaBegun w tag.1 rest := by
  subst htag
  rw [gmmaBegin, ht]
  dsimp only
  rw [hw]
  dsimp only
  rw [if_neg (by simp [hlive, hfirst, hfree])]
  rfl

theorem gmma_begins {w : GmmaWait} {rest : List GmmaWait} (ht : s.matTime p mt = s₁) : let m := (s₁.tile p).mat
    let tag := m.tagAt w.plane m.now
    m.gmmas = w :: rest → (s₁.tile p).live = true → m.streamerFree ≤ m.now → s₁.mstrFirst p = false →
    (tag.1 ≠ 0 → tag.2 = false → pairingOk tag.1 false w.leftFmt = true →
      ∃ t o, exec (.gmmaBegin p mt) s = .next t ∧ t.mem = s.mem ∧ s.tilesBut t [p] ∧ (t.tile p).mat.gmmas = rest
        ∧ (t.tile p).mat.streamerFree = m.now + 32 * passWidth tag.1 w.leftFmt ∧ (t.tile p).mat.ops = m.ops ++ [o]
        ∧ o.start = m.now ∧ (t.tile p).mat.acc = m.acc)
    ∧ ((tag.1 = 0 ∨ tag.2 = true) → ∃ t, exec (.gmmaBegin p mt) s = .next t ∧ HaltedAt t p 0x0007 1 w.group w.addr) := by
  intro m tag hw hlive hfree hfirst
  have hrun := gmmaBegin_eq ht hw hlive hfree hfirst (tag := tag) rfl
  refine ⟨fun hloaded hplain hpair => ?_, fun hunfit => ?_⟩
  · rw [if_neg (by simp [hloaded, hplain, hpair])] at hrun
    have hat : AtTile s s₁ p := ht ▸ atTile_matTime s p mt
    have hat' := hat.trans (atTile_modMat s₁ p fun m => m.gmmaBegun w tag.1 rest)
    refine ⟨_, m.gmmaOp w tag.1, congrArg Host.Outcome.next hrun, hat'.mem, hat'.but, ?_⟩
    rw [mat_of_modMat]
    exact ⟨rfl, rfl, rfl, rfl, rfl⟩
  · rw [if_pos (hunfit.imp_right Or.inl)] at hrun
    exact ⟨_, congrArg Host.Outcome.next hrun, (haltTile_of_live hlive ..).2.2⟩

/-! ### Results (R77, R108) -/

theorem gmma_returns {plane fmt half k w leftFmt dest : Nat} {left : List Nat} {acc : Bool} {o : MatOp} (ht : s.matTime p mt = s₁)
    (ho : (s₁.tile p).mat.firstDue (·.isGmma) = some o) (hdue : o.due ≤ (s₁.tile p).mat.now)
    (hwork : o.work = .gmma g plane fmt half k w left leftFmt dest acc) (hg : (s₁.tile p).group? g = some x)
    (hhalt : x.haltPending = false) (hstep : x.stepping = false) :
    ∃ t y, exec (.gmmaResult p mt) s = .next t ∧ t.mem = s.mem ∧ s.tilesBut t [p] ∧ (t.tile p).group? g = some y
      ∧ y.wait = .none ∧ y.pc = x.pc ∧ (∀ r, y.ureg r = x.ureg r) ∧ g ∈ (t.tile p).thr.promo
      ∧ ∀ r i, i < 32 → y.vreg r i = if dest ≤ r ∧ r < dest + k then
          BitVec.ofNat 32 ((s₁.tile p).mat.gmmaElement o.start plane fmt half w left leftFmt acc (x.vreg r i).toNat i (r - dest))
        else x.vreg r i := by
  let h := (s₁.tile p).mat.gmmaElement o.start plane fmt half w left leftFmt acc
  let y := x.results h dest k 32
  let u := (s₁.modGroup p g (·.results h dest k 32)).matDone p o.num
  have hrun : s.gmmaResult p mt = u.wake p g := by
    rw [gmmaResult, matDue, ht]
    dsimp only
    rw [ho]
    dsimp only
    rw [if_pos hdue]
    dsimp only
    rw [hwork]
    rfl
  have hat : AtTile s (u.wake p g) p :=
    ((ht ▸ atTile_matTime s p mt : AtTile s s₁ p).trans (atTile_of_tileOnly (tileOnly_modGroup ..))).trans
      ((atTile_matDone ..).trans (atTile_of_tileOnly (settled_wake u p g).only))
  have hy : (u.tile p).group? g = some y := by
    rw [group_of_matDone, group_of_modGroup, hg]
    rfl
  have hsame : sameButV x y := Group.sameButV_results ..
  have hhalt' : y.haltPending = false := by rw [hsame]; exact hhalt
  have hstep' : y.stepping = false := by rw [hsame]; exact hstep
  obtain ⟨hwoken, hready⟩ := group_of_wake hy hhalt' hstep'
  refine ⟨_, _, congrArg Host.Outcome.next hrun, hat.mem, hat.but, hwoken, rfl, ?_, fun r => ?_, hready, fun r i hi => ?_⟩
  · rw [hsame]
  · rw [hsame]
    rfl
  · refine (Group.vreg_results x h dest k (Nat.le_refl 32) r hi).trans ?_
    simp [hi, h]

end State

theorem groupMatrix : Clause.GroupMatrix := by
  refine ⟨fun s p g x f h hlow hhigh hmask => ?_, fun s p g x f h => ⟨fun hfmt => ?_, fun hlow hhigh hmask => ?_⟩,
    fun s s₁ p mt w rest ht => State.gmma_begins ht,
    fun s s₁ p g plane fmt half k w leftFmt dest left acc mt o x ht ho hdue hwork hg hhalt hstep =>
      State.gmma_returns ht ho hdue hwork hg hhalt hstep⟩
  · obtain ⟨t, y, hrun, honly, hy, hbehind, hregs, hwait, hactive, hgmmas⟩ := State.gmma_issues h hlow hhigh hmask
    exact ⟨t, y, _, hrun, honly, hy, hbehind, hregs, hwait, hactive, hgmmas, rfl, rfl, rfl, rfl, rfl, rfl, rfl, rfl⟩
  · have hrun : s.gmma p g f = s.haltGroup p g rMatInconsistent := by rw [State.gmma_eq h, if_pos hfmt]
    exact ⟨_, congrArg Host.Outcome.next hrun, State.haltGroup_of_groupAt h _⟩
  · have hrun : s.gmma p g f = s.haltGroup p g rMatDivergent := by rw [State.gmma_eq h, if_neg (by omega), if_pos hmask]
    exact ⟨_, congrArg Host.Outcome.next hrun, State.haltGroup_of_groupAt h _⟩

/-- Settles O17: the rows of a plane load by induction on its cycles; a GMMA from its issue to its results. -/
theorem planes : Obligations.Planes := ⟨planeLoad, groupMatrix⟩

end Sys2Proof.Machine
end

section
/-!
PROOF. FP32 instructions and conversions of a thread group (R184, R185): each writes D of the active lanes with a function
of the group's registers and issues.
-/
namespace Sys2Proof.Machine

section

variable {s : State} {p g op : Nat} {x : Group} {f : ThreadFields}

/-! ### Instructions that write one register in the active lanes -/

/-- An instruction that writes D of the active lanes with a function `v` of the registers, which the program counter is
no part of. -/
theorem threadPure_eachLane {cls : Nat} (h : GroupAt s p g x cls op f) (v : Group → Nat → W32)
    (hv : v { x with pc := (x.pc + 8) % 2 ^ 56 } = v x) :
    let t := s.threadPure p g cls op f fun y => y.eachLane f.d.toNat (v y)
    GroupOnly s t p g ∧ GroupNext t p g x (laneWrite x f.d.toNat (v x)) x.ureg := by
  intro t
  have ht : t = s.retire p g fun y => y.eachLane f.d.toNat (v y) := thread_runs s p g _ h
  have hsame (y : Group) : sameButV y (y.eachLane f.d.toNat (v y)) := (eachLane_spec ..).1
  obtain ⟨honly, z, hz, hvreg, hureg, hrest⟩ := retire_spec s p g h.1 (fun y => y.eachLane f.d.toNat (v y)) fun y => by
    rw [hsame]; exact ⟨rfl, rfl, rfl, rfl, rfl, rfl, rfl⟩
  refine ht ▸ ⟨honly, z, hz, fun r l hl => ?_, fun r => ?_, hrest⟩
  · rw [hvreg r l hl, (eachLane_spec ..).2 r l hl, hv]
    rfl
  · rw [hureg, hsame]
    rfl

theorem floatOp_writes (h : GroupAt s p g x 1 op f) (k : Nat → Nat → Nat) :
    GroupOnly s (s.floatOp p g op f k) p g ∧ GroupNext (s.floatOp p g op f k) p g x
      (laneWrite x f.d.toNat fun l => BitVec.ofNat 32 (k (x.vreg f.a.toNat l).toNat (x.float2 f l).toNat)) x.ureg :=
  threadPure_eachLane h (fun y l => BitVec.ofNat 32 (k (y.vreg f.a.toNat l).toNat (y.float2 f l).toNat)) rfl

theorem approxInstr_writes (h : GroupAt s p g x 1 op f) (k : Nat) :
    GroupOnly s (s.approxInstr p g op k f) p g ∧ GroupNext (s.approxInstr p g op k f) p g x
      (laneWrite x f.d.toNat fun l => BitVec.ofNat 32 (approxOp k (x.vreg f.a.toNat l).toNat)) x.ureg :=
  threadPure_eachLane h (fun y l => BitVec.ofNat 32 (approxOp k (y.vreg f.a.toNat l).toNat)) rfl

/-! ### FCMP -/

/-- R190 leaves FCMP the conditions 0 to 3. -/
theorem modHi_of_legal_fcmp {n : Nat} (h : f.legal 1 0x07 n = true) : f.modHi ≤ 3 := by
  simp only [ThreadFields.legal, ThreadFields.names, Names.with, Bool.and_eq_true, decide_eq_true_eq] at h
  omega

theorem fcmpHolds_iff {cond : Nat} (hcond : cond ≤ 3) (a b : Nat) :
    fcmpHolds cond a b = true ↔ (cond = 0 ∧ (f32 a).eq (f32 b) = true) ∨ (cond = 1 ∧ (f32 a).eq (f32 b) = false)
      ∨ (cond = 2 ∧ (f32 a).lt (f32 b) = true) ∨ (cond = 3 ∧ ((f32 a).lt (f32 b) = true ∨ (f32 a).eq (f32 b) = true)) := by
  match cond, hcond with
  | 0, _ | 1, _ | 2, _ | 3, _ => simp [fcmpHolds]

end

/-- Settles O8: each instruction is one write of D in the active lanes; the conditions of a legal FCMP are the four that
`fcmpHolds_iff` lists. -/
theorem floatInstructions : Obligations.FloatInstructions := by
  refine ⟨?_, fun s p g y f h => ?_, fun s p g y f h => ?_, ?_, fun s p g y f h => ?_⟩
  · simp only [List.forall_mem_cons]
    refine ⟨?_, ?_, ?_, ?_, ?_, List.forall_mem_nil _⟩ <;> exact fun s p g y f h => ⟨_, rfl, floatOp_writes h _⟩
  · exact ⟨_, rfl, threadPure_eachLane h (fun y l => BitVec.ofNat 32 (f32Round (((f32 (y.vreg f.a.toNat l).toNat).mul
      (f32 (y.float2 f l).toNat)).add (f32 (y.vreg f.c.toNat l).toNat)))) rfl⟩
  · have hcond : f.modHi ≤ 3 := by
      obtain ⟨-, -, -, -, -, hlegal⟩ := h
      exact modHi_of_legal_fcmp hlegal
    refine ⟨_, rfl, ?_⟩
    have hwrites := floatOp_writes h fun a b => if fcmpHolds f.modHi a b then 1 else 0
    simpa only [fcmpHolds_iff hcond, apply_ite (BitVec.ofNat 32), BitVec.ofNat_eq_ofNat] using hwrites
  · simp only [List.forall_mem_cons]
    refine ⟨?_, ?_, ?_, ?_, List.forall_mem_nil _⟩ <;> exact fun s p g y f h => ⟨_, rfl, approxInstr_writes h _⟩
  · exact ⟨_, rfl, threadPure_eachLane h (fun y l => BitVec.ofNat 32
      (cvtBits (f.imm.toNat % 16) (f.imm.toNat / 16 % 16) (y.vreg f.a.toNat l).toNat)) rfl⟩

end Sys2Proof.Machine
end

section
/-!
PROOF. The codec's frames (R157, R158): a block coded with any base, field width and flip that hold its values decodes to
its bytes, and the compressor's choice is such a one; the header's words tell what the frame holds.
-/
namespace Sys2Proof.Machine

/-! ### Little-endian bytes (R6) -/

theorem fromLE_toLE (n x : Nat) : fromLE (toLE n x) = x % 256 ^ n := by
  induction n generalizing x with
  | zero => simp [toLE, fromLE, Nat.mod_one]
  | succ n ih => rw [toLE, fromLE, ih, BitVec.toNat_ofNat, Nat.pow_succ' (n := n), Nat.mod_mul]

theorem length_wordBytes (ws : List Nat) : (wordBytes ws).length = 4 * ws.length := by
  simp [wordBytes, length_toLE, Nat.mul_comm]

theorem bytesWords_wordBytes (ws : List Nat) : bytesWords ws.length (wordBytes ws) = ws.map (· % 2 ^ 32) := by
  induction ws with
  | nil => rfl
  | cons w ws ih =>
    have hcons : wordBytes (w :: ws) = toLE 4 w ++ wordBytes ws := List.flatMap_cons
    have htail (i : Nat) : (toLE 4 w ++ wordBytes ws).drop (4 * (i + 1)) = (wordBytes ws).drop (4 * i) := by
      rw [Nat.mul_succ, Nat.add_comm, ← List.drop_drop, List.drop_left' (length_toLE 4 w)]
    rw [bytesWords, hcons, List.length_cons, List.range_succ_eq_map, List.map_cons, List.map_map, List.map_cons, ← ih]
    simp only [bytesWords, Function.comp_def, Nat.succ_eq_add_one, htail]
    rw [Nat.mul_zero, List.drop_zero, List.take_left' (length_toLE 4 w), fromLE_toLE, show 256 ^ 4 = 2 ^ 32 by norm_num]

theorem length_fitW (n : Nat) (ws : List Nat) : (fitW n ws).length = n := by
  simp [fitW, rep]
  omega

/-! ### CRC-32C (R157) -/

theorem crcBit_lt {c : Nat} (hc : c < 2 ^ 32) : crcBit c < 2 ^ 32 := by
  unfold crcBit
  split
  · exact Nat.xor_lt_two_pow (by omega) (by norm_num)
  · omega

theorem crcByte_lt {c : Nat} (hc : c < 2 ^ 32) (b : Byte) : crcByte c b < 2 ^ 32 := by
  have hxor : c ^^^ b.toNat < 2 ^ 32 := Nat.xor_lt_two_pow hc (b.isLt.trans (by norm_num))
  exact crcBit_lt <| crcBit_lt <| crcBit_lt <| crcBit_lt <| crcBit_lt <| crcBit_lt <| crcBit_lt <| crcBit_lt hxor

theorem crc32c_lt (bs : List Byte) : crc32c bs < 2 ^ 32 :=
  Nat.xor_lt_two_pow
    (List.foldlRecOn bs crcByte (motive := (· < 2 ^ 32)) (by norm_num) fun _ hc b _ => crcByte_lt hc b) (by norm_num)

/-! ### Values and fields of a block (R158) -/

theorem codecBytes_codecValues (width : Nat) (bs : List Byte) : codecBytes width (codecValues width bs) = bs := by
  unfold codecBytes codecValues
  split
  · induction bs with
    | nil => rfl
    | cons b bs ih => simp [nibbleBytes, ih, Nat.mod_add_div]
  · simp [Function.comp_def]

theorem lt_of_mem_codecValues {width : Nat} (hw : width = 4 ∨ width = 8) {bs : List Byte} {v : Nat}
    (hv : v ∈ codecValues width bs) : v < 2 ^ width := by
  rcases hw with rfl | rfl
  · obtain ⟨b, -, hb⟩ : ∃ b ∈ bs, v = b.toNat % 16 ∨ v = b.toNat / 16 := by simpa [codecValues] using hv
    have := b.isLt
    omega
  · obtain ⟨b, -, rfl⟩ : ∃ b ∈ bs, b.toNat = v := by simpa [codecValues] using hv
    exact b.isLt

theorem length_codecValues {width : Nat} (hw : width = 4 ∨ width = 8) {bs : List Byte} (hbs : bs.length = 64) :
    (codecValues width bs).length = 512 / width := by
  rcases hw with rfl | rfl <;> simp [codecValues, hbs]

theorem codecFlip_lt {width v : Nat} (f : Bool) (hw : width ≠ 0) (hv : v < 2 ^ width) : codecFlip width f v < 2 ^ width := by
  unfold codecFlip
  split
  · exact Nat.xor_lt_two_pow hv (Nat.pow_lt_pow_right (by norm_num) (by omega))
  · exact hv

@[simp] theorem codecFlip_codecFlip (width : Nat) (f : Bool) (v : Nat) : codecFlip width f (codecFlip width f v) = v := by
  cases f <;> simp [codecFlip]

/-- Fields that hold their values are read back from their packing. -/
theorem map_field_packFields {k : Nat} {vs : List Nat} (h : ∀ v ∈ vs, v < 2 ^ k) :
    ((List.range vs.length).map fun i => packFields k vs / 2 ^ (k * i) % 2 ^ k) = vs := by
  induction vs with
  | nil => rfl
  | cons v vs ih =>
    obtain ⟨hv, hvs⟩ := List.forall_mem_cons.mp h
    have hhead : packFields k (v :: vs) % 2 ^ k = v := by rw [packFields, Nat.add_mul_mod_self_left, Nat.mod_eq_of_lt hv]
    have htail : packFields k (v :: vs) / 2 ^ k = packFields k vs := by
      rw [packFields, Nat.add_mul_div_left _ _ (Nat.two_pow_pos k), Nat.div_eq_of_lt hv, Nat.zero_add]
    have hshift (i : Nat) : packFields k (v :: vs) / 2 ^ (k * (i + 1)) = packFields k vs / 2 ^ (k * i) := by
      rw [Nat.mul_succ, Nat.add_comm, Nat.pow_add, ← Nat.div_div_eq_div_mul, htail]
    rw [List.length_cons, List.range_succ_eq_map, List.map_cons, List.map_map, Nat.mul_zero, Nat.pow_zero, Nat.div_one, hhead]
    simp only [Function.comp_def, Nat.succ_eq_add_one, hshift, ih hvs]

theorem packFields_lt {k : Nat} {vs : List Nat} (h : ∀ v ∈ vs, v < 2 ^ k) : packFields k vs < 2 ^ (vs.length * k) := by
  induction vs with
  | nil => simp [packFields]
  | cons v vs ih =>
    obtain ⟨hv, hvs⟩ := List.forall_mem_cons.mp h
    calc packFields k (v :: vs) < 2 ^ k * (packFields k vs + 1) := by rw [packFields]; linarith
      _ ≤ 2 ^ k * 2 ^ (vs.length * k) := Nat.mul_le_mul_left _ (ih hvs)
      _ = 2 ^ ((v :: vs).length * k) := by rw [← Nat.pow_add, List.length_cons, Nat.succ_mul, Nat.add_comm]

/-! ### A block under any choice of base, field width and flip (R158) -/

/-- The bytes of a block's tag. -/
abbrev tagBytes (width : Nat) : Nat := if width = 4 then 1 else 2

/-- The tag of a block of base `b`, field width `k` and flip `f`. -/
def blockTag (width b k : Nat) (f : Bool) : Nat :=
  if width = 4 then b + k * 2 ^ 4 + b2n f * 2 ^ 7 else b + k * 2 ^ 8 + b2n f * 2 ^ 12

/-- The packed fields of a block: what each coded value has above the base. -/
def blockBody (width b k : Nat) (f : Bool) (vs : List Nat) : Nat := packFields k (vs.map fun v => codecFlip width f v - b)

/-- Values as a block of base `b`, field width `k` and flip `f`. -/
def packBlock (width b k : Nat) (f : Bool) (vs : List Nat) : List Byte :=
  toLE (tagBytes width) (blockTag width b k f) ++ toLE (vs.length * k / 8) (blockBody width b k f vs)

/-- A base, a field width and a flip that hold the values: the tag has room for them, and each value reaches from the base
as far as its field does. -/
structure BlockFits (width b k : Nat) (f : Bool) (vs : List Nat) : Prop where
  base : b < 2 ^ width
  field : k ≤ width
  ge_base : ∀ v ∈ vs, b ≤ codecFlip width f v
  lt_field : ∀ v ∈ vs, codecFlip width f v - b < 2 ^ k

section

variable {width b k : Nat} {f : Bool} {vs : List Nat}

theorem blockTag_lt (hw : width = 4 ∨ width = 8) (hb : b < 2 ^ width) (hk : k ≤ width) :
    blockTag width b k f < 256 ^ tagBytes width := by
  rcases hw with rfl | rfl <;> cases f <;> simp [blockTag, b2n] <;> omega

/-- The parts of a tag are read back from it. -/
theorem blockTag_parts (hw : width = 4 ∨ width = 8) (hb : b < 2 ^ width) (hk : k ≤ width) :
    let x := blockTag width b k f
    (if width = 4 then bits x 3 0 else bits x 7 0) = b ∧ (if width = 4 then bits x 6 4 else bits x 11 8) = k
      ∧ (if width = 4 then bit x 7 else bit x 12) = f ∧ (width = 8 → bits x 15 13 = 0) := by
  rcases hw with rfl | rfl <;> cases f <;> simp [blockTag, b2n, bits, bit] <;> omega

theorem length_packBlock (hlen : vs.length = 512 / width) :
    (packBlock width b k f vs).length = tagBytes width + 512 / width * k / 8 := by
  rw [packBlock, List.length_append, length_toLE, length_toLE, hlen]

/-- The fields of a block are whole bytes, and those give the packing back. -/
theorem fromLE_blockBody (hw : width = 4 ∨ width = 8) (hlen : vs.length = 512 / width) (h : BlockFits width b k f vs) :
    fromLE (toLE (vs.length * k / 8) (blockBody width b k f vs)) = blockBody width b k f vs := by
  have hbytes : 8 * (vs.length * k / 8) = vs.length * k := by
    rw [hlen]
    rcases hw with rfl | rfl <;> omega
  have hlt : blockBody width b k f vs < 2 ^ (vs.length * k) :=
    (packFields_lt (List.forall_mem_map.mpr h.lt_field)).trans_eq (by rw [List.length_map])
  rw [fromLE_toLE, show 256 = 2 ^ 8 by norm_num, ← Nat.pow_mul, hbytes, Nat.mod_eq_of_lt hlt]

/-- Base and field give each value's coded form back. -/
theorem map_base_add_field (hlen : vs.length = 512 / width) (h : BlockFits width b k f vs) :
    ((List.range (512 / width)).map fun i => b + blockBody width b k f vs / 2 ^ (k * i) % 2 ^ k)
      = vs.map (codecFlip width f) := by
  have hunpack := map_field_packFields (List.forall_mem_map.mpr h.lt_field)
  rw [List.length_map, hlen] at hunpack
  calc
    _ = ((List.range (512 / width)).map fun i => blockBody width b k f vs / 2 ^ (k * i) % 2 ^ k).map (b + ·) := by
      rw [List.map_map]; rfl
    _ = (vs.map fun v => codecFlip width f v - b).map (b + ·) := congrArg _ hunpack
    _ = vs.map fun v => b + (codecFlip width f v - b) := List.map_map
    _ = vs.map (codecFlip width f) := List.map_congr_left fun v hv => Nat.add_sub_cancel' (h.ge_base v hv)

/-- R159: whoever made a block, it decodes to its values' bytes. -/
theorem decodeBlock_packBlock (hw : width = 4 ∨ width = 8) (hlen : vs.length = 512 / width) (hlt : ∀ v ∈ vs, v < 2 ^ width)
    (h : BlockFits width b k f vs) (rest : List Byte) :
    decodeBlock width (packBlock width b k f vs ++ rest) = some (codecBytes width vs, rest) := by
  obtain ⟨hbase, hwidth, hflip, hzero⟩ := blockTag_parts (f := f) hw h.base h.field
  have hfits : ¬ (packBlock width b k f vs ++ rest).length < tagBytes width + 512 / width * k / 8 := by
    rw [List.length_append, length_packBlock hlen]
    omega
  have hsmall : ∀ v ∈ vs, codecFlip width f v < 2 ^ width := fun v hv => codecFlip_lt f (by omega) (hlt v hv)
  have htag : fromLE ((packBlock width b k f vs ++ rest).take (tagBytes width)) = blockTag width b k f := by
    rw [packBlock, List.append_assoc, List.take_left' (length_toLE ..), fromLE_toLE,
      Nat.mod_eq_of_lt (blockTag_lt hw h.base h.field)]
  have hfields : fromLE (((packBlock width b k f vs ++ rest).drop (tagBytes width)).take (512 / width * k / 8))
      = blockBody width b k f vs := by
    rw [packBlock, List.append_assoc, List.drop_left' (length_toLE ..), List.take_left' (by rw [length_toLE, hlen]),
      fromLE_blockBody hw hlen h]
  have hrest : (packBlock width b k f vs ++ rest).drop (tagBytes width + 512 / width * k / 8) = rest :=
    List.drop_left' (length_packBlock hlen)
  simp only [decodeBlock, htag, hbase, hwidth, hflip, hfields, hrest, map_base_add_field hlen h]
  rw [if_neg (by simp only [hfits, h.field.not_gt]; simpa using ⟨hzero, hsmall⟩)]
  simp [Function.comp_def]

end

/-! ### The compressor's choice (R158) -/

theorem bitsFor_le_iff {n w : Nat} : bitsFor n ≤ w ↔ n < 2 ^ w := by
  unfold bitsFor
  split
  · simp [*]
  · exact Nat.log2_lt ‹_›

/-- A fold that only goes down ends below its start and all it met. -/
theorem foldl_le_of_mem {α : Type} [Preorder α] {op : α → α → α} (hop : ∀ a x, op a x ≤ a ∧ op a x ≤ x) {l : List α} {a x : α}
    (hx : x ∈ a :: l) : l.foldl op a ≤ x := by
  induction l generalizing a x with
  | nil => exact (List.mem_singleton.mp hx).ge
  | cons y l ih =>
    have hnext : l.foldl op (op a y) ≤ op a y := ih List.mem_cons_self
    obtain rfl | hx := List.mem_cons.mp hx
    · exact hnext.trans (hop x y).1
    obtain rfl | hx := List.mem_cons.mp hx
    · exact hnext.trans (hop a x).2
    · exact ih (List.mem_cons_of_mem _ hx)

theorem foldl_min_le {l : List Nat} {x : Nat} (hx : x ∈ l) (a : Nat) : l.foldl Nat.min a ≤ x :=
  foldl_le_of_mem (fun a x => ⟨Nat.min_le_left a x, Nat.min_le_right a x⟩) (List.mem_cons_of_mem a hx)

theorem le_foldl_max {l : List Nat} {x : Nat} (hx : x ∈ l) (a : Nat) : x ≤ l.foldl Nat.max a :=
  foldl_le_of_mem (α := Natᵒᵈ) (op := Nat.max) (fun a x => ⟨Nat.le_max_left a x, Nat.le_max_right a x⟩)
    (List.mem_cons_of_mem a hx)

theorem blockFits_codecFit {width : Nat} {f : Bool} {vs : List Nat} (hw : width ≠ 0) (hvs : vs ≠ [])
    (hlt : ∀ v ∈ vs, v < 2 ^ width) : BlockFits width (codecFit width f vs).1 (codecFit width f vs).2 f vs := by
  have hmem {v : Nat} (hv : v ∈ vs) : codecFlip width f v ∈ vs.map (codecFlip width f) := List.mem_map_of_mem hv
  have hflip : ∀ v ∈ vs.map (codecFlip width f), v < 2 ^ width :=
    List.forall_mem_map.mpr fun v hv => codecFlip_lt f hw (hlt v hv)
  obtain ⟨v₀, hv₀⟩ := List.exists_mem_of_ne_nil vs hvs
  have hmax : (vs.map (codecFlip width f)).foldl Nat.max 0 < 2 ^ width :=
    List.foldlRecOn _ Nat.max (motive := (· < 2 ^ width)) (Nat.two_pow_pos width)
      fun _ ha v hv => max_lt ha (hflip v hv)
  exact {
    base := (foldl_min_le (hmem hv₀) _).trans_lt (hflip _ (hmem hv₀))
    field := bitsFor_le_iff.mpr ((Nat.sub_le _ _).trans_lt hmax)
    ge_base := fun v hv => foldl_min_le (hmem hv) _
    lt_field := fun v hv => (Nat.sub_le_sub_right (le_foldl_max (hmem hv) 0) _).trans_lt (bitsFor_le_iff.mp le_rfl) }

/-- The flip that gives the smaller field width, none on a tie. -/
def blockFlip (width : Nat) (vs : List Nat) : Bool := decide ((codecFit width true vs).2 < (codecFit width false vs).2)

theorem codeBlock_eq_packBlock (width : Nat) (bs : List Byte) :
    let vs := codecValues width bs
    let fit := codecFit width (blockFlip width vs) vs
    codeBlock width bs = packBlock width fit.1 fit.2 (blockFlip width vs) vs := by
  simp only [codeBlock, packBlock, blockBody, blockTag, blockFlip]
  split <;> rfl

section

variable {width : Nat} {bs : List Byte}

theorem blockFits_codeBlock (hw : width = 4 ∨ width = 8) (hbs : bs.length = 64) (f : Bool) :
    let vs := codecValues width bs
    BlockFits width (codecFit width f vs).1 (codecFit width f vs).2 f vs := by
  have hpos : 0 < (codecValues width bs).length := by
    rw [length_codecValues hw hbs]
    rcases hw with rfl | rfl <;> norm_num
  exact blockFits_codecFit (by omega) (List.ne_nil_of_length_pos hpos) fun _ => lt_of_mem_codecValues hw

theorem decodeBlock_codeBlock (hw : width = 4 ∨ width = 8) (hbs : bs.length = 64) (rest : List Byte) :
    decodeBlock width (codeBlock width bs ++ rest) = some (bs, rest) := by
  rw [codeBlock_eq_packBlock, decodeBlock_packBlock hw (length_codecValues hw hbs) (fun _ => lt_of_mem_codecValues hw)
    (blockFits_codeBlock hw hbs _), codecBytes_codecValues]

theorem length_codeBlock_le (hw : width = 4 ∨ width = 8) (hbs : bs.length = 64) : (codeBlock width bs).length ≤ 66 := by
  have hfield := (blockFits_codeBlock hw hbs (blockFlip width (codecValues width bs))).field
  rw [codeBlock_eq_packBlock, length_packBlock (length_codecValues hw hbs)]
  have htag : tagBytes width ≤ 2 := by unfold tagBytes; split <;> omega
  rcases hw with rfl | rfl <;> omega

theorem decodeBlocks_codeBlocks (hw : width = 4 ∨ width = 8) {n : Nat} (hbs : bs.length = 64 * n) :
    decodeBlocks width n (codeBlocks width n bs) = some bs := by
  induction n generalizing bs with
  | zero => simp [codeBlocks, decodeBlocks, List.eq_nil_of_length_eq_zero hbs]
  | succ n ih =>
    have hhead : (bs.take 64).length = 64 := by simp [hbs]
    have htail : (bs.drop 64).length = 64 * n := by simp [hbs, Nat.mul_succ]
    rw [codeBlocks, decodeBlocks, decodeBlock_codeBlock hw hhead]
    simp [ih htail]

theorem length_codeBlocks_le (hw : width = 4 ∨ width = 8) {n : Nat} (hbs : bs.length = 64 * n) :
    (codeBlocks width n bs).length ≤ 66 * n := by
  induction n generalizing bs with
  | zero => simp [codeBlocks]
  | succ n ih =>
    have hhead := length_codeBlock_le hw (bs := bs.take 64) (by simp [hbs])
    have htail := ih (bs := bs.drop 64) (by simp [hbs, Nat.mul_succ])
    rw [codeBlocks, List.length_append]
    omega

end

/-! ### Frames (R157) -/

/-- The words of a frame's header. -/
def headerWords (width orig coded crc : Nat) (tag : List Nat) : List Nat :=
  [0xDC01 + 2 ^ 16 + width * 2 ^ 20, orig, coded % 2 ^ 32, coded / 2 ^ 32, crc, 0, 0, 0] ++ fitW 4 tag ++ [0, 0, 0, 0]

section

variable {width orig coded crc : Nat} {tag : List Nat}

theorem length_headerWords : (headerWords width orig coded crc tag).length = 16 := by
  simp [headerWords, length_fitW]

theorem length_headerBytes : (wordBytes (headerWords width orig coded crc tag)).length = 64 := by
  rw [length_wordBytes, length_headerWords]

/-- The tag words of a frame are its software's; the header tells the rest (R157). -/
theorem frameHeader_headerWords (hw : width = 4 ∨ width = 8) (horig : orig < 2 ^ 32) (hmul : orig % 64 = 0)
    (hcoded : coded < 2 ^ 64) (hcrc : crc < 2 ^ 32) :
    frameHeader (wordBytes (headerWords width orig coded crc tag)) = some (width, orig, coded, crc) := by
  obtain ⟨t₀, t₁, t₂, t₃, htag⟩ : ∃ t₀ t₁ t₂ t₃, fitW 4 tag = [t₀, t₁, t₂, t₃] :=
    List.length_eq_four.mp (length_fitW 4 tag)
  have hread : bytesWords 16 (wordBytes (headerWords width orig coded crc tag))
      = (headerWords width orig coded crc tag).map (· % 2 ^ 32) := by
    rw [← length_headerWords (tag := tag), bytesWords_wordBytes]
  simp only [frameHeader, hread]
  simp only [headerWords, htag]
  rcases hw with rfl | rfl <;> simp [nth, bits] <;> omega

end

theorem codeFrame_eq_headerWords_append (width : Nat) (bs : List Byte) (tag : List Nat) :
    let body := codeBlocks width (bs.length / 64) bs
    codeFrame width bs tag = wordBytes (headerWords width bs.length body.length (crc32c bs) tag) ++ body := rfl

/-- Settles O29: block by block, the fields of a coded block hold its values; the frame's words are read back. -/
theorem codecRoundTrip : Obligations.CodecRoundTrip := by
  intro width n bs tag hw hbs hlt
  have hn : bs.length / 64 = n := by omega
  have hcoded := length_codeBlocks_le hw hbs
  refine ⟨decodeBlocks_codeBlocks hw hbs, hcoded, ?_, ?_⟩
  · rw [codeFrame_eq_headerWords_append, hn, List.take_left' length_headerBytes]
    exact frameHeader_headerWords hw hlt (by omega) (by omega) (crc32c_lt bs)
  · rw [codeFrame_eq_headerWords_append, hn, List.drop_left' length_headerBytes]

end Sys2Proof.Machine
end

section
/-!
PROOF. Barriers (R210 to R213): a root that counts an arrival or publishes its generation to every participant, a YBAR that
sees the publication, and the groups of a block that go on behind their BARB.
-/
namespace Sys2Proof.Machine

/-! ### A tile's own senses (R212) -/

theorem bit_clearBit (x n j : Nat) : bit (clearBit x n) j = (bit x j && decide (j ≠ n)) := by
  rw [clearBit]
  split
  next h =>
    rw [bit_eq_testBit] at h
    have hand : x &&& 2 ^ n = 2 ^ n := by simp [Nat.and_two_pow, h]
    rw [bit_eq_testBit, bit_eq_testBit, ← hand, testBit_sub_and]
    by_cases hj : j = n
    · simp [hj]
    · simp [hj, Ne.symm hj]
  next h => by_cases hj : j = n <;> simp [hj, h]

/-- A number with one bit inverted. -/
def flipBit (x n : Nat) : Nat := if bit x n then clearBit x n else setBit x n

theorem bit_flipBit (x n j : Nat) : bit (flipBit x n) j = if j = n then !bit x j else bit x j := by
  rw [flipBit]
  by_cases hj : j = n
  · subst hj
    cases h : bit x j <;> simp [h, bit_setBit, bit_clearBit]
  · cases h : bit x n <;> simp [hj, bit_setBit, bit_clearBit]

/-! ### A participant as its root publishes (R212) -/

/-- The root of a barrier of tile `p`, which is in `t`. -/
def Tile.barrierRoot (t : Tile) (p scope slot : Nat) : Nat :=
  State.rootKey scope (if scope = 0 then p else if scope = 1 then (t.seq.kernel.map (·.lead)).getD p
    else (t.seq.kernel.map fun k => k.job.ctx).getD 0) slot

/-- Tile `p` after the root `key` has published `code`: a YBAR that waits for it has it at hand. -/
def Tile.published (key scope slot code p : Nat) (t : Tile) : Tile :=
  match t.syn.cur with
  | some (e, .bar sc sl count ids true none dead) =>
    if sc = scope ∧ sl = slot ∧ t.barrierRoot p sc sl = key then
      { t with syn := { t.syn with cur := some (e, .bar sc sl count ids true (some code) dead) } }
    else t
  | _ => t

section
variable {key scope slot code p : Nat} {t : Tile}

theorem Tile.cur_published {e : Entry} {count : Nat} {ids : List Nat} {dead : Bool}
    (hcur : t.syn.cur = some (e, .bar scope slot count ids true none dead)) (hkey : t.barrierRoot p scope slot = key) :
    (t.published key scope slot code p).syn.cur = some (e, .bar scope slot count ids true (some code) dead) := by
  rw [Tile.published, hcur]
  dsimp only
  rw [if_pos ⟨rfl, rfl, hkey⟩]

/-- A second publication of the same generation finds no YBAR that waits for it. -/
theorem Tile.published_published :
    (t.published key scope slot code p).published key scope slot code p = t.published key scope slot code p := by
  by_cases h : ∃ e count ids dead, t.syn.cur = some (e, .bar scope slot count ids true none dead)
      ∧ t.barrierRoot p scope slot = key
  · obtain ⟨e, count, ids, dead, hcur, hkey⟩ := h
    rw [Tile.published, Tile.cur_published hcur hkey]
  · have hself : t.published key scope slot code p = t := by
      unfold Tile.published
      split
      next e sc sl count ids dead hcur =>
        refine if_neg ?_
        rintro ⟨rfl, rfl, hkey⟩
        exact h ⟨e, count, ids, dead, hcur, hkey⟩
      · rfl
    rw [hself, hself]

end

namespace State

variable {s : State} {p : Nat}

theorem rootOf_eq_barrierRoot (s : State) (p scope slot : Nat) :
    s.rootOf p scope slot = (s.tile p).barrierRoot p scope slot := rfl

/-- A root with another record. -/
def setRoot (s : State) (key : Nat) (r : BarRoot) : State := { s with roots := s.roots.put .reset key r }

/-- What a publication does at participant `p`. -/
def seePublication (key scope slot code : Nat) (s : State) (p : Nat) : State :=
  match (s.tile p).syn.cur with
  | some (e, .bar sc sl count ids true none dead) =>
    if sc = scope ∧ sl = slot ∧ s.rootOf p sc sl = key then
      s.modSyn p fun y => { y with cur := some (e, .bar sc sl count ids true (some code) dead) }
    else s
  | _ => s

section
variable (key scope slot code : Nat)

theorem publish_eq (s : State) (who : List Nat) : s.publish key scope slot who code =
    (s.setRoot key ⟨!(s.roots.get BarRoot.reset key).sense, [], 0, 0⟩).forEach who (seePublication key scope slot code) := rfl

theorem onlyTiles_seePublication (s : State) (p : Nat) : s.onlyTiles (seePublication key scope slot code s p) := by
  unfold seePublication
  split
  · split <;> rfl
  · rfl

theorem tile_seePublication (s : State) (p q : Nat) :
    (seePublication key scope slot code s p).tile q = if q = p then (s.tile q).published key scope slot code q else s.tile q := by
  by_cases hq : q = p
  · subst hq
    rw [if_pos rfl, seePublication, Tile.published]
    split
    · rw [rootOf_eq_barrierRoot]
      split
      · rw [modSyn, tile_modTile_self]
      · rfl
    · rfl
  · rw [if_neg hq, seePublication]
    split
    · split
      · exact tile_modTile_other s _ hq
      · rfl
    · rfl

/-- A publication reaches every tile of the list once; that a list names a tile twice changes nothing. -/
theorem tile_forEach_seePublication (l : List Nat) (s : State) (q : Nat) :
    (s.forEach l (seePublication key scope slot code)).tile q
      = if q ∈ l then (s.tile q).published key scope slot code q else s.tile q := by
  induction l generalizing s with
  | nil => rfl
  | cons p l ih =>
    refine (ih _).trans ?_
    rw [tile_seePublication]
    by_cases hq : q = p
    · simp [hq, Tile.published_published]
    · simp [hq]

theorem mem_publish (s : State) (who : List Nat) : (s.publish key scope slot who code).mem = s.mem := by
  rw [publish_eq]
  refine forEach_apply (·.mem) _ fun u q => ?_
  rw [onlyTiles_seePublication key scope slot code u q]

theorem root_publish (s : State) (who : List Nat) : (s.publish key scope slot who code).roots.get .reset key
    = ⟨!(s.roots.get BarRoot.reset key).sense, [], 0, 0⟩ := by
  have hroots : ∀ u : State, (u.forEach who (seePublication key scope slot code)).roots = u.roots := fun u =>
    forEach_apply (·.roots) _ fun v q => by rw [onlyTiles_seePublication key scope slot code v q]
  rw [publish_eq, hroots]
  exact FMap.get_put_self ..

theorem tile_publish (s : State) {who : List Nat} {q : Nat} (hq : q ∈ who) :
    (s.publish key scope slot who code).tile q = (s.tile q).published key scope slot code q := by
  rw [publish_eq, tile_forEach_seePublication, if_pos hq]
  rfl

end

/-! ### BARRIER_ARRIVAL (R211, R213) -/

/-- The YBAR of tile `p` has arrived at its root. -/
def arriveAt (s : State) (p : Nat) (e : Entry) (scope slot count : Nat) (ids : List Nat) : State :=
  s.modSyn p fun y => { y with cur := some (e, .bar scope slot count ids true none false) }

theorem rootOf_arriveAt (s : State) (p q : Nat) (e : Entry) (scope slot count : Nat) (ids : List Nat) (sc sl : Nat) :
    (s.arriveAt p e scope slot count ids).rootOf q sc sl = s.rootOf q sc sl := by
  rw [rootOf, rootOf, leadOf, leadOf, ctxOf, ctxOf, arriveAt, kernel_of_modSyn]

/-- The count of a generation: that of its first arrival. -/
def barrierWant (s : State) (p scope slot count : Nat) : Nat :=
  let r := s.roots.get .reset (s.rootOf p scope slot)
  if scope = 0 then 1 else if scope = 1 then (s.tile p).gangSize else if r.arrived = [] then count else r.count

theorem barrierArrival_eq {e : Entry} {scope slot count : Nat} {ids : List Nat} {r : BarRoot} {want : Nat}
    (hcur : (s.tile p).syn.cur = some (e, .bar scope slot count ids false none false)) (hsettled : s.outstanding ids = [])
    (hr : s.roots.get .reset (s.rootOf p scope slot) = r) (hwant : s.barrierWant p scope slot count = want)
    (hsense : bit (s.tile p).syn.sense (8 * scope + slot) ≠ r.sense) (herror : r.error = 0)
    (hcount : scope < 2 ∨ count = want) :
    s.barrierArrival p = if (r.arrived ++ [p]).length = want
      then (s.arriveAt p e scope slot count ids).publish (s.rootOf p scope slot) scope slot (r.arrived ++ [p]) 0
      else (s.arriveAt p e scope slot count ids).setRoot (s.rootOf p scope slot) ⟨r.sense, r.arrived ++ [p], want, 0⟩ := by
  have hcode : ¬ (2 ≤ scope ∧ count ≠ want) := by omega
  have hsense' : bit ((s.arriveAt p e scope slot count ids).tile p).syn.sense (8 * scope + slot) ≠ r.sense := by
    rwa [arriveAt, syn_of_modSyn]
  have hgang : ((s.arriveAt p e scope slot count ids).tile p).gangSize = (s.tile p).gangSize := by
    rw [arriveAt, Tile.gangSize, kernel_of_modSyn, Tile.gangSize]
  have hwant' : (if scope = 0 then 1
      else if scope = 1 then ((s.arriveAt p e scope slot count ids).tile p).gangSize
      else if r.arrived = [] then count else r.count) = want := by rw [hgang, ← hwant, barrierWant, hr]
  rw [barrierArrival, hcur]
  dsimp only
  rw [if_neg (not_not_intro hsettled), hr]
  refine (if_neg hsense').trans ?_
  rw [← arriveAt, hwant', if_neg (not_not_intro herror), if_neg Bool.false_ne_true, if_neg hcode]
  rfl

/-! ### A YBAR that sees the publication (R212, R215) -/

/-- Tile `p` sees its generation complete: its YBAR is done, its own sense of that barrier inverted. -/
def seeCompletion (s : State) (p : Nat) (e : Entry) (n : Nat) : State :=
  (s.modSyn p fun y => { y with cur := some (e, .done), sense := flipBit y.sense n }).bump .SYN_BARRIERS_COUNT p

theorem tileOnly_seeCompletion (s : State) (p : Nat) (e : Entry) (n : Nat) : TileOnly s (s.seeCompletion p e n) p :=
  tileOnly_trans (tileOnly_modSyn ..) (tileOnly_bump ..)

theorem syn_of_seeCompletion (s : State) (p : Nat) (e : Entry) (n : Nat) : ((s.seeCompletion p e n).tile p).syn
    = { (s.tile p).syn with cur := some (e, .done), sense := flipBit (s.tile p).syn.sense n } := by
  rw [seeCompletion, tile_bump, syn_of_modSyn]

/-- The error flag of a generation is recorded and fails the item. -/
def recordBarError (s : State) (p code : Nat) : State :=
  ((s.setFlag .SYN_STATUS_BAR_ERROR p true).bump .SYN_BAR_ERRORS_COUNT p).failAt (s.itemOf p) code

theorem mem_recordBarError (s : State) (p code : Nat) : (s.recordBarError p code).mem = s.mem := by
  rw [recordBarError, failAt_mem, bump_mem, setFlag_mem]

theorem tile_recordBarError (s : State) (p code : Nat) : (s.recordBarError p code).tile = s.tile := by
  have htiles : (s.recordBarError p code).tiles = s.tiles := by
    rw [recordBarError, tiles_failAt, bump_tiles, setFlag_tiles]
  funext q
  rw [tile, tile, htiles]

theorem fields_failAt (s : State) (it : Option (Nat × Nat × Nat)) (code : Nat) : (s.failAt it code).fields = s.fields := by
  cases it <;> rfl

theorem flag_recordBarError (s : State) (p code : Nat) : (s.recordBarError p code).flag .SYN_STATUS_BAR_ERROR p = true := by
  have hbump : ((s.setFlag .SYN_STATUS_BAR_ERROR p true).bump .SYN_BAR_ERRORS_COUNT p).f .SYN_STATUS_BAR_ERROR p = 1 := by
    rw [f_bump_other _ _ (by simp) fun w k b h => by cases h; simp, f_setFlag_self]
    rfl
  rw [flag, f, recordBarError, fields_failAt, ← f, hbump]
  rfl

theorem publicationReceive_ybar {e : Entry} {scope slot count code : Nat} {ids : List Nat} {dead : Bool}
    (hcur : (s.tile p).syn.cur = some (e, .bar scope slot count ids true (some code) dead)) :
    s.publicationReceive p .ybar = if code = 0 then s.seeCompletion p e (8 * scope + slot)
      else (s.seeCompletion p e (8 * scope + slot)).recordBarError p code := by
  rw [publicationReceive, hcur]
  rfl

/-! ### A BARB whose groups have all arrived (R210) -/

/-- The groups of a list, on which the debugger has no request, have become ready in its order; the other groups, the blocks and
all that is no tile are as they were. -/
structure WentOn (s t : State) (p : Nat) (gs : List Nat) : Prop where
  only : s.onlyTiles t
  but : s.tilesBut t [p]
  block : ∀ b, (t.tile p).block? b = (s.tile p).block? b
  promo : (t.tile p).thr.promo = (s.tile p).thr.promo ++ gs
  waits : ∀ g ∈ gs, ∃ x, (t.tile p).group? g = some x ∧ x.wait = .none
  others : ∀ j ∉ gs, (t.tile p).group? j = (s.tile p).group? j

theorem wentOn_wake {g : Nat} {x : Group} (hg : (s.tile p).group? g = some x) (hhalt : x.haltPending = false)
    (hstep : x.stepping = false) : WentOn s (s.wake p g) p [g] where
  only := by rw [wake_eq hg hhalt hstep]; rfl
  but := (settled_wake s p g).only.2
  block b := by
    rw [wake_eq hg hhalt hstep, Tile.block?, thr_of_modThr]
    exact apply_modGroup s p g (·.block? b) _ fun _ _ => rfl
  promo := by
    rw [wake_eq hg hhalt hstep, thr_of_modThr, apply_modGroup s p g (·.thr.promo) _ fun _ _ => rfl]
  waits j hj := by
    rw [List.mem_singleton.mp hj]
    exact ⟨_, (group_of_wake hg hhalt hstep).1, rfl⟩
  others j hj := group_of_wake_other s p (by simpa using hj)

theorem WentOn.trans {s t u : State} {p g : Nat} {gs : List Nat} (h : WentOn s t p [g]) (h' : WentOn t u p gs) (hg : g ∉ gs) :
    WentOn s u p (g :: gs) where
  only := onlyTiles_trans h.only h'.only
  but q hq := (h'.but q hq).trans (h.but q hq)
  block b := (h'.block b).trans (h.block b)
  promo := by rw [h'.promo, h.promo, List.append_assoc, List.singleton_append]
  waits j hj := by
    rcases List.mem_cons.mp hj with rfl | hj
    · rw [h'.others _ hg]
      exact h.waits _ (List.mem_singleton_self _)
    · exact h'.waits j hj
  others j hj := by
    rw [List.mem_cons, not_or] at hj
    rw [h'.others j hj.2, h.others j (by simpa using hj.1)]

theorem wentOn_forEach_wake (gs : List Nat) (s : State) (hn : gs.Nodup)
    (hfree : ∀ g ∈ gs, ∃ x, (s.tile p).group? g = some x ∧ x.haltPending = false ∧ x.stepping = false) :
    WentOn s (s.forEach gs fun s g => s.wake p g) p gs := by
  induction gs generalizing s with
  | nil =>
    exact ⟨rfl, fun _ _ => rfl, fun _ => rfl, (List.append_nil _).symm, fun _ h => absurd h List.not_mem_nil, fun _ _ => rfl⟩
  | cons g gs ih =>
    rw [List.nodup_cons] at hn
    obtain ⟨x, hx, hhalt, hstep⟩ := hfree g (List.mem_cons_self ..)
    refine (wentOn_wake hx hhalt hstep).trans (ih (s.wake p g) hn.2 fun j hj => ?_) hn.1
    rw [group_of_wake_other s p (ne_of_mem_of_not_mem hj hn.1)]
    exact hfree j (List.mem_cons_of_mem _ hj)

theorem barbReceive_eq {b : Nat} {y : Block} (hy : (s.tile p).block? b = some y) (hne : y.groups ≠ [])
    (hall : ∀ g ∈ y.groups, g ∈ y.arrived) : s.barbReceive p b
      = (s.modTile p (·.modBlock b fun y => { y with arrived := [] })).forEach y.groups fun s g => s.wake p g := by
  rw [barbReceive, hy]
  exact if_pos ⟨hne, by simpa using hall⟩

end State

/-- An arrival is counted at its root or, at the generation's count, completes it at every participant; a YBAR sees the
completion, and a BARB's groups go on. -/
theorem barriers : Clause.Barriers := by
  refine ⟨?arrives, ?sees, ?goesOn⟩
  case arrives =>
    intro s p scope slot count ids e hcur hsettled key r hsense herror want hcount
    have hrun := State.barrierArrival_eq (r := r) (want := want) hcur hsettled rfl rfl hsense herror hcount
    have hlen : (r.arrived ++ [p]).length = r.arrived.length + 1 := List.length_append
    have hat : ((s.arriveAt p e scope slot count ids).tile p).syn.cur = some (e, .bar scope slot count ids true none false) := by
      rw [State.arriveAt, State.syn_of_modSyn]
    have hbut : s.tilesBut (s.arriveAt p e scope slot count ids) [p] := (State.tileOnly_modSyn ..).2
    refine ⟨fun hne => ?_, fun heq => ?_⟩
    · rw [if_neg (hlen ▸ hne)] at hrun
      exact ⟨_, congrArg Host.Outcome.next hrun, rfl, hbut, FMap.get_put_self .., hat⟩
    · rw [if_pos (hlen.trans heq)] at hrun
      refine ⟨_, congrArg Host.Outcome.next hrun, State.mem_publish .., State.root_publish .., ?_,
        fun q hq e' count' ids' dead hq' hkey hne => ?_⟩
      · rw [State.tile_publish _ _ _ _ _ (List.mem_append_right _ (List.mem_singleton_self p))]
        exact Tile.cur_published hat (by rw [← State.rootOf_eq_barrierRoot, State.rootOf_arriveAt])
      · rw [State.tile_publish _ _ _ _ _ (List.mem_append_left _ hq), hbut q (by simpa using hne)]
        exact Tile.cur_published hq' hkey
  case sees =>
    intro s p scope slot count code ids dead e _ _ hcur
    have hrun := State.publicationReceive_ybar hcur
    have hsyn := State.syn_of_seeCompletion s p e (8 * scope + slot)
    have honly := State.tileOnly_seeCompletion s p e (8 * scope + slot)
    refine ⟨_, congrArg Host.Outcome.next hrun, ?_⟩
    split
    next hcode =>
      refine ⟨State.mem_of_tileOnly honly, honly.2, by rw [hsyn], fun n => by rw [hsyn, bit_flipBit], fun h => absurd hcode h,
        fun _ => ?_⟩
      rw [honly.1]
    next hcode =>
      rw [State.tilesBut]
      simp only [State.tile_recordBarError]
      exact ⟨(State.mem_recordBarError ..).trans (State.mem_of_tileOnly honly), honly.2, by rw [hsyn],
        fun n => by rw [hsyn, bit_flipBit], fun _ => State.flag_recordBarError .., fun h => absurd h hcode⟩
  case goesOn =>
    intro s p b y hy hne hn hgroups
    have hrun := State.barbReceive_eq hy hne fun g hg => (hgroups g hg).1
    have h := State.wentOn_forEach_wake (p := p) y.groups (s.modTile p (·.modBlock b fun y => { y with arrived := [] })) hn
      fun g hg => by rw [State.group_of_modBlock]; exact (hgroups g hg).2
    refine ⟨_, congrArg Host.Outcome.next hrun, State.onlyTiles_trans (State.onlyTiles_modTile ..) h.only,
      fun q hq => (h.but q hq).trans ((State.tileOnly_modTile ..).2 q hq), ?_, ?_, h.waits⟩
    · rw [h.block, State.tile_modTile_self, Tile.block?_modBlock_self, hy]
      rfl
    · rw [h.promo, State.tile_modTile_self]
      rfl

end Sys2Proof.Machine
end

section
/-!
PROOF. Fences (R217 to R219): signals applied in ascending order of value leave each slot at the greatest of its value and
those signalled to it; a YFWAIT or a descriptor whose fence has reached its value goes on.
-/
namespace Sys2Proof.Machine

/-! ### Signals in ascending order of value (R217) -/

theorem insertSig_perm (x : FenceSig) (l : List FenceSig) : (insertSig x l).Perm (x :: l) := by
  induction l with
  | nil => exact .refl _
  | cons y l ih =>
    rw [insertSig]
    split
    · exact .refl _
    · exact (ih.cons y).trans (.swap x y l)

theorem foldl_insertSig_perm (l acc : List FenceSig) : (l.foldl (fun l x => insertSig x l) acc).Perm (l ++ acc) := by
  induction l generalizing acc with
  | nil => exact .refl _
  | cons x l ih => exact (ih _).trans (((insertSig_perm x acc).append_left l).trans List.perm_middle)

/-- The greatest of a slot's value `v` and the values that signals carry to the slot. -/
def raised (slot : Nat) (l : List FenceSig) (v : Nat) : Nat :=
  (l.filter fun x => x.slot == slot).foldl (fun v x => max v x.value) v

/-- The order of the signals makes no difference to the greatest value. -/
theorem raised_perm {slot : Nat} {l l' : List FenceSig} (h : l.Perm l') (v : Nat) : raised slot l v = raised slot l' v :=
  (h.filter _).foldl_eq' (fun x _ y _ v => by omega) v

namespace State

variable {s : State}

/-! ### One signal (R217) -/

/-- What a signal may change: the fences, the error records, the ports and the counters. -/
def onlyFences (s t : State) : Prop := t = { s with fences := t.fences, cp := t.cp, chl := t.chl, fields := t.fields }

theorem onlyFences_trans {t u : State} (h : s.onlyFences t) (h' : t.onlyFences u) : s.onlyFences u := by
  rw [onlyFences] at h h' ⊢
  rw [h', h]

theorem onlyFences_of_onlyCpFields {t : State} (h : s.onlyCpFields t) : s.onlyFences t := by
  rw [onlyCpFields] at h
  rw [onlyFences, h]

theorem onlyCpFields_errRec (s : State) (kind : Nat) (ctx : Option Nat) (words : List Nat) :
    s.onlyCpFields (s.errRec kind ctx words) := by
  unfold errRec
  split
  · rfl
  · exact onlyCpFields_trans (onlyCpFields_modCp ..) (onlyCpFields_bump ..)

/-- A signal that does not raise its slot is counted, and recorded where that is asked for. -/
def regress (s : State) (x : FenceSig) : State :=
  let v := s.fences.get 0 x.slot
  (s.bump .FEN_REGRESS_COUNT).when (s.flag .FEN_SETUP_LOG_REGRESS) fun s =>
    s.errRec 2 none [x.slot + x.source * 2 ^ 16, x.unit, v % 2 ^ 32, v / 2 ^ 32, x.value % 2 ^ 32, x.value / 2 ^ 32]

theorem onlyCpFields_regress (s : State) (x : FenceSig) : s.onlyCpFields (s.regress x) := by
  unfold regress when
  dsimp only
  split
  · exact onlyCpFields_trans (onlyCpFields_bump ..) (onlyCpFields_errRec ..)
  · exact onlyCpFields_bump ..

/-- A slot with another value. -/
def setFence (s : State) (slot v : Nat) : State := { s with fences := s.fences.put 0 slot v }

/-- A signal raises its slot or is a regression. -/
def raiseFence (s : State) (x : FenceSig) : State :=
  if s.fences.get 0 x.slot < x.value then (s.setFence x.slot x.value).bump .FEN_SIGNALS_COUNT else s.regress x

theorem applyFence_eq (s : State) (x : FenceSig) : s.applyFence x = match x.reply with
    | some (port, tag) => (s.raiseFence x).sendMsg port .rsp (Msg.header 0x20 tag 0)
    | none => s.raiseFence x := rfl

theorem onlyFences_raiseFence (s : State) (x : FenceSig) : s.onlyFences (s.raiseFence x) := by
  unfold raiseFence
  split
  · exact onlyFences_trans (t := s.setFence x.slot x.value) rfl (onlyFences_of_onlyCpFields (onlyCpFields_bump ..))
  · exact onlyFences_of_onlyCpFields (onlyCpFields_regress ..)

/-- The answer to a host's store changes a port alone. -/
theorem onlyFences_applyFence (s : State) (x : FenceSig) : s.onlyFences (s.applyFence x) := by
  rw [applyFence_eq]
  split
  · refine onlyFences_trans (onlyFences_raiseFence s x) ?_
    rw [sendMsg_frame]
    rfl
  · exact onlyFences_raiseFence s x

theorem get_fences_raiseFence (s : State) (x : FenceSig) (slot : Nat) : (s.raiseFence x).fences.get 0 slot
    = if x.slot = slot then max (s.fences.get 0 slot) x.value else s.fences.get 0 slot := by
  unfold raiseFence
  split
  next h =>
    rw [bump_fences, setFence, FMap.get_put]
    by_cases hslot : x.slot = slot
    · subst hslot
      rw [if_pos rfl, if_pos rfl, Nat.max_eq_right h.le]
    · rw [if_neg (Ne.symm hslot), if_neg hslot]
  next h =>
    rw [onlyCpFields_regress s x]
    by_cases hslot : x.slot = slot
    · subst hslot
      rw [if_pos rfl, Nat.max_eq_left (Nat.le_of_not_lt h)]
    · rw [if_neg hslot]

theorem get_fences_applyFence (s : State) (x : FenceSig) (slot : Nat) :
    (s.applyFence x).fences.get 0 slot = raised slot [x] (s.fences.get 0 slot) := by
  have hraise : (s.applyFence x).fences = (s.raiseFence x).fences := by
    rw [applyFence_eq]
    split
    · rw [sendMsg_frame]
    · rfl
  rw [hraise, get_fences_raiseFence]
  by_cases h : x.slot = slot <;> simp [raised, h]

/-! ### FENCE_SIGNAL (R217) -/

theorem get_fences_forEach_applyFence (l : List FenceSig) (s : State) (slot : Nat) :
    (s.forEach l applyFence).fences.get 0 slot = raised slot l (s.fences.get 0 slot) := by
  induction l generalizing s with
  | nil => rfl
  | cons x l ih =>
    refine (ih _).trans ?_
    rw [get_fences_applyFence]
    by_cases h : x.slot = slot <;> simp [raised, h]

theorem onlyFences_forEach_applyFence (l : List FenceSig) (s : State) : s.onlyFences (s.forEach l applyFence) := by
  induction l generalizing s with
  | nil => rfl
  | cons x l ih => exact onlyFences_trans (onlyFences_applyFence s x) (ih _)

theorem get_fences_fenceSignal (s : State) (n slot : Nat) :
    (s.fenceSignal n).fences.get 0 slot = raised slot (s.fenceQueue.take n) (s.fences.get 0 slot) := by
  have hperm : ((s.fenceQueue.take n).foldl (fun l x => insertSig x l) []).Perm (s.fenceQueue.take n) := by
    simpa using foldl_insertSig_perm (s.fenceQueue.take n) []
  rw [fenceSignal, get_fences_forEach_applyFence, raised_perm hperm]

/-- But for the queue, which loses its oldest signals, nothing else changes. -/
theorem onlyFences_fenceSignal (s : State) (n : Nat) :
    ({ s with fenceQueue := s.fenceQueue.drop n }).onlyFences (s.fenceSignal n) := onlyFences_forEach_applyFence ..

/-! ### FENCE_WAIT_SATISFIED (R219) -/

theorem fenceSatisfied_tile {p slot value : Nat} {e : Entry} (hcur : (s.tile p).syn.cur = some (e, .fwait slot value)) :
    s.fenceSatisfied (.tile p) = if value ≤ s.fences.get 0 slot
      then s.modSyn p fun y => { y with cur := some (e, .done) } else s := by
  rw [fenceSatisfied, hcur]

theorem fenceSatisfied_descriptor {q n : Nat} {d : Desc} (hd : s.desc? q n = some d) (hwait : d.waitEn = true)
    (hformed : d.malformed = false) (hclean : d.poisoned = false) (hvalue : d.q64 4 ≤ s.fences.get 0 (bits (d.w 2) 15 0)) :
    s.fenceSatisfied (.descriptor q n) = s.modDesc q n fun d => { d with waitDone := true } := by
  rw [fenceSatisfied, hd]
  exact if_pos (by simp [hwait, hformed, hclean, hvalue])

end State

/-- Signals leave each slot at the greatest value; a wait goes on once its fence has reached its value, and not before. -/
theorem fences : Clause.Fences := by
  refine ⟨fun s n _ => ?_, fun s p slot value e hcur => ?_, fun s q n d hd hwait hformed hclean hvalue => ?_⟩
  · have h := State.onlyFences_fenceSignal s n
    exact ⟨_, rfl, by rw [h], by rw [h], by rw [h], State.get_fences_fenceSignal s n⟩
  · have hrun := State.fenceSatisfied_tile hcur
    refine ⟨fun hle => ?_, fun hlt => ?_⟩
    · rw [if_pos hle] at hrun
      exact ⟨_, congrArg Host.Outcome.next hrun, State.onlyTiles_modSyn .., (State.tileOnly_modSyn ..).2, by
        rw [State.syn_of_modSyn]⟩
    · rw [if_neg (Nat.not_le.mpr hlt)] at hrun
      exact congrArg Host.Outcome.next hrun
  · have hrun := State.fenceSatisfied_descriptor hd hwait hformed hclean hvalue
    refine ⟨_, congrArg Host.Outcome.next hrun, rfl, rfl, rfl, ?_⟩
    rw [State.desc?_modDesc, hd]
    rfl

/-- Settles O20: an arrival and a publication at the tiles they reach; fence signals by the greatest value of each slot. -/
theorem barriersAndFences : Obligations.BarriersAndFences := ⟨barriers, fences⟩

end Sys2Proof.Machine
end

section
/-!
PROOF. Accesses of the stack controllers (R67, R186, R227 to R231): what the controller does with the errors of a read touches
neither memory nor tiles, and of the eyespots its line's alone; a masked write and an atomic store what they name.
-/
namespace Sys2Proof.Machine

/-! ### The operations of R186 on words -/

theorem fromLE_lt (bs : List Byte) : fromLE bs < 2 ^ (8 * bs.length) := by
  induction bs with
  | nil => simp [fromLE]
  | cons b bs ih =>
    have hb := b.isLt
    rw [fromLE, List.length_cons, Nat.mul_succ, Nat.pow_add]
    omega

/-- The signed reading that `atomicOp` takes of a number is that of the word. -/
theorem toInt_eq_signed {w : Nat} (hw : 0 < w) (x : BitVec w) :
    (if x.toNat < 2 ^ w / 2 then (x.toNat : Int) else (x.toNat : Int) - (2 ^ w : Nat)) = x.toInt := by
  obtain ⟨w, rfl⟩ := Nat.exists_eq_succ_of_ne_zero hw.ne'
  rw [BitVec.toInt_eq_toNat_cond, Nat.pow_succ]
  split <;> split <;> omega

/-- `atomicOp` on the values of words gives the value of the operation's result. -/
theorem atomicOp_toNat {w op : Nat} (hw : 0 < w) (hop : op < 10) (x y z : BitVec w) :
    atomicOp op w x.toNat y.toNat z.toNat = (atomicResult w op x y z).toNat := by
  have hx := toInt_eq_signed hw x
  have hy := toInt_eq_signed hw y
  interval_cases op <;> simp only [atomicOp, atomicResult]
  · exact (BitVec.toNat_add ..).symm
  · simp only [hx, hy, apply_ite BitVec.toNat]
  · simp only [hx, hy, apply_ite BitVec.toNat]
  · simp only [apply_ite BitVec.toNat]
  · simp only [apply_ite BitVec.toNat]
  · exact (BitVec.toNat_and ..).symm
  · exact (BitVec.toNat_or ..).symm
  · exact (BitVec.toNat_xor ..).symm
  · simp only [BitVec.toNat_inj, apply_ite BitVec.toNat]

namespace State

variable {s t : State}

/-! ### What the upkeep of a stack changes (R227, R229, R235, R387) -/

/-- Nothing differs but register fields and the own state of the stack controllers, the dies and the management processor. -/
def onlyUpkeep (s t : State) : Prop := t = { s with mgt := t.mgt, fields := t.fields, dies := t.dies, hbm := t.hbm }

theorem onlyUpkeep_trans {u : State} (h : s.onlyUpkeep t) (h' : t.onlyUpkeep u) : s.onlyUpkeep u := by
  rw [onlyUpkeep] at h h' ⊢
  rw [h', h]

theorem onlyUpkeep_of_onlyFields (h : s.onlyFields t) : s.onlyUpkeep t := by
  rw [onlyFields] at h
  rw [onlyUpkeep, h]

theorem onlyUpkeep_bump (s : State) (c : Fld) (i n : Nat) : s.onlyUpkeep (s.bump c i n) :=
  onlyUpkeep_of_onlyFields (bump_onlyFields ..)

theorem onlyUpkeep_modMgt (s : State) (g : Mgt → Mgt) : s.onlyUpkeep (s.modMgt g) := rfl
theorem onlyUpkeep_modStack (s : State) (k : Nat) (g : Stack → Stack) : s.onlyUpkeep (s.modStack k g) := rfl

theorem tiles_of_onlyUpkeep (h : s.onlyUpkeep t) : t.tiles = s.tiles := by rw [h]
theorem mem_of_onlyUpkeep (h : s.onlyUpkeep t) : t.mem = s.mem := by rw [h]
theorem eye_of_onlyUpkeep (h : s.onlyUpkeep t) : t.eye = s.eye := by rw [h]; rfl

theorem onlyUpkeep_log (s : State) (kind : Nat) (r : Bool) (src : Nat) (b : List Nat) :
    s.onlyUpkeep (s.log kind r src b) := by
  unfold log
  split
  · rfl
  · split
    · rfl
    · exact onlyUpkeep_trans (onlyUpkeep_modMgt ..) (onlyUpkeep_bump ..)

theorem onlyUpkeep_rowCandidate (s : State) (k line cause : Nat) : s.onlyUpkeep (s.rowCandidate k line cause) := by
  unfold rowCandidate
  dsimp only
  split
  · rfl
  · split
    · rfl
    · exact onlyUpkeep_log ..

theorem onlyUpkeep_correctLine (s : State) (line : Nat) : s.onlyUpkeep (s.correctLine line) := by
  unfold correctLine
  dsimp only
  split
  · exact onlyUpkeep_trans (onlyUpkeep_trans (onlyUpkeep_bump ..) (onlyUpkeep_modStack ..)) (onlyUpkeep_rowCandidate ..)
  · exact onlyUpkeep_trans (onlyUpkeep_bump ..) (onlyUpkeep_modStack ..)

/-- A line found uncorrectable carries an eyespot; the rest is upkeep. -/
theorem onlyUpkeep_markLine (s : State) (line : Nat) : (s.setEye line true).onlyUpkeep (s.markLine line) := by
  unfold markLine
  dsimp only
  refine onlyUpkeep_trans (onlyUpkeep_bump _ .HBM_UE_COUNT (line / 2 ^ 30) 1) (onlyUpkeep_trans ?_ (onlyUpkeep_rowCandidate ..))
  split <;> rfl

theorem tiles_meetErr (s : State) (line : Nat) (err : CellErr) : (s.meetErr line err).tiles = s.tiles := by
  cases err <;> rw [meetErr]
  case correctable =>
    split
    · rfl
    · exact tiles_of_onlyUpkeep (onlyUpkeep_correctLine ..)
  case uncorrectable =>
    split
    · rfl
    · rw [tiles_of_onlyUpkeep (onlyUpkeep_markLine ..), setEye_tiles]

/-- Errors met on a line mark it where one of them is uncorrectable, and no other line. -/
theorem eye_meetErr (s : State) (line : Nat) (err : CellErr) (j : Nat) :
    (s.meetErr line err).eye j = if j = line then s.eye line || err == .uncorrectable else s.eye j := by
  have hkept : s.eye j = if j = line then s.eye line || false else s.eye j := by
    rw [Bool.or_false]
    split
    · next h => rw [h]
    · rfl
  cases err <;> rw [meetErr]
  case none => exact hkept
  case correctable =>
    split
    · exact hkept
    · rw [eye_of_onlyUpkeep (onlyUpkeep_correctLine ..)]
      exact hkept
  case uncorrectable =>
    have herr : (CellErr.uncorrectable == CellErr.uncorrectable) = true := rfl
    rw [herr, Bool.or_true]
    by_cases hj : j = line
    · rw [if_pos hj, hj]
      split
      · assumption
      · rw [eye_of_onlyUpkeep (onlyUpkeep_markLine ..), eye_setEye_self]
    · rw [if_neg hj]
      split
      · rfl
      · rw [eye_of_onlyUpkeep (onlyUpkeep_markLine ..), eye_setEye_other _ _ hj]

/-! ### A read of a line (R227, R229) -/

@[simp] theorem eye_bump (s : State) (c : Fld) (i n : Nat) : (s.bump c i n).eye = s.eye :=
  eye_of_onlyUpkeep (onlyUpkeep_bump ..)

@[simp] theorem eye_modStack (s : State) (k : Nat) (g : Stack → Stack) : (s.modStack k g).eye = s.eye := rfl

theorem memBytes_congr (h : t.mem = s.mem) (c n : Nat) : t.memBytes c n = s.memBytes c n := by rw [memBytes, memBytes, h]

theorem eye_readLine (s : State) (line : Nat) (err : CellErr) (j : Nat) : (s.readLine line err).1.eye j
    = if j = line then s.eye line || err == .uncorrectable else s.eye j := by
  have hmet := eye_meetErr (s.bump .HBM_READS_COUNT (line / 2 ^ 30)) line err j
  rw [eye_bump] at hmet
  rw [readLine, when]
  dsimp only
  split
  · rw [eye_bump, hmet]
  · exact hmet

/-- A read in which the controller may meet errors leaves the tiles alone. -/
theorem tiles_readLine_err (s : State) (line : Nat) (err : CellErr) : (s.readLine line err).1.tiles = s.tiles := by
  rw [readLine, when]
  dsimp only
  split <;> simp [tiles_meetErr]

/-- A read answers the bytes of its line and whether the line then carries an eyespot. -/
theorem readLine_answer (s : State) (line : Nat) (err : CellErr) :
    (s.readLine line err).2 = (s.memBytes (line * 64) 64, (s.readLine line err).1.eye line) :=
  congrArg (·, _) (memBytes_congr (readLine_mem ..) ..)

theorem stackRead_eq {k line : Nat} (err : CellErr) (odecc : Nat) (hk : s.stackPresent k = true) (hl : line < 2 ^ 30)
    (hs : s.serves (k * 2 ^ 36) = true) :
    let r := (s.bump .HBM_ODECC_COUNT k odecc).readLine (k * 2 ^ 30 + line) err
    s.stackRead k line err odecc = r.1.modStack k fun st => { st with reply := some r.2 } :=
  if_pos (by simp only [hk, hs, hl, decide_true, Bool.and_self])

/-! ### A masked write of a line (R231) -/

theorem stackWrite_eq {k line : Nat} (mask : Nat) (bs : List Byte) (err : CellErr) (hk : s.stackPresent k = true)
    (hl : line < 2 ^ 30) (hs : s.serves (k * 2 ^ 36) = true) :
    s.stackWrite k line mask bs err = s.writeMasked (k * 2 ^ 30 + line) mask bs err :=
  if_pos (by simp only [hk, hs, hl, decide_true, Bool.and_self])

/-- A write of the full line clears its eyespot; no other write changes an eyespot. -/
theorem eye_writeMasked (s : State) (line mask : Nat) {bs : List Byte} (hbs : bs.length = 64) (j : Nat) :
    (s.writeMasked line mask bs .none).eye j = if j = line ∧ mask = 2 ^ 64 - 1 then false else s.eye j := by
  by_cases hmask : mask = 2 ^ 64 - 1
  · have hrun : s.writeMasked line mask bs .none
        = ((s.bump .HBM_WRITES_COUNT (line / 2 ^ 30)).setEye line false).putBytes (line * 64) bs := by
      rw [writeMasked, if_pos hmask, fit_of_length hbs, writeLine]
      exact if_pos hbs
    have heye : (s.writeMasked line mask bs .none).eye j
        = ((s.bump .HBM_WRITES_COUNT (line / 2 ^ 30)).setEye line false).eye j := by rw [hrun]; rfl
    rw [heye]
    by_cases hj : j = line
    · rw [if_pos ⟨hj, hmask⟩, hj, eye_setEye_self]
    · rw [if_neg fun h => hj h.1, eye_setEye_other _ _ hj, eye_bump]
  · have hrun : s.writeMasked line mask bs .none
        = (s.bump .HBM_WRITES_COUNT (line / 2 ^ 30)).writeRuns line bs (maskRuns 64 0 mask) := by
      rw [writeMasked, if_neg hmask, fit_of_length hbs]
      rfl
    rw [if_neg fun h => hmask h.2, hrun, eye, apply_writeRuns State.eyes _ line bs _ fun _ _ _ => rfl, bump_eyes, eye]

/-! ### An atomic at its home (R67, R186, R230) -/

theorem stackAtomic_eq {k off op : Nat} {wide : Bool} (a b : Nat) (err : CellErr) (hk : s.stackPresent k = true)
    (ho : off < 2 ^ 36) (hs : s.serves (k * 2 ^ 36) = true) (hoff : off % (if wide then 8 else 4) = 0) (hop : op < 10) :
    let r := s.atomicAt (k * 2 ^ 36 + off) op wide a b err
    s.stackAtomic k off op wide a b err
      = r.1.modStack k fun st => { st with reply := some (toLE (if wide then 8 else 4) r.2.1, r.2.2) } := by
  exact if_pos (by simp only [hk, hs, ho, hop, hoff, decide_true, beq_self_eq_true, Bool.and_self])

/-- An atomic at a line with an eyespot is a read. -/
theorem atomicAt_of_eye (s : State) {c : Nat} (op : Nat) (wide : Bool) (a b : Nat) (heye : s.eye (c / 64) = true) :
    s.atomicAt c op wide a b .none = ((s.readLine (c / 64) .none).1, 0, true) := by
  have hp : (s.readLine (c / 64) .none).2.2 = true := by
    rw [readLine_answer, eye_readLine, if_pos rfl, heye]
    rfl
  rw [atomicAt]
  exact if_pos hp

/-- The value that an atomic leaves is what its operation gives. -/
theorem fromLE_toLE_atomicOp (s : State) (c : Nat) {n op : Nat} (hn : 0 < n) (hop : op < 10) (a b : W64) :
    let old := fromLE (s.memBytes c n)
    fromLE (toLE n (atomicOp op (8 * n) old (a.toNat % 2 ^ (8 * n)) (b.toNat % 2 ^ (8 * n))))
      = (atomicResult (8 * n) op (BitVec.ofNat (8 * n) old) (a.setWidth (8 * n)) (b.setWidth (8 * n))).toNat := by
  intro old
  have hlen : (s.memBytes c n).length = n := by rw [memBytes, FMap.getList_eq_map, List.length_map, List.length_range]
  have hold : (BitVec.ofNat (8 * n) old).toNat = old := by
    have hlt := fromLE_lt (s.memBytes c n)
    rw [hlen] at hlt
    rw [BitVec.toNat_ofNat, Nat.mod_eq_of_lt hlt]
  have hpow : 256 ^ n = 2 ^ (8 * n) := by rw [Nat.pow_mul]
  rw [← atomicOp_toNat (by omega) hop, hold, BitVec.toNat_setWidth, BitVec.toNat_setWidth, fromLE_toLE, hpow,
    Nat.mod_eq_of_lt]
  have hres := atomicOp_toNat (by omega : 0 < 8 * n) hop (BitVec.ofNat (8 * n) old) (a.setWidth (8 * n)) (b.setWidth (8 * n))
  rw [hold, BitVec.toNat_setWidth, BitVec.toNat_setWidth] at hres
  rw [hres]
  exact BitVec.isLt _

theorem stackAtomic_plain {k off : Nat} {op : Nat} {wide : Bool} (a b : W64) (hk : s.stackPresent k = true)
    (ho : off < 2 ^ 36) (hs : s.serves (k * 2 ^ 36) = true) (hoff : off % (if wide then 8 else 4) = 0) (hop : op < 10)
    (heye : s.eye ((k * 2 ^ 36 + off) / 64) = false) :
    let n := if wide then 8 else 4
    let c := k * 2 ^ 36 + off
    let old := fromLE (s.memBytes c n)
    let t := s.stackAtomic k off op wide a.toNat b.toNat .none
    t.tiles = s.tiles ∧ s.memBut t c n
      ∧ fromLE (t.memBytes c n) = (atomicResult (8 * n) op (BitVec.ofNat (8 * n) old) (a.setWidth (8 * n))
          (b.setWidth (8 * n))).toNat
      ∧ (t.stack k).reply = some (toLE n old, false) ∧ ∀ j, t.eye j = s.eye j := by
  intro n c old t
  obtain ⟨u, hu, hat⟩ := s.atomicAt_eq c op wide a.toNat b.toNat heye
  let v := atomicOp op (8 * n) old (a.toNat % 2 ^ (8 * n)) (b.toNat % 2 ^ (8 * n))
  have ht : t = (u.putBytes c (toLE n v)).modStack k fun st => { st with reply := some (toLE n old, false) } := by
    simp only [t]
    rw [stackAtomic_eq _ _ _ hk ho hs hoff hop, hat]
  have hbytes : t.memBytes c n = toLE n v := by
    have hself := FMap.getList_putList_self memDefault u.mem c (toLE n v)
    rw [length_toLE] at hself
    rw [ht]
    exact hself
  refine ⟨by rw [ht]; exact hu.tiles, fun x hx => ?_, ?_, by rw [ht, stack_modStack_self], fun j => ?_⟩
  · have hput : t.memByte x = (u.putBytes c (toLE n v)).memByte x := by rw [ht]; rfl
    rw [hput, memByte_putBytes, length_toLE, if_neg hx, memByte_congr hu.mem]
  · rw [hbytes]
    exact s.fromLE_toLE_atomicOp c (by simp only [n]; split <;> decide) hop a b
  · have heyes : t.eyes = u.eyes := by rw [ht]; rfl
    rw [eye, heyes, hu.eyes, eye]

theorem stackAtomic_marked {k off : Nat} {op : Nat} {wide : Bool} (a b : Nat) (hk : s.stackPresent k = true)
    (ho : off < 2 ^ 36) (hs : s.serves (k * 2 ^ 36) = true) (hoff : off % (if wide then 8 else 4) = 0) (hop : op < 10)
    (heye : s.eye ((k * 2 ^ 36 + off) / 64) = true) :
    let t := s.stackAtomic k off op wide a b .none
    t.mem = s.mem ∧ (t.stack k).reply = some (toLE (if wide then 8 else 4) 0, true) := by
  intro t
  have ht : t = (s.readLine ((k * 2 ^ 36 + off) / 64) .none).1.modStack k fun st =>
      { st with reply := some (toLE (if wide then 8 else 4) 0, true) } := by
    simp only [t]
    rw [stackAtomic_eq _ _ _ hk ho hs hoff hop, atomicAt_of_eye _ _ _ _ _ heye]
  rw [ht]
  exact ⟨readLine_mem .., by rw [stack_modStack_self]⟩

end State

/-- A read answers its line and changes no byte; a write stores exactly the bytes of its mask. -/
theorem stackReadsAndWrites : Clause.StackReadsAndWrites := by
  refine ⟨fun s k line odecc err hk hl hs => ?_, fun s k line mask data hk hl hs hdata => ?_⟩
  · intro l
    let u := s.bump .HBM_ODECC_COUNT k odecc
    have heye := u.eye_readLine l err
    have hu : u.eye = s.eye := State.eye_bump ..
    rw [hu] at heye
    refine ⟨_, congrArg Host.Outcome.next (State.stackRead_eq err odecc hk hl hs), ?_, ?_, ?_, ?_, fun j hj => ?_⟩
    · exact (u.readLine_mem l err).trans (s.bump_mem ..)
    · exact (u.tiles_readLine_err l err).trans (s.bump_tiles ..)
    · rw [State.stack_modStack_self, State.readLine_answer, State.eye_modStack, State.memBytes_congr (s.bump_mem ..)]
    · exact (heye l).trans (if_pos rfl)
    · exact (heye j).trans (if_neg hj)
  · intro l
    obtain ⟨htiles, -, hin, hout⟩ := s.writeMasked_effect l mask.toNat hdata
    have heye := s.eye_writeMasked l mask.toNat hdata
    have hfull : mask.toNat = 2 ^ 64 - 1 ↔ mask = BitVec.allOnes 64 := by
      rw [← BitVec.toNat_inj, BitVec.toNat_allOnes]
    refine ⟨_, congrArg Host.Outcome.next (State.stackWrite_eq mask.toNat data .none hk hl hs), htiles, fun i hi => ?_,
      fun a ha => hout a fun h => ha h.1, ?_, fun j hj => (heye j).trans (if_neg fun h => hj h.1)⟩
    · have hdiv : (64 * l + i) / 64 = l := by omega
      have hmod : (64 * l + i) % 64 = i := by omega
      have hbit : bit mask.toNat ((64 * l + i) % 64) = mask.getLsbD i := by rw [hmod]; exact bit_eq_testBit ..
      split
      · next h => rw [hin _ ⟨hdiv, hbit.trans h⟩, hmod]; rfl
      · next h => exact hout _ fun ⟨_, h'⟩ => h (hbit.symm.trans h')
    · rw [heye]
      by_cases hmask : mask = BitVec.allOnes 64
      · rw [if_pos ⟨rfl, hfull.mpr hmask⟩, hmask]
        simp
      · rw [if_neg fun h => hmask (hfull.mp h.2), bne_iff_ne.mpr hmask, Bool.and_true]

/-- An atomic performs its operation on a line without an eyespot and leaves one with an eyespot as it is. -/
theorem stackAtomics : Clause.StackAtomics := fun _ _ _ _ _ a b hk ho hs hoff hop =>
  ⟨fun heye => ⟨_, rfl, State.stackAtomic_plain a b hk ho hs hoff hop heye⟩,
    fun heye => ⟨_, rfl, State.stackAtomic_marked a.toNat b.toNat hk ho hs hoff hop heye⟩⟩

/-- Settles O21: a read, a masked write and an atomic at a stack that is present and serves. -/
theorem stackAccesses : Obligations.StackAccesses := ⟨stackReadsAndWrites, stackAtomics⟩

end Sys2Proof.Machine
end

section
/-!
PROOF. Health of the stacks (R228, R233, R236, R239 to R241): a scrub read, readings of a stack's temperature and what a trip
leaves, the end of a row copy, and the host reads of a refetch, which its 64 requests leave queued in order.
-/
namespace Sys2Proof.Machine

namespace State

variable {s t u : State}

/-! ### The scrub (R228) -/

theorem scrubRead_eq {k : Nat} (err : CellErr) (hk : s.stackPresent k = true) (hours : s.f .HBM_SETUP_SCRUB_HOURS k ≠ 0)
    (hs : s.serves (k * 2 ^ 36) = true) :
    let l := (s.stack k).scrub
    s.scrubRead k err = ((s.bump .HBM_READS_COUNT k).meetErr (k * 2 ^ 30 + l) err).modStack k fun st =>
      { st with scrub := (l + 1) % 2 ^ 30, rowCe := if l + 1 = 2 ^ 30 then [] else st.rowCe } :=
  if_pos (by simp only [hk, hs, bne_iff_ne.mpr hours, Bool.and_self])

/-! ### Log records and the levels of dies (R375, R387) -/

/-- Counting leaves a field alone that is neither the counter nor its wrap bit's. -/
theorem f_bump_of_wrap {c w x : Fld} {i j b : Nat} (hw : c.wrap i = some (w, j, b)) (hc : x ≠ c) (hx : x ≠ w) (s : State)
    (n k : Nat) : (s.bump c i n).f x k = s.f x k := by
  refine f_bump_other s n (fun e => hc (Prod.mk.inj e).1) fun w' j' b' h => ?_
  rw [hw] at h
  cases h
  exact fun e => hx (Prod.mk.inj e).1

/-- Setting a field leaves every other one alone, of whatever unit. -/
theorem f_setF_of_ne {x y : Fld} (h : y ≠ x) (s : State) (i v j : Nat) : (s.setF x i v).f y j = s.f y j :=
  f_setF_other s v fun e => h (Prod.mk.inj e).1

/-- What a log record and a step of a die's level leave alone: all but the management processor, the dies and register
fields, and of these the status of the stacks. -/
structure StacksKept (s t : State) : Prop where
  only : t = { s with mgt := t.mgt, fields := t.fields, dies := t.dies }
  status : ∀ x i, x.info.reg = .HBM_STATUS → t.f x i = s.f x i

theorem StacksKept.trans (h : StacksKept s t) (h' : StacksKept t u) : StacksKept s u :=
  ⟨by rw [h'.only, h.only], fun x i hx => (h'.status x i hx).trans (h.status x i hx)⟩

theorem StacksKept.onlyUpkeep (h : StacksKept s t) : s.onlyUpkeep t := by
  rw [State.onlyUpkeep, h.only]

theorem StacksKept.hbm (h : StacksKept s t) : t.hbm = s.hbm := by rw [h.only]

theorem StacksKept.stack (h : StacksKept s t) (k : Nat) : t.stack k = s.stack k := by rw [State.stack, h.hbm, State.stack]

theorem stacksKept_modMgt (s : State) (g : Mgt → Mgt) : StacksKept s (s.modMgt g) := ⟨rfl, fun _ _ _ => rfl⟩
theorem stacksKept_modDie (s : State) (d : Nat) (g : Die → Die) : StacksKept s (s.modDie d g) := ⟨rfl, fun _ _ _ => rfl⟩

theorem stacksKept_bump {c w : Fld} {i j b : Nat} (hw : c.wrap i = some (w, j, b)) (hc : c.info.reg ≠ .HBM_STATUS)
    (hwc : w.info.reg ≠ .HBM_STATUS) (s : State) (n : Nat) : StacksKept s (s.bump c i n) where
  only := by
    have h : s.onlyFields (s.bump c i n) := bump_onlyFields ..
    rw [onlyFields] at h
    rw [h]
  status x k hx := f_bump_of_wrap hw (fun e => hc (e ▸ hx)) (fun e => hwc (e ▸ hx)) s n k

theorem stacksKept_log (s : State) (kind : Nat) (r : Bool) (src : Nat) (b : List Nat) : StacksKept s (s.log kind r src b) := by
  unfold log
  split
  · exact stacksKept_modMgt ..
  · split
    · exact stacksKept_modMgt ..
    · exact (stacksKept_modMgt ..).trans (stacksKept_bump rfl (by decide) (by decide) ..)

theorem stacksKept_setLevel (s : State) (d l ceiling cs : Nat) : StacksKept s (s.setLevel d l ceiling cs) := by
  have hstep : StacksKept s ((s.modDie d fun x => { x with level := l }).bump .MGT_THROTTLE_STEPS_COUNT) :=
    (stacksKept_modDie ..).trans (stacksKept_bump rfl (by decide) (by decide) ..)
  unfold setLevel
  dsimp only
  split
  · exact ⟨rfl, fun _ _ _ => rfl⟩
  · split
    · exact (hstep.trans (stacksKept_log ..)).trans (stacksKept_modMgt ..)
    · split
      · exact (hstep.trans (stacksKept_log ..)).trans (stacksKept_modMgt ..)
      · exact hstep

/-! ### Trips (R240) -/

/-- A stack that trips shows it, be it for the first time or again; all else of the stacks is as it was. -/
theorem stacksKept_tripStack (s : State) (k : Nat) : StacksKept (s.setFlag .HBM_STATUS_TRIPPED k true) (s.tripStack k) := by
  unfold tripStack
  dsimp only
  split
  · next htrip =>
    refine ⟨rfl, fun x i _ => ?_⟩
    by_cases hx : (x, i) = (Fld.HBM_STATUS_TRIPPED, k)
    · cases hx
      rw [f_setFlag_self]
      exact beq_iff_eq.mp htrip
    · exact (f_setFlag_other s true hx).symm
  · exact ((stacksKept_log ..).trans (stacksKept_modDie ..)).trans (stacksKept_setLevel ..)

theorem flag_tripStack (s : State) (k : Nat) : (s.tripStack k).flag .HBM_STATUS_TRIPPED k = true := by
  rw [flag, (stacksKept_tripStack s k).status _ _ rfl, f_setFlag_self]
  rfl

theorem f_tripStack_other (s : State) (k : Nat) {x : Fld} (hreg : x.info.reg = .HBM_STATUS) (hx : x ≠ .HBM_STATUS_TRIPPED)
    (i : Nat) : (s.tripStack k).f x i = s.f x i :=
  ((stacksKept_tripStack s k).status x i hreg).trans (f_setF_of_ne hx s k _ i)

theorem onlyUpkeep_tripStack (s : State) (k : Nat) : s.onlyUpkeep (s.tripStack k) :=
  onlyUpkeep_trans (t := s.setFlag .HBM_STATUS_TRIPPED k true) rfl (stacksKept_tripStack s k).onlyUpkeep

theorem stack_tripStack (s : State) (k : Nat) : (s.tripStack k).stack = s.stack := by
  funext j
  rw [(stacksKept_tripStack s k).stack]
  rfl

/-! ### Readings of a stack's temperature (R239 to R241) -/

/-- With no request of the host and no packet of a peer held back, nothing is served again. -/
theorem rerun_of_onlyUpkeep (h : s.onlyUpkeep t) (hw : s.chl.waiting = []) (hp : s.fab.heldPeers = []) : t.rerun = t := by
  have hw' : t.chl.waiting = [] := by rw [h]; exact hw
  have hp' : t.fab.heldPeers = [] := by rw [h]; exact hp
  have hchl : ({ t with chl := { t.chl with waiting := [] } } : State) = t := by rw [← hw']
  have hfab : ({ t with fab := { t.fab with heldPeers := [] } } : State) = t := by rw [← hp']
  unfold rerun rerunPeers
  simp only [hw', hchl, forEach, List.foldl_nil, hp', hfab]

/-- The controller after `reads` failed reads in a row, `n` cycles limited since the last. -/
def countReads (s : State) (k n reads : Nat) : State :=
  (s.bump .HBM_THROTTLE_CYCLES_COUNT k n).modStack k fun st => { st with failedReads := reads }

theorem onlyUpkeep_countReads (s : State) (k n reads : Nat) : s.onlyUpkeep (s.countReads k n reads) :=
  onlyUpkeep_trans (onlyUpkeep_bump ..) (onlyUpkeep_modStack ..)

theorem f_countReads (s : State) (k n reads : Nat) {x : Fld} (hc : x ≠ .HBM_THROTTLE_CYCLES_COUNT)
    (hw : x ≠ .HBM_COUNTER_WRAP_THROTTLE_WRAPPED) (i : Nat) : (s.countReads k n reads).f x i = s.f x i :=
  f_bump_of_wrap rfl hc hw s n i

theorem stack_countReads (s : State) (k n reads : Nat) :
    (s.countReads k n reads).stack k = { s.stack k with failedReads := reads } := by
  rw [countReads, stack_modStack_self, stack, bump_hbm, stack]

/-- A reading is shown, and the sensor with it. -/
def showReading (s : State) (k n x : Nat) : State :=
  ((s.countReads k n 0).setFlag .HBM_STATUS_SENSOR_LOST k false).setF .HBM_STATUS_TEMP_C k x

theorem onlyUpkeep_showReading (s : State) (k n x : Nat) : s.onlyUpkeep (s.showReading k n x) :=
  onlyUpkeep_trans (onlyUpkeep_countReads s k n 0) rfl

theorem f_showReading_other (s : State) (k n x : Nat) {y : Fld} (hc : y ≠ .HBM_THROTTLE_CYCLES_COUNT)
    (hw : y ≠ .HBM_COUNTER_WRAP_THROTTLE_WRAPPED) (hl : y ≠ .HBM_STATUS_SENSOR_LOST) (ht : y ≠ .HBM_STATUS_TEMP_C) (i : Nat) :
    (s.showReading k n x).f y i = s.f y i :=
  (f_setF_of_ne ht ..).trans ((f_setF_of_ne hl ..).trans (f_countReads _ _ _ _ hc hw _))

theorem f_showReading_temp (s : State) (k n : Nat) {x : Nat} (hx : x < 256) :
    (s.showReading k n x).f .HBM_STATUS_TEMP_C k = x :=
  (f_setF_self ..).trans (Nat.mod_eq_of_lt hx)

theorem failedReads_showReading (s : State) (k n x : Nat) : ((s.showReading k n x).stack k).failedReads = 0 :=
  congrArg Stack.failedReads (s.stack_countReads k n 0)

/-- A reading of a stack that has not tripped: it trips, or its level follows. -/
theorem stackTemperature_reading {k x : Nat} (n : Nat) (hk : s.stackPresent k = true) (hx : x < 115)
    (htrip : s.flag .HBM_STATUS_TRIPPED k = false) : s.stackTemperature k (some x) n =
      if s.f .HBM_SETUP_TRIP_C k ≤ x then (s.showReading k n x).tripStack k
      else (s.showReading k n x).setF .HBM_STATUS_LEVEL k
        (nextLevel (s.f .HBM_STATUS_LEVEL k) x (s.f .HBM_SETUP_THROTTLE_C k) (s.f .HBM_SETUP_TRIP_C k)) := by
  have hset (y : Fld) (hc : y ≠ .HBM_THROTTLE_CYCLES_COUNT) (hw : y ≠ .HBM_COUNTER_WRAP_THROTTLE_WRAPPED)
      (hl : y ≠ .HBM_STATUS_SENSOR_LOST) (ht : y ≠ .HBM_STATUS_TEMP_C) : (s.showReading k n x).f y k = s.f y k :=
    f_showReading_other s k n x hc hw hl ht k
  have htrip' : (s.showReading k n x).flag .HBM_STATUS_TRIPPED k = false := by
    rw [flag, hset _ (by decide) (by decide) (by decide) (by decide)]
    exact htrip
  rw [stackTemperature, if_pos hk]
  refine (if_neg fun h => absurd h.1 (by omega)).trans ?_
  change (if (s.showReading k n x).f .HBM_SETUP_TRIP_C k ≤ x then (s.showReading k n x).tripStack k
    else if (s.showReading k n x).flag .HBM_STATUS_TRIPPED k then _
    else (s.showReading k n x).setF .HBM_STATUS_LEVEL k (nextLevel ((s.showReading k n x).f .HBM_STATUS_LEVEL k) x
      ((s.showReading k n x).f .HBM_SETUP_THROTTLE_C k) ((s.showReading k n x).f .HBM_SETUP_TRIP_C k))) = _
  rw [htrip', if_neg Bool.false_ne_true, hset _ (by decide) (by decide) (by decide) (by decide),
    hset _ (by decide) (by decide) (by decide) (by decide), hset _ (by decide) (by decide) (by decide) (by decide)]

/-- The third failed read in a row loses the sensor, which trips the stack. -/
theorem stackTemperature_lost {k : Nat} (n : Nat) (hk : s.stackPresent k = true) (hreads : 2 ≤ (s.stack k).failedReads)
    (hlost : s.flag .HBM_STATUS_SENSOR_LOST k = false) : s.stackTemperature k none n =
      ((s.countReads k n ((s.stack k).failedReads + 1)).setFlag .HBM_STATUS_SENSOR_LOST k true).tripStack k := by
  have hstack : (s.bump .HBM_THROTTLE_CYCLES_COUNT k n).stack k = s.stack k := by rw [stack, bump_hbm, stack]
  have hlost' : (s.countReads k n ((s.stack k).failedReads + 1)).flag .HBM_STATUS_SENSOR_LOST k = false := by
    rw [flag, f_countReads _ _ _ _ (by decide) (by decide)]
    exact hlost
  rw [stackTemperature, if_pos hk]
  dsimp only
  rw [hstack]
  exact if_pos ⟨by omega, by rw [← countReads, hlost']; rfl⟩

/-- Below the trip temperature a level no lower than the present one is taken at once. -/
theorem nextLevel_of_rise {cur x low trip : Nat} (hx : x < trip)
    (hrise : cur ≤ if low + 6 ≤ x then 3 else if low + 3 ≤ x then 2 else if low ≤ x then 1 else 0) :
    nextLevel cur x low trip = if low + 6 ≤ x then 3 else if low + 3 ≤ x then 2 else if low ≤ x then 1 else 0 := by
  have hlevel : levelOf x low trip = if low + 6 ≤ x then 3 else if low + 3 ≤ x then 2 else if low ≤ x then 1 else 0 :=
    if_neg (by omega)
  rw [nextLevel, hlevel]
  exact if_pos hrise

/-! ### The end of a row copy (R236) -/

theorem rowRemapComplete_spec {k : Nat} {c : RowCopy} {rest : List RowCopy} (hc : (s.stack k).copies = c :: rest) :
    s.onlyUpkeep (s.rowRemapComplete k []) ∧ (s.rowRemapComplete k []).stack k
      = { s.stack k with copies := rest, spares := (s.stack k).spares.put none c.entry (some c.spare) } := by
  let u := s.modStack k fun st => { st with copies := rest, spares := st.spares.put none c.entry (some c.spare) }
  let v := u.when ((u.stack k).spares.length == 2048) (·.setFlag .HBM_STATUS_REPAIR_EXHAUSTED k true)
  have hv : s.onlyUpkeep v ∧ v.hbm = u.hbm := by
    simp only [v, when]
    split <;> exact ⟨rfl, rfl⟩
  have hrun : s.rowRemapComplete k [] = v.log 0x08 true (dcIx (k / 2)) [k + c.entry * 16,
      spareWord (some c.spare) % 2 ^ 32, spareWord (some c.spare) / 2 ^ 32] := by
    rw [rowRemapComplete, hc]
    rfl
  have hlog := stacksKept_log v 0x08 true (dcIx (k / 2)) [k + c.entry * 16, spareWord (some c.spare) % 2 ^ 32,
    spareWord (some c.spare) / 2 ^ 32]
  rw [hrun]
  refine ⟨onlyUpkeep_trans hv.1 hlog.onlyUpkeep, ?_⟩
  rw [hlog.stack, stack, hv.2]
  exact stack_modStack_self ..

/-! ### Requests to a host that answers (R303) -/

/-- The port has queued a request for each address, in order; nothing but the ports and the count of requests differs. -/
structure Requested (s t : State) (addrs : List Nat) : Prop where
  only : t = { s with nextId := s.nextId + addrs.length, chl := t.chl }
  reqs : ∃ rs, t.chl.reqs = s.chl.reqs ++ rs ∧ rs.map (·.addr) = addrs

theorem Requested.trans {l l' : List Nat} (h : Requested s t l) (h' : Requested t u l') : Requested s u (l ++ l') := by
  obtain ⟨rs, hrs, hl⟩ := h.reqs
  obtain ⟨rs', hrs', hl'⟩ := h'.reqs
  refine ⟨?_, rs ++ rs', by rw [hrs', hrs, List.append_assoc], by rw [List.map_append, hl, hl']⟩
  rw [h'.only, h.only, List.length_append, Nat.add_assoc]

theorem Requested.hostDead {l : List Nat} (h : Requested s t l) (a : Nat) : t.hostDead a = s.hostDead a := by
  rw [h.only]
  rfl

theorem Requested.die {l : List Nat} (h : Requested s t l) (d : Nat) : t.die d = s.die d := by
  rw [h.only]
  rfl

theorem sendTagged_frame (s : State) (id k : Nat) (c : Channel) (tag hdr : Nat) (data : List Byte) :
    s.sendTagged id k c tag hdr data = { s with chl := (s.sendTagged id k c tag hdr data).chl } := by
  unfold sendTagged
  split
  · exact sendMsg_frame ..
  · rfl

theorem reqs_sendTagged (s : State) (id k : Nat) (c : Channel) (tag hdr : Nat) (data : List Byte) :
    (s.sendTagged id k c tag hdr data).chl.reqs = s.chl.reqs := by
  unfold sendTagged sendMsg flushPort
  split
  · split
    · rfl
    · split <;> rfl
  · rfl

/-- A request on a port that is not FAILED waits for its answer. -/
theorem requested_hostReq (s : State) (kind : ReqKind) {addr : Nat} (len : Nat) (data : List Byte) (op : Nat) (wide : Bool)
    (owner : Owner) (item : Option (Nat × Nat × Nat)) (hd : s.hostDead addr = false) :
    Requested s (s.hostReq kind addr len data op wide owner item) [addr] := by
  unfold hostReq
  simp only [hd, Bool.false_and, if_neg Bool.false_ne_true]
  refine ⟨?_, _, reqs_sendTagged .., rfl⟩
  rw [sendTagged_frame]
  rfl

theorem requested_forEach_hostReq (kind : ReqKind) (len : Nat) (owner : Owner) (addr : Nat → Nat) (l : List Nat) (s : State)
    (hd : ∀ i ∈ l, s.hostDead (addr i) = false) :
    Requested s (s.forEach l fun s i => s.hostReq kind (addr i) len [] 0 false owner none) (l.map addr) := by
  induction l generalizing s with
  | nil => exact ⟨rfl, [], (List.append_nil _).symm, rfl⟩
  | cons i l ih =>
    have hi := s.requested_hostReq kind len [] 0 false owner none (hd i (List.mem_cons_self ..))
    exact hi.trans (ih _ fun j hj => (hi.hostDead _).trans (hd j (List.mem_cons_of_mem _ hj)))

/-! ### Reports of eyespots (R233) -/

/-- A die controller with its oldest report taken. -/
def dropReport (s : State) (d : Nat) (rest : List Nat) : State := s.modDie d fun x => { x with reports := rest }

theorem die_dropReport (s : State) (d : Nat) (rest : List Nat) :
    (s.dropReport d rest).die d = { s.die d with reports := rest } := die_modDie_self ..

/-- A die controller with one more refetch in progress. -/
def startRefetch (s : State) (d : Nat) (x : Refetch) : State := s.modDie d fun y => { y with refetches := y.refetches ++ [x] }

theorem die_startRefetch (s : State) (d : Nat) (x : Refetch) :
    (s.startRefetch d x).die d = { s.die d with refetches := (s.die d).refetches ++ [x] } := die_modDie_self ..

theorem reloadOf_dropReport (s : State) (d : Nat) (rest : List Nat) (line : Nat) :
    (s.dropReport d rest).reloadOf d line = s.reloadOf d line := by
  have hreloads : ((s.dropReport d rest).die d).reloads = (s.die d).reloads := by rw [die_dropReport]
  have hlocal : (s.dropReport d rest).dieLocal = s.dieLocal := rfl
  have hwide : (s.dropReport d rest).packageWide = s.packageWide := rfl
  rw [reloadOf, hreloads, hlocal, hwide, reloadOf]

theorem refetch_outside {d line : Nat} {rest : List Nat} (hr : (s.die d).reports = line :: rest)
    (hnone : s.reloadOf d line = none) : s.refetch d = s.dropReport d rest := by
  rw [← reloadOf_dropReport s d rest] at hnone
  rw [refetch, hr]
  dsimp only
  rw [← dropReport, hnone]

/-- A report inside an object starts a refetch, whose host reads follow one another over the granule. -/
theorem refetch_inside {d line a : Nat} {r : Reload} {rest : List Nat} (hr : (s.die d).reports = line :: rest)
    (hsome : s.reloadOf d line = some (r, a))
    (halive : ∀ i < 64, s.hostDead (r.backing + (a / 4096 * 4096 - r.base) + 64 * i) = false) :
    ∃ x : Refetch, x.line = line ∧ x.handle = r.handle
      ∧ Requested ((s.dropReport d rest).startRefetch d x) (s.refetch d)
        ((List.range 64).map fun i => r.backing + (a / 4096 * 4096 - r.base) + 64 * i) := by
  let u := s.dropReport d rest
  let noSpare := !u.remapped (line / 2 ^ 30) (rowOf line) && (u.freeSpare (line / 2 ^ 30)).isNone
  let x : Refetch := ⟨line, r.handle, span u.nextId 64, [], false, false, noSpare⟩
  have hrun : s.refetch d = (u.startRefetch d x).forEach (List.range 64)
      fun s i => s.hostReq .rdnc (r.backing + (a / 4096 * 4096 - r.base) + 64 * i) 64 [] 0 false (.refetch d) none := by
    rw [← reloadOf_dropReport s d rest] at hsome
    have hfirst : u.hostDead (r.backing + (a / 4096 * 4096 - r.base)) = false := halive 0 (by decide)
    rw [refetch, hr]
    dsimp only
    rw [← dropReport, hsome]
    dsimp only
    rw [hfirst]
    exact if_neg Bool.false_ne_true
  refine ⟨x, rfl, rfl, ?_⟩
  rw [hrun]
  exact requested_forEach_hostReq .rdnc 64 (.refetch d) _ _ _ fun i hi => halive i (List.mem_range.mp hi)

end State

/-- Settles O22: a scrub read, a reading and a lost sensor, the end of a row copy, a report outside and inside an object. -/
theorem stackHealth : Obligations.StackHealth := by
  refine ⟨fun s k err hk hours hs => ?scrub, fun s k x hk hx htrip _ hw hp => ⟨fun hle => ?trip, fun hlt n hn hrise => ?level⟩,
    fun s k hk hreads hlost hw hp => ?lost, fun s k c rest hc => ?copy,
    fun s d line rest hr => ⟨fun hnone => ?outside, fun r a hsome halive => ?inside⟩⟩
  case scrub =>
    intro l
    have heye := (s.bump .HBM_READS_COUNT k).eye_meetErr l err
    rw [State.eye_bump] at heye
    refine ⟨_, congrArg Host.Outcome.next (State.scrubRead_eq err hk hours hs), ?_, ?_, ?_, (heye _).trans (if_pos rfl),
      fun j hj => (heye j).trans (if_neg hj)⟩
    · exact (State.meetErr_mem ..).trans (State.bump_mem ..)
    · exact (State.tiles_meetErr ..).trans (State.bump_tiles ..)
    · rw [State.stack_modStack_self]
  case trip =>
    have honly := State.onlyUpkeep_trans (s.onlyUpkeep_showReading k 0 x) (State.onlyUpkeep_tripStack _ k)
    have hrun : (s.stackTemperature k (some x) 0).rerun = (s.showReading k 0 x).tripStack k := by
      rw [State.stackTemperature_reading 0 hk hx htrip, if_pos hle, State.rerun_of_onlyUpkeep honly hw hp]
    refine ⟨_, congrArg Host.Outcome.next hrun, State.mem_of_onlyUpkeep honly, State.tiles_of_onlyUpkeep honly,
      State.flag_tripStack .., ?_, ?_⟩
    · rw [State.f_tripStack_other _ _ rfl (by decide), State.f_showReading_temp _ _ _ (by omega)]
    · rw [State.stack_tripStack, State.failedReads_showReading]
  case level =>
    have honly : s.onlyUpkeep ((s.showReading k 0 x).setF .HBM_STATUS_LEVEL k n) :=
      State.onlyUpkeep_trans (s.onlyUpkeep_showReading k 0 x) rfl
    have hrun : (s.stackTemperature k (some x) 0).rerun = (s.showReading k 0 x).setF .HBM_STATUS_LEVEL k n := by
      rw [State.stackTemperature_reading 0 hk hx htrip, if_neg (by omega), State.nextLevel_of_rise hlt (hn ▸ hrise), ← hn,
        State.rerun_of_onlyUpkeep honly hw hp]
    refine ⟨_, congrArg Host.Outcome.next hrun, State.mem_of_onlyUpkeep honly, State.tiles_of_onlyUpkeep honly, ?_, ?_, ?_⟩
    · rw [State.flag, State.f_setF_of_ne (by decide),
        State.f_showReading_other _ _ _ _ (by decide) (by decide) (by decide) (by decide)]
      exact htrip
    · rw [State.f_setF_of_ne (by decide), State.f_showReading_temp _ _ _ (by omega)]
    · have hn4 : n < 4 := by rw [hn]; split_ifs <;> decide
      exact (State.f_setF_self ..).trans (Nat.mod_eq_of_lt hn4)
  case lost =>
    let u := (s.countReads k 0 ((s.stack k).failedReads + 1)).setFlag .HBM_STATUS_SENSOR_LOST k true
    have hu : s.onlyUpkeep u := State.onlyUpkeep_trans (s.onlyUpkeep_countReads ..) rfl
    have honly := State.onlyUpkeep_trans hu (u.onlyUpkeep_tripStack k)
    have hrun : (s.stackTemperature k none 0).rerun = u.tripStack k := by
      rw [State.stackTemperature_lost 0 hk hreads hlost, State.rerun_of_onlyUpkeep honly hw hp]
    refine ⟨_, congrArg Host.Outcome.next hrun, State.mem_of_onlyUpkeep honly, ?_, u.flag_tripStack k, ?_⟩
    · rw [State.flag, State.f_tripStack_other _ _ rfl (by decide), State.f_setFlag_self]
      rfl
    · rw [State.stack_tripStack]
      exact congrArg Stack.failedReads (s.stack_countReads k 0 _)
  case copy =>
    obtain ⟨honly, hstack⟩ := State.rowRemapComplete_spec hc
    refine ⟨_, rfl, State.mem_of_onlyUpkeep honly, ?_, State.tiles_of_onlyUpkeep honly, ?_, ?_⟩
    · rw [honly]
    · rw [hstack]
    · rw [hstack, FMap.get_put_self]
  case outside =>
    exact ⟨_, congrArg Host.Outcome.next (State.refetch_outside hr hnone), rfl, rfl, rfl,
      congrArg Die.reports (s.die_dropReport d rest)⟩
  case inside =>
    obtain ⟨x, hline, hhandle, hsent⟩ := State.refetch_inside hr hsome halive
    have hdie : (s.refetch d).die d = { s.die d with reports := rest, refetches := (s.die d).refetches ++ [x] } := by
      rw [hsent.die, State.die_startRefetch, State.die_dropReport]
    obtain ⟨honly, rs, hreqs, haddrs⟩ := hsent
    refine ⟨_, x, rfl, by rw [honly]; rfl, by rw [honly]; rfl, by rw [hdie], by rw [hdie], hline, hhandle, ?_, ?_⟩
    · rw [honly, List.length_map, List.length_range]
      rfl
    · rw [hreqs]
      exact (congrArg (List.map _) List.drop_left).trans haddrs

end Sys2Proof.Machine
end

section
/-!
PROOF. What walks change (R243 to R247): the reads of a walk count accesses and its walker keeps entries; all else is as it was,
unless a line of part memory makes the walk wait.
-/
namespace Sys2Proof.Machine

namespace State

variable {s t u : State}

/-- The counts that reads of part memory keep, each with its wrap bit (R225, R227, R230). -/
def readCounts : List Fld :=
  [.HBM_READS_COUNT, .HBM_COUNTER_WRAP_READS_WRAPPED, .HBM_EYESPOT_READS_COUNT, .HBM_COUNTER_WRAP_EYESPOT_WRAPPED,
   .HBM_ABSENT_COUNT, .GLB_MEM_ABSENT_COUNT, .GLB_COUNTER_WRAP_MEM_ABSENT_WRAPPED]

/-- What a walk that need not wait may change: the counts of the reads that it makes and the entries that walkers keep. -/
structure Walked (s t : State) : Prop where
  only : t = { s with fields := t.fields, dies := t.dies }
  counts : ∀ x i, x ∉ readCounts → t.f x i = s.f x i
  die : ∀ k, t.die k = { s.die k with w1 := (t.die k).w1, w2 := (t.die k).w2 }

theorem Walked.refl (s : State) : Walked s s := ⟨rfl, fun _ _ _ => rfl, fun _ => rfl⟩

theorem Walked.trans (h : Walked s t) (h' : Walked t u) : Walked s u where
  only := by rw [h'.only, h.only]
  counts x i hx := (h'.counts x i hx).trans (h.counts x i hx)
  die k := by rw [h'.die, h.die]

theorem walked_of_onlyFields (h : s.onlyFields t) (hc : ∀ x i, x ∉ readCounts → t.f x i = s.f x i) : Walked s t := by
  rw [onlyFields] at h
  exact ⟨by rw [h], hc, fun k => by rw [h]; rfl⟩

theorem walked_bump {c w : Fld} {i j b : Nat} (hw : c.wrap i = some (w, j, b)) (hc : c ∈ readCounts) (hwc : w ∈ readCounts)
    (s : State) (n : Nat) : Walked s (s.bump c i n) :=
  walked_of_onlyFields (bump_onlyFields ..) fun _ k hx =>
    f_bump_of_wrap hw (ne_of_mem_of_not_mem hc hx).symm (ne_of_mem_of_not_mem hwc hx).symm s n k

theorem walked_countAbsent (s : State) (d : Option Nat) : Walked s (s.countAbsent d) := by
  unfold countAbsent
  dsimp only
  split
  · exact walked_of_onlyFields rfl fun x i hx => f_setF_of_ne (ne_of_mem_of_not_mem (by decide) hx).symm ..
  · exact walked_bump rfl (by decide) (by decide) ..

theorem walked_readLine (s : State) (line : Nat) : Walked s (s.readLine line .none).1 := by
  have hread : Walked s (s.bump .HBM_READS_COUNT (line / 2 ^ 30)) := walked_bump rfl (by decide) (by decide) ..
  unfold readLine when
  dsimp only [meetErr]
  split
  · exact hread.trans (walked_bump rfl (by decide) (by decide) ..)
  · exact hread

theorem walked_physRead (s : State) (d : Option Nat) (pa n : Nat) : Walked s (s.physRead d pa n).s := by
  unfold physRead
  generalize hg : (⟨s, [], false, false⟩ : Got) = g
  have hs : Walked s g.s := hg ▸ Walked.refl s
  clear hg
  induction partsOf pa n generalizing g with
  | nil => exact hs
  | cons x l ih =>
    refine ih _ ?_
    dsimp only
    split
    · exact hs.trans (walked_countAbsent ..)
    · exact hs.trans (walked_readLine ..)

theorem walked_modDie (s : State) (d : Nat) {g : Die → Die} (hg : ∀ x, g x = { x with w1 := (g x).w1, w2 := (g x).w2 }) :
    Walked s (s.modDie d g) where
  only := rfl
  counts _ _ _ := rfl
  die k := by
    by_cases hk : k = d
    · rw [hk, die_modDie_self]
      exact hg _
    · rw [die_modDie_other s g hk]

/-- A read of an entry that need not wait. -/
theorem walked_walkRead {d target a : Nat} {hs : HostMem} {r : Nat × Bool} (h : s.walkRead d hs target a = (t, some r)) :
    Walked s t := by
  unfold walkRead at h
  split at h
  · split at h
    · cases h
    · cases h
      exact walked_physRead ..
  · split at h <;> cases h <;> exact Walked.refl s

/-- An entry of a table, from a walker's cache or read. -/
theorem walked_entry {d target a : Nat} {hs : HostMem} {hit : Option Nat} {r : Nat × Bool}
    (h : (match hit with
      | some w => (s, some (w, false))
      | none => s.walkRead d hs target a) = (t, some r)) : Walked s t := by
  split at h
  · cases h
    exact Walked.refl s
  · exact walked_walkRead h

theorem walked_keep1 (s : State) (c : Prop) [Decidable c] (d : Nat) (e : WEntry) :
    Walked s (if c then s.modDie d fun x => { x with w1 := keepEntry x.w1 e } else s) := by
  split
  · exact walked_modDie s d fun _ => rfl
  · exact Walked.refl s

theorem walked_keep2 (s : State) (c : Prop) [Decidable c] (d : Nat) (e : WEntry) :
    Walked s (if c then s.modDie d fun x => { x with w2 := keepEntry x.w2 e } else s) := by
  split
  · exact walked_modDie s d fun _ => rfl
  · exact Walked.refl s

/-- A walk of stage 2 reads and keeps entries of its tables, level by level. -/
theorem walked_s2Levels (d : Nat) (hs : HostMem) (table : Bool) (il : Option Nat) (acc : Access)
    (ipa n target fuel level base : Nat) (s : State)
    (h : (s2Levels d hs table il acc ipa n target fuel level base s).2 ≠ .error walkWait) :
    Walked s (s2Levels d hs table il acc ipa n target fuel level base s).1 := by
  fun_induction s2Levels d hs table il acc ipa n target fuel level base s
  case case1 => exact Walked.refl _
  case case2 => exact absurd rfl h
  case case3 hread | case4 hread | case5 hread => exact walked_entry hread
  case case6 hread | case7 hread | case8 hread | case9 hread => exact (walked_entry hread).trans (walked_keep2 ..)
  case case10 hread ih => exact ((walked_entry hread).trans (walked_keep2 ..)).trans (ih h)

theorem walked_stage2 {d ipa : Nat} {hs : HostMem} {table : Bool} {il : Option Nat} {acc : Access} {r : Except XFault S2Out}
    (h : s.stage2 d hs table il acc ipa = (t, r)) (hr : r ≠ .error walkWait) : Walked s t := by
  unfold stage2 at h
  dsimp only at h
  split_ifs at h
  · cases h
    exact Walked.refl s
  · cases h
    exact Walked.refl s
  · have hlevels := walked_s2Levels d hs table il acc ipa (s.f .XLT_SETUP_IPA_BITS) (s.f .XLT_S2_ROOT_TARGET) 4 0
      (s.f .XLT_S2_ROOT_ADDR * 4096) s
    rw [h] at hlevels
    exact hlevels hr

/-- An entry of a stage 1 table, from a walker's cache or read where stage 2 places it. -/
theorem walked_entry1 {d a : Nat} {hs : HostMem} {il hit : Option Nat} {r : Except XFault (Nat × Bool)}
    (h : (match hit with
      | some w => (s, .ok (w, false))
      | none =>
        match s.stage2 d hs true il .read a with
        | (s, .error e) => (s, .error e)
        | (s, .ok o) =>
          match s.walkRead d hs o.target o.pa with
          | (s, some r) => (s, .ok r)
          | (s, none) => (s, .error walkWait)) = (t, r)) (hr : r ≠ .error walkWait) : Walked s t := by
  split at h
  · cases h
    exact Walked.refl s
  · split at h
    · next hout =>
      cases h
      exact walked_stage2 hout fun e => hr (congrArg Except.error (Except.error.inj e))
    · next hout =>
      split at h
      · next hread =>
        cases h
        exact (walked_stage2 hout nofun).trans (walked_walkRead hread)
      · cases h
        exact absurd rfl hr

/-- A walk of stage 1 does the same, and walks stage 2 for each table and for its output. -/
theorem walked_s1Levels (d : Nat) (hs : HostMem) (ctx : Nat) (acc : Access) (va n fuel level base : Nat) (s : State)
    (h : (s1Levels d hs ctx acc va n fuel level base s).2 ≠ .error walkWait) :
    Walked s (s1Levels d hs ctx acc va n fuel level base s).1 := by
  fun_induction s1Levels d hs ctx acc va n fuel level base s
  case case1 => exact Walked.refl _
  case case2 hread => exact walked_entry1 hread fun e => h (congrArg Except.error (Except.error.inj e))
  case case3 hread | case4 hread | case5 hread | case6 hread => exact walked_entry1 hread nofun
  case case7 hleaf hread =>
    exact (walked_entry1 hread nofun).trans (walked_stage2 hleaf fun e => h (congrArg Except.error (Except.error.inj e)))
  case case8 hleaf _ hread => exact (walked_entry1 hread nofun).trans (walked_stage2 hleaf nofun)
  case case9 hread ih => exact ((walked_entry1 hread nofun).trans (walked_keep1 ..)).trans (ih h)

/-- A walk that ends with a translation or a fault. -/
theorem walked_walk {d ctx va : Nat} {hs : HostMem} {acc : Access} {r : Except XFault XEntry}
    (h : s.walk d hs ctx va acc = (t, r)) (hr : r ≠ .error walkWait) : Walked s t := by
  unfold walk at h
  dsimp only at h
  split_ifs at h
  · cases h
    exact Walked.refl s
  · cases h
    exact Walked.refl s
  · have hlevels := walked_s1Levels d hs ctx acc va (s.f .CTX_SETUP_VA_BITS ctx) 4 0 (s.f .CTX_S1_ROOT_ADDR ctx * 4096) s
    rw [h] at hlevels
    exact hlevels hr

/-- A ring's place that is in host memory. -/
theorem walked_ringAddr {d ipa a : Nat} {hs : HostMem} {acc : Access} (h : s.ringAddr d hs ipa acc = (t, .at a)) :
    Walked s t := by
  unfold ringAddr at h
  split at h
  · next hout =>
    obtain ⟨rfl, -⟩ := Prod.mk.inj h
    exact walked_stage2 hout nofun
  · split_ifs at h <;> cases h

theorem Walked.mem (h : Walked s t) : t.mem = s.mem := by rw [h.only]
theorem Walked.tiles (h : Walked s t) : t.tiles = s.tiles := by rw [h.only]
theorem Walked.chl (h : Walked s t) : t.chl = s.chl := by rw [h.only]

end State

end Sys2Proof.Machine
end

section
/-!
PROOF. Misses, walks and the table of faults (R248 to R250): a miss starts a walk or waits for one, a walk that ends fills its
tile's cache or leaves a fault waiting, and the oldest fault takes the lowest free entry.
-/
namespace Sys2Proof.Machine

namespace State

variable {s t : State}

/-! ### What a die reads as -/

@[simp] theorem die_bump (s : State) (c : Fld) (i n : Nat) : (s.bump c i n).die = s.die :=
  die_of_onlyCpFields (onlyCpFields_bump ..)

@[simp] theorem die_modTile (s : State) (p : Nat) (g : Tile → Tile) : (s.modTile p g).die = s.die := rfl

theorem die_of_tileOnly {p : Nat} (h : TileOnly s t p) : t.die = s.die := by
  funext d
  rw [die, die, h.1]

theorem modDie_congr {d : Nat} {g g' : Die → Die} (h : g (s.die d) = g' (s.die d)) : s.modDie d g = s.modDie d g' := by
  rw [modDie, h, modDie]

/-- The lowest free tag is the one below which every tag is used. -/
theorem freeTag_eq {used : List Nat} {i : Nat} (hi : i ∉ used) (n j : Nat) (hj : j ≤ i) (hn : i < j + n)
    (hused : ∀ k, j ≤ k → k < i → k ∈ used) : freeTag used n j = i := by
  induction n generalizing j with
  | zero => omega
  | succ n ih =>
    rw [freeTag]
    rcases Nat.eq_or_lt_of_le hj with rfl | hlt
    · simp [hi]
    · rw [if_pos (by simpa using hused j le_rfl hlt)]
      exact ih (j + 1) hlt (by omega) fun k hk => hused k (by omega)

/-! ### A miss reaches its walker (R249) -/

/-- The oldest miss of a tile has left for the walker of its die. -/
def sendMiss (s : State) (p : Nat) (m : Miss) (rest : List Miss) : State :=
  s.modTile p fun t => { t with misses := rest, sent := t.sent ++ [m] }

theorem walkRequest_eq {p : Nat} {m : Miss} {rest : List Miss} (h : (s.tile p).misses = m :: rest) : s.walkRequest p =
    if (∃ w ∈ (s.die m.die).walks, w.ctx = m.ctx ∧ w.va / 65536 = m.va / 65536) ∨ 64 ≤ (s.die m.die).walks.length
    then (s.sendMiss p m rest).modDie m.die fun x => { x with queued := x.queued ++ [m] }
    else ((s.sendMiss p m rest).modDie m.die fun x => { x with walks := x.walks ++ [m] }).bump .XLT_WALKS_COUNT := by
  rw [walkRequest, h]
  refine if_congr ?_ rfl rfl
  rw [Bool.or_eq_true]
  exact or_congr (by simp) decide_eq_true_iff

/-! ### A walk ends (R247 to R249) -/

/-- A walk has left its walker, for which no miss waits. -/
def dropWalk (s : State) (d k : Nat) : State := s.modDie d fun x => { x with walks := x.walks.eraseIdx k, queued := [] }

/-- The answer to a miss of a tile has come. -/
def answerMiss (s : State) (p : Nat) (m : Miss) : State := s.modTile p fun t => { t with sent := t.sent.erase m }

theorem startWalk_eq_self {d : Nat} (h : (s.die d).queued = []) : s.startWalk d = s := by
  rw [startWalk, h]
  exact ite_self s

/-- The end of a walk that no miss has joined or waits behind is the end for its own miss. -/
theorem walkComplete_eq {d k : Nat} {hs : HostMem} {m : Miss} (hk : (s.die d).walks[k]? = some m) (hd : m.die = d)
    (hq : (s.die d).queued = []) (hf : ∀ f, (s.walk d hs m.ctx m.va m.acc).2 = .error f → f ≠ walkWait)
    (hend : (s.dropWalk d k).walkEnd hs m = t) (ht : (t.die d).queued = []) : s.walkComplete d k hs = t := by
  subst hd
  have hended : ¬ (match (s.walk m.die hs m.ctx m.va m.acc).2 with
      | .error f => f == walkWait
      | .ok _ => false) = true := by
    split
    · next f h => simpa using hf f h
    · exact Bool.false_ne_true
  have hdrop : (s.modDie m.die fun x => { x with
      walks := x.walks.eraseIdx k
      queued := x.queued.filter fun w => !(w.ctx == m.ctx && w.va / 65536 == m.va / 65536) }) = s.dropWalk m.die k :=
    modDie_congr (by rw [hq]; rfl)
  unfold walkComplete
  rw [hk]
  refine (if_neg hended).trans ?_
  dsimp only
  rw [hq, hdrop]
  exact (congrArg (startWalk · m.die) hend).trans (startWalk_eq_self ht)

section
variable {p : Nat} {hs : HostMem} {m : Miss}

theorem walkEnd_ok {d : Nat} {e : XEntry} (hd : m.die = d) (hp : tileOf m.who = some p) (hm : m ∈ (s.tile p).sent)
    (h : s.walk d hs m.ctx m.va m.acc = (t, .ok e)) : s.walkEnd hs m = ((t.answerMiss p m).fillTile p e).settle p := by
  simp only [walkEnd, hp, hd, h]
  exact if_neg (by simpa using hm)

theorem walkEnd_fault {d : Nat} {f : XFault} (hd : m.die = d) (hp : tileOf m.who = some p) (hm : m ∈ (s.tile p).sent)
    (h : s.walk d hs m.ctx m.va m.acc = (t, .error f)) (hf : f ≠ walkWait) :
    s.walkEnd hs m = (t.answerMiss p m).raiseFault m f := by
  simp only [walkEnd, hp, hd, h]
  rw [if_neg (by simpa using hm), if_neg hf]
  rfl

/-- A translation that a walk has found stands in the tile's cache, newest of all. -/
theorem mem_xc_fillTile (s : State) (p : Nat) (e : XEntry) : e ∈ ((s.fillTile p e).tile p).xc := by
  rw [fillTile, tile_modTile_self]
  dsimp only
  split
  · next hlong =>
    rw [List.drop_append_of_le_length]
    · exact List.mem_append_right _ (List.mem_singleton_self e)
    · simp only [List.length_append, List.length_singleton] at hlong
      omega
  · exact List.mem_append_right _ (List.mem_singleton_self e)

theorem raiseFault_eq (f : XFault) (hp : tileOf m.who = some p) : s.raiseFault m f =
    (s.bump .XLTC_FAULTS_COUNT p).modDie m.die fun x => { x with faultQueue := x.faultQueue ++ [(m, f)] } := by
  rw [raiseFault, hp]

end

/-- An address beyond the context's VA_BITS faults before anything is read. -/
theorem walk_beyond {d ctx va : Nat} (hs : HostMem) (acc : Access) (h : 2 ^ s.f .CTX_SETUP_VA_BITS ctx ≤ va) :
    s.walk d hs ctx va acc = (s, .error ⟨3, 0, 0, 0⟩) := if_pos h

section
variable {p d k : Nat} {m : Miss} {hs : HostMem}

theorem Walked.die_dropWalk (h : Walked (s.dropWalk d k) t) :
    t.die d = { s.die d with walks := (s.die d).walks.eraseIdx k, queued := [], w1 := (t.die d).w1, w2 := (t.die d).w2 } := by
  rw [h.die, dropWalk, die_modDie_self]

/-- A walk that finds a translation leaves it in its tile's cache. -/
theorem walkComplete_ok {e : XEntry} (hk : (s.die d).walks[k]? = some m) (hd : m.die = d) (hp : tileOf m.who = some p)
    (hm : m ∈ (s.tile p).sent) (hq : (s.die d).queued = [])
    (hf : ∀ f, (s.walk d hs m.ctx m.va m.acc).2 = .error f → f ≠ walkWait)
    (hw : (s.dropWalk d k).walk d hs m.ctx m.va m.acc = (t, .ok e)) :
    let u := s.walkComplete d k hs
    u.mem = s.mem ∧ s.tilesBut u [p] ∧ e ∈ (u.tile p).xc ∧ (u.tile p).sent = (s.tile p).sent.erase m
      ∧ (u.die d).walks = (s.die d).walks.eraseIdx k := by
  intro u
  have hwalked := walked_walk hw nofun
  have hsettled := settled_settle ((t.answerMiss p m).fillTile p e) p
  have honly : TileOnly t (((t.answerMiss p m).fillTile p e).settle p) p :=
    tileOnly_trans (tileOnly_trans (tileOnly_modTile ..) (tileOnly_modTile ..)) hsettled.only
  have hdie := die_of_tileOnly honly
  have hu : u = ((t.answerMiss p m).fillTile p e).settle p :=
    walkComplete_eq hk hd hq hf (walkEnd_ok (s := s.dropWalk d k) hd hp hm hw) (by rw [hdie, hwalked.die_dropWalk])
  rw [hu]
  refine ⟨(mem_of_tileOnly honly).trans hwalked.mem, fun q hq => ?_, ?_, ?_, ?_⟩
  · rw [honly.2 q hq, tile_of_tiles hwalked.tiles]
    rfl
  · rw [hsettled.apply (·.xc) fun _ _ _ _ _ _ => rfl]
    exact mem_xc_fillTile ..
  · rw [hsettled.apply (·.sent) fun _ _ _ _ _ _ => rfl, fillTile, tile_modTile_self, answerMiss, tile_modTile_self,
      tile_of_tiles hwalked.tiles]
    rfl
  · rw [hdie, hwalked.die_dropWalk]

/-- A walk that faults waits for an entry of its die's table. -/
theorem walkComplete_fault {f : XFault} (hk : (s.die d).walks[k]? = some m) (hd : m.die = d) (hp : tileOf m.who = some p)
    (hm : m ∈ (s.tile p).sent) (hq : (s.die d).queued = [])
    (hf : ∀ f, (s.walk d hs m.ctx m.va m.acc).2 = .error f → f ≠ walkWait)
    (hw : (s.dropWalk d k).walk d hs m.ctx m.va m.acc = (t, .error f)) (hwait : f ≠ walkWait) :
    let u := s.walkComplete d k hs
    u.mem = s.mem ∧ s.tilesBut u [p] ∧ (u.tile p).sent = (s.tile p).sent.erase m ∧ (u.tile p).xc = (s.tile p).xc
      ∧ (u.die d).faultQueue = (s.die d).faultQueue ++ [(m, f)] ∧ (u.die d).walks = (s.die d).walks.eraseIdx k := by
  intro u
  have hwalked := walked_walk hw fun e => hwait (Except.error.inj e)
  let v := (t.answerMiss p m).bump .XLTC_FAULTS_COUNT p
  have honly : TileOnly t v p := tileOnly_trans (tileOnly_modTile ..) (tileOnly_bump ..)
  have htile : v.tile p = { s.tile p with sent := (s.tile p).sent.erase m } := by
    rw [tile_bump, answerMiss, tile_modTile_self, tile_of_tiles hwalked.tiles]
    rfl
  have hend := walkEnd_fault (s := s.dropWalk d k) hd hp hm hw hwait
  rw [raiseFault_eq f hp, hd] at hend
  have hdie : ((v.modDie d fun x => { x with faultQueue := x.faultQueue ++ [(m, f)] }).die d) = { s.die d with
      walks := (s.die d).walks.eraseIdx k, queued := [], faultQueue := (s.die d).faultQueue ++ [(m, f)],
      w1 := (t.die d).w1, w2 := (t.die d).w2 } := by
    rw [die_modDie_self, die_of_tileOnly honly, hwalked.die_dropWalk]
  have hu : u = v.modDie d fun x => { x with faultQueue := x.faultQueue ++ [(m, f)] } :=
    walkComplete_eq hk hd hq hf hend (by rw [hdie])
  rw [hu]
  refine ⟨(mem_of_tileOnly honly).trans hwalked.mem, fun q hq => ?_, ?_, ?_, ?_, ?_⟩
  · exact (honly.2 q hq).trans (tile_of_tiles hwalked.tiles q)
  · exact (congrArg Tile.sent htile :)
  · exact (congrArg Tile.xc htile :)
  · rw [hdie]
  · rw [hdie]

end

/-! ### The table of faults (R250) -/

/-- The oldest waiting fault of a die has become entry `i` of its table. -/
def enterFault (s : State) (d i : Nat) (rest : List (Miss × XFault)) (e : FaultEntry) : State :=
  s.modDie d fun x => { x with faultQueue := rest, entries := x.entries.put none i (some e) }

theorem faultQueue_enterFault (s : State) (d i : Nat) (rest : List (Miss × XFault)) (e : FaultEntry) :
    ((s.enterFault d i rest e).die d).faultQueue = rest := by
  rw [enterFault, die_modDie_self]

theorem entries_enterFault (s : State) (d i : Nat) (rest : List (Miss × XFault)) (e : FaultEntry) (j : Nat) :
    ((s.enterFault d i rest e).die d).entries.get none j = if j = i then some e else (s.die d).entries.get none j := by
  rw [enterFault, die_modDie_self]
  exact FMap.get_put none (s.die d).entries i j (some e)

theorem faultAllocate_eq {d i : Nat} {m : Miss} {f : XFault} {rest : List (Miss × XFault)} (waited : Nat)
    (hq : (s.die d).faultQueue = (m, f) :: rest) (hi : i < 512) (hfree : i ∉ FMap.keys (s.die d).entries)
    (hlow : ∀ j, j < i → j ∈ FMap.keys (s.die d).entries) : s.faultAllocate d waited =
      { (s.bump .XLT_TABLE_FULL_CYCLES_COUNT 0 waited).enterFault d i rest ⟨m, f, s.nextId, none, false⟩ with
        nextId := s.nextId + 1 } := by
  have htag : freeTag (FMap.keys (s.die d).entries) 512 0 = i :=
    freeTag_eq hfree 512 0 (Nat.zero_le i) (by omega) fun k _ => hlow k
  unfold faultAllocate
  dsimp only
  rw [hq, htag]
  dsimp only
  rw [if_neg (by omega), modDie_nextId, bump_nextId, enterFault]

end State

/-- Misses, walks and the table of faults. -/
theorem walks : Clause.Walks := by
  refine ⟨fun s p m rest hm => ?request, fun s s₁ p d k m hs r hk hd hp hm hq => ?complete,
    fun s p d k m hs hk hd hp hm hq hva => ?beyond, fun s d waited i m f rest hq hi hfree hlow => ?allocate⟩
  case request =>
    have hsent : s.tilesBut (s.sendMiss p m rest) [p] := (State.tileOnly_modTile ..).2
    refine ⟨_, congrArg Host.Outcome.next (State.walkRequest_eq hm), ?_⟩
    have htile : (s.sendMiss p m rest).tile p = { s.tile p with misses := rest, sent := (s.tile p).sent ++ [m] } :=
      State.tile_modTile_self ..
    split_ifs
    · refine ⟨rfl, hsent, congrArg Tile.misses htile, congrArg Tile.sent htile, ?_⟩
      rw [State.die_modDie_self]
      exact ⟨rfl, rfl⟩
    · rw [State.die_bump, State.die_modDie_self, State.tilesBut, State.tile_bump]
      exact ⟨State.bump_mem .., hsent, congrArg Tile.misses htile, congrArg Tile.sent htile, rfl, rfl⟩
  case complete =>
    intro s₀ hf hw
    refine ⟨fun e he => ?_, fun f he hwait => ?_⟩
    · subst he
      exact ⟨_, rfl, State.walkComplete_ok hk hd hp hm hq hf hw⟩
    · subst he
      exact ⟨_, rfl, State.walkComplete_fault hk hd hp hm hq hf hw hwait⟩
  case beyond =>
    have hf : ∀ f, (s.walk d hs m.ctx m.va m.acc).2 = .error f → f ≠ walkWait := by
      rw [State.walk_beyond hs m.acc hva]
      rintro f ⟨⟩
      decide
    have hw := State.walk_beyond (s := s.dropWalk d k) (d := d) hs m.acc hva
    obtain ⟨hmem, -, -, -, hqueue, -⟩ := State.walkComplete_fault hk hd hp hm hq hf hw (by decide)
    exact ⟨_, rfl, hmem, hqueue⟩
  case allocate =>
    have hentry := (s.bump .XLT_TABLE_FULL_CYCLES_COUNT 0 waited).entries_enterFault d i rest ⟨m, f, s.nextId, none, false⟩
    exact ⟨_, congrArg Host.Outcome.next (State.faultAllocate_eq waited hq hi hfree hlow), State.bump_mem .., State.bump_tiles ..,
      State.faultQueue_enterFault .., (hentry i).trans (if_pos rfl),
      fun j hj => (hentry j).trans ((if_neg hj).trans (by rw [State.die_bump]))⟩

end Sys2Proof.Machine
end

section
/-!
PROOF. The fault ring (R251 to R256): the record of the oldest fault is begun in its place, and a response frees its entry for a
replay, halts its requester's tile, or is only counted.
-/
namespace Sys2Proof.Machine

namespace State

variable {s t : State}

/-! ### Entries of the table -/

theorem entries_modEntry (s : State) (d i : Nat) (g : FaultEntry → Option FaultEntry) :
    ((s.modEntry d i g).die d).entries.get none i = ((s.die d).entries.get none i).bind g := by
  rw [modEntry, die_modDie_self]
  exact FMap.get_upd_self none (s.die d).entries i (·.bind g)

/-! ### The fault ring (R251, R252) -/

/-- A request to a port that is not FAILED waits as it was made. -/
theorem reqs_hostReq (s : State) (kind : ReqKind) {addr : Nat} (len : Nat) (data : List Byte) (op : Nat) (wide : Bool)
    (owner : Owner) (item : Option (Nat × Nat × Nat)) (hd : s.hostDead addr = false) :
    ∃ r : HostReq, (s.hostReq kind addr len data op wide owner item).chl.reqs = s.chl.reqs ++ [r]
      ∧ (r.kind, r.addr, r.len, r.owner) = (kind, addr, len, owner) := by
  unfold hostReq
  simp only [hd, Bool.false_and, if_neg Bool.false_ne_true]
  exact ⟨_, reqs_sendTagged .., rfl⟩

theorem hostWrite_part (s : State) (addr : Nat) {data : List Byte} (owner : Owner) (item : Option (Nat × Nat × Nat))
    (h : data.length ≠ 64) : s.hostWrite addr data owner item = s.hostReq .wrp addr data.length data 0 false owner item :=
  if_neg h

/-- Entry `i` of a die has the ring's record `n`, which command processor 0 writes at `a`. -/
def startRecord (s : State) (d i a n : Nat) : State :=
  ((s.modEntry d i fun e => some { e with seq := some n }).setF .XLT_FRING_NEXT_SEQUENCE 0 ((n + 1) % 2 ^ 32)).setRing .fring
    (some ⟨a, n, [s.nextId], false, 0⟩)

theorem f_startRecord (s : State) (d i a n : Nat) {x : Fld} (hx : x ≠ .XLT_FRING_NEXT_SEQUENCE) (j : Nat) :
    (s.startRecord d i a n).f x j = s.f x j :=
  f_setF_of_ne hx (s.modEntry d i _) 0 _ j

/-- Whether a port is FAILED is no matter of the ring's sequence. -/
theorem hostDead_startRecord (s : State) (d i a n b : Nat) : (s.startRecord d i a n).hostDead b = s.hostDead b := by
  simp only [hostDead, homePort, flag, f_startRecord, ne_eq, reduceCtorEq, not_false_eq_true]

theorem die_startRecord (s : State) (d i a n : Nat) :
    (s.startRecord d i a n).die = (s.modEntry d i fun e => some { e with seq := some n }).die := rfl

/-- The oldest fault's record is begun where its place is in host memory and the port to it answers. -/
theorem faultWrite_eq {o d i a : Nat} {e : FaultEntry} {hs : HostMem} (hnext : s.nextReport = some (o, d, i, e))
    (hring : s.flag .XLT_STATUS_RING_FAULT = false) (hroom : s.fringRoom = true) (hproc : s.procRunning 2 = true)
    (hidle : s.cp.faultWriting = none)
    (haddr : s.ringAddr 0 hs (s.f .XLT_FRING_BASE_ADDR * 4096
      + 64 * (s.f .XLT_FRING_NEXT_SEQUENCE % 2 ^ s.f .XLT_SETUP_FRING_LOG2)) .store = (t, .at a))
    (hlive : t.hostDead a = false) : ∃ words : List Nat, words.length = 15 ∧ s.faultWrite hs =
      (t.startRecord d i a (s.f .XLT_FRING_NEXT_SEQUENCE)).hostWrite (a + 4) (wordBytes words) .fring none := by
  refine ⟨((t.modEntry d i fun e => some { e with seq := some (s.f .XLT_FRING_NEXT_SEQUENCE) }).setF .XLT_FRING_NEXT_SEQUENCE 0
    ((s.f .XLT_FRING_NEXT_SEQUENCE + 1) % 2 ^ 32)).faultWords d i e, rfl, ?_⟩
  unfold faultWrite
  rw [hnext]
  dsimp only
  rw [hring, hroom, hproc, hidle, if_neg (by decide), haddr]
  exact if_neg (by rw [hlive]; exact Bool.false_ne_true)

/-- The record's words 1 to 15 go out in one write, 4 bytes behind its start. -/
theorem faultWrite_requested {o d i a : Nat} {e : FaultEntry} {hs : HostMem} (hnext : s.nextReport = some (o, d, i, e))
    (hring : s.flag .XLT_STATUS_RING_FAULT = false) (hroom : s.fringRoom = true) (hproc : s.procRunning 2 = true)
    (hidle : s.cp.faultWriting = none)
    (haddr : s.ringAddr 0 hs (s.f .XLT_FRING_BASE_ADDR * 4096
      + 64 * (s.f .XLT_FRING_NEXT_SEQUENCE % 2 ^ s.f .XLT_SETUP_FRING_LOG2)) .store = (t, .at a))
    (hlive : t.hostDead a = false) (hlive' : t.hostDead (a + 4) = false) :
    Requested (t.startRecord d i a (s.f .XLT_FRING_NEXT_SEQUENCE)) (s.faultWrite hs) [a + 4]
      ∧ ∃ r : HostReq, (s.faultWrite hs).chl.reqs = t.chl.reqs ++ [r]
        ∧ (r.kind, r.addr, r.len, r.owner) = (.wrp, a + 4, 60, .fring) := by
  obtain ⟨words, hwords, hrun⟩ := faultWrite_eq hnext hring hroom hproc hidle haddr hlive
  have hlen : (wordBytes words).length = 60 := by rw [length_wordBytes, hwords]
  have hdead : (t.startRecord d i a (s.f .XLT_FRING_NEXT_SEQUENCE)).hostDead (a + 4) = false := by
    rw [hostDead_startRecord, hlive']
  rw [hrun, hostWrite_part _ _ _ _ (by omega), hlen]
  exact ⟨requested_hostReq _ _ _ _ _ _ _ _ hdead, reqs_hostReq _ _ _ _ _ _ _ _ hdead⟩

/-! ### Responses (R253 to R255) -/

section
variable {d i p g : Nat} {e : FaultEntry} {resp : Nat}

/-- The response at the next place is taken where that place is in host memory. -/
theorem ringResponse_eq {a : Nat} {hs : HostMem} (hring : s.flag .XLT_STATUS_RING_FAULT = false) (hproc : s.procRunning 2 = true)
    (hnew : s.cp.rringProducer ≠ s.f .XLT_RRING_NEXT_COUNT)
    (haddr : s.ringAddr 0 hs (s.f .XLT_RRING_BASE_ADDR * 4096
      + 16 * (s.f .XLT_RRING_NEXT_COUNT % 2 ^ s.f .XLT_SETUP_RRING_LOG2)) .read = (t, .at a)) : s.ringResponse resp hs =
      (t.setF .XLT_RRING_NEXT_COUNT 0 ((s.f .XLT_RRING_NEXT_COUNT + 1) % 2 ^ 32)).applyResponse resp := by
  unfold ringResponse
  dsimp only
  rw [if_neg (by simp [hring, hproc, hnew]), haddr]

theorem retry_of_code (h : bits resp 49 48 = 1) (hs : HostMem) : s.retry resp hs = s.ringResponse resp hs :=
  if_neg (by omega)

theorem unserviceable_of_code (h : bits resp 49 48 = 2) (hs : HostMem) : s.unserviceable resp hs = s.ringResponse resp hs :=
  if_pos h

theorem applyResponse_ignored (h : s.answered? resp = none) : s.applyResponse resp = s.bump .XLT_RESP_IGNORED_COUNT := by
  rw [applyResponse, h]

theorem applyResponse_retry (h : s.answered? resp = some (d, i, e)) (hcode : bits resp 49 48 = 1)
    (hheld : s.heldBack e.miss = false) : s.applyResponse resp = s.retryEntry d i e.miss := by
  rw [applyResponse, h]
  dsimp only
  rw [if_pos hcode, hheld, if_neg Bool.false_ne_true]

theorem applyResponse_unserviceable (h : s.answered? resp = some (d, i, e)) (hcode : bits resp 49 48 = 2)
    (hheld : s.heldBack e.miss = false) : s.applyResponse resp =
      ((s.setFlag .CTX_FAULT_UNSERVICEABLE e.miss.ctx true).modEntry d i fun _ => none).unserviced (d * 512 + i) e.miss := by
  have hheld' : (s.setFlag .CTX_FAULT_UNSERVICEABLE e.miss.ctx true).heldBack e.miss = false := hheld
  rw [applyResponse, h]
  dsimp only
  rw [if_neg (by omega), hheld']
  exact if_neg (by simp)

/-- A tile that is not halted holds no answer back. -/
theorem heldBack_eq_false (hwho : e.miss.who = .group p g) (hhalt : (s.tile p).seq.halt = none) : s.heldBack e.miss = false := by
  simp [heldBack, hwho, tileOf, hhalt]

theorem f_haltTile (s : State) (p reason kind stream group addr : Nat) (x : Fld) (i : Nat) :
    (s.haltTile p reason kind stream group addr).f x i = s.f x i := by
  unfold haltTile
  dsimp only
  split
  · split <;> rfl
  · rfl

/-- A tile that is not halted halts with the reason that it meets. -/
theorem haltedAt_haltTile (h : (s.tile p).seq.halt = none) (reason kind stream group addr : Nat) :
    HaltedAt (s.haltTile p reason kind stream group addr) p reason kind (if kind = 1 then group else stream) addr := by
  simp only [haltTile, h]
  rw [HaltedAt, tile_modTile_self]
  exact ⟨rfl, _, rfl, rfl, rfl, rfl, rfl⟩

end

section
variable {p g : Nat}

/-! ### Replays (R254) -/

theorem f_wake (s : State) (p g : Nat) (x : Fld) (i : Nat) : (s.wake p g).f x i = s.f x i := by
  unfold wake
  split
  · rfl
  · exact (apply_ite (fun u : State => u.f x i) ..).trans (ite_self _)

theorem f_arrive (s : State) (p g : Nat) (x : Fld) (i : Nat) : (s.arrive p g).f x i = s.f x i := by
  unfold arrive
  split
  · split <;> rfl
  · rfl

theorem f_settleGroup (s : State) (p g : Nat) (x : Fld) (i : Nat) : (s.settleGroup p g).f x i = s.f x i := by
  unfold settleGroup
  dsimp only
  split
  · split
    · rw [f_wake, f_arrive]
    · exact f_arrive ..
  · exact f_arrive ..

/-- Bringing the waits of a tile up to date counts signals, and nothing else. -/
theorem f_settle (s : State) (p : Nat) {x : Fld} (hx : x ≠ .SYN_SIGNALS_COUNT) (hw : x ≠ .SYN_COUNTER_WRAP_SIGNALS_WRAPPED)
    (i : Nat) : (s.settle p).f x i = s.f x i := by
  rw [settle_eq, forEach_apply (·.f x i) _ fun s g => f_settleGroup s p g x i]
  exact forEach_apply (·.f x i) _ fun s z => f_bump_of_wrap rfl hx hw s 1 i

/-- A tile's cache has lost what it held for a page. -/
def dropTilePage (s : State) (p : Nat) (m : Miss) : State :=
  s.modTile p fun t => { t with xc := t.xc.filter fun x => !x.covers m.ctx m.va }

/-- The cache of a die's walker has lost what it held for a page; its entries of stage 2 name none and go together. -/
def dropWalkerPage (s : State) (m : Miss) : State := s.modDie m.die fun x => { x with
  w1 := x.w1.filter fun e => !(e.ctx == some m.ctx && e.key == m.va / 2 ^ levelShift e.level), w2 := [] }

theorem dropPage_eq {m : Miss} (hp : tileOf m.who = some p) : s.dropPage m = (s.dropTilePage p m).dropWalkerPage m := by
  rw [dropPage, hp]
  rfl

theorem covers_of_mem_dropTilePage {m : Miss} {y : XEntry} (hy : y ∈ ((s.dropTilePage p m).tile p).xc) :
    y.covers m.ctx m.va = false := by
  rw [dropTilePage, tile_modTile_self] at hy
  simpa using (List.mem_filter.mp hy).2

/-- A replay starts afresh: the entry is freed, the caches lose the page, the tile's waits are looked at again. -/
theorem retryEntry_eq (d i : Nat) {m : Miss} (hp : tileOf m.who = some p) :
    s.retryEntry d i m = (((s.modEntry d i fun _ => none).dropTilePage p m).dropWalkerPage m).settle p := by
  rw [retryEntry, hp, dropPage_eq hp]

/-- The entry is free again, the caches hold nothing for its page, and of the register fields only the count of signals can have
changed. -/
theorem retryEntry_spec {m : Miss} (d i : Nat) (hp : tileOf m.who = some p) (hd : m.die = d) :
    let u := s.retryEntry d i m
    u.mem = s.mem ∧ s.tilesBut u [p] ∧ (u.die d).entries.get none i = none ∧ (u.die d).w2 = []
      ∧ (∀ y ∈ (u.tile p).xc, y.covers m.ctx m.va = false)
      ∧ ∀ x ≠ .SYN_SIGNALS_COUNT, x ≠ .SYN_COUNTER_WRAP_SIGNALS_WRAPPED → ∀ j, u.f x j = s.f x j := by
  intro u
  let v := (s.modEntry d i fun _ => none).dropTilePage p m
  have hu : u = (v.dropWalkerPage m).settle p := retryEntry_eq d i hp
  have hv : TileOnly (s.modEntry d i fun _ => none) v p := tileOnly_modTile ..
  have hsettled := settled_settle (v.dropWalkerPage m) p
  have hdie : u.die d = (v.dropWalkerPage m).die d := by rw [hu, die_of_tileOnly hsettled.only]
  have hdropped : (v.dropWalkerPage m).die d = { v.die d with w1 := ((v.dropWalkerPage m).die d).w1, w2 := [] } := by
    rw [dropWalkerPage, hd, die_modDie_self]
  rw [hdie, hdropped, hu]
  refine ⟨(mem_of_tileOnly hsettled.only).trans (mem_of_tileOnly hv :),
    fun q hq => (hsettled.only.2 q hq).trans (hv.2 q hq), ?_, rfl, fun y hy => ?_, fun x hx hw j => f_settle _ _ hx hw j⟩
  · exact (entries_modEntry s d i fun _ => none).trans (Option.bind_fun_none _)
  · rw [hsettled.apply (·.xc) fun _ _ _ _ _ _ => rfl] at hy
    exact covers_of_mem_dropTilePage hy

/-! ### Answers that end a requester (R255) -/

/-- The entry is free again, the context shows that it was not served, and the group's tile halts. -/
theorem unserviced_group {m : Miss} (d i fid : Nat) (hwho : m.who = .group p g) (hhalt : (s.tile p).seq.halt = none) :
    let u := ((s.setFlag .CTX_FAULT_UNSERVICEABLE m.ctx true).modEntry d i fun _ => none).unserviced fid m
    u.mem = s.mem ∧ s.tilesBut u [p] ∧ (u.die d).entries.get none i = none ∧ u.flag .CTX_FAULT_UNSERVICEABLE m.ctx = true
      ∧ HaltedAt u p 0x000C 1 g m.instr := by
  intro u
  let v := s.setFlag .CTX_FAULT_UNSERVICEABLE m.ctx true
  have hu : u = (v.modEntry d i fun _ => none).haltTile p rUnserviceable 1 0 g m.instr := by
    simp only [u, v, unserviced, hwho]
  have honly := tileOnly_haltTile (v.modEntry d i fun _ => none) p rUnserviceable 1 0 g m.instr
  rw [hu]
  refine ⟨(mem_of_tileOnly honly :), honly.2, ?_, ?_, haltedAt_haltTile (s := v.modEntry d i fun _ => none) hhalt ..⟩
  · rw [die_of_tileOnly honly, entries_modEntry, Option.bind_fun_none]
  · rw [flag, f_haltTile]
    exact congrArg (· == 1) (s.f_setFlag_self .CTX_FAULT_UNSERVICEABLE m.ctx true)

end

end State

/-- Records of faults, and the answers to them. -/
theorem faultRing : Clause.FaultRing := by
  refine ⟨fun s s₁ d i o a e hs hnext hring hroom hproc hentry => ?record,
    fun s s₁ d i a e p g x resp hs hring hproc => ?answer, fun s s₁ a resp hs hring hproc => ?ignored, fun s => ?ringRetry⟩
  case record =>
    intro n haddr hidle hlive hlive'
    obtain ⟨hsent, r, hreqs, hr⟩ := State.faultWrite_requested hnext hring hroom hproc hidle haddr hlive hlive'
    have hwalked := State.walked_ringAddr haddr
    have honly := hsent.only
    refine ⟨_, rfl, by rw [honly]; rfl, by rw [honly]; exact hwalked.tiles, ?_, ?_, ?_, _, by rw [honly]; rfl⟩
    · rw [hsent.die, State.die_startRecord, State.entries_modEntry, hwalked.die]
      exact congrArg (Option.bind · _) hentry
    · rw [honly]
      exact (State.f_setF_self ..).trans (Nat.mod_mod_of_dvd _ (dvd_refl _))
    · rw [hreqs, hwalked.chl, List.drop_left]
      exact congrArg ([·]) hr
  case answer =>
    intro r hnew haddr hans hwho hdie hp hhalt hg
    have hwalked := State.walked_ringAddr haddr
    have hrun := State.ringResponse_eq (resp := resp.toNat) hring hproc hnew haddr
    let v := s₁.setF .XLT_RRING_NEXT_COUNT 0 ((r + 1) % 2 ^ 32)
    have htile : ∀ q, v.tile q = s.tile q := State.tile_of_tiles hwalked.tiles
    have hhalt' : (v.tile p).seq.halt = none := by rw [htile, hhalt]
    have hheld := State.heldBack_eq_false hwho hhalt'
    have hcount : v.f .XLT_RRING_NEXT_COUNT = (r + 1) % 2 ^ 32 := (State.f_setF_self ..).trans (Nat.mod_mod_of_dvd _ (dvd_refl _))
    refine ⟨fun hcode => ?_, fun hcode => ?_⟩
    · have hrun' : s.retry resp.toNat hs = v.retryEntry d i e.miss :=
        (State.retry_of_code hcode hs).trans (hrun.trans (State.applyResponse_retry hans hcode hheld))
      obtain ⟨hmem, hbut, hfree, hw2, hxc, hf⟩ := State.retryEntry_spec (s := v) d i (p := p) (by rw [hwho]; rfl) hdie
      exact ⟨_, congrArg Host.Outcome.next hrun', hmem, fun q hq => (hbut q hq).trans (htile q), hfree,
        (hf _ (by decide) (by decide) 0).trans hcount, hw2, hxc⟩
    · have hrun' := (State.unserviceable_of_code hcode hs).trans (hrun.trans (State.applyResponse_unserviceable hans hcode hheld))
      obtain ⟨hmem, hbut, hfree, hflag, hhalted⟩ := State.unserviced_group d i (d * 512 + i) hwho hhalt'
      exact ⟨_, congrArg Host.Outcome.next hrun', hmem, fun q hq => (hbut q hq).trans (htile q), hfree, hflag, hhalted⟩
  case ignored =>
    intro r hnew haddr hans hcode hcount
    have hwalked := State.walked_ringAddr haddr
    let v := s₁.setF .XLT_RRING_NEXT_COUNT 0 ((r + 1) % 2 ^ 32)
    have hv : v.f .XLT_RESP_IGNORED_COUNT = s.f .XLT_RESP_IGNORED_COUNT :=
      (State.f_setF_of_ne (by decide) ..).trans (hwalked.counts _ _ (by decide))
    have hrun : s.retry resp.toNat hs = v.bump .XLT_RESP_IGNORED_COUNT :=
      (State.retry_of_code hcode hs).trans
        ((State.ringResponse_eq hring hproc hnew haddr).trans (State.applyResponse_ignored hans))
    refine ⟨_, congrArg Host.Outcome.next hrun, State.bump_mem .., (State.bump_tiles ..).trans hwalked.tiles, ?_⟩
    rw [State.f_bump_self _ _ _ _ rfl (by rw [hv]; exact hcount), hv]
  case ringRetry =>
    refine ⟨_, rfl, rfl, ?_, fun x j hx => State.f_setFlag_other s false (by simpa using hx)⟩
    rw [State.flag, State.xltRingRetry, State.f_setFlag_self]
    rfl

end Sys2Proof.Machine
end

section
/-!
PROOF. Acknowledgements of an invalidation (R259, R260): one of several is noted, the last ends the invalidation and its item.
-/
namespace Sys2Proof.Machine

namespace State

variable {s : State}

/-! ### The end of an item counts no invalidation (R286) -/

theorem invalidations_complete (s : State) (q n : Nat) :
    (s.complete q n).f .XLT_INVALIDATIONS_COUNT = s.f .XLT_INVALIDATIONS_COUNT := by
  unfold complete
  split
  · rfl
  · refine (f_bump_of_wrap (c := .OBJ_STALE_ITEMS_COUNT) rfl (by decide) (by decide) _ _ 0).trans ?_
    rw [f_bump_of_wrap (c := .CTX_ITEMS_DONE_COUNT) rfl (by decide) (by decide),
      f_bump_of_wrap (c := .CTX_ITEMS_FAILED_COUNT) rfl (by decide) (by decide)]

theorem fields_countAborted (s : State) (q n i : Nat) : (s.countAborted q n i).fields = s.fields := by
  unfold countAborted
  split
  · split <;> rfl
  · rfl

theorem invalidations_endItem (s : State) (q n i : Nat) :
    (s.endItem q n i).f .XLT_INVALIDATIONS_COUNT = s.f .XLT_INVALIDATIONS_COUNT := by
  have hcounted : (s.countAborted q n i).f .XLT_INVALIDATIONS_COUNT = s.f .XLT_INVALIDATIONS_COUNT := by
    rw [f, fields_countAborted, f]
  unfold endItem
  dsimp only
  split
  · split
    · exact (invalidations_complete ..).trans hcounted
    · exact hcounted
  · exact hcounted

/-! ### Acknowledgements (R259, R260) -/

section
variable {i : Inval} {who : InvParticipant}

/-- An invalidation that waits for others, one participant's acknowledgement having come. -/
def acknowledge (s : State) (i : Inval) (who : InvParticipant) : State :=
  { s with invals := s.invals.map fun x => if x.id = i.id then { i with waitingFor := i.waitingFor.erase who } else x }

theorem invalAck_waits (hfirst : s.invals.find? (·.waitingFor.contains who) = some i) (hbusy : s.invalBusy i who = false)
    (hmore : i.waitingFor.erase who ≠ []) : s.invalAck i.id who = s.acknowledge i who := by
  unfold invalAck
  rw [hfirst]
  dsimp only
  rw [if_neg (by simp [hbusy]), if_neg hmore, acknowledge]

theorem invalAck_last (hfirst : s.invals.find? (·.waitingFor.contains who) = some i) (hbusy : s.invalBusy i who = false)
    (hlast : i.waitingFor = [who]) : s.invalAck i.id who = s.invalDone { i with waitingFor := [] } := by
  have herase : i.waitingFor.erase who = [] := by rw [hlast, List.erase_cons_head]
  unfold invalAck
  rw [hfirst]
  dsimp only
  rw [if_neg (by simp [hbusy]), herase, if_pos rfl]

/-- An invalidation that has completed is in progress no longer and counted. -/
def countInval (s : State) (i : Inval) : State :=
  { s with invals := s.invals.filter (·.id != i.id) }.bump .XLT_INVALIDATIONS_COUNT

/-- One that frees no context ends its descriptor's item, where it has one, and does nothing else. -/
theorem invalDone_cases (s : State) (hkeeps : i.destroys = none) :
    s.invalDone i = s.countInval i ∨ ∃ q n, s.invalDone i = (s.countInval i).endItem q n 0 := by
  unfold invalDone
  rw [hkeeps]
  cases i.desc with
  | none => exact .inl rfl
  | some x => exact .inr ⟨x.1, x.2, rfl⟩

theorem invalDone_spec (s : State) (hkeeps : i.destroys = none) :
    (s.countInval i).onlyCpFields (s.invalDone i)
      ∧ (s.invalDone i).f .XLT_INVALIDATIONS_COUNT = (s.countInval i).f .XLT_INVALIDATIONS_COUNT := by
  rcases s.invalDone_cases hkeeps with h | ⟨q, n, h⟩
  · rw [h]
    exact ⟨rfl, rfl⟩
  · rw [h]
    exact ⟨onlyCpFields_endItem .., invalidations_endItem ..⟩

end

end State

/-- The acknowledgements of an invalidation. -/
theorem invalidations : Clause.Invalidations := by
  intro s i who hfirst hbusy
  have hwho : who ∈ i.waitingFor := by simpa using List.find?_some hfirst
  refine ⟨fun hmore hnodup _ => ?waits, fun hlast hkeeps _ => ?last⟩
  case waits =>
    have hothers : i.waitingFor.erase who ≠ [] := fun h =>
      hmore ((List.erase_eq_nil_iff.mp h).resolve_left (List.ne_nil_of_mem hwho))
    refine ⟨_, congrArg Host.Outcome.next (State.invalAck_waits hfirst hbusy hothers), rfl, List.length_map _,
      { i with waitingFor := i.waitingFor.erase who }, ?_, rfl, rfl, hnodup.not_mem_erase⟩
    exact List.mem_map.mpr ⟨i, List.mem_of_find?_eq_some hfirst, if_pos rfl⟩
  case last =>
    let j := { i with waitingFor := [] }
    let u : State := { s with invals := s.invals.filter (·.id != i.id) }
    obtain ⟨honly, hcount⟩ := s.invalDone_spec (i := j) hkeeps
    refine ⟨_, congrArg Host.Outcome.next (State.invalAck_last hfirst hbusy hlast), ?_, ?_, ?_, fun hbound => hcount.trans ?_⟩
    · exact (State.mem_of_onlyCpFields honly).trans (u.bump_mem ..)
    · exact (State.tiles_of_onlyCpFields honly).trans (u.bump_tiles ..)
    · rw [honly]
      exact u.bump_invals ..
    · exact u.f_bump_self .XLT_INVALIDATIONS_COUNT 0 1 rfl hbound

/-- Settles O23: misses and walks, the fault ring and its responses, acknowledgements of invalidations. -/
theorem translation : Obligations.Translation := ⟨walks, faultRing, invalidations⟩

end Sys2Proof.Machine
end

section
/-!
PROOF. Records (R274, R275): the record that a completion queue writes reaches its port's queue only where no earlier
request waits for a tag of the port.
-/
namespace Sys2Proof.Machine
namespace State

/-- A malformed descriptor that has completed, its record held by completion queue 0. -/
def waitingTag.desc : Desc := ⟨0, 0, 0, 0, 0, 0, [], .complete, true, [], true, false, 0, false, [], 0, 0⟩

/-- Its completion queue: the consumer line has been read, the record is not yet being written. -/
def waitingTag.queue : CqState := ⟨some 0, false, [⟨[1, 0, 0, 0, 0, 0, 0, 1], 0, 0, false⟩]⟩

/-- Completion queue 0 may write its record, while a request of port 0 waits for a tag (R315). -/
def waitingTag : State :=
  { ((((State.reset.setF .SEC_PROC_STATUS_STATE 2 2).setF .QUE_CQ_CTRL_ENABLE 0 1).setF .QUE_CQ_STATUS_STATE 0 1).setF
      .XLT_S2_ROOT_TARGET 0 1) with
    cp := { Cp.reset with descs := [waitingTag.desc], cqs := [(0, waitingTag.queue)] },
    chl := { Chl.reset with later := [(0, 0, .req, ⟨0, []⟩)] } }

/-- Stage-2 tables in host memory: address 0 leads to host memory address 0, writable. -/
def waitingTag.tables : HostMem := [(0, .data (toLE 8 4097)), (4096, .data (toLE 8 23))]

theorem waitingTag_ringAddr : waitingTag.ringAddr 0 waitingTag.tables 0 .store = (waitingTag, .at 0) := by decide

/-- The record joins the requests that wait for a tag. -/
theorem waitingTag_queues_nothing : ∀ t, exec (.completionRecordWrite 0 waitingTag.tables) waitingTag = .next t →
    (t.port 0).out = [] ∧ (t.port 0).queue = [] := by
  intro t ht
  have hnone : (match exec (.completionRecordWrite 0 waitingTag.tables) waitingTag with
    | .next t => (t.port 0).out.isEmpty && (t.port 0).queue.isEmpty
    | _ => true) = true := by decide
  rw [ht] at hnone
  simpa using hnone

end State

/-- Refutes O31: with a request of the port that waits for a tag, the record joins those that wait; no message of it
stands on the port. -/
theorem not_records : ¬ Obligations.Records := by
  intro h
  obtain ⟨t, x, m, ht, -, -, -, -, -, -, -, -, -, -, hm, -⟩ := h.1 State.waitingTag State.waitingTag State.waitingTag 0 0
    ⟨[1, 0, 0, 0, 0, 0, 0, 1], 0, 0, false⟩ [] State.waitingTag.desc State.waitingTag.desc State.waitingTag.tables (by decide) rfl rfl rfl
    rfl (by decide) (by decide) rfl rfl rfl (Or.inl rfl) (by decide) (by decide) 0 rfl (by decide) State.waitingTag_ringAddr rfl (by decide)
  obtain ⟨hout, hqueue⟩ := State.waitingTag_queues_nothing t ht
  rw [show State.waitingTag.homePort 0 = 0 by decide, hout, hqueue] at hm
  exact List.not_mem_nil hm

end Sys2Proof.Machine
end

section
/-!
PROOF. What a change of register fields leaves alone, as lists of fields that only grow.
-/
namespace Sys2Proof.Machine.State

variable {s t u : State}

theorem fieldsBut_of_fields (h : t.fields = s.fields) (l : List (Fld × Nat)) : s.fieldsBut t l :=
  fun x i _ => by rw [f, f, h]

theorem fieldsBut_trans {l : List (Fld × Nat)} (h : s.fieldsBut t l) (h' : t.fieldsBut u l) : s.fieldsBut u l :=
  fun x i hx => (h' x i hx).trans (h x i hx)

theorem fieldsBut_mono {l l' : List (Fld × Nat)} (h : s.fieldsBut t l) (hl : l ⊆ l') : s.fieldsBut t l' :=
  fun x i hx => h x i fun hm => hx (hl hm)

theorem fieldsBut_setF (s : State) {x : Fld} {i : Nat} (v : Nat) {l : List (Fld × Nat)} (h : (x, i) ∈ l) :
    s.fieldsBut (s.setF x i v) l :=
  fun _ _ hy => f_setF_other s v fun e => hy (e ▸ h)

theorem fieldsBut_setFlag (s : State) {x : Fld} {i : Nat} (b : Bool) {l : List (Fld × Nat)} (h : (x, i) ∈ l) :
    s.fieldsBut (s.setFlag x i b) l :=
  fieldsBut_setF s (b2n b) h

/-- A count changes its counter and the field of its wrap bit. -/
theorem fieldsBut_bump (s : State) {c : Fld} {i : Nat} (n : Nat) {l : List (Fld × Nat)} (h : withWraps [(c, i)] ⊆ l) :
    s.fieldsBut (s.bump c i n) l := by
  refine fieldsBut_mono (fun y j hy => ?_) h
  simp only [withWraps, List.flatMap_cons, List.flatMap_nil, List.append_nil, List.mem_cons, not_or] at hy
  obtain ⟨hne, hwrap⟩ := hy
  refine f_bump_other s n hne fun w k b hw heq => hwrap ?_
  rw [hw, heq]
  exact List.mem_singleton.mpr rfl

/-- A flag reads as it was set. -/
theorem flag_setFlag_self (s : State) {x : Fld} (i : Nat) (b : Bool) (hw : x.width = 1) : (s.setFlag x i b).flag x i = b := by
  rw [flag, f_setFlag_self, hw]
  cases b <;> rfl

theorem flag_of_f_eq {x : Fld} {i : Nat} (h : t.f x i = s.f x i) : t.flag x i = s.flag x i := by rw [flag, flag, h]

theorem flag_setF_of_ne {x y : Fld} (h : y ≠ x) (s : State) (i v j : Nat) : (s.setF x i v).flag y j = s.flag y j :=
  flag_of_f_eq (f_setF_of_ne h s i v j)

/-- A flag and another field of the same instance are set, and no other. -/
theorem setFlag_setF_fields {x y : Fld} (hxy : x ≠ y) (hw : x.width = 1) (i : Nat) (b : Bool) (v : Nat)
    (ht : t.fields = ((s.setFlag x i b).setF y i v).fields) :
    t.flag x i = b ∧ t.f y i = v % 2 ^ y.width ∧ s.fieldsBut t [(x, i), (y, i)] := by
  have hf : ∀ z j, t.f z j = ((s.setFlag x i b).setF y i v).f z j := fun z j => by rw [f, f, ht]
  refine ⟨?_, (hf ..).trans (f_setF_self ..), ?_⟩
  · rw [flag_of_f_eq (hf ..), flag_setF_of_ne hxy, flag_setFlag_self _ _ _ hw]
  · exact fieldsBut_trans (fieldsBut_trans (fieldsBut_setFlag s b (by simp)) (fieldsBut_setF _ v (by simp)))
      (fieldsBut_of_fields ht _)

end Sys2Proof.Machine.State
end

section
/-!
PROOF. Queue set-up (R273, R275) and doorbells (R269, R270): when a write of ENABLE takes effect, and what a doorbell line
read again leaves.
-/
namespace Sys2Proof.Machine
namespace State

variable {s : State} {q : Nat}

/-! ### Enabling and disabling -/

/-- The conditions under which a submission queue is enabled (R273). -/
def sqMayEnable (s : State) (q : Nat) : Prop :=
  s.f .CTX_STATUS_STATE (s.f .QUE_SQ_SETUP_CONTEXT q) = 2 ∧ s.flag .QUE_CQ_CTRL_ENABLE (s.f .QUE_SQ_SETUP_CQ q) = true
  ∧ s.f .QUE_CQ_SETUP_CONTEXT (s.f .QUE_SQ_SETUP_CQ q) = s.f .QUE_SQ_SETUP_CONTEXT q
  ∧ s.variant.hasDie (s.f .QUE_SQ_SETUP_SERVE_DIE q) = true
  ∧ s.f .QUE_SQ_BASE_ADDR q * 4096 % (64 * 2 ^ s.f .QUE_SQ_SETUP_SIZE_LOG2 q) = 0
  ∧ (s.sqsOf (s.f .QUE_SQ_SETUP_CONTEXT q)).length < 16

/-- A submission queue enabled: it runs, its doorbell line is to be read. -/
def sqEnabled (s : State) (q : Nat) : State :=
  ((s.setFlag .QUE_SQ_CTRL_ENABLE q true).setF .QUE_SQ_STATUS_STATE q 1).modCp fun x =>
    { x with sqs := x.sqs.put ⟨0, false, none⟩ q ⟨0, false, none⟩, stale := x.stale ++ [.doorbell q] }

open Classical in
theorem sqEnable_eq (hq : q < 1024) (hoff : s.flag .QUE_SQ_CTRL_ENABLE q = false) :
    s.sqEnable q = if s.sqMayEnable q then s.sqEnabled q else s.setFlag .QUE_SQ_CTRL_SETUP_ERROR q true := by
  rw [sqEnable, if_neg (by simp [hoff]; omega)]
  refine if_congr ?_ rfl rfl
  simp [sqMayEnable, ctxState, serveDie, and_assoc]

theorem sqDisable_eq (hq : q < 1024) (hon : s.flag .QUE_SQ_CTRL_ENABLE q = true) :
    s.sqDisable q = ((s.setFlag .QUE_SQ_CTRL_ENABLE q false).dropLine (.doorbell q)).setF .QUE_SQ_STATUS_STATE q
      (if s.inflight q = 0 then 0 else 2) := by
  rw [sqDisable, if_neg (by simp [hon]; omega)]
  rfl

/-- The conditions under which a completion queue is enabled (R275). -/
def cqMayEnable (s : State) (q : Nat) : Prop :=
  s.f .CTX_STATUS_STATE (s.f .QUE_CQ_SETUP_CONTEXT q) = 2
  ∧ s.f .QUE_CQ_BASE_ADDR q * 2048 % (32 * 2 ^ s.f .QUE_CQ_SETUP_SIZE_LOG2 q) = 0
  ∧ (s.flag .QUE_CQ_CTRL_ENABLE q = true ∨ (s.cqsOf (s.f .QUE_CQ_SETUP_CONTEXT q)).length < 16)

/-- A completion queue enabled: it runs, its consumer line is to be read. -/
def cqEnabled (s : State) (q : Nat) : State :=
  (((s.setFlag .QUE_CQ_CTRL_ENABLE q true).setF .QUE_CQ_STATUS_STATE q 1).dropLine (.cqConsumer q)).modCp fun x =>
    { x with stale := x.stale ++ [.cqConsumer q], cqs := x.cqs.upd .reset q fun y => { y with consumer := none } }

theorem cqs_cqEnabled_self :
    (s.cqEnabled q).cp.cqs.get .reset q = { s.cp.cqs.get .reset q with consumer := none } :=
  FMap.get_upd_self .reset s.cp.cqs q fun y => { y with consumer := none }

theorem cqs_cqEnabled_other {k : Nat} (h : k ≠ q) : (s.cqEnabled q).cp.cqs.get .reset k = s.cp.cqs.get .reset k :=
  FMap.get_upd_other .reset s.cp.cqs (fun y => { y with consumer := none }) h

open Classical in
theorem cqEnable_eq (hq : q < 1024) (hoff : s.flag .QUE_CQ_CTRL_ENABLE q = false ∨ s.f .QUE_CQ_STATUS_STATE q = 2) :
    s.cqEnable q = if s.cqMayEnable q then s.cqEnabled q else s.setFlag .QUE_CQ_CTRL_SETUP_ERROR q true := by
  rw [cqEnable, if_neg (by rcases hoff with h | h <;> simp [h] <;> omega)]
  refine if_congr ?_ rfl rfl
  simp [cqMayEnable, ctxState, and_assoc]

/-- A completion queue disabled (R275). -/
def cqDisabled (s : State) (q : Nat) : State :=
  ((s.setFlag .QUE_CQ_CTRL_ENABLE q false).setF .QUE_CQ_STATUS_STATE q 0).dropLine (.cqConsumer q)

theorem cqDisable_named (h : ∃ k, k < 1024 ∧ s.flag .QUE_SQ_CTRL_ENABLE k = true ∧ s.f .QUE_SQ_SETUP_CQ k = q) :
    s.cqDisable q = s := by
  obtain ⟨k, hk, hon, hcq⟩ := h
  rw [cqDisable, if_pos (Or.inr (Or.inr ?_))]
  exact List.any_eq_true.mpr ⟨k, List.mem_range.mpr hk, by simp [hon, hcq]⟩

theorem cqDisable_unnamed (hq : q < 1024) (hon : s.flag .QUE_CQ_CTRL_ENABLE q = true)
    (h : ∀ k, k < 1024 → s.flag .QUE_SQ_CTRL_ENABLE k = true → s.f .QUE_SQ_SETUP_CQ k ≠ q) : s.cqDisable q = s.cqDisabled q := by
  rw [cqDisable, if_neg]
  · rfl
  · simp only [hon, Bool.not_true, Bool.false_eq_true, false_or, not_or, not_le, List.any_eq_true, List.mem_range,
      Bool.and_eq_true, beq_iff_eq, not_exists, not_and]
    exact ⟨hq, h⟩

/-! ### Doorbells -/

/-- An error record is held where there is room for it (R290). -/
theorem errRec_of_room (h : s.cp.errs.length < 256) (kind : Nat) (ctx : Option Nat) (words : List Nat) :
    s.errRec kind ctx words = s.modCp fun c => { c with errs := c.errs ++ [⟨kind, ctx, s.time, words⟩] } := if_pos h

/-- A submission queue stops: STATE is 3, its error record is held, the rest of the command processors' state stays (R269). -/
theorem sqStop_effect (h : s.cp.errs.length < 256) (q cause : Nat) :
    s.onlyCpFields (s.sqStop q cause) ∧ s.fieldsBut (s.sqStop q cause) [(.QUE_SQ_STATUS_STATE, q)]
      ∧ (s.sqStop q cause).f .QUE_SQ_STATUS_STATE q = 3
      ∧ (s.sqStop q cause).cp = { s.cp with
          errs := s.cp.errs ++ [⟨3, some (s.f .QUE_SQ_SETUP_CONTEXT q), s.time, [q + cause * 4096]⟩] } := by
  rw [sqStop, errRec_of_room (s := s.setF .QUE_SQ_STATUS_STATE q 3) h]
  refine ⟨rfl, fieldsBut_trans (fieldsBut_setF s 3 (List.mem_singleton.mpr rfl)) (fieldsBut_of_fields rfl _), ?_, rfl⟩
  exact f_setF_self s .QUE_SQ_STATUS_STATE q 3

/-- A doorbell line read: it is held shared, and its value is the producer index. -/
def bellRead (s : State) (q a v : Nat) : State :=
  ((s.dropLine (.doorbell q)).modCp fun c => { c with lines := c.lines ++ [(.doorbell q, a)] }).modCp fun c =>
    { c with sqs := c.sqs.upd ⟨0, false, none⟩ q fun x => { x with producer := v, known := true } }

theorem onlyCpFields_bellRead (s : State) (q a v : Nat) : s.onlyCpFields (s.bellRead q a v) := rfl

theorem bellRead_sq (s : State) (q a v : Nat) : (s.bellRead q a v).cp.sqs.get ⟨0, false, none⟩ q =
    { s.cp.sqs.get ⟨0, false, none⟩ q with producer := v, known := true } :=
  FMap.get_upd_self ⟨0, false, none⟩ s.cp.sqs q fun x => { x with producer := v, known := true }

theorem mem_lines_bellRead (s : State) (q a v : Nat) : (.doorbell q, a) ∈ (s.bellRead q a v).cp.lines :=
  List.mem_append_right _ (List.mem_singleton.mpr rfl)

/-- The index read stops the queue where it lies out of the ring's window. -/
theorem lineValue_doorbell (s : State) (q a v : Nat) :
    ((s.dropLine (.doorbell q)).modCp fun c => { c with lines := c.lines ++ [(.doorbell q, a)] }).lineValue (.doorbell q) v =
      if (s.cp.sqs.get ⟨0, false, none⟩ q).latched = none
          ∧ 2 ^ s.f .QUE_SQ_SETUP_SIZE_LOG2 q < (v + 2 ^ 32 - s.f .QUE_SQ_CONSUMER_INDEX q) % 2 ^ 32
        then (s.bellRead q a v).sqStop q 2 else s.bellRead q a v := by
  have hlatched : ((s.bellRead q a v).cp.sqs.get ⟨0, false, none⟩ q).latched = (s.cp.sqs.get ⟨0, false, none⟩ q).latched := by
    rw [bellRead_sq]
  rw [← hlatched]
  rfl

/-- What the outcome of the read of a doorbell line comes to. -/
def bellOutcome (s : State) (q : Nat) : Option (Nat × List Byte × Bool) → State
  | none => s.sqStop q 1
  | some (a, bs, _) =>
    ((s.dropLine (.doorbell q)).modCp fun c => { c with lines := c.lines ++ [(.doorbell q, a)] }).lineValue (.doorbell q)
      (fromLE (bs.take 4))

theorem lineReread_doorbell {s₁ : State} {hs : HostMem} {r : Option (Nat × List Byte × Bool)}
    (hon : s.flag .QUE_SQ_CTRL_ENABLE q = true) (hrun : s.f .QUE_SQ_STATUS_STATE q = 1)
    (hproc : s.procRunning (2 + s.f .QUE_SQ_SETUP_SERVE_DIE q) = true) (hline : ∀ x ∈ s.cp.lines, x.1 ≠ .doorbell q)
    (hread : s.ringRead (s.f .QUE_SQ_SETUP_SERVE_DIE q) hs (s.f .QUE_SQ_DOORBELL_ADDR q * 64) 64 = (s₁, some r)) :
    s.lineReread (.doorbell q) hs = s₁.bellOutcome q r := by
  have hheld : s.cp.lines.any (·.1 == .doorbell q) = false := by
    simpa [List.any_eq_false] using fun x y hx => hline (x, y) hx
  rw [lineReread]
  dsimp only [lineIpa, serveDie]
  rw [if_neg (by simp [hon, hrun, hproc, hheld]), hread]
  cases r <;> rfl

end State

theorem queueSetup : Clause.QueueSetup := by
  refine ⟨fun s q hq hoff => ?_, fun s q hq hon => ?_, fun s q hq hoff => ?_, fun s q hq hon => ⟨fun h => ?_, fun h => ?_⟩⟩
  · refine ⟨s.sqEnable q, rfl, ?_⟩
    rw [State.sqEnable_eq hq hoff]
    split
    · next hok =>
      exact ⟨rfl, fun _ => State.setFlag_setF_fields (by decide) rfl q true 1 rfl, fun hno => absurd hok hno⟩
    · next hno =>
      exact ⟨rfl, fun hok => absurd hok hno, fun _ =>
        ⟨State.flag_setFlag_self s q true rfl, State.fieldsBut_setFlag s true (by simp), rfl⟩⟩
  · refine ⟨_, congrArg Host.Outcome.next (State.sqDisable_eq hq hon), rfl, rfl, ?_⟩
    obtain ⟨hflag, hstate, hbut⟩ := State.setFlag_setF_fields (s := s) (x := .QUE_SQ_CTRL_ENABLE) (y := .QUE_SQ_STATUS_STATE)
      (by decide) rfl q false (if s.inflight q = 0 then 0 else 2) rfl
    exact ⟨hflag, hstate.trans (by split <;> rfl), hbut⟩
  · refine ⟨s.cqEnable q, rfl, ?_⟩
    rw [State.cqEnable_eq hq hoff]
    split
    · next hok =>
      refine ⟨rfl, fun k hk => ?_, ?_, ?_, fun _ => State.setFlag_setF_fields (by decide) rfl q true 1 rfl,
        fun hno => absurd hok hno⟩
      · exact State.cqs_cqEnabled_other hk
      · rw [State.cqs_cqEnabled_self]
      · rw [State.cqs_cqEnabled_self]
    · next hno =>
      exact ⟨rfl, fun _ _ => rfl, rfl, rfl, fun hok => absurd hok hno, fun _ =>
        ⟨State.flag_setFlag_self s q true rfl, State.fieldsBut_setFlag s true (by simp)⟩⟩
  · exact congrArg Host.Outcome.next (State.cqDisable_named h)
  · have ht := State.cqDisable_unnamed hq hon h
    exact ⟨_, congrArg Host.Outcome.next ht, rfl, rfl, State.setFlag_setF_fields (by decide) rfl q false 0 rfl⟩

theorem doorbells : Clause.Doorbells := by
  intro s s₁ q hs r hon hrun hproc hline hread hroom
  have ht := State.lineReread_doorbell hon hrun hproc hline hread
  refine ⟨_, congrArg Host.Outcome.next ht, ?_⟩
  cases r with
  | none =>
    obtain ⟨hframe, hbut, hstate, hcp⟩ := State.sqStop_effect hroom q 1
    refine ⟨hframe, hbut, fun a bs poison h => ?_, fun _ => ⟨hstate, ?_, ?_⟩⟩
    · cases h
    · exact congrArg Cp.errs hcp
    · rw [State.bellOutcome, hcp]
  | some r =>
    obtain ⟨a, bs, poison⟩ := r
    rw [State.bellOutcome, State.lineValue_doorbell]
    generalize hv : fromLE (bs.take 4) = v
    have hbell := State.bellRead_sq s₁ q a v
    have hmem := State.mem_lines_bellRead s₁ q a v
    split
    · next hout =>
      obtain ⟨hframe, hbut, hstate, hcp⟩ := State.sqStop_effect (s := s₁.bellRead q a v) hroom q 2
      refine ⟨State.onlyCpFields_trans (State.onlyCpFields_bellRead s₁ q a v) hframe,
        State.fieldsBut_trans (State.fieldsBut_of_fields rfl _) hbut,
        fun a' bs' p' h => ?_, fun h => by cases h⟩
      obtain ⟨rfl, rfl, rfl⟩ : a = a' ∧ bs = bs' ∧ poison = p' := by simpa using h
      rw [hv, hcp, hbell]
      refine ⟨hmem, rfl, rfl, ?_⟩
      rw [if_pos hout]
      exact ⟨hstate, rfl⟩
    · next hin =>
      refine ⟨rfl, State.fieldsBut_of_fields rfl _, fun a' bs' p' h => ?_, fun h => by cases h⟩
      obtain ⟨rfl, rfl, rfl⟩ : a = a' ∧ bs = bs' ∧ poison = p' := by simpa using h
      rw [hv, hbell]
      refine ⟨hmem, rfl, rfl, ?_⟩
      rw [if_neg hin]
      exact ⟨rfl, rfl⟩

/-- Settles O25: enabling and disabling of queues, and doorbell lines read again. -/
theorem queuesAndDoorbells : Obligations.QueuesAndDoorbells := ⟨queueSetup, doorbells⟩

end Sys2Proof.Machine
end

section
/-!
PROOF. Answers of the host to snoops (R310, R312, R313): what settling a snoop does to the filter, and what a write back
leaves in memory.
-/
namespace Sys2Proof.Machine

/-- The update reaches a member that satisfies the test, where one does. -/
theorem exists_mem_updFirst {α : Type} {c : α → Bool} (g : α → α) {l : List α} (h : ∃ x ∈ l, c x = true) :
    ∃ x ∈ l, c x = true ∧ g x ∈ updFirst c g l := by
  induction l with
  | nil => simp at h
  | cons a l ih =>
    by_cases ha : c a = true
    · exact ⟨a, List.mem_cons_self, ha, by simp [updFirst, ha]⟩
    · have hl : ∃ x ∈ l, c x = true := by simpa [ha] using h
      obtain ⟨x, hx, hc, hg⟩ := ih hl
      exact ⟨x, List.mem_cons_of_mem _ hx, hc, by simp [updFirst, ha, hg]⟩

/-- A member that does not satisfy the test stays. -/
theorem mem_updFirst_of_not {α : Type} {c : α → Bool} (g : α → α) {l : List α} {x : α} (hx : x ∈ l) (hc : c x = false) :
    x ∈ updFirst c g l := by
  induction l with
  | nil => simp at hx
  | cons a l ih =>
    by_cases ha : c a = true
    · have hne : x ≠ a := fun h => by rw [h, ha] at hc; cases hc
      simp only [updFirst, ha, if_true]
      exact List.mem_cons_of_mem _ ((List.mem_cons.mp hx).resolve_left hne)
    · simp only [updFirst, ha]
      rcases List.mem_cons.mp hx with rfl | hl
      · exact List.mem_cons_self
      · exact List.mem_cons_of_mem _ (ih hl)

/-- An update that keeps a value of the members keeps the list of these values. -/
theorem map_updFirst {α β : Type} {c : α → Bool} {g : α → α} {φ : α → β} (hg : ∀ x, φ (g x) = φ x) (l : List α) :
    (updFirst c g l).map φ = l.map φ := by
  induction l with
  | nil => rfl
  | cons a l ih =>
    by_cases ha : c a = true <;> simp [updFirst, ha, hg, ih]

namespace State

variable {s t : State} {x : Snoop} {e : FilterEntry}

/-! ### Cells and writes of a line -/

/-- A cell lies at the offset in its page that its address has (R223, R224). -/
theorem cellOf_mod_page {pa c : Nat} (h : s.cellOf pa = some c) : c % 4096 = pa % 4096 := by
  simp only [cellOf] at h
  split at h
  · split at h
    · rw [← Option.some.inj h]
      omega
    · split at h
      · rw [← Option.some.inj h]
        omega
      · exact absurd h (by simp)
    · exact absurd h (by simp)
  · split at h
    · split at h
      · exact absurd h (by simp)
      · rw [← Option.some.inj h]
        omega
    · exact absurd h (by simp)

/-- The host's line is written to memory, with an eyespot where its data are poisoned (R312). -/
theorem writeBack_eq {line c : Nat} {data : List Byte} (poison : Bool) (hc : s.cellOf (64 * line) = some c)
    (hdata : data.length = 64) : s.writeBack line data poison =
      (((s.bump .HBM_WRITES_COUNT (c / 64 / 2 ^ 30)).setEye (c / 64) false).putBytes c data).when poison
        fun s => s.setEye (c / 64) true := by
  have hline : c / 64 * 64 = c := by
    have := cellOf_mod_page hc
    omega
  rw [writeBack, Nat.mul_comm line, hc, fit_of_length hdata]
  dsimp only
  rw [writeLine, if_pos hdata, hline]

theorem writeBack_effect {line c : Nat} {data : List Byte} (poison : Bool) (hc : s.cellOf (64 * line) = some c)
    (hdata : data.length = 64) :
    let t := s.writeBack line data poison
    t = { s with fields := t.fields, mem := t.mem, eyes := t.eyes } ∧ t.memBytes c 64 = data ∧ s.memBut t c 64
      ∧ t.eye (c / 64) = poison := by
  have hmem : (s.writeBack line data poison).mem = FMap.putList memDefault s.mem c data := by
    rw [writeBack_eq poison hc hdata]
    cases poison <;> exact congrArg (FMap.putList memDefault · c data) (s.bump_mem .HBM_WRITES_COUNT _ 1)
  have hb : s.onlyFields (s.bump .HBM_WRITES_COUNT (c / 64 / 2 ^ 30)) := bump_onlyFields ..
  rw [onlyFields] at hb
  refine ⟨?_, ?_, fun a ha => ?_, ?_⟩
  · rw [writeBack_eq poison hc hdata, hb]
    cases poison <;> rfl
  · rw [memBytes, hmem, ← hdata]
    exact FMap.getList_putList_self ..
  · rw [memByte, hmem, FMap.get_putList, hdata, if_neg ha]
    rfl
  · rw [writeBack_eq poison hc hdata]
    cases poison
    · exact eye_setEye_self (s.bump .HBM_WRITES_COUNT (c / 64 / 2 ^ 30)) _ false
    · exact eye_setEye_self _ _ true

/-! ### Settling a snoop -/

/-- No request or snoop of the part waits for a tag, so none takes one. -/
theorem sendLater_of_none (h : s.chl.later = []) (k : Nat) (c : Channel) : s.sendLater k c = s := by
  rw [sendLater, h]
  rfl

end State

/-- What a settled snoop leaves of the entry of its line, where the port no longer holds it, or holds it shared (R313). -/
def Snoop.leaves (x : Snoop) (e : FilterEntry) : Option FilterEntry :=
  let e' : FilterEntry := if x.data then { e with owned := false }
    else ⟨e.p0 && x.port != 0, e.p1 && x.port != 1, false, e.order⟩
  if !e'.p0 && !e'.p1 then none else some e'

namespace State

variable {s t : State} {x : Snoop} {e : FilterEntry}

theorem filterAt_setFilter (s : State) (l j : Nat) (e : Option FilterEntry) :
    (s.setFilter l e).filterAt j = if j = l then e else s.filterAt j := FMap.get_put none s.chl.filter l j e

/-- A snoop is no longer outstanding. -/
def dropSnoop (s : State) (x : Snoop) : State :=
  { s with chl := { s.chl with snoops := s.chl.snoops.filter (·.id != x.id) } }

theorem onlyFields_when_bump (s : State) (b : Bool) (c : Fld) (i n : Nat) : s.onlyFields (s.when b (·.bump c i n)) := by
  cases b
  · rfl
  · exact bump_onlyFields c i n

/-- A settled snoop is no longer outstanding, and its line's entry is what it leaves. -/
theorem snoopSettled_eq (hlater : s.chl.later = []) (he : s.filterAt x.line = some e) : s.snoopSettled x =
    ((s.dropSnoop x).setFilter x.line (x.leaves e)).when ((x.leaves e).isNone && x.evict) (·.bump .CHL_SF_EVICTIONS_COUNT) := by
  have hsent : (s.dropSnoop x).sendLater x.port .snp = s.dropSnoop x := sendLater_of_none (s := s.dropSnoop x) hlater ..
  have he' : (s.dropSnoop x).filterAt x.line = some e := he
  have hgone : ∀ e' : FilterEntry, ((if !e'.p0 && !e'.p1 then none else some e').isNone) = (!e'.p0 && !e'.p1) := fun e' => by
    split <;> simp_all
  rw [Snoop.leaves, hgone, snoopSettled]
  dsimp only
  generalize hu : State.sendLater _ _ _ = u
  obtain rfl : u = s.dropSnoop x := hu.symm.trans hsent
  rw [he']

theorem snoopSettled_effect (hlater : s.chl.later = []) (he : s.filterAt x.line = some e) :
    let t := s.snoopSettled x
    t = { s with fields := t.fields, chl := { s.chl with
        snoops := s.chl.snoops.filter (·.id != x.id), filter := t.chl.filter } }
      ∧ ∀ l, t.filterAt l = if l = x.line then x.leaves e else s.filterAt l := by
  rw [snoopSettled_eq hlater he]
  have hb := onlyFields_when_bump ((s.dropSnoop x).setFilter x.line (x.leaves e)) ((x.leaves e).isNone && x.evict)
    .CHL_SF_EVICTIONS_COUNT 0 1
  rw [onlyFields] at hb
  refine ⟨?_, fun l => ?_⟩
  · rw [hb]
    rfl
  · rw [hb]
    exact filterAt_setFilter ..

/-- Nothing held back is served again. -/
theorem rerun_of_nothing (hw : s.chl.waiting = []) (hp : s.fab.heldPeers = []) : s.rerun = s :=
  rerun_of_onlyUpkeep rfl hw hp

/-- Settling a snoop serves nothing again where nothing waits. -/
theorem rerun_snoopSettled (hlater : s.chl.later = []) (he : s.filterAt x.line = some e) (hw : s.chl.waiting = [])
    (hp : s.fab.heldPeers = []) : (s.snoopSettled x).rerun = s.snoopSettled x := by
  have hframe := (snoopSettled_effect (x := x) hlater he).1
  refine rerun_of_nothing ?_ ?_
  · rw [hframe]
    exact hw
  · rw [hframe]
    exact hp

end State

/-! ### The statement -/

theorem snoopAnswers : Clause.SnoopAnswers := by
  refine ⟨fun s k tag hdr x e hk hty htag hx he hwait hlater hpeers hdata hids => ⟨fun hown => ?_, fun hown => ?_⟩,
    fun s k tag c hdr data x e hk hty htag hx he hc hwait hlater hpeers hlen => ?_, fun s k hdr hup hty => ?_⟩
  · have hport : x.port = k := (by simpa using List.find?_some hx : x.port = k ∧ x.tag = tag).1
    have hfind : s.snoopByTag k (Msg.tag hdr.toNat) = some x := by rw [htag]; exact hx
    obtain ⟨hframe, hfilter⟩ := State.snoopSettled_effect (x := x) hlater he
    have ht : s.snoopAck k hdr.toNat = s.snoopSettled x := by
      rw [State.snoopAck, if_neg (fun h => h hty), hfind]
      dsimp only
      rw [he]
      dsimp only
      rw [hown, if_neg (by decide), State.rerun_snoopSettled hlater he hwait hpeers]
    refine ⟨_, congrArg Host.Outcome.next ht, ?_, ?_, ?_, ?_, fun l hl => ?_⟩
    · rw [hframe]
    · rw [hframe]
    · rw [hframe]
    · rw [hfilter, if_pos rfl, Snoop.leaves, hdata, hport]
      cases e.p0 && k != 0 <;> cases e.p1 && k != 1 <;> rfl
    · rw [hfilter, if_neg hl]
  · have hfind : s.snoopByTag k (Msg.tag hdr.toNat) = some x := by rw [htag]; exact hx
    have ht : s.snoopAck k hdr.toNat =
        { s with chl := { s.chl with snoops := updFirst (fun y => y.id == x.id) (fun y => { y with wb := true }) s.chl.snoops } } := by
      rw [State.snoopAck, if_neg (fun h => h hty), hfind]
      dsimp only
      rw [he]
      dsimp only
      rw [hown, if_pos rfl]
    refine ⟨_, congrArg Host.Outcome.next ht, rfl, rfl, ?_, ?_⟩
    · exact map_updFirst (g := fun y : Snoop => { y with wb := true }) (φ := Snoop.id) (fun _ => rfl) s.chl.snoops
    obtain ⟨y, -, hid, hy⟩ := exists_mem_updFirst (c := fun y => y.id == x.id) (fun y : Snoop => { y with wb := true })
      ⟨x, List.mem_of_find?_eq_some hx, beq_self_eq_true _⟩
    exact ⟨_, hy, beq_iff_eq.mp hid, rfl⟩
  · have hfind : s.snoopByTag k (Msg.tag hdr.toNat) = some x := by rw [htag]; exact hx
    obtain ⟨hback, hbytes, hbut, heye⟩ := State.writeBack_effect (Msg.poison hdr.toNat) hc hlen
    generalize hu : s.writeBack x.line data (Msg.poison hdr.toNat) = u at hback hbytes hbut heye
    have hlater' : u.chl.later = [] := by rw [hback]; exact hlater
    have he' : u.filterAt x.line = some e := by rw [hback]; exact he
    obtain ⟨hframe, hfilter⟩ := State.snoopSettled_effect (x := x) hlater' he'
    have ht : s.snoopAckData k hdr.toNat data = u.snoopSettled x := by
      rw [State.snoopAckData, if_neg (fun h => h hty), hfind]
      dsimp only
      rw [hu]
      exact State.rerun_snoopSettled hlater' he' (by rw [hback]; exact hwait) (by rw [hback]; exact hpeers)
    refine ⟨_, congrArg Host.Outcome.next ht, ?_, ?_, fun a ha => ?_, ?_, ?_, fun hd hheld => ?_⟩
    · rw [hframe, hback]
    · rw [hframe]
      exact hbytes
    · rw [hframe]
      exact hbut a ha
    · rw [hframe]
      exact heye
    · rw [hframe, hback]
    · rw [hfilter, if_pos rfl, Snoop.leaves, hd]
      rcases hheld with h | h <;> simp [h]
  · refine ⟨s.hostSnoop k hdr.toNat, rfl, ?_⟩
    rw [State.hostSnoop, hup, if_neg (by decide), if_neg (fun h => h hty)]
    dsimp only
    generalize hu : ({ s.modCp _ with chl := _ } : State) = u
    rw [State.sendMsg_frame]
    have hup' : u.portUp k = true := by rw [← hu]; exact hup
    refine ⟨by rw [← hu]; rfl, by rw [← hu]; rfl, fun y hy => ?_, fun y hy => ?_, ?_⟩
    · rw [← hu] at hy
      simpa using (List.mem_filter.mp hy).2
    · rw [← hu]
      split
      · next ha =>
        exact List.mem_append_right _ (List.mem_map.mpr ⟨y, List.mem_filter.mpr ⟨hy, by simpa using ha⟩, rfl⟩)
      · next ha => exact List.mem_filter.mpr ⟨hy, by simpa using ha⟩
    · rw [← State.sendMsg_frame]
      exact State.msgSent_of_port_eq (by rw [← hu]; rfl) (State.msgSent_sendMsg hup' .rsp (Msg.is_header (by decide) (Msg.tag_lt _) _ []))

end Sys2Proof.Machine
end

section
/-!
PROOF. Responses to the part's own requests (R307, R315): what a request that succeeds, fails or runs into the completion
limit leaves.
-/
namespace Sys2Proof.Machine
namespace State

variable {s : State} {r : HostReq}

/-! ### The request among those that stand -/

/-- The requester takes the outcome later: the request stays among those that stand. -/
def keepsOutcome (o : Owner) : Prop :=
  (∃ p g, o = .group p g) ∨ (∃ p q, o = .stream p q) ∨ (∃ p, o = .gather p) ∨ ∃ p, o = .sync p

/-- A change of a request is found among the requests, the others stay. -/
theorem mem_modHost (hr : r ∈ s.chl.reqs) (hids : (s.chl.reqs.map (·.id)).Nodup) (g : HostReq → HostReq) :
    g r ∈ (s.modHost r g).chl.reqs ∧ ∀ y ∈ s.chl.reqs, y.id ≠ r.id → y ∈ (s.modHost r g).chl.reqs := by
  obtain ⟨x, hx, hid, hg⟩ := exists_mem_updFirst (c := fun x : HostReq => x.id == r.id) g ⟨r, hr, beq_self_eq_true _⟩
  have hxr : x = r := List.inj_on_of_nodup_map hids hx hr (by simpa using hid)
  rw [hxr] at hg
  exact ⟨hg, fun y hy hne => mem_updFirst_of_not g hy (by simpa using hne)⟩

/-! ### Outcomes -/

theorem hostDone_kept (hk : keepsOutcome r.owner) (bytes : List Byte) (poison : Bool) :
    s.hostDone r bytes poison = s.modHost r fun x => { x with status := .done, reply := bytes, poison := poison } := by
  rw [hostDone]
  rcases hk with ⟨p, g, h⟩ | ⟨p, q, h⟩ | ⟨p, h⟩ | ⟨p, h⟩ <;> rw [h]

theorem hostDone_store {p : Nat} {who : List (Nat × Nat)} (h : r.owner = .store p who) (bytes : List Byte) (poison : Bool) :
    s.hostDone r bytes poison = s.dropHost r := by
  rw [hostDone, h]
  rfl

/-- A failed read delivers zero, and its item fails (R315). -/
theorem hostFailed_kept (hk : keepsOutcome r.owner) : s.hostFailed r =
    (s.failAt r.item stHostFailed).modHost r fun x => { x with status := .failed, reply := rep r.len 0 } := by
  rw [hostFailed]
  rcases hk with ⟨p, g, h⟩ | ⟨p, q, h⟩ | ⟨p, h⟩ | ⟨p, h⟩ <;> rw [h]

/-- A record that cannot be written stops its completion queue (R275). -/
theorem hostFailed_cq {q : Nat} (h : r.owner = .cq q) : s.hostFailed r = (s.dropHost r).ringFailed (.cq q) := by
  rw [hostFailed, h]
  rfl

theorem ringFailed_cq_effect (h : s.cp.errs.length < 256) (q : Nat) : let t := s.ringFailed (.cq q)
    s.onlyCpFields t ∧ t.f .QUE_CQ_STATUS_STATE q = 2
      ∧ t.cp.errs = s.cp.errs ++ [⟨3, some (s.f .QUE_CQ_SETUP_CONTEXT q), s.time, [q + 1024 + 4096]⟩] := by
  have hroom : ((s.modCp fun c => { c with cqs := c.cqs.upd .reset q fun x => { x with writing := false } }).setF
      .QUE_CQ_STATUS_STATE q 2).cp.errs.length < 256 := h
  have ht := errRec_of_room hroom 3 (some (s.f .QUE_CQ_SETUP_CONTEXT q)) [q + 1024 + 1 * 4096]
  rw [show s.ringFailed (.cq q) = _ from ht]
  exact ⟨rfl, f_setF_self _ .QUE_CQ_STATUS_STATE q 2, rfl⟩

theorem failAt_frame (it : Option (Nat × Nat × Nat)) (code : Nat) : let t := s.failAt it code
    t = { s with cp := t.cp } := by
  cases it with
  | none => rfl
  | some x => rfl

/-- An item without a failure takes the code (R286). -/
theorem code_failAt {q n i code : Nat} {d : Desc} {it : Item} (hd : s.desc? q n = some d) (hi : d.items[i]? = some it)
    (hcode : it.code = 0) (hstage : it.stage ≠ .ended) : (((s.failAt (some (q, n, i)) code).desc? q n).bind
      (·.items[i]?)).map (·.code) = some code := by
  have h := item?_modItem s q n i (·.fail code)
  have hitem : s.item? q n i = some it := by rw [item?, hd]; exact hi
  rw [hitem, item?] at h
  rw [failAt, failItem, h, Option.map_some, Option.map_some, Item.fail, if_neg hstage, if_pos (Or.inl hcode)]

/-- What a failed request of a reader leaves. -/
theorem hostFailed_kept_effect (hk : keepsOutcome r.owner) (hr : r ∈ s.chl.reqs) (hids : (s.chl.reqs.map (·.id)).Nodup) :
    let t := s.hostFailed r
    t = { s with cp := t.cp, chl := { s.chl with reqs := t.chl.reqs } }
      ∧ { r with status := .failed, reply := List.replicate r.len 0 } ∈ t.chl.reqs
      ∧ (∀ y ∈ s.chl.reqs, y.id ≠ r.id → y ∈ t.chl.reqs)
      ∧ ∀ q n i d it, r.item = some (q, n, i) → s.desc? q n = some d → d.items[i]? = some it → it.code = 0 → it.stage ≠ .ended →
          ((t.desc? q n).bind (·.items[i]?)).map (·.code) = some 0x0014 := by
  rw [hostFailed_kept hk]
  have hitems : ∀ q n i d it, r.item = some (q, n, i) → s.desc? q n = some d → d.items[i]? = some it → it.code = 0 →
      it.stage ≠ .ended → (((s.failAt r.item stHostFailed).desc? q n).bind (·.items[i]?)).map (·.code) = some 0x0014 :=
    fun q n i d it hitem hd hi hcode hstage => by rw [hitem]; exact code_failAt hd hi hcode hstage
  have hframe := failAt_frame (s := s) r.item stHostFailed
  generalize s.failAt r.item stHostFailed = u at hframe hitems ⊢
  have hreqs : u.chl.reqs = s.chl.reqs := by rw [hframe]
  obtain ⟨hself, hother⟩ := mem_modHost (s := u) (hreqs ▸ hr) (hreqs ▸ hids)
    fun x => { x with status := .failed, reply := rep r.len 0 }
  refine ⟨?_, hself, hreqs ▸ hother, hitems⟩
  rw [hframe]
  rfl

/-! ### Responses -/

theorem hostResponse_none {k type hdr : Nat} (data : List Byte) (hlater : s.chl.later = [])
    (hnone : s.hostByTag k (Msg.tag hdr) = none) :
    ∃ late, s.hostResponse k type hdr data = { s with chl := { s.chl with late := late } } := by
  rw [hostResponse]
  split
  · exact ⟨s.chl.late, rfl⟩
  · rw [hnone]
    exact ⟨_, sendLater_of_none (s := { s with chl := { s.chl with late := s.chl.late.erase (k, Msg.tag hdr) } }) hlater ..⟩

theorem hostResponse_data {k hdr : Nat} (data : List Byte) (hty : Msg.type hdr = 0x30) (hr : s.hostByTag k (Msg.tag hdr) = some r)
    (hread : r.kind = .rds ∨ r.kind = .rdnc ∨ r.kind = .atom) :
    s.hostResponse k 0x30 hdr data = (s.hostDone r data (Msg.poison hdr)).sendLater k .req := by
  have hkind : (r.kind == .rds || r.kind == .rdnc || r.kind == .atom) = true := by simpa [or_assoc] using hread
  rw [hostResponse, if_neg (fun h => h hty), hr]
  dsimp only
  rw [hkind]
  rfl

theorem hostResponse_cmp {k hdr : Nat} (hty : Msg.type hdr = 0x20) (hr : s.hostByTag k (Msg.tag hdr) = some r)
    (hread : ¬ (r.kind = .rds ∨ r.kind = .rdnc ∨ r.kind = .atom)) :
    s.hostResponse k 0x20 hdr [] = (s.hostDone r [] false).sendLater k .req := by
  have hkind : (r.kind == .rds || r.kind == .rdnc || r.kind == .atom) = false := by simpa [and_assoc] using hread
  rw [hostResponse, if_neg (fun h => h hty), hr]
  dsimp only
  rw [hkind]
  rfl

theorem hostResponse_nohome {k hdr : Nat} (data : List Byte) (hty : Msg.type hdr = 0x22) (hr : s.hostByTag k (Msg.tag hdr) = some r) :
    s.hostResponse k 0x22 hdr data = (s.hostFailed r).sendLater k .req := by
  rw [hostResponse, if_neg (fun h => h hty), hr]
  rfl

/-- A request has run into the completion limit: it is counted, its response may still come (R315). -/
def timedOut (s : State) (k tag : Nat) (r : HostReq) : State :=
  ({ s with chl := { s.chl with late := if tag < 4096 then s.chl.late ++ [(k, tag)] else s.chl.late,
                                later := s.chl.later.filter (·.1 != r.id) } } : State).bump .CHL_PORT_TIMEOUTS_COUNT k

theorem completionTimeout_eq {k tag : Nat} (hr : s.hostByTag k tag = some r) :
    s.completionTimeout k tag = (s.timedOut k tag r).hostFailed r := by
  rw [completionTimeout, hr]
  rfl

theorem timedOut_frame (s : State) (k tag : Nat) (r : HostReq) : let t := s.timedOut k tag r
    t = { s with fields := t.fields, chl := { s.chl with late := t.chl.late, later := t.chl.later } } := by
  have h : ∀ u : State, u.onlyFields (u.bump .CHL_PORT_TIMEOUTS_COUNT k) := fun u => bump_onlyFields ..
  simp only [onlyFields] at h
  dsimp only
  rw [timedOut, h]

theorem f_timedOut_of_ne (s : State) (k tag : Nat) (r : HostReq) {x : Fld} (hc : x ≠ .CHL_PORT_TIMEOUTS_COUNT)
    (h0 : x ≠ .CHL_COUNTER_WRAP_PORT0_WRAPPED) (h1 : x ≠ .CHL_COUNTER_WRAP_PORT1_WRAPPED) (i : Nat) :
    (s.timedOut k tag r).f x i = s.f x i := by
  refine (f_bump_other _ 1 (fun e => hc (Prod.mk.inj e).1) fun w j b hw e => ?_).trans rfl
  obtain ⟨rfl, -⟩ := Prod.mk.inj e
  simp only [Fld.wrap, Option.some.injEq, Prod.mk.injEq] at hw
  split at hw
  · exact h0 hw.1.symm
  · exact h1 hw.1.symm

end State

/-! ### The statement -/

theorem hostResponses : Clause.HostResponses := by
  constructor
  · intro s k hdr data hlater hnone
    obtain ⟨late, ht⟩ := State.hostResponse_none (type := 0x30) data hlater hnone
    exact ⟨_, congrArg Host.Outcome.next ht, rfl⟩
  intro s k hdr r tag hr hids hlater isRead kept fails
  refine ⟨fun data hty hread hkept => ?_, fun p who hty hread howner => ?_, fun hty hkept => ?_,
    fun hkept => ⟨?_, fun hcount => ?_⟩, fun q howner hroom => ?_⟩
  · have ht := State.hostResponse_data data hty hr hread
    rw [State.hostDone_kept hkept, State.sendLater_of_none (by exact hlater)] at ht
    obtain ⟨hself, hother⟩ := State.mem_modHost (List.mem_of_find?_eq_some hr) hids
      fun x => { x with status := .done, reply := data, poison := Msg.poison hdr.toNat }
    exact ⟨_, _, congrArg Host.Outcome.next ht, rfl, hself, rfl, hother⟩
  · have ht := State.hostResponse_cmp hty hr hread
    rw [State.hostDone_store howner, State.sendLater_of_none (by exact hlater)] at ht
    exact ⟨_, congrArg Host.Outcome.next ht, rfl, rfl⟩
  · obtain ⟨hframe, hself, hother, hitems⟩ := State.hostFailed_kept_effect hkept (List.mem_of_find?_eq_some hr) hids
    have ht := State.hostResponse_nohome (hdr := hdr.toNat) [] hty hr
    rw [State.sendLater_of_none (by rw [hframe]; exact hlater)] at ht
    exact ⟨_, _, congrArg Host.Outcome.next ht, by rw [hframe], by rw [hframe], hself, rfl, hother, hitems⟩
  · have hout := State.timedOut_frame s k tag r
    have hreqs : (s.timedOut k tag r).chl.reqs = s.chl.reqs := by rw [hout]
    have hdesc : ∀ q n, (s.timedOut k tag r).desc? q n = s.desc? q n := State.desc?_congr (by rw [hout])
    obtain ⟨hframe, hself, hother, hitems⟩ := State.hostFailed_kept_effect (s := s.timedOut k tag r) hkept
      (hreqs ▸ List.mem_of_find?_eq_some hr) (hreqs ▸ hids)
    refine ⟨_, _, congrArg Host.Outcome.next (State.completionTimeout_eq hr), ?_, ?_, hself, rfl, hreqs ▸ hother, ?_⟩
    · rw [hframe, hout]
    · rw [hframe, hout]
    · simpa only [hdesc] using hitems
  · refine ⟨_, congrArg Host.Outcome.next (State.completionTimeout_eq hr), ?_⟩
    have hout := State.timedOut_frame s k tag r
    have hreqs : (s.timedOut k tag r).chl.reqs = s.chl.reqs := by rw [hout]
    obtain ⟨hframe, -⟩ := State.hostFailed_kept_effect (s := s.timedOut k tag r) hkept
      (hreqs ▸ List.mem_of_find?_eq_some hr) (hreqs ▸ hids)
    rw [hframe]
    exact State.f_bump_self _ .CHL_PORT_TIMEOUTS_COUNT k 1 rfl hcount
  · have ht := State.completionTimeout_eq hr
    rw [State.hostFailed_cq howner] at ht
    have hout := State.timedOut_frame s k tag r
    refine ⟨_, congrArg Host.Outcome.next ht, ?_⟩
    have hctx := s.f_timedOut_of_ne k tag r (x := .QUE_CQ_SETUP_CONTEXT) (by decide) (by decide) (by decide) q
    obtain ⟨hframe, hstate, herrs⟩ := State.ringFailed_cq_effect (s := (s.timedOut k tag r).dropHost r) (by
      rw [hout]; exact hroom) q
    refine ⟨?_, hstate, ?_⟩
    · rw [State.mem_of_onlyCpFields hframe, State.dropHost, hout]
    · rw [herrs, ← hctx, State.dropHost, hout]
      rfl

/-- Settles O34: the host's answers to snoops, and its responses to requests of the part. -/
theorem snoopsAndResponses : Obligations.SnoopsAndResponses := ⟨snoopAnswers, hostResponses⟩

end Sys2Proof.Machine
end

section
/-!
PROOF. How descriptors complete (R275, R286 to R288): an item that ends changes its descriptor only, and the last one to
end completes it.
-/
namespace Sys2Proof.Machine

/-! ### Records -/

/-- The items of a descriptor have all failed with one code, or none has. -/
def Desc.AllCodes (d : Desc) (code : Nat) : Prop :=
  d.malformed = false ∧ d.poisoned = false ∧ d.items.length = d.count ∧ ∀ it ∈ d.items, it.code = code

/-- A descriptor that has started. -/
def Desc.begun (d : Desc) : Desc := { d with stage := .started }

/-- Both descriptors are the same submission, with what was read of it. -/
def Desc.SameHead (d e : Desc) : Prop :=
  e.q = d.q ∧ e.n = d.n ∧ e.ctx = d.ctx ∧ e.cq = d.cq ∧ e.words = d.words ∧ e.malformed = d.malformed ∧ e.poisoned = d.poisoned

/-- Every item of a descriptor changed. -/
def Desc.mapItems (d : Desc) (e : Item → Item) : Desc := { d with items := d.items.map e }

/-- No item of the descriptor has met a failure or begun. -/
def Desc.Untouched (d : Desc) : Prop := ∀ it ∈ d.items, it.stage = .fresh ∧ it.code = 0

theorem Desc.count_pos (d : Desc) : 0 < d.count := Nat.succ_pos _

theorem foldl_mask (n : Nat) : (List.range n).foldl (fun m i => m + 2 ^ i) 0 = 2 ^ n - 1 := by
  induction n with
  | zero => rfl
  | succ n ih =>
    rw [List.range_succ, List.foldl_append, ih, List.foldl_cons, List.foldl_nil, Nat.pow_succ]
    have := Nat.one_le_two_pow (n := n)
    omega

/-- The mask of failed items where all have failed alike. -/
theorem foldl_mask_of_all {n code : Nat} {codeOf : Nat → Nat} (h : ∀ i ∈ List.range n, codeOf i = code) :
    (List.range n).foldl (fun m i => if codeOf i = 0 then m else m + 2 ^ i) 0 = if code = 0 then 0 else 2 ^ n - 1 := by
  rw [List.foldl_ext _ (fun m i => if code = 0 then m else m + 2 ^ i) _ fun m i hi => by rw [h i hi]]
  split
  · induction List.range n <;> simp_all
  · exact foldl_mask n

/-- The first failure where all items have failed alike. -/
theorem first_of_all {n code : Nat} {codeOf : Nat → Nat} (hn : 0 < n) (h : ∀ i ∈ List.range n, codeOf i = code) :
    (((List.range n).find? fun i => codeOf i != 0).map codeOf).getD 0 = code := by
  have h0 : codeOf 0 = code := h 0 (List.mem_range.mpr hn)
  by_cases hc : code = 0
  · have hnone : (List.range n).find? (fun i => codeOf i != 0) = none :=
      List.find?_eq_none.mpr fun i hi => by rw [h i hi, hc]; decide
    rw [hnone, hc]
    rfl
  · obtain ⟨m, rfl⟩ := Nat.exists_eq_succ_of_ne_zero hn.ne'
    rw [List.range_succ_eq_map, List.find?_cons_of_pos (by rw [h0]; simpa using hc)]
    exact h0

/-- The record of a descriptor whose items have all one code (R288). -/
theorem recordWords_of_allCodes {d : Desc} {code : Nat} (h : d.AllCodes code) :
    State.recordWords d = d.recordOf (if code = 0 then 0 else 2 ^ d.count - 1) d.result (d.w 1) d.count code := by
  obtain ⟨hm, hp, hlen, hcodes⟩ := h
  have hall : ∀ i ∈ List.range d.count, ((d.items[i]?).map (·.code)).getD 0 = code := fun i hi => by
    have hi' : i < d.items.length := by rw [hlen]; exact List.mem_range.mp hi
    rw [List.getElem?_eq_getElem hi']
    exact hcodes _ (List.getElem_mem hi')
  simp only [State.recordWords, Desc.recordOf, hm, hp, Bool.false_eq_true, if_false, foldl_mask_of_all hall,
    first_of_all d.count_pos hall]

/-- The record of a descriptor that breaks its layout (R287). -/
theorem recordWords_of_malformed {d : Desc} (hm : d.malformed = true) (hp : d.poisoned = false) :
    State.recordWords d = d.recordOf (2 ^ d.count - 1) d.result (d.w 1) d.count 0x0001 := by
  have hall : ∀ i ∈ List.range d.count, (fun _ : Nat => stDescMalformed) i = 0x0001 := fun _ _ => rfl
  rw [State.recordWords, hm, hp]
  exact congrArg₂ (fun mask first => [mask % 2 ^ 32, mask / 2 ^ 32, d.result, 0, d.w 1, d.n,
    d.q + d.ctx * 2 ^ 10 + (d.count - 1) * 2 ^ 16, first]) (foldl_mask_of_all hall) (first_of_all d.count_pos hall)

/-- The record of a descriptor read as poison (R287). -/
theorem recordWords_of_poisoned {d : Desc} (hp : d.poisoned = true) :
    State.recordWords d = d.recordOf 1 d.result 0 1 0x0010 := by
  rw [State.recordWords, hp]
  rfl

namespace State

variable {s t u v : State} {q n i : Nat} {d e : Desc}

/-! ### Changes of one descriptor -/

theorem key_of_desc? (h : s.desc? q n = some d) : d.q = q ∧ d.n = n := by simpa using List.find?_some h

/-- A change of the first member that satisfies a test does not show where another test is asked. -/
theorem find?_updFirst_other {α : Type} {c c' : α → Bool} {g : α → α} (hg : ∀ x, c' (g x) = c' x)
    (hne : ∀ x, c x = true → c' x = false) (l : List α) : (updFirst c g l).find? c' = l.find? c' := by
  induction l with
  | nil => rfl
  | cons x l ih =>
    by_cases hx : c x = true
    · simp [updFirst, hx, hg, hne x hx]
    · simp [updFirst, hx, ih, List.find?_cons]

theorem desc?_modDesc_other {q' n' : Nat} (h : (q', n') ≠ (q, n)) (s : State) {g : Desc → Desc}
    (hg : ∀ d, (g d).q = d.q ∧ (g d).n = d.n := by intro d; exact ⟨rfl, rfl⟩) :
    (s.modDesc q n g).desc? q' n' = s.desc? q' n' := by
  refine find?_updFirst_other (fun d => by rw [(hg d).1, (hg d).2]) (fun d hd => ?_) s.cp.descs
  obtain ⟨rfl, rfl⟩ : d.q = q ∧ d.n = n := by simpa using hd
  refine Bool.eq_false_iff.mpr fun hsame => h ?_
  obtain ⟨rfl, rfl⟩ : d.q = q' ∧ d.n = n' := by simpa using hsame
  rfl

/-- The queues and indices of the descriptors that the part holds. -/
def descKeys (s : State) : List (Nat × Nat) := s.cp.descs.map fun d => (d.q, d.n)

theorem descKeys_modDesc (s : State) (q n : Nat) {g : Desc → Desc}
    (hg : ∀ d, (g d).q = d.q ∧ (g d).n = d.n := by intro d; exact ⟨rfl, rfl⟩) : (s.modDesc q n g).descKeys = s.descKeys :=
  map_updFirst (φ := fun d : Desc => (d.q, d.n)) (fun d => by rw [(hg d).1, (hg d).2]) s.cp.descs

/-- Nothing but descriptor `(q, n)` and the counts of aborted items differs. -/
structure onlyDesc (s t : State) (q n : Nat) : Prop where
  frame : t = { s with cp := { s.cp with descs := t.cp.descs, aborted := t.cp.aborted } }
  others : ∀ q' n', (q', n') ≠ (q, n) → t.desc? q' n' = s.desc? q' n'
  keys : t.descKeys = s.descKeys

theorem onlyDesc_refl (s : State) (q n : Nat) : s.onlyDesc s q n := ⟨rfl, fun _ _ _ => rfl, rfl⟩

theorem onlyDesc_trans (h : s.onlyDesc t q n) (h' : t.onlyDesc u q n) : s.onlyDesc u q n := by
  refine ⟨?_, fun q' n' hne => (h'.others q' n' hne).trans (h.others q' n' hne), h'.keys.trans h.keys⟩
  rw [h'.frame, h.frame]

theorem onlyDesc_modDesc (s : State) (q n : Nat) {g : Desc → Desc}
    (hg : ∀ d, (g d).q = d.q ∧ (g d).n = d.n := by intro d; exact ⟨rfl, rfl⟩) : s.onlyDesc (s.modDesc q n g) q n :=
  ⟨rfl, fun _ _ hne => desc?_modDesc_other hne s hg, descKeys_modDesc s q n hg⟩

theorem onlyDesc_countAborted (s : State) (q n i : Nat) : s.onlyDesc (s.countAborted q n i) q n := by
  unfold countAborted
  split
  · split
    · exact ⟨rfl, fun _ _ _ => desc?_modCp .., rfl⟩
    · exact onlyDesc_refl s q n
  · exact onlyDesc_refl s q n

theorem onlyCpFields_of_onlyDesc (h : s.onlyDesc t q n) : s.onlyCpFields t := by
  rw [onlyCpFields, h.frame]

/-! ### Completion -/

/-- The record that a completed descriptor leaves in its completion queue. -/
def recordFor (d : Desc) : HeldRec := ⟨recordWords d, d.q, d.n, d.irq && !d.poisoned⟩

/-- Descriptor `d`, whose items are as they end, has completed since `s`; of the rest only the counts of `doneFields` and of
aborted items may differ. -/
structure Completed (s t : State) (d : Desc) : Prop where
  frame : t = { s with fields := t.fields, cp := { s.cp with
    descs := t.cp.descs
    aborted := t.cp.aborted
    cqs := s.cp.cqs.upd .reset d.cq fun x => { x with held := x.held ++ [recordFor d] } } }
  fields : s.fieldsBut t d.doneFields
  desc : t.desc? d.q d.n = some { d with stage := .complete }
  others : ∀ q n, (q, n) ≠ (d.q, d.n) → t.desc? q n = s.desc? q n
  keys : t.descKeys = s.descKeys

theorem Completed.held (h : s.Completed t d) :
    (t.cp.cqs.get .reset d.cq).held = (s.cp.cqs.get .reset d.cq).held ++ [recordFor d] := by
  rw [h.frame]
  exact congrArg CqState.held (FMap.get_upd_self .reset s.cp.cqs d.cq fun x => { x with held := x.held ++ [recordFor d] })

/-- The counts of a completion. -/
def countDone (s : State) (d : Desc) (done bad : Nat) : State :=
  ((s.bump .CTX_ITEMS_FAILED_COUNT d.ctx bad).bump .CTX_ITEMS_DONE_COUNT d.ctx done).bump .OBJ_STALE_ITEMS_COUNT 0
    (if d.malformed || d.poisoned then 0 else (d.items.filter (·.code == stObjStale)).length)

theorem countDone_onlyFields (s : State) (d : Desc) (done bad : Nat) : s.onlyFields (s.countDone d done bad) :=
  onlyFields_trans (onlyFields_trans (bump_onlyFields ..) (bump_onlyFields ..)) (bump_onlyFields ..)

theorem fieldsBut_countDone (s : State) (d : Desc) (done bad : Nat) : s.fieldsBut (s.countDone d done bad) d.doneFields := by
  refine fieldsBut_trans (fieldsBut_trans (fieldsBut_bump _ _ ?_) (fieldsBut_bump _ _ ?_)) (fieldsBut_bump _ _ ?_) <;>
    simp [withWraps, Desc.doneFields, Fld.wrap]

theorem complete_eq (hd : s.desc? q n = some d) : ∃ done bad, s.complete q n =
    ((s.countDone d done bad).modDesc q n fun d => { d with stage := .complete }).modCp fun c =>
      { c with cqs := c.cqs.upd .reset d.cq fun x => { x with held := x.held ++ [recordFor d] } } := by
  obtain ⟨rfl, rfl⟩ := key_of_desc? hd
  rw [complete, hd]
  exact ⟨_, _, rfl⟩

/-- A descriptor completes. -/
theorem completed_complete (hd : s.desc? q n = some d) : s.Completed (s.complete q n) d := by
  obtain ⟨done, bad, ht⟩ := complete_eq hd
  obtain ⟨rfl, rfl⟩ := key_of_desc? hd
  have hframe := s.countDone_onlyFields d done bad
  have hcp : (s.countDone d done bad).cp = s.cp := by rw [hframe]
  rw [ht]
  refine ⟨?_, fieldsBut_trans (s.fieldsBut_countDone d done bad) (fieldsBut_of_fields rfl _), ?_,
    fun q' n' hne => ?_, (descKeys_modDesc ..).trans (by rw [descKeys, hcp]; rfl)⟩
  · rw [onlyFields] at hframe
    rw [hframe]
    rfl
  · refine (desc?_modCp ..).trans ((desc?_modDesc ..).trans ?_)
    rw [desc?_congr hcp, hd]
    rfl
  · exact (desc?_modCp ..).trans ((desc?_modDesc_other hne _).trans (desc?_congr hcp ..))

/-- A descriptor may first have been changed. -/
theorem Completed.of_onlyDesc (h : s.onlyDesc u d.q d.n) (h' : u.Completed t d) : s.Completed t d := by
  refine ⟨?_, fun x j hx => ?_, h'.desc, fun q n hne => (h'.others q n hne).trans (h.others q n hne),
    h'.keys.trans h.keys⟩
  · rw [h'.frame, h.frame]
  · rw [h'.fields x j hx, h.frame]
    rfl

/-! ### Ends of items -/

/-- Item `i` of a descriptor, changed as `g` says, ends. -/
def ended (g : Item → Item) (it : Item) : Item := { g it with stage := .ended }

/-- Since `s` an item of descriptor `(q, n)` has ended, which leaves the descriptor as `d`: complete where all have ended. -/
def ItemEnds (s t : State) (q n : Nat) (d : Desc) : Prop :=
  ∃ v, s.onlyDesc v q n ∧ v.desc? q n = some d ∧ t = if d.items.all (·.stage == .ended) then v.complete q n else v

theorem ItemEnds.of_onlyDesc (h : s.onlyDesc u q n) (h' : u.ItemEnds t q n d) : s.ItemEnds t q n d := by
  obtain ⟨v, hv, hd, ht⟩ := h'
  exact ⟨v, onlyDesc_trans h hv, hd, ht⟩

theorem itemEnds_endItem (hd : s.desc? q n = some d) (hstage : d.stage = .started) (i : Nat) :
    s.ItemEnds (s.endItem q n i) q n (d.modItem i (ended id)) := by
  have hv : ((s.countAborted q n i).modDesc q n fun d => d.modItem i (ended id)).desc? q n = some (d.modItem i (ended id)) := by
    rw [desc?_modDesc, desc?_countAborted, hd]
    rfl
  refine ⟨_, onlyDesc_trans (onlyDesc_countAborted ..) (onlyDesc_modDesc ..), hv, ?_⟩
  rw [endItem]
  change (match ((s.countAborted q n i).modDesc q n fun d => d.modItem i (ended id)).desc? q n with | some d => _ | none => _) = _
  rw [hv]
  dsimp only [Desc.modItem]
  rw [hstage]
  rfl

/-- An item that takes a code and ends. -/
theorem itemEnds_failItem (hd : s.desc? q n = some d) (hstage : d.stage = .started) (i code : Nat) :
    s.ItemEnds ((s.failItem q n i code).endItem q n i) q n (d.modItem i (ended (·.fail code))) := by
  have hd' : (s.failItem q n i code).desc? q n = some (d.modItem i (·.fail code)) := by
    rw [failItem, desc?_modDesc, hd]
    rfl
  have h := itemEnds_endItem hd' hstage i
  rw [show (d.modItem i (·.fail code)).modItem i (ended id) = d.modItem i (ended (·.fail code)) by
    simp only [Desc.modItem, List.modify_modify_eq]
    rfl] at h
  exact h.of_onlyDesc (onlyDesc_modDesc ..)

/-- The descriptor once its first `k` items have ended. -/
def endedTo (d : Desc) (e : Item → Item) (k : Nat) : Desc :=
  { d with items := d.items.mapIdx fun i it => if i < k then e it else it }

theorem endedTo_zero (d : Desc) (e : Item → Item) : endedTo d e 0 = d := by
  have hitems : (d.items.mapIdx fun i it => if i < 0 then e it else it) = d.items :=
    List.ext_getElem? fun j => by simp [List.getElem?_mapIdx]
  rw [endedTo, hitems]

theorem endedTo_succ (d : Desc) (e : Item → Item) (k : Nat) : (endedTo d e k).modItem k e = endedTo d e (k + 1) := by
  have hitems : ((endedTo d e k).modItem k e).items = (endedTo d e (k + 1)).items := by
    refine List.ext_getElem? fun j => ?_
    simp only [endedTo, Desc.modItem, List.getElem?_modify, List.getElem?_mapIdx]
    rcases Nat.lt_trichotomy j k with h | rfl | h
    · simp [h, Nat.ne_of_gt h, Nat.lt_succ_of_lt h]
    · simp
    · simp [Nat.ne_of_lt h, Nat.not_lt_of_gt h, Nat.not_lt_of_ge h]
  exact congrArg (fun l => { d with items := l }) hitems

theorem endedTo_length (d : Desc) (e : Item → Item) : endedTo d e d.items.length = d.mapItems e := by
  rw [endedTo, Desc.mapItems]
  congr 1
  refine List.ext_getElem (by simp) fun i h _ => ?_
  have hi : i < d.items.length := by simpa using h
  simp [hi]

theorem getElem?_endedTo_self (d : Desc) (e : Item → Item) (k : Nat) : (endedTo d e k).items[k]? = d.items[k]? := by
  simp [endedTo, List.getElem?_mapIdx]

section
variable {f : State → Nat → State} {e : Item → Item} (he : ∀ it, (e it).stage = .ended)
  (hfresh : ∀ it ∈ d.items, it.stage ≠ .ended)
  (hf : ∀ (u : State) (i : Nat), i < d.items.length → u.desc? q n = some (endedTo d e i) →
    u.ItemEnds (f u i) q n ((endedTo d e i).modItem i e))
include hfresh hf

/-- As long as an item has not ended, the loop that ends them changes the descriptor only. -/
theorem forEach_endedTo (hd : s.desc? q n = some d) {k : Nat} (hk : k < d.items.length) :
    s.onlyDesc (s.forEach (List.range k) f) q n ∧ (s.forEach (List.range k) f).desc? q n = some (endedTo d e k) := by
  induction k with
  | zero => exact ⟨onlyDesc_refl s q n, by rw [endedTo_zero]; exact hd⟩
  | succ k ih =>
    obtain ⟨honly, hdesc⟩ := ih (Nat.lt_of_succ_lt hk)
    obtain ⟨v, hv, hdv, ht⟩ := hf _ k (Nat.lt_of_succ_lt hk) hdesc
    rw [endedTo_succ] at hdv ht
    have hnot : (endedTo d e (k + 1)).items.all (·.stage == .ended) = false := by
      refine List.all_eq_false.mpr ⟨d.items[k + 1], ?_, by simpa using hfresh _ (List.getElem_mem hk)⟩
      refine List.mem_of_getElem? (i := k + 1) ?_
      rw [getElem?_endedTo_self, List.getElem?_eq_getElem hk]
    rw [hnot, if_neg Bool.false_ne_true] at ht
    rw [List.range_succ, forEach, List.foldl_append, List.foldl_cons, List.foldl_nil]
    change s.onlyDesc (f (s.forEach (List.range k) f) k) q n ∧ (f (s.forEach (List.range k) f) k).desc? q n = _
    rw [ht]
    exact ⟨onlyDesc_trans honly hv, hdv⟩

include he in
/-- The loop that ends every item completes the descriptor. -/
theorem completed_forEach (hd : s.desc? q n = some d) (hne : d.items ≠ []) :
    s.Completed (s.forEach (List.range d.items.length) f) (d.mapItems e) := by
  obtain ⟨rfl, rfl⟩ := key_of_desc? hd
  obtain ⟨k, hk⟩ := Nat.exists_eq_succ_of_ne_zero (mt List.length_eq_zero_iff.mp hne)
  obtain ⟨honly, hdesc⟩ := forEach_endedTo hfresh hf hd (k := k) (by omega)
  obtain ⟨v, hv, hdv, ht⟩ := hf _ k (by omega) hdesc
  rw [endedTo_succ, ← Nat.succ_eq_add_one, ← hk, endedTo_length] at hdv ht
  have hall : (d.mapItems e).items.all (·.stage == .ended) = true := by simp [Desc.mapItems, he]
  rw [hall, if_pos rfl] at ht
  rw [hk, Nat.succ_eq_add_one, List.range_succ, forEach, List.foldl_append, List.foldl_cons, List.foldl_nil]
  change s.Completed (f (s.forEach (List.range k) f) k) _
  rw [ht]
  exact (completed_complete hdv).of_onlyDesc (onlyDesc_trans honly hv)

end

/-- The only item of a descriptor ends: the descriptor completes. -/
theorem ItemEnds.completed {e : Item → Item} (h : s.ItemEnds t q n (d.modItem 0 e)) (hlen : d.items.length = 1)
    (he : ∀ it, (e it).stage = .ended) : s.Completed t (d.mapItems e) := by
  obtain ⟨v, hv, hdv, ht⟩ := h
  obtain ⟨it, hit⟩ := List.length_eq_one_iff.mp hlen
  have hmod : d.modItem 0 e = d.mapItems e := by
    rw [Desc.modItem, Desc.mapItems, hit]
    rfl
  rw [hmod] at hdv ht
  rw [if_pos (by simp [Desc.mapItems, he])] at ht
  rw [ht]
  obtain ⟨rfl, rfl⟩ := key_of_desc? hdv
  exact (completed_complete hdv).of_onlyDesc hv

/-! ### Items that fail before they run -/

theorem failAll_onlyDesc (s : State) (q n code : Nat) : s.onlyDesc (s.failAll q n code) q n := onlyDesc_modDesc ..

theorem code_ended_fail {it : Item} (h : it.stage = .fresh ∧ it.code = 0) (code : Nat) : (ended (·.fail code) it).code = code := by
  rw [ended, Item.fail, if_neg (by rw [h.1]; decide), if_pos (Or.inl h.2)]

/-- An item that has failed before it ran ends. -/
def endIfFailed (s : State) (q n i : Nat) : State :=
  match (s.desc? q n).bind (·.items[i]?) with
  | some it => if it.code ≠ 0 ∧ it.stage = .fresh then s.endItem q n i else s
  | none => s

theorem endFailed_eq (hd : s.desc? q n = some d) :
    s.endFailed q n = s.forEach (List.range d.items.length) fun s i => s.endIfFailed q n i := by
  rw [endFailed, hd]
  rfl

/-- Where every item has failed before it ran, their ends complete the descriptor. -/
theorem completed_endFailed (hd : s.desc? q n = some d) (hstage : d.stage = .started) (hne : d.items ≠ [])
    (hfailed : ∀ it ∈ d.items, it.code ≠ 0 ∧ it.stage = .fresh) : s.Completed (s.endFailed q n) (d.mapItems (ended id)) := by
  rw [endFailed_eq hd]
  refine completed_forEach (e := ended id) (fun _ => rfl) (fun it hit => ?_) (fun u i hi hu => ?_) hd hne
  · rw [(hfailed it hit).2]
    decide
  · have hitem : (u.desc? q n).bind (·.items[i]?) = some d.items[i] := by
      rw [hu, Option.bind_some, getElem?_endedTo_self, List.getElem?_eq_getElem hi]
    rw [endIfFailed, hitem]
    dsimp only
    rw [if_pos (hfailed _ (List.getElem_mem hi))]
    exact itemEnds_endItem hu hstage i

theorem desc?_failAll (hd : s.desc? q n = some d) (code : Nat) :
    (s.failAll q n code).desc? q n = some (d.mapItems (·.fail code)) := by
  rw [failAll, desc?_modDesc, hd]
  rfl

theorem fail_of_untouched {it : Item} (h : it.stage = .fresh ∧ it.code = 0) (code : Nat) : it.fail code = { it with code := code } := by
  rw [Item.fail, if_neg (by rw [h.1]; decide), if_pos (Or.inl h.2)]

/-- Every item of a started descriptor fails with a code: the descriptor completes. -/
theorem completed_failAll {code : Nat} (hcode : code ≠ 0) (hd : s.desc? q n = some d) (hstage : d.stage = .started)
    (hnew : d.Untouched) (hne : d.items ≠ []) :
    s.Completed ((s.failAll q n code).endFailed q n) (d.mapItems (ended (·.fail code))) := by
  have h := completed_endFailed (desc?_failAll hd code) hstage (by simpa [Desc.mapItems] using hne) fun it hit => by
    obtain ⟨a, ha, rfl⟩ := List.mem_map.mp hit
    rw [fail_of_untouched (hnew a ha)]
    exact ⟨hcode, (hnew a ha).1⟩
  obtain ⟨rfl, rfl⟩ := key_of_desc? hd
  rw [Desc.mapItems, Desc.mapItems, List.map_map] at h
  exact Completed.of_onlyDesc (d := d.mapItems (ended (·.fail code))) (failAll_onlyDesc ..) h

theorem code_of_mapItems_fail (hnew : d.Untouched) (code : Nat) : ∀ it ∈ (d.mapItems (ended (·.fail code))).items, it.code = code := by
  intro it hit
  obtain ⟨a, ha, rfl⟩ := List.mem_map.mp hit
  exact code_ended_fail (hnew a ha) code

/-! ### Descriptors that start -/

theorem desc?_begin (hd : s.desc? q n = some d) : (s.begin_ d).desc? q n = some d.begun := by
  obtain ⟨rfl, rfl⟩ := key_of_desc? hd
  rw [begin_, desc?_modCp, desc?_modDesc, hd]
  rfl

/-- The record of a descriptor that has completed with all its items alike (R286 to R288). -/
theorem recordHeld_of_completed {code : Nat} (hcqs : u.cp.cqs = s.cp.cqs) (h : u.Completed t e) (hsame : d.SameHead e)
    (hcodes : e.AllCodes code) :
    RecordHeld s t d (d.recordOf (if code = 0 then 0 else 2 ^ d.count - 1) e.result (d.w 1) d.count code) d.irq := by
  have hp : e.poisoned = false := hcodes.2.1
  have hwords := recordWords_of_allCodes hcodes
  obtain ⟨hq, hn, hctx, hcq, hw, -, -⟩ := hsame
  have hrec : recordFor e =
      ⟨d.recordOf (if code = 0 then 0 else 2 ^ d.count - 1) e.result (d.w 1) d.count code, d.q, d.n, d.irq⟩ := by
    rw [recordFor, hwords, hp]
    simp only [Desc.recordOf, Desc.w, Desc.count, Desc.irq, hq, hn, hctx, hw, Bool.not_false, Bool.and_true]
  rw [RecordHeld, ← hrec, ← hcqs, ← hcq]
  exact h.held

/-- A descriptor that has started and completed with all its items alike. -/
theorem completes_of_begin {e : Item → Item} {code : Nat} (hm : d.malformed = false) (hp : d.poisoned = false)
    (hlen : d.items.length = d.count) (hcodes : ∀ it ∈ d.items, (e it).code = code)
    (h : (s.begin_ d).Completed t (d.begun.mapItems e)) :
    Completes s t d (if code = 0 then 0 else 2 ^ d.count - 1) d.result code := by
  refine ⟨?_, fieldsBut_trans (fieldsBut_of_fields rfl _) h.fields, ?_,
    recordHeld_of_completed (u := s.begin_ d) (e := d.begun.mapItems e) rfl h ⟨rfl, rfl, rfl, rfl, rfl, rfl, rfl⟩ ⟨hm, hp, ?_, ?_⟩⟩
  · rw [h.frame]
    rfl
  · rw [show t.desc? d.q d.n = _ from h.desc]
    rfl
  · exact (List.length_map _).trans hlen
  · intro it hit
    obtain ⟨a, ha, rfl⟩ := List.mem_map.mp hit
    exact hcodes a ha

/-- Where a descriptor starts, the part holds it, of the opcode asked for. -/
theorem starting_spec {op : Nat} {s₁ : State} (h : s.starting q n op = some (s₁, d)) :
    s₁.desc? q n = some d ∧ d.opcode = op := by
  unfold starting at h
  dsimp only at h
  split at h
  · split at h
    · next hd hif =>
      obtain ⟨rfl, rfl⟩ := Prod.mk.inj (Option.some.inj h)
      exact ⟨hd, hif.1⟩
    · cases h
  · cases h

end State
end Sys2Proof.Machine
end

section
/-!
PROOF. Fetching a descriptor (R269, R271, R272, R287) and the checks at its start (R441).
-/
namespace Sys2Proof.Machine

theorem Desc.items_ne_nil {d : Desc} (h : d.items.length = d.count) : d.items ≠ [] := by
  rintro hnil
  rw [hnil] at h
  exact absurd h (Nat.ne_of_lt d.count_pos)

theorem bits_zero_lo (x hi : Nat) : bits x hi 0 = x % 2 ^ (hi + 1) := by rw [bits, Nat.pow_zero, Nat.div_one, Nat.sub_zero]

/-- A bit below a cut of the low bits. -/
theorem bit_bits_low {x hi k : Nat} (hk : k ≤ hi) : bit (bits x hi 0) k = bit x k := by
  rw [bits_zero_lo, bit_eq_testBit, bit_eq_testBit, Nat.testBit_mod_two_pow]
  simp [Nat.lt_succ_of_le hk]

namespace State

variable {s s₁ t : State} {q n : Nat} {d : Desc} {hs : HostMem}

/-! ### Starting -/

/-- A descriptor that starts is one that the part holds, nothing of it begun. -/
theorem startsAt_spec {op : Nat} (h : StartsAt s q n op s₁ d) : (s₁.begin_ d).desc? d.q d.n = some d.begun
    ∧ d.begun.Untouched ∧ d.items ≠ [] := by
  obtain ⟨hstart, rfl, rfl, -, -, -, hlen, hitems⟩ := h
  exact ⟨desc?_begin (starting_spec hstart).1, hitems, Desc.items_ne_nil hlen⟩

/-- Every item of a descriptor that starts fails with a code. -/
theorem completes_failAll {op code : Nat} (hcode : code ≠ 0) (h : StartsAt s q n op s₁ d) :
    Completes s₁ (((s₁.begin_ d).failAll q n code).endFailed q n) d (2 ^ d.count - 1) d.result code := by
  obtain ⟨hd, hnew, hne⟩ := startsAt_spec h
  obtain ⟨-, rfl, rfl, -, hm, hp, hlen, hitems⟩ := h
  have hc := completed_failAll hcode hd rfl hnew hne
  have := completes_of_begin hm hp hlen (fun it hit => code_ended_fail (hitems it hit) code) hc
  rwa [if_neg hcode] at this

/-- Nothing is checked of a descriptor whose items have all ended. -/
theorem checkItems_of_ended {e : Desc} (d : Desc) (he : s.desc? d.q d.n = some e) (hended : ∀ it ∈ e.items, it.stage = .ended)
    (hs : HostMem) : s.checkItems d hs = s := by
  have hnone : s.freshItems d.q d.n = [] := by
    rw [freshItems, he]
    refine List.filter_eq_nil_iff.mpr fun i _ => ?_
    cases hi : e.items[i]? with
    | none => simp
    | some it => simp [hended it (List.mem_of_getElem? hi)]
  rw [checkItems, hnone]
  rfl

/-- A handle is stale (R296). -/
theorem stale_iff (s : State) (h : Nat) : s.stale h = true ↔ h ≠ 0 ∧
    let w := nth 0 (s.objEntry (h % 2 ^ 20)) 0
    w / 2 ^ 12 % 2 = 0 ∨ w % 2 ^ 12 ≠ h / 2 ^ 20 % 2 ^ 12 := by
  simp [stale, bits, bit]

/-- The eight words of an entry at an address of the object table (R293). -/
def entryAt (s : State) (pa : Nat) : List Nat :=
  match s.cellOf pa with
  | some c => bytesWords 8 (s.memBytes c 32)
  | none => rep 8 0

theorem objEntry_eq (s : State) (slot : Nat) : s.objEntry slot = s.entryAt (s.tableBase + 32 * slot) := rfl

/-- The object table reads the same where memory and its place are the same. -/
theorem objEntry_congr (h : SameHome s t) (hmem : t.mem = s.mem)
    (hbase : t.f .OBJ_TABLE_BASE_ADDR = s.f .OBJ_TABLE_BASE_ADDR) : t.objEntry = s.objEntry := by
  funext slot
  rw [objEntry_eq, objEntry_eq, tableBase, tableBase, hbase, entryAt, entryAt, h.cellOf]
  split
  · rw [memBytes_congr hmem]
  · rfl

theorem stale_congr (h : t.objEntry = s.objEntry) : t.stale = s.stale := by
  funext handle
  rw [stale, stale, h]

theorem objEntry_begin (s : State) (d : Desc) : (s.begin_ d).objEntry = s.objEntry :=
  objEntry_congr (sameHome_of_eq rfl rfl) rfl rfl

theorem checkHandles_stale (h : ∃ h ∈ [d.w 14, d.w 15], s.stale h = true) : s.checkHandles d = s.failAll d.q d.n stObjStale := by
  refine if_pos ?_
  obtain ⟨h, hmem, hst⟩ := h
  rcases List.mem_pair.mp hmem with rfl | rfl
  · rw [hst]
    rfl
  · rw [hst, Bool.or_true]

/-- The rest of a start: the handles, then what each item reads (R293, R296, R441). -/
def checked (s : State) (d : Desc) (hs : HostMem) : State :=
  if !s.handlesReady (d.w 14) (d.w 15) then s else ((s.checkHandles d).endFailed d.q d.n).checkItems d hs

/-- A stale handle fails every item. -/
theorem checked_stale (hd : s.desc? d.q d.n = some d.begun) (hnew : d.begun.Untouched) (hne : d.items ≠ [])
    (hready : s.flag .OBJ_STATUS_READY = true) (hstale : ∃ h ∈ [d.w 14, d.w 15], s.stale h = true) :
    s.checked d hs = (s.failAll d.q d.n stObjStale).endFailed d.q d.n := by
  have hc := completed_failAll (code := stObjStale) (by decide) hd rfl hnew hne
  rw [checked, handlesReady, hready, Bool.true_or, Bool.not_true, if_neg Bool.false_ne_true, checkHandles_stale hstale]
  refine checkItems_of_ended d hc.desc (fun it hit => ?_) hs
  obtain ⟨a, -, rfl⟩ := List.mem_map.mp hit
  rfl

/-! ### What each start comes to -/

/-- A LAUNCH that starts: an absent die fails every item, else the kernel header is read (R282, R441). -/
theorem launch_eq (h : StartsAt s q n 1 s₁ d) : s.launch q n hs =
    if (List.range 8).any (fun k => bit (bits (d.w 12) 7 0) k && !s₁.variant.hasDie k) then
      ((s₁.begin_ d).failAll q n stUnitAbsent).endFailed q n
    else match (s₁.begin_ d).kernelHeader d hs with
      | (s, false) => s
      | (s, true) => (s.endFailed q n).checked d hs := by
  obtain ⟨hstart, rfl, rfl, hstage, -⟩ := h
  rw [launch, hstart]
  dsimp only
  rw [hstage]
  rfl

theorem copy_eq (h : StartsAt s q n 2 s₁ d) : s.copy q n hs =
    if !s₁.variant.hasDie (d.w 13 % 8) then ((s₁.begin_ d).failAll q n stUnitAbsent).endFailed q n
    else (s₁.begin_ d).checked d hs := by
  obtain ⟨hstart, rfl, rfl, hstage, -⟩ := h
  rw [copy, hstart]
  dsimp only
  rw [hstage, bits_zero_lo]
  rfl

theorem codecStart_eq {op : Nat} (h : StartsAt s q n op s₁ d) : s.codecStart op q n hs =
    if !s₁.variant.hasCodec (d.w 13 % 8) then ((s₁.begin_ d).failAll q n stUnitAbsent).endFailed q n
    else if op = 3 ∧ d.w 13 / 2 ^ 8 % 16 ≠ 4 ∧ d.w 13 / 2 ^ 8 % 16 ≠ 8 then
      ((s₁.begin_ d).failAll q n stCodecCorrupt).endFailed q n
    else (s₁.begin_ d).checked d hs := by
  obtain ⟨hstart, rfl, rfl, hstage, -⟩ := h
  rw [codecStart, hstart]
  dsimp only
  rw [hstage, bits_zero_lo]
  rfl

/-- The checks of a COPY at its start. -/
theorem completes_copy {code : Nat} (h : StartsAt s q n 2 s₁ d) (hcase : (code = 0x0004 ∧ s₁.variant.hasDie (d.w 13 % 8) ≠ true)
    ∨ (code = 0x0005 ∧ s₁.variant.hasDie (d.w 13 % 8) = true ∧ s₁.flag .OBJ_STATUS_READY = true
      ∧ ∃ h ∈ [d.w 14, d.w 15], s₁.stale h = true)) :
    Completes s₁ (s.copy q n hs) d (2 ^ d.count - 1) d.result code := by
  obtain ⟨hd, hnew, hne⟩ := startsAt_spec h
  rw [copy_eq h]
  rcases hcase with ⟨rfl, hunit⟩ | ⟨rfl, hunit, hready, hstale⟩
  · rw [if_pos (by simpa using hunit)]
    exact completes_failAll (by decide) h
  · rw [hunit, if_neg (by decide), checked_stale hd hnew hne hready (by rwa [stale_congr (objEntry_begin ..)])]
    have := completes_failAll (code := stObjStale) (by decide) h
    obtain ⟨-, rfl, rfl, -⟩ := h
    exact this

/-- The checks of a COMPRESS or DECOMPRESS at its start. -/
theorem completes_codecStart {op code : Nat} (h : StartsAt s q n op s₁ d)
    (hcase : (code = 0x0004 ∧ s₁.variant.hasCodec (d.w 13 % 8) ≠ true)
      ∨ (op = 3 ∧ code = 0x0040 ∧ s₁.variant.hasCodec (d.w 13 % 8) = true ∧ d.w 13 / 2 ^ 8 % 16 ≠ 4 ∧ d.w 13 / 2 ^ 8 % 16 ≠ 8)
      ∨ (code = 0x0005 ∧ s₁.variant.hasCodec (d.w 13 % 8) = true ∧ (op = 3 → d.w 13 / 2 ^ 8 % 16 = 4 ∨ d.w 13 / 2 ^ 8 % 16 = 8)
        ∧ s₁.flag .OBJ_STATUS_READY = true ∧ ∃ h ∈ [d.w 14, d.w 15], s₁.stale h = true)) :
    Completes s₁ (s.codecStart op q n hs) d (2 ^ d.count - 1) d.result code := by
  obtain ⟨hd, hnew, hne⟩ := startsAt_spec h
  rw [codecStart_eq h]
  rcases hcase with ⟨rfl, hunit⟩ | ⟨hop, rfl, hunit, h4, h8⟩ | ⟨rfl, hunit, hwidth, hready, hstale⟩
  · rw [if_pos (by simpa using hunit)]
    exact completes_failAll (by decide) h
  · rw [hunit, if_neg (by decide), if_pos ⟨hop, h4, h8⟩]
    exact completes_failAll (by decide) h
  · rw [hunit, if_neg (by decide), if_neg fun ⟨hop, h4, h8⟩ => (hwidth hop).elim h4 h8,
      checked_stale hd hnew hne hready (by rwa [stale_congr (objEntry_begin ..)])]
    have := completes_failAll (code := stObjStale) (by decide) h
    obtain ⟨-, rfl, rfl, -⟩ := h
    exact this

end State

theorem startChecks : Clause.StartChecks := by
  intro s s₁ q n op code d hs h die width unit stale hcase
  have hstale : stale → ∃ h ∈ [d.w 14, d.w 15], s₁.stale h = true :=
    fun ⟨h, hmem, hne, hw⟩ => ⟨h, hmem, (s₁.stale_iff h).mpr ⟨hne, hw⟩⟩
  rcases hcase with ⟨rfl, rfl, k, hk, hbit, habsent⟩ | ⟨rfl | rfl | rfl, hcase⟩
  · have hany : (List.range 8).any (fun k => bit (bits (d.w 12) 7 0) k && !s₁.variant.hasDie k) = true :=
      List.any_eq_true.mpr ⟨k, List.mem_range.mpr hk, by rw [bit_bits_low (by omega), hbit, habsent]; rfl⟩
    have ht := State.launch_eq (hs := hs) h
    rw [if_pos hany] at ht
    exact ⟨_, congrArg Host.Outcome.next ht, State.completes_failAll (by decide) h⟩
  · refine ⟨_, rfl, State.completes_copy h ?_⟩
    rcases hcase with hcase | ⟨hop, -⟩ | ⟨hcode, hunit, -, hready, hst⟩
    · exact Or.inl hcase
    · cases hop
    · exact Or.inr ⟨hcode, hunit, hready, hstale hst⟩
  · refine ⟨_, rfl, State.completes_codecStart h ?_⟩
    exact hcase.imp id (Or.imp id fun ⟨hcode, hunit, hwidth, hready, hst⟩ => ⟨hcode, hunit, hwidth, hready, hstale hst⟩)
  · refine ⟨_, rfl, State.completes_codecStart h ?_⟩
    exact hcase.imp id (Or.imp id fun ⟨hcode, hunit, hwidth, hready, hst⟩ => ⟨hcode, hunit, hwidth, hready, hstale hst⟩)

end Sys2Proof.Machine
end

section
/-!
PROOF. Fetching a descriptor (R269, R271, R272, R287).
-/
namespace Sys2Proof.Machine
namespace State

variable {s s₁ : State} {q a : Nat} {hs : HostMem} {bs : List Byte} {poison : Bool}

/-- The words read from a slot of a queue's ring as a descriptor of the queue, its layout not yet looked at; the read leaves
state `s₁`. -/
def slotDesc (s s₁ : State) (q : Nat) (bs : List Byte) (poison : Bool) : Desc :=
  ⟨q, s.f .QUE_SQ_CONSUMER_INDEX q, s.f .QUE_SQ_SETUP_CONTEXT q, s₁.f .QUE_SQ_SETUP_CQ q, s.serveDie q,
    s₁.f .QUE_SQ_SETUP_PRIORITY q, bytesWords 16 bs, .fetched, false, [], false, poison, 0, false, [], 0, 0⟩

/-- The descriptor fetched. -/
def fetchedDesc (s s₁ : State) (q : Nat) (bs : List Byte) (poison : Bool) : Desc :=
  let d := s.slotDesc s₁ q bs poison
  { d with malformed := !poison && !d.wellFormed, waitDone := !d.waitEn,
           items := rep (if poison then 1 else d.count) ⟨.fresh, 0, false, 0, 0, [], []⟩ }

/-- A read of a ring's place changes none of the queues' registers. -/
theorem walked_ringRead {d ipa n : Nat} {r : Nat × List Byte × Bool} (h : s.ringRead d hs ipa n = (s₁, some (some r))) :
    Walked s s₁ := by
  unfold ringRead at h
  split at h
  · cases h
  · cases h
  · next hout =>
    have hs : Walked s _ := walked_ringAddr hout
    split at h
    · cases h
      exact hs
    · cases h
      exact hs
    · cases h

/-- The part holds a descriptor more, its queue's consumer index counts it. -/
def takeDesc (s : State) (d : Desc) : State :=
  (s.modCp fun y => { y with descs := y.descs ++ [d] }).setF .QUE_SQ_CONSUMER_INDEX d.q ((d.n + 1) % 2 ^ 32)

theorem desc?_takeDesc {d : Desc} (h : s.desc? d.q d.n = none) : (s.takeDesc d).desc? d.q d.n = some d := by
  have hfind : s.cp.descs.find? (fun e => e.q == d.q && e.n == d.n) = none := h
  refine (List.find?_append ..).trans ?_
  rw [hfind, List.find?_cons_of_pos (by simp)]
  rfl

/-- A fetched descriptor completes at once where it cannot be read or breaks its layout. -/
theorem descriptorFetch_eq
    (hq : q < 1024) (hon : s.flag .QUE_SQ_CTRL_ENABLE q = true) (hstate : s.f .QUE_SQ_STATUS_STATE q = 1)
    (hknown : (s.cp.sqs.get ⟨0, false, none⟩ q).known = true) (hlatch : (s.cp.sqs.get ⟨0, false, none⟩ q).latched = none)
    (hnew : s.f .QUE_SQ_CONSUMER_INDEX q ≠ (s.cp.sqs.get ⟨0, false, none⟩ q).producer)
    (hwindow : ((s.cp.sqs.get ⟨0, false, none⟩ q).producer + 2 ^ 32 - s.f .QUE_SQ_CONSUMER_INDEX q) % 2 ^ 32
      ≤ 2 ^ s.f .QUE_SQ_SETUP_SIZE_LOG2 q)
    (hroom : s.inflight q < 256) (hproc : s.procRunning (2 + s.f .QUE_SQ_SETUP_SERVE_DIE q) = true)
    (hopen : s.stacksOpen (s.f .QUE_SQ_SETUP_SERVE_DIE q) = true)
    (hread : s.ringRead (s.f .QUE_SQ_SETUP_SERVE_DIE q) hs
      (s.f .QUE_SQ_BASE_ADDR q * 4096 + 64 * (s.f .QUE_SQ_CONSUMER_INDEX q % 2 ^ s.f .QUE_SQ_SETUP_SIZE_LOG2 q)) 64
        = (s₁, some (some (a, bs, poison))))
    (hlatch' : (s₁.cp.sqs.get ⟨0, false, none⟩ q).latched = none) (hctx : s₁.f .CTX_STATUS_STATE (s.f .QUE_SQ_SETUP_CONTEXT q) ≠ 3) :
    s.descriptorFetch q hs = if (s.fetchedDesc s₁ q bs poison).malformed || poison
      then (s₁.takeDesc (s.fetchedDesc s₁ q bs poison)).complete q (s.f .QUE_SQ_CONSUMER_INDEX q)
      else s₁.takeDesc (s.fetchedDesc s₁ q bs poison) := by
  have hgo : ¬ (1024 ≤ q ∨ !s.flag .QUE_SQ_CTRL_ENABLE q ∨ s.f .QUE_SQ_STATUS_STATE q ≠ 1
      ∨ (!(s.cp.sqs.get ⟨0, false, none⟩ q).known && (s.cp.sqs.get ⟨0, false, none⟩ q).latched.isNone)
      ∨ s.f .QUE_SQ_CONSUMER_INDEX q = (s.cp.sqs.get ⟨0, false, none⟩ q).latched.getD (s.cp.sqs.get ⟨0, false, none⟩ q).producer
      ∨ 2 ^ s.f .QUE_SQ_SETUP_SIZE_LOG2 q < ringAhead ((s.cp.sqs.get ⟨0, false, none⟩ q).latched.getD
          (s.cp.sqs.get ⟨0, false, none⟩ q).producer) (s.f .QUE_SQ_CONSUMER_INDEX q)
      ∨ 256 ≤ s.inflight q ∨ !s.procRunning (2 + s.serveDie q) ∨ !s.stacksOpen (s.serveDie q)) := by
    simp only [hon, hstate, hknown, hlatch, serveDie, hproc, hopen, ringAhead, Option.getD_none, Bool.not_true, Bool.false_and,
      Bool.false_eq_true, ne_eq, not_true_eq_false, false_or, or_false, not_or, not_le, not_lt]
    exact ⟨hq, hnew, hwindow, hroom⟩
  have hstay : ∀ t : State, t.cp.sqs = s₁.cp.sqs → t.latchedDone q = t := fun t ht => by
    rw [latchedDone, ht, hlatch']
  have hctx' : (s₁.takeDesc (s.fetchedDesc s₁ q bs poison)).ctxState (s.f .QUE_SQ_SETUP_CONTEXT q) ≠ 3 := by
    rw [ctxState, takeDesc, f_setF_of_ne (by decide)]
    exact hctx
  rw [descriptorFetch]
  dsimp only
  rw [if_neg hgo]
  dsimp only [serveDie]
  rw [hread]
  change (if (s.fetchedDesc s₁ q bs poison).malformed || poison
      then (s₁.takeDesc (s.fetchedDesc s₁ q bs poison)).complete q (s.f .QUE_SQ_CONSUMER_INDEX q)
      else if (s₁.takeDesc (s.fetchedDesc s₁ q bs poison)).ctxState (s.f .QUE_SQ_SETUP_CONTEXT q) = 3 then _
      else s₁.takeDesc (s.fetchedDesc s₁ q bs poison)).latchedDone q = _
  rw [if_neg hctx']
  split
  · refine hstay _ ?_
    cases hd : (s₁.takeDesc (s.fetchedDesc s₁ q bs poison)).desc? q (s.f .QUE_SQ_CONSUMER_INDEX q) with
    | none => rw [complete, hd]; rfl
    | some d => rw [(completed_complete hd).frame]; rfl
  · exact hstay _ rfl

/-- What a fetched descriptor leaves of the rest. -/
theorem takeDesc_effect (s : State) (d : Desc) : let t := s.takeDesc d
    s.onlyCpFields t ∧ s.fieldsBut t [(.QUE_SQ_CONSUMER_INDEX, d.q)] ∧ t.f .QUE_SQ_CONSUMER_INDEX d.q = (d.n + 1) % 2 ^ 32
      ∧ t.cp.cqs = s.cp.cqs ∧ t.cp.descs.length = s.cp.descs.length + 1 := by
  refine ⟨rfl, fieldsBut_trans (fieldsBut_of_fields rfl _) (fieldsBut_setF _ _ (List.mem_singleton.mpr rfl)), ?_, rfl, ?_⟩
  · exact (f_setF_self ..).trans (Nat.mod_mod ..)
  · exact List.length_append

theorem consumer_not_doneField (d e : Desc) : (.QUE_SQ_CONSUMER_INDEX, d.q) ∉ e.doneFields := by
  simp [Desc.doneFields, withWraps, Fld.wrap]

theorem length_descs_of_keys {s t : State} (h : t.descKeys = s.descKeys) : t.cp.descs.length = s.cp.descs.length := by
  rw [← List.length_map (fun d : Desc => (d.q, d.n)), ← List.length_map (fun d : Desc => (d.q, d.n))]
  exact congrArg List.length h

/-- A fetched descriptor that completes at once. -/
theorem takeDesc_complete_effect {d : Desc} (h : s.desc? d.q d.n = none) : let t := (s.takeDesc d).complete d.q d.n
    s.onlyCpFields t ∧ t.desc? d.q d.n = some { d with stage := .complete } ∧ t.cp.descs.length = s.cp.descs.length + 1
      ∧ t.f .QUE_SQ_CONSUMER_INDEX d.q = (d.n + 1) % 2 ^ 32
      ∧ s.fieldsBut t ((.QUE_SQ_CONSUMER_INDEX, d.q) :: d.doneFields)
      ∧ (t.cp.cqs.get .reset d.cq).held = (s.cp.cqs.get .reset d.cq).held ++ [recordFor d] := by
  have hc := completed_complete (desc?_takeDesc h)
  obtain ⟨hframe, hbut, hindex, hcqs, hlen⟩ := s.takeDesc_effect d
  refine ⟨onlyCpFields_trans hframe ?_, hc.desc, (length_descs_of_keys hc.keys).trans hlen,
    (hc.fields _ _ (consumer_not_doneField d d)).trans hindex, ?_, ?_⟩
  · rw [onlyCpFields, hc.frame]
  · exact fieldsBut_trans (fieldsBut_mono hbut (by simp)) (fieldsBut_mono hc.fields (by simp))
  · rw [hc.held, hcqs]

/-- The record of a fetched descriptor that is read as poison, or that breaks its layout (R287). -/
theorem recordFor_fetched (hbad : ((s.fetchedDesc s₁ q bs poison).malformed || poison) = true) :
    let d := s.fetchedDesc s₁ q bs poison
    recordFor d = if poison then ⟨d.recordOf 1 0 0 1 0x0010, d.q, d.n, false⟩
      else ⟨d.recordOf (2 ^ d.count - 1) 0 (d.w 1) d.count 0x0001, d.q, d.n, d.irq⟩ := by
  cases poison
  · have hm : (s.fetchedDesc s₁ q bs false).malformed = true := by simpa using hbad
    dsimp only [recordFor]
    rw [recordWords_of_malformed hm rfl]
    exact congrArg (HeldRec.mk _ _ _) (Bool.and_true _)
  · dsimp only [recordFor]
    rw [recordWords_of_poisoned rfl]
    exact congrArg (HeldRec.mk _ _ _) (Bool.and_false _)

/-- A descriptor breaks its layout, where it has been read. -/
theorem malformed_fetchedDesc (s s₁ : State) (q : Nat) (bs : List Byte) (poison : Bool) :
    (s.fetchedDesc s₁ q bs poison).malformed = (!poison && !(s.fetchedDesc s₁ q bs poison).wellFormed) := rfl

end State

theorem descriptorFetches : Clause.DescriptorFetches := by
  intro s s₁ q a hs bs poison x n size ahead die hq hon hstate hknown hlatch hnew hwindow hroom hproc hopen hread hlatch' hctx
    hnone _
  have ht := State.descriptorFetch_eq hq hon hstate hknown hlatch hnew hwindow hroom hproc hopen hread hlatch' hctx
  have hrec := fun hbad => State.recordFor_fetched (s := s) (s₁ := s₁) (q := q) (bs := bs) (poison := poison) hbad
  have hmal := s.malformed_fetchedDesc s₁ q bs poison
  have hfields : let d := s.fetchedDesc s₁ q bs poison
      d.q = q ∧ d.n = n ∧ d.ctx = s.f .QUE_SQ_SETUP_CONTEXT q ∧ d.cq = s.f .QUE_SQ_SETUP_CQ q ∧ d.words = bytesWords 16 bs :=
    ⟨rfl, rfl, rfl, (State.walked_ringRead hread).counts _ _ (by decide), rfl⟩
  have hfresh : (s.fetchedDesc s₁ q bs poison).stage = .fetched := rfl
  have hitems : poison = false → (s.fetchedDesc s₁ q bs poison).items.length = (s.fetchedDesc s₁ q bs poison).count :=
    fun hp => by rw [hp]; exact List.length_replicate
  generalize s.fetchedDesc s₁ q bs poison = d at ht hrec hmal hfields hfresh hitems
  obtain ⟨rfl, hdn, hctxd, hcqd, hwords⟩ := hfields
  have hnone' : s₁.desc? d.q d.n = none := by rw [hdn]; exact hnone
  rw [← hdn]
  cases hbad : d.malformed || poison
  · obtain ⟨hp, hwell⟩ : poison = false ∧ d.wellFormed = true := by
      have : d.malformed = false ∧ poison = false := by simpa using hbad
      rw [hmal] at this
      exact ⟨this.2, by simpa [this.2] using this.1⟩
    rw [hbad, if_neg (by decide)] at ht
    obtain ⟨hframe, hbut, hindex, hcqs, hlen⟩ := s₁.takeDesc_effect d
    have hdesc := State.desc?_takeDesc hnone'
    refine ⟨_, d, congrArg Host.Outcome.next ht, hframe, hdesc, hlen, hindex, State.fieldsBut_mono hbut (by simp), rfl, rfl,
      hctxd, hcqd, hwords, ?_⟩
    rw [if_neg (by rw [hp]; decide), if_pos hwell]
    exact ⟨hfresh, hcqs, hitems hp⟩
  · rw [hbad, if_pos rfl, show s.f .QUE_SQ_CONSUMER_INDEX d.q = d.n from hdn.symm] at ht
    obtain ⟨hframe, hdesc, hlen, hindex, hbut, hheld⟩ := State.takeDesc_complete_effect hnone'
    rw [hrec hbad] at hheld
    refine ⟨_, { d with stage := .complete }, congrArg Host.Outcome.next ht, hframe, hdesc, hlen, hindex, hbut, rfl, rfl,
      hctxd, hcqd, hwords, ?_⟩
    cases poison
    · have hwell : d.wellFormed = false := by simpa [hmal] using hbad
      rw [if_neg (by decide), if_neg (by rw [show ({ d with stage := .complete } : Desc).wellFormed = d.wellFormed from rfl, hwell]; decide)]
      exact ⟨rfl, hheld⟩
    · exact ⟨rfl, hheld⟩

/-- Settles O26: descriptors are fetched in ring order, and the checks at their start fail every item. -/
theorem descriptorStarts : Obligations.DescriptorStarts := ⟨descriptorFetches, startChecks⟩

end Sys2Proof.Machine
end

section
/-!
PROOF. What the sending of an invalidation does to the caches, the walkers and the requests under way (R258 to R260).
-/
namespace Sys2Proof.Machine

/-- A tile without what an invalidation names; the misses that it has sent are to be sent again. -/
def Tile.forget (kind ctx start length : Nat) (t : Tile) : Tile :=
  { t with xc := t.xc.filter (fun e => !State.tileRemoved kind ctx start length e), misses := t.sent ++ t.misses, sent := [] }

/-- A walker without what an invalidation names, and without walks under way. -/
def Die.forget (kind ctx : Nat) (x : Die) : Die :=
  { x with walks := [], queued := [], w1 := x.w1.filter (fun e => !State.walkerRemoved kind ctx e),
           w2 := x.w2.filter fun e => !State.walkerRemoved kind ctx e }

namespace State

variable {s t : State}

/-- A loop that changes one part of the state by each of its members, each its own. -/
theorem forEach_update {β : Type} (φ : State → Nat → β) (g : β → β) {f : State → Nat → State}
    (hself : ∀ u k, φ (f u k) k = g (φ u k)) (hother : ∀ u k j, j ≠ k → φ (f u k) j = φ u j) {l : List Nat} (hl : l.Nodup)
    (s : State) (k : Nat) : φ (s.forEach l f) k = if k ∈ l then g (φ s k) else φ s k := by
  induction l generalizing s with
  | nil => rfl
  | cons a l ih =>
    obtain ⟨ha, hl⟩ := List.nodup_cons.mp hl
    refine (ih hl (f s a)).trans ?_
    by_cases hk : k = a
    · rw [hk, if_neg ha, if_pos List.mem_cons_self, hself]
    · rw [hother s a k hk]
      simp [hk]

section
variable (kind ctx start length : Nat)

/-- A tile drops what an invalidation names. -/
def forgetTile (s : State) (p : Nat) : State :=
  (s.modTile p (·.forget kind ctx start length)).bump .XLTC_MISSES_COUNT p (s.tile p).sent.length

/-- A walker drops what an invalidation names. -/
def forgetDie (s : State) (d : Nat) : State := s.modDie d (·.forget kind ctx)

/-- The pages that an invalidation takes from the tiles' caches. -/
def invalPages (s : State) : List InvPage :=
  (List.range (104 * s.variant.dies)).flatMap fun p =>
    ((s.tile p).xc.filter (tileRemoved kind ctx start length)).map fun e =>
      ⟨p, (s.tile p).thr.nextStore, e.target, e.pa, e.bits, e.endpoint⟩

/-- The invalidation that is sent. -/
def invalOf (s : State) (desc : Option (Nat × Nat)) (destroys : Option Nat) : Inval :=
  ⟨s.nextId, kind, ctx, start, length, s.participants, s.invalPages kind ctx start length, s.nextId, desc, destroys⟩

/-- The tiles have dropped what an invalidation names. -/
def tilesForget (s : State) (i : Inval) : State :=
  ({ s with nextId := s.nextId + 1, invals := s.invals ++ [i] } : State).forEach (List.range (104 * s.variant.dies))
    (forgetTile kind ctx start length)

variable (desc : Option (Nat × Nat)) (destroys : Option Nat)

theorem sendInval_eq (s : State) : s.sendInval kind ctx start length desc destroys =
    let u := s.tilesForget kind ctx start length (s.invalOf kind ctx start length desc destroys)
    u.forEach (List.range u.variant.dies) (forgetDie kind ctx) := rfl

/-- What the tiles' loop leaves alone. -/
theorem tilesForget_apply {β : Type} (φ : State → β) (i : Inval) (hb : ∀ u c i n, φ (bump u c i n) = φ u)
    (hm : ∀ u p g, φ (modTile u p g) = φ u) :
    φ (s.tilesForget kind ctx start length i) = φ { s with nextId := s.nextId + 1, invals := s.invals ++ [i] } :=
  forEach_apply φ _ fun _ _ => (hb ..).trans (hm ..)

/-- What sending an invalidation leaves alone. -/
theorem sendInval_apply {β : Type} (φ : State → β) (hb : ∀ u c i n, φ (bump u c i n) = φ u)
    (hm : ∀ u p g, φ (modTile u p g) = φ u) (hd : ∀ u d g, φ (modDie u d g) = φ u) :
    φ (s.sendInval kind ctx start length desc destroys) =
      φ { s with nextId := s.nextId + 1, invals := s.invals ++ [s.invalOf kind ctx start length desc destroys] } := by
  rw [sendInval_eq]
  exact (forEach_apply φ _ fun u d => hd ..).trans (tilesForget_apply kind ctx start length φ _ hb hm)

theorem sendInval_mem : (s.sendInval kind ctx start length desc destroys).mem = s.mem :=
  sendInval_apply _ _ _ _ _ _ (·.mem) (fun _ _ _ _ => bump_mem ..) (fun _ _ _ => rfl) fun _ _ _ => rfl

theorem sendInval_cp : (s.sendInval kind ctx start length desc destroys).cp = s.cp :=
  sendInval_apply _ _ _ _ _ _ (·.cp) (fun _ _ _ _ => bump_cp ..) (fun _ _ _ => rfl) fun _ _ _ => rfl

theorem sendInval_invals : (s.sendInval kind ctx start length desc destroys).invals =
    s.invals ++ [s.invalOf kind ctx start length desc destroys] :=
  sendInval_apply _ _ _ _ _ _ (·.invals) (fun _ _ _ _ => bump_invals ..) (fun _ _ _ => rfl) fun _ _ _ => rfl

theorem f_sendInval {x : Fld} (hc : x ≠ .XLTC_MISSES_COUNT) (hw : x ≠ .XLTC_COUNTER_WRAP_MISSES_WRAPPED) (k : Nat) :
    (s.sendInval kind ctx start length desc destroys).f x k = s.f x k := by
  rw [sendInval_eq]
  refine (forEach_apply (f := forgetDie kind ctx) (·.f x k) _ fun u d => rfl).trans ?_
  exact forEach_apply (f := forgetTile kind ctx start length) (·.f x k) _ fun u p => f_bump_of_wrap rfl hc hw ..

theorem variant_tilesForget (i : Inval) : (s.tilesForget kind ctx start length i).variant = s.variant :=
  tilesForget_apply _ _ _ _ (·.variant) _ (fun _ _ _ _ => congrArg Fuses.variant (bump_fuses ..)) fun _ _ _ => rfl

/-- What a tile keeps. -/
theorem tile_sendInval {p : Nat} (hp : p < 104 * s.variant.dies) :
    (s.sendInval kind ctx start length desc destroys).tile p = (s.tile p).forget kind ctx start length := by
  rw [sendInval_eq]
  refine (forEach_apply (f := forgetDie kind ctx) (·.tile p) _ fun u d => rfl).trans ?_
  refine (forEach_update (f := forgetTile kind ctx start length) (fun u p => u.tile p) (·.forget kind ctx start length)
    (fun u p => ?_) (fun u p q hq => ?_) List.nodup_range _ p).trans (if_pos (List.mem_range.mpr hp))
  · rw [forgetTile, tile_bump, tile_modTile_self]
  · rw [forgetTile, tile_bump, tile_modTile_other _ _ hq]

/-- What a walker keeps. -/
theorem die_sendInval {d : Nat} (hd : d < s.variant.dies) :
    ∃ x : Die, (s.sendInval kind ctx start length desc destroys).die d = x.forget kind ctx := by
  rw [sendInval_eq]
  dsimp only
  rw [variant_tilesForget]
  exact ⟨_, (forEach_update (f := forgetDie kind ctx) (fun u d => u.die d) (·.forget kind ctx) (fun u k => die_modDie_self ..)
    (fun u k j hj => die_modDie_other _ _ hj) List.nodup_range _ d).trans (if_pos (List.mem_range.mpr hd))⟩

end

/-- The entries that an invalidation leaves in a tile's cache. -/
theorem mem_xc_sendInval {kind ctx start length p : Nat} {desc : Option (Nat × Nat)} {destroys : Option Nat}
    (hp : p < 104 * s.variant.dies) (e : XEntry) : e ∈ ((s.sendInval kind ctx start length desc destroys).tile p).xc ↔
      e ∈ (s.tile p).xc ∧ tileRemoved kind ctx start length e = false := by
  rw [tile_sendInval _ _ _ _ _ _ hp, Tile.forget, List.mem_filter, Bool.not_eq_true']

end State
end Sys2Proof.Machine
end

section
/-!
PROOF. FENCE and INVALIDATE (R258 to R260, R278), and the object table (R292 to R296).
-/
namespace Sys2Proof.Machine

theorem fitW_of_length {n : Nat} {ws : List Nat} (h : ws.length = n) : fitW n ws = ws := by
  rw [fitW, h, Nat.sub_self]
  simp [rep, ← h]

/-- Bit `n` is clear in a number below `2 ^ n`, and under higher bits alone. -/
theorem bit_add_mul_pow {x y n m : Nat} (hx : x < 2 ^ n) (hm : n < m) : bit (x + y * 2 ^ m) n = false := by
  rw [bit_eq_testBit, Nat.mul_comm, Nat.add_comm, Nat.testBit_two_pow_mul_add _ (hx.trans (Nat.pow_lt_pow_right (by decide) hm)),
    if_pos hm, Nat.testBit_lt_two_pow hx]

namespace State

variable {s s₁ t u : State} {q n c : Nat} {d : Desc} {hs : HostMem}

/-! ### A descriptor of one item -/

/-- The only item of a descriptor that starts ends: the descriptor completes with the item's code. -/
theorem completes_single {op code : Nat} {e : Item → Item} (h : StartsAt s q n op s₁ d) (hone : d.count = 1)
    (he : ∀ it, (e it).stage = .ended) (hcode : ∀ it, it.stage = .fresh ∧ it.code = 0 → (e it).code = code)
    (hends : (s₁.begin_ d).ItemEnds t q n (d.begun.modItem 0 e)) :
    Completes s₁ t d (if code = 0 then 0 else 1) d.result code := by
  obtain ⟨-, rfl, rfl, -, hm, hp, hlen, hitems⟩ := h
  have hc := hends.completed (hlen.trans hone) he
  have := completes_of_begin hm hp hlen (fun it hit => hcode it (hitems it hit)) hc
  rwa [hone] at this

theorem fence_eq (h : StartsAt s q n 5 s₁ d) : s.fence q n = (s₁.begin_ d).endItem q n 0 := by
  rw [fence, h.1]

theorem completes_fence (h : StartsAt s q n 5 s₁ d) (hone : d.count = 1) : Completes s₁ (s.fence q n) d 0 d.result 0 := by
  obtain ⟨hd, -⟩ := startsAt_spec h
  rw [h.2.1, h.2.2.1] at hd
  rw [fence_eq h]
  exact completes_single (e := ended id) h hone (fun _ => rfl) (fun it hit => hit.2) (itemEnds_endItem hd rfl 0)

/-- The only item of a descriptor that starts fails with a code. -/
theorem completes_failItem {op code : Nat} (hne : code ≠ 0) (h : StartsAt s q n op s₁ d) (hone : d.count = 1) :
    Completes s₁ (((s₁.begin_ d).failItem q n 0 code).endItem q n 0) d 1 d.result code := by
  obtain ⟨hd, -⟩ := startsAt_spec h
  rw [h.2.1, h.2.2.1] at hd
  have := completes_single h hone (fun _ => rfl) (fun it hit => code_ended_fail hit code) (itemEnds_failItem hd rfl 0 code)
  rwa [if_neg hne] at this

/-! ### INVALIDATE -/

/-- An INVALIDATE that starts: its item runs. -/
def invalidating (s : State) (d : Desc) : State :=
  (s.begin_ d).modDesc d.q d.n fun d => d.modItem 0 fun it => { it with stage := .running }

theorem invalidate_eq (h : StartsAt s q n 6 s₁ d) : s.invalidate q n =
    (s₁.invalidating d).sendInval (d.w 8 % 4) (d.w 8 / 4 % 64) (d.q64 10) (d.q64 12) (some (q, n)) none := by
  obtain ⟨hstart, rfl, rfl, hstage, -⟩ := h
  rw [invalidate, hstart]
  dsimp only
  rw [if_neg (by rw [hstage]; decide), bits_zero_lo]
  rfl

/-- The entries of a tile's cache that an invalidation names (R258). -/
theorem tileRemoved_iff {kind : Nat} (hk : kind < 4) (ctx start length : Nat) (e : XEntry) :
    tileRemoved kind ctx start length e = true ↔
      (kind = 0 ∧ e.ctx = ctx ∧ e.va < start + length ∧ start < e.va + 2 ^ e.bits)
      ∨ (kind = 1 ∧ e.ipa < start + length ∧ start < e.ipa + 2 ^ e.bits) ∨ (kind = 2 ∧ e.ctx = ctx) ∨ kind = 3 := by
  obtain rfl | rfl | rfl | rfl : kind = 0 ∨ kind = 1 ∨ kind = 2 ∨ kind = 3 := by omega
  all_goals simp [tileRemoved, and_assoc]

theorem item_invalidating (h : StartsAt s q n 6 s₁ d) (hone : d.count = 1) :
    (((s₁.invalidating d).desc? q n).bind (·.items[0]?)).map (·.stage) = some .running := by
  obtain ⟨hd, -⟩ := startsAt_spec h
  obtain ⟨-, rfl, rfl, -, -, -, hlen, -⟩ := h
  have hitem := item?_modItem (s₁.begin_ d) d.q d.n 0 fun it => { it with stage := .running }
  have h0 : 0 < d.items.length := by omega
  have hfirst : (s₁.begin_ d).item? d.q d.n 0 = some d.items[0] := by
    rw [item?, hd]
    exact List.getElem?_eq_getElem h0
  rw [hfirst] at hitem
  exact congrArg (Option.map Item.stage) hitem

end State

theorem fenceAndInvalidate : Clause.FenceAndInvalidate := by
  refine ⟨fun s s₁ q n d h hone => ⟨_, rfl, State.completes_fence h hone⟩, ?_⟩
  intro s s₁ q n d h hone kind ctx start length gone
  have ht := State.invalidate_eq h
  refine ⟨_, _, congrArg Host.Outcome.next ht, State.sendInval_mem .., State.sendInval_invals .., rfl, rfl, rfl, rfl, rfl, rfl,
    rfl, fun p hp => ?_, fun j hj => ?_, ?_⟩
  · refine ⟨fun e => ?_, ?_⟩
    · rw [State.mem_xc_sendInval (s := s₁.invalidating d) hp, ← Bool.not_eq_true,
        State.tileRemoved_iff (Nat.mod_lt _ (by decide))]
      rfl
    · rw [State.tile_sendInval (s := s₁.invalidating d) _ _ _ _ _ _ hp]
      exact ⟨rfl, rfl⟩
  · obtain ⟨x, hx⟩ := State.die_sendInval (s := s₁.invalidating d) (d.w 8 % 4) (d.w 8 / 4 % 64) (d.q64 10) (d.q64 12) (some (q, n))
      none hj
    rw [hx]
    exact ⟨rfl, rfl⟩
  · rw [State.desc?_congr (State.sendInval_cp ..)]
    exact State.item_invalidating h hone

namespace State

variable {s s₁ t u : State} {q n c : Nat} {d : Desc} {hs : HostMem}

/-! ### The object table -/

/-- A write of an entry is one access within one line, at its home (R292). -/
theorem physWrite_entry {pa : Nat} {bs : List Byte} (hc : s.cellOf pa = some c) (hpa : pa % 32 = 0) (hlen : bs.length = 32)
    (die : Option Nat) : (s.physWrite die pa bs).1 = (s.bump .HBM_WRITES_COUNT (c / 64 / 2 ^ 30)).putBytes c bs := by
  have hmin : Nat.min 32 (64 - pa % 64) = 32 := Nat.min_eq_left (by omega)
  have hparts : partsOf pa bs.length = [(pa, 32)] := by
    rw [hlen, partsOf, lineParts, if_neg (by decide)]
    dsimp only
    rw [hmin]
    rfl
  have hcell : c / 64 * 64 + c % 64 = c := by omega
  rw [physWrite, hparts]
  dsimp only [List.foldl]
  rw [hc]
  dsimp only
  rw [writeLine, List.take_of_length_le hlen.le, if_neg (by rw [hlen]; decide), hcell]
  rfl

/-- What a write of an object's entry leaves. -/
theorem setObj_effect {slot : Nat} {ws : List Nat} (hc : s.cellOf (s.tableBase + 32 * slot) = some c) (hws : ws.length = 8) :
    let t := s.setObj slot ws
    t = { s with mem := t.mem, fields := t.fields } ∧ t.mem = FMap.putList memDefault s.mem c (wordBytes ws) := by
  have hbs : (wordBytes (fitW 8 ws)).length = 32 := by rw [length_wordBytes, length_fitW]
  have hpa : (s.tableBase + 32 * slot) % 32 = 0 := by rw [tableBase]; omega
  have ht : s.setObj slot ws = _ := physWrite_entry hc hpa hbs (some 0)
  have hb := bump_onlyFields (s := s) .HBM_WRITES_COUNT (c / 64 / 2 ^ 30) 1
  rw [onlyFields] at hb
  rw [fitW_of_length hws] at ht
  dsimp only
  rw [ht, hb]
  exact ⟨rfl, rfl⟩

/-- Bytes of memory where an entry has been written. -/
theorem entry_of_putList {ws : List Nat} (hmem : t.mem = FMap.putList memDefault s.mem c (wordBytes ws)) (hws : ws.length = 8) :
    t.memBytes c 32 = wordBytes ws ∧ s.memBut t c 32 := by
  have hlen : (wordBytes ws).length = 32 := by rw [length_wordBytes, hws]
  refine ⟨?_, fun a ha => ?_⟩
  · rw [memBytes, hmem, ← hlen]
    exact FMap.getList_putList_self ..
  · rw [memByte, hmem, FMap.get_putList, hlen, if_neg ha]
    rfl

/-- The first four bytes are the first word. -/
theorem word0_of_entry {w : Nat} {ws : List Nat} (h : t.memBytes c 32 = wordBytes (w :: ws)) :
    fromLE (t.memBytes c 4) = w % 2 ^ 32 := by
  have htake : t.memBytes c 4 = (t.memBytes c 32).take 4 := by
    rw [memBytes, memBytes, FMap.getList_eq_map, FMap.getList_eq_map, ← List.map_take]
    rfl
  have hword : (wordBytes (w :: ws)).take 4 = toLE 4 w := by
    rw [show wordBytes (w :: ws) = toLE 4 w ++ wordBytes ws from List.flatMap_cons]
    exact List.take_left' (length_toLE 4 w)
  rw [htake, h, hword, fromLE_toLE]
  rfl

theorem length_objEntry (s : State) (slot : Nat) : (s.objEntry slot).length = 8 := by
  rw [objEntry_eq, entryAt]
  split
  · simp [bytesWords]
  · rfl

/-- A word of an entry is one of 32 bits. -/
theorem objEntry_lt (s : State) (slot : Nat) : nth 0 (s.objEntry slot) 0 < 2 ^ 32 := by
  rw [objEntry_eq, entryAt]
  split
  · refine (fromLE_lt _).trans_le (Nat.pow_le_pow_right (by decide) ?_)
    rw [List.length_take]
    omega
  · decide

/-! ### OBJ_REGISTER (R294) -/

/-- The entry that a registration of an object that is not reloadable writes. -/
def newEntry (d : Desc) (w : Nat) : List Nat :=
  [bits w 11 0 + 2 ^ 12 + b2n (bit (d.w 14) 20) * 2 ^ 13 + d.ctx * 2 ^ 15, 0, d.w 8, d.w 9, d.w 10, d.w 11, d.w 12, d.w 13]

/-- A registration is counted, its descriptor answers the object's handle. -/
def answering (s : State) (d : Desc) (handle : Nat) : State :=
  (s.modDesc d.q d.n fun d => { d with result := handle }).bump .OBJ_REGISTERED_COUNT

/-- An OBJ_REGISTER that starts: a slot that is taken fails it, a free one is written (R294). -/
theorem objRegister_eq (h : StartsAt s q n 7 s₁ d) (hready : s₁.flag .OBJ_STATUS_READY = true)
    (hwait : s₁.xlWaiting (.cp q n 0) d.die none = false) :
    let w := nth 0 (s₁.objEntry (d.w 14 % 2 ^ 20)) 0
    ∃ t, s.objRegister q n hs = (if bit w 12 then ((s₁.begin_ d).failItem q n 0 stObjBusy).endItem q n 0
        else if bit w 14 then ((s₁.begin_ d).failItem q n 0 stObjRetired).endItem q n 0 else t)
      ∧ (bit (d.w 14) 20 = false → t =
        (((s₁.begin_ d).setObj (d.w 14 % 2 ^ 20) (newEntry d w)).answering d (d.w 14 % 2 ^ 20 + bits w 11 0 * 2 ^ 20)).endItem q n 0) := by
  obtain ⟨hstart, rfl, rfl, hstage, -⟩ := h
  have hgo : (!(s₁.begin_ d).flag .OBJ_STATUS_READY || (s₁.begin_ d).xlWaiting (.cp d.q d.n 0) d.die none) = false := by
    rw [show (s₁.begin_ d).flag .OBJ_STATUS_READY = true from hready,
      show (s₁.begin_ d).xlWaiting (.cp d.q d.n 0) d.die none = false from hwait]
    rfl
  rw [objRegister, hstart]
  dsimp only
  rw [hstage, if_pos (show (DescStage.fetched == DescStage.fetched) = true from rfl), hgo, if_neg Bool.false_ne_true,
    objEntry_begin, bits_zero_lo]
  refine ⟨_, rfl, fun hrel => ?_⟩
  rw [answering, newEntry, hrel]
  exact if_pos rfl

theorem desc?_answering {handle : Nat} (hcp : u.cp = s.cp) (hd : s.desc? d.q d.n = some d.begun) :
    (u.answering d handle).desc? d.q d.n = some { d.begun with result := handle } := by
  rw [answering, desc?_congr (bump_cp ..), desc?_modDesc, desc?_congr hcp, hd]
  rfl

/-- The words of a new entry are those that the statement of R294 gives. -/
theorem newEntry_words {w : Nat} (hrel : bit (d.w 14) 20 = false) (hwords : ∀ k, d.w k < 2 ^ 32) (hctx : d.ctx < 64) :
    (newEntry d w).map (· % 2 ^ 32) =
      [w % 2 ^ 12 + 2 ^ 12 + d.ctx * 2 ^ 15, 0, d.w 8, d.w 9, d.w 10, d.w 11, d.w 12, d.w 13] := by
  have h0 : w % 2 ^ 12 + 2 ^ 12 + d.ctx * 2 ^ 15 < 2 ^ 32 := by omega
  simp only [newEntry, hrel, b2n, Bool.false_eq_true, if_false, Nat.zero_mul, Nat.add_zero, bits_zero_lo, List.map_cons, List.map_nil,
    Nat.mod_eq_of_lt (hwords _), Nat.mod_eq_of_lt h0, Nat.zero_mod]

/-- An entry has been written and the descriptor answers `r`: its only item ends. -/
theorem entry_effect {op r : Nat} (h : StartsAt s q n op s₁ d) (hone : d.count = 1) {ws : List Nat} (hws : ws.length = 8)
    (hd : u.desc? d.q d.n = some { d.begun with result := r }) (hcqs : u.cp.cqs = s₁.cp.cqs) (htiles : u.tiles = s₁.tiles)
    (hmem : u.mem = FMap.putList memDefault s₁.mem c (wordBytes ws)) : let t := u.endItem q n 0
    t.tiles = s₁.tiles ∧ s₁.memBut t c 32 ∧ t.memBytes c 32 = wordBytes ws
      ∧ RecordHeld s₁ t d (d.recordOf 0 r (d.w 1) 1 0) d.irq := by
  obtain ⟨-, rfl, rfl, -, hm, hp, hlen, hitems⟩ := h
  have hdone := (itemEnds_endItem hd rfl 0).completed (hlen.trans hone) fun _ => rfl
  dsimp only
  generalize u.endItem d.q d.n 0 = t at hdone
  have hframe := hdone.frame
  obtain ⟨hbytes, hbut⟩ := entry_of_putList (s := s₁) (t := t) (by rw [← hmem, hframe]) hws
  refine ⟨by rw [← htiles, hframe], hbut, hbytes, ?_⟩
  have := recordHeld_of_completed (code := 0) (s := s₁) (d := d) hcqs hdone ⟨rfl, rfl, rfl, rfl, rfl, rfl, rfl⟩ ⟨hm, hp,
    (List.length_map _).trans hlen, fun it hit => by
      obtain ⟨a, ha, rfl⟩ := List.mem_map.mp hit
      exact (hitems a ha).2⟩
  rwa [if_pos rfl, hone] at this

theorem cellOf_begin {slot : Nat} (hc : s₁.cellOf (s₁.tableBase + 32 * slot) = some c) :
    (s₁.begin_ d).cellOf ((s₁.begin_ d).tableBase + 32 * slot) = some c := by
  rw [(sameHome_of_eq (s := s₁) (t := s₁.begin_ d) rfl rfl).cellOf]
  exact hc

theorem register_effect {op : Nat} (h : StartsAt s q n op s₁ d) (hone : d.count = 1) {slot handle : Nat} {ws : List Nat}
    (hws : ws.length = 8) (hc : s₁.cellOf (s₁.tableBase + 32 * slot) = some c) :
    let t := (((s₁.begin_ d).setObj slot ws).answering d handle).endItem q n 0
    t.tiles = s₁.tiles ∧ s₁.memBut t c 32 ∧ t.memBytes c 32 = wordBytes ws
      ∧ RecordHeld s₁ t d (d.recordOf 0 handle (d.w 1) 1 0) d.irq := by
  obtain ⟨hframe, hmem⟩ := setObj_effect (cellOf_begin hc) hws
  generalize (s₁.begin_ d).setObj slot ws = u at hframe hmem
  have hcp : u.cp = (s₁.begin_ d).cp := by rw [hframe]
  refine entry_effect h hone hws (desc?_answering hcp (startsAt_spec h).1) ?_ ?_ ?_
  · rw [answering, bump_cp]
    exact (show (u.modDesc d.q d.n _).cp.cqs = u.cp.cqs from rfl).trans ((congrArg Cp.cqs hcp).trans rfl)
  · rw [answering, bump_tiles, modDesc, modCp_tiles, hframe]
    rfl
  · rw [answering, bump_mem, modDesc, modCp_mem, hmem]
    rfl

/-! ### OBJ_RELEASE (R295) -/

/-- The first word of an entry whose object is released. -/
def releaseWord (w : Nat) : Nat :=
  let inst := (bits w 11 0 + 1) % 4096
  let w' := inst + bits w 31 13 * 2 ^ 13
  if inst = 4095 then setBit w' 14 else w'

theorem bit_releaseWord (w : Nat) : bit (releaseWord w % 2 ^ 32) 12 = false := by
  have hlow : bit ((bits w 11 0 + 1) % 4096 + bits w 31 13 * 2 ^ 13) 12 = false :=
    bit_add_mul_pow (Nat.mod_lt _ (by decide)) (by decide)
  rw [bit_eq_testBit, Nat.testBit_mod_two_pow, ← bit_eq_testBit, releaseWord]
  split
  · rw [bit_setBit, hlow]
    rfl
  · rw [hlow]
    rfl

theorem releaseWord_low (w : Nat) : releaseWord w % 2 ^ 32 % 2 ^ 12 = (w + 1) % 2 ^ 12 := by
  rw [releaseWord, bits_zero_lo, setBit]
  split_ifs <;> omega

theorem set_eq_cons {ws : List Nat} (h : ws.length = 8) (w : Nat) : ws.set 0 w = w :: ws.tail := by
  cases ws with
  | nil => cases h
  | cons x ws => rfl

theorem releaseSlot_eq (s : State) (slot : Nat) : s.releaseSlot slot =
    (s.setObj slot (releaseWord (nth 0 (s.objEntry slot) 0) :: (s.objEntry slot).tail)).withdraw
      (slot + bits (nth 0 (s.objEntry slot) 0) 11 0 * 2 ^ 20) := by
  rw [← set_eq_cons (s.length_objEntry slot), releaseSlot, releaseWord]

/-- The die controllers alone give up an object's ranges. -/
theorem withdraw_apply {β : Type} (φ : State → β) (hφ : ∀ u k g, φ (modDie u k g) = φ u) (s : State) (handle : Nat) :
    φ (s.withdraw handle) = φ s :=
  forEach_apply φ _ fun _ _ => hφ ..

theorem objRelease_eq (h : StartsAt s q n 8 s₁ d) (hready : s₁.flag .OBJ_STATUS_READY = true) : s.objRelease q n =
    if d.w 8 = 0 ∨ s₁.stale (d.w 8) then ((s₁.begin_ d).failItem q n 0 stObjStale).endItem q n 0
    else (((s₁.begin_ d).releaseSlot (d.w 8 % 2 ^ 20)).bump .OBJ_RELEASED_COUNT).endItem q n 0 := by
  obtain ⟨hstart, rfl, rfl, hstage, -⟩ := h
  have hgo : (!(s₁.begin_ d).flag .OBJ_STATUS_READY) = false := by
    rw [show (s₁.begin_ d).flag .OBJ_STATUS_READY = true from hready]
    rfl
  rw [objRelease, hstart]
  dsimp only
  rw [hstage, if_pos (show (DescStage.fetched == DescStage.fetched) = true from rfl), hgo, if_neg Bool.false_ne_true,
    stale_congr (objEntry_begin ..), bits_zero_lo]

/-- A handle that may be released: not 0, its slot live, its instar the slot's. -/
theorem live_iff (s : State) (h : Nat) : ¬ (h = 0 ∨ s.stale h = true) ↔ h ≠ 0 ∧
    let w := nth 0 (s.objEntry (h % 2 ^ 20)) 0
    bit w 12 = true ∧ w % 2 ^ 12 = h / 2 ^ 20 % 2 ^ 12 := by
  have hbit : bit (nth 0 (s.objEntry (h % 2 ^ 20)) 0) 12 = true ↔ nth 0 (s.objEntry (h % 2 ^ 20)) 0 / 2 ^ 12 % 2 = 1 := beq_iff_eq
  rw [stale_iff]
  dsimp only
  rw [hbit]
  omega

theorem release_effect {op : Nat} (h : StartsAt s q n op s₁ d) (hone : d.count = 1) {slot : Nat}
    (hc : s₁.cellOf (s₁.tableBase + 32 * slot) = some c) : let w := nth 0 (s₁.objEntry slot) 0
    let t := (((s₁.begin_ d).releaseSlot slot).bump .OBJ_RELEASED_COUNT).endItem q n 0
    t.tiles = s₁.tiles ∧ s₁.memBut t c 32 ∧ fromLE (t.memBytes c 4) = releaseWord w % 2 ^ 32
      ∧ RecordHeld s₁ t d (d.recordOf 0 d.result (d.w 1) 1 0) d.irq := by
  have hlen : (releaseWord (nth 0 (s₁.objEntry slot) 0) :: (s₁.objEntry slot).tail).length = 8 := by
    rw [List.length_cons, List.length_tail, length_objEntry]
  dsimp only
  rw [releaseSlot_eq, objEntry_begin]
  generalize hhead : nth 0 (s₁.objEntry slot) 0 = w
  generalize (s₁.objEntry slot).tail = tail at hlen ⊢
  rw [hhead] at hlen
  obtain ⟨hframe, hmem⟩ := setObj_effect (cellOf_begin (d := d) hc) hlen
  generalize (s₁.begin_ d).setObj slot (releaseWord w :: tail) = u at hframe hmem
  generalize slot + bits w 11 0 * 2 ^ 20 = handle
  have hcp : ((u.withdraw handle).bump .OBJ_RELEASED_COUNT).cp = (s₁.begin_ d).cp :=
    calc _ = u.cp := (bump_cp ..).trans (withdraw_apply (·.cp) (fun _ _ _ => rfl) ..)
      _ = _ := by rw [hframe]
  have htiles : ((u.withdraw handle).bump .OBJ_RELEASED_COUNT).tiles = (s₁.begin_ d).tiles :=
    calc _ = u.tiles := (bump_tiles ..).trans (withdraw_apply (·.tiles) (fun _ _ _ => rfl) ..)
      _ = _ := by rw [hframe]
  have hmem' : ((u.withdraw handle).bump .OBJ_RELEASED_COUNT).mem = _ :=
    ((bump_mem ..).trans (withdraw_apply (·.mem) (fun _ _ _ => rfl) ..)).trans hmem
  obtain ⟨ht, hbut, hbytes, hrec⟩ := entry_effect h hone hlen ((desc?_congr hcp ..).trans (startsAt_spec h).1)
    ((congrArg Cp.cqs hcp).trans rfl) htiles hmem'
  exact ⟨ht, hbut, word0_of_entry hbytes, hrec⟩

/-! ### The table's place (R293) -/

/-- A die controller gives up every object's ranges. -/
def unlisted (x : Die) : Die :=
  { x with reloads := [], refetches := x.refetches.map fun y => { y with released := true } }

/-- The die controllers give up every object's ranges. -/
def unlistAll (s : State) : State := s.forEach (List.range 8) fun s k => s.modDie k unlisted

theorem unlistAll_apply {β : Type} (φ : State → β) (hφ : ∀ u k g, φ (modDie u k g) = φ u) (s : State) : φ s.unlistAll = φ s :=
  forEach_apply φ _ fun _ _ => hφ ..

theorem die_unlistAll (s : State) {k : Nat} (hk : k < 8) : s.unlistAll.die k = unlisted (s.die k) :=
  (forEach_update (fun u k => u.die k) unlisted (fun _ _ => die_modDie_self ..) (fun _ _ _ hj => die_modDie_other _ _ hj)
    List.nodup_range s k).trans (if_pos (List.mem_range.mpr hk))

/-- What a new table's controllers do touches no field. -/
theorem unlisted_effect (s : State) : let t := s.unlistAll.modCp fun c => { c with tableZeroing := true }
    t.mem = s.mem ∧ t.tiles = s.tiles ∧ t.cp = { s.cp with tableZeroing := true } ∧ (∀ x i, t.f x i = s.f x i)
      ∧ ∀ k, k < 8 → (t.die k).reloads = [] := by
  have hmem : s.unlistAll.mem = s.mem := unlistAll_apply (·.mem) (fun _ _ _ => rfl) s
  have htiles : s.unlistAll.tiles = s.tiles := unlistAll_apply (·.tiles) (fun _ _ _ => rfl) s
  have hcp : s.unlistAll.cp = s.cp := unlistAll_apply (·.cp) (fun _ _ _ => rfl) s
  have hf : ∀ x i, s.unlistAll.f x i = s.f x i := fun x i => unlistAll_apply (·.f x i) (fun _ _ _ => rfl) s
  have hdies : ∀ k, k < 8 → (s.unlistAll.die k).reloads = [] := fun k hk => congrArg Die.reloads (s.die_unlistAll hk)
  generalize s.unlistAll = u at *
  exact ⟨hmem, htiles, by rw [← hcp]; rfl, hf, hdies⟩

/-- The table has a new place and is not READY. -/
def tableMoved (s : State) (v : Nat) : State := (s.setF .OBJ_TABLE_BASE_ADDR 0 (bits v 51 25)).setFlag .OBJ_STATUS_READY 0 false

theorem objTableBase_eq {v : Nat} (h : s.flag .CLK_LOCK_SETUP_LOCK = false) :
    s.objTableBase v = (s.tableMoved v).unlistAll.modCp fun c => { c with tableZeroing := true } := by
  rw [objTableBase, h, if_neg Bool.false_ne_true]
  rfl

theorem tableMoved_fields (s : State) (v : Nat) : (s.tableMoved v).flag .OBJ_STATUS_READY = false
    ∧ (s.tableMoved v).f .OBJ_TABLE_BASE_ADDR = v / 2 ^ 25 % 2 ^ 27
    ∧ s.fieldsBut (s.tableMoved v) [(.OBJ_TABLE_BASE_ADDR, 0), (.OBJ_STATUS_READY, 0)] := by
  refine ⟨flag_setFlag_self _ 0 false rfl, ?_, fieldsBut_trans (fieldsBut_setF s _ (by simp)) (fieldsBut_setFlag _ _ (by simp))⟩
  refine (f_setF_of_ne (by decide) ..).trans ((f_setF_self ..).trans ?_)
  rw [bits]
  exact Nat.mod_mod ..

end State

theorem objRegisters (s s₁ : State) (q n c : Nat) (d : Desc) (hs : HostMem) (h : StartsAt s q n 7 s₁ d) (hone : d.count = 1)
    (hready : s₁.flag .OBJ_STATUS_READY = true) (hwait : s₁.xlWaiting (.cp q n 0) d.die none = false)
    (hc : s₁.cellOf (s₁.tableBase + 32 * (d.w 14 % 2 ^ 20)) = some c) :
    let slot := d.w 14 % 2 ^ 20
    let w := nth 0 (s₁.objEntry slot) 0
    (bit w 12 = true → Completes s₁ (s.objRegister q n hs) d 1 d.result 0x0006)
    ∧ (bit w 12 = false → bit w 14 = true → Completes s₁ (s.objRegister q n hs) d 1 d.result 0x0007)
    ∧ (bit w 12 = false → bit w 14 = false → bit (d.w 14) 20 = false → (∀ k, d.w k < 2 ^ 32) → d.ctx < 64 →
      (s.objRegister q n hs).tiles = s₁.tiles ∧ s₁.memBut (s.objRegister q n hs) c 32
        ∧ bytesWords 8 ((s.objRegister q n hs).memBytes c 32) =
            [w % 2 ^ 12 + 2 ^ 12 + d.ctx * 2 ^ 15, 0, d.w 8, d.w 9, d.w 10, d.w 11, d.w 12, d.w 13]
        ∧ RecordHeld s₁ (s.objRegister q n hs) d (d.recordOf 0 (slot + w % 2 ^ 12 * 2 ^ 20) (d.w 1) 1 0) d.irq) := by
  obtain ⟨t, ht, hput⟩ := State.objRegister_eq (hs := hs) h hready hwait
  dsimp only
  refine ⟨fun hlive => ?_, fun hlive hret => ?_, fun hlive hret hrel hwords hctx => ?_⟩
  · rw [ht, if_pos hlive]
    exact State.completes_failItem (by decide) h hone
  · rw [ht, hlive, if_neg Bool.false_ne_true, if_pos hret]
    exact State.completes_failItem (by decide) h hone
  · rw [ht, hlive, hret, if_neg Bool.false_ne_true, if_neg Bool.false_ne_true, hput hrel]
    obtain ⟨htiles, hbut, hbytes, hrec⟩ := State.register_effect h hone
      (handle := d.w 14 % 2 ^ 20 + bits (nth 0 (s₁.objEntry (d.w 14 % 2 ^ 20)) 0) 11 0 * 2 ^ 20)
      (ws := State.newEntry d (nth 0 (s₁.objEntry (d.w 14 % 2 ^ 20)) 0)) rfl hc
    refine ⟨htiles, hbut, ?_, ?_⟩
    · rw [hbytes, ← State.newEntry_words hrel hwords hctx]
      exact bytesWords_wordBytes (State.newEntry d _)
    · rw [bits_zero_lo] at hrec
      rw [bits_zero_lo]
      exact hrec

theorem objReleases (s s₁ : State) (q n c : Nat) (d : Desc) (h : StartsAt s q n 8 s₁ d) (hone : d.count = 1)
    (hready : s₁.flag .OBJ_STATUS_READY = true) (hc : s₁.cellOf (s₁.tableBase + 32 * (d.w 8 % 2 ^ 20)) = some c) :
    let w := nth 0 (s₁.objEntry (d.w 8 % 2 ^ 20)) 0
    let live : Prop := d.w 8 ≠ 0 ∧ bit w 12 = true ∧ w % 2 ^ 12 = d.w 8 / 2 ^ 20 % 2 ^ 12
    (¬ live → Completes s₁ (s.objRelease q n) d 1 d.result 0x0005)
    ∧ (live → (s.objRelease q n).tiles = s₁.tiles ∧ s₁.memBut (s.objRelease q n) c 32
        ∧ bit (fromLE ((s.objRelease q n).memBytes c 4)) 12 = false
        ∧ fromLE ((s.objRelease q n).memBytes c 4) % 2 ^ 12 = (w + 1) % 2 ^ 12
        ∧ RecordHeld s₁ (s.objRelease q n) d (d.recordOf 0 d.result (d.w 1) 1 0) d.irq) := by
  have hlive := State.live_iff s₁ (d.w 8)
  refine ⟨fun hno => ?_, fun hyes => ?_⟩
  · rw [State.objRelease_eq h hready, if_pos (not_not.mp (mt hlive.mp hno))]
    exact State.completes_failItem (by decide) h hone
  · rw [State.objRelease_eq h hready, if_neg (hlive.mpr hyes)]
    obtain ⟨htiles, hbut, hword, hrec⟩ := State.release_effect h hone hc
    rw [hword]
    exact ⟨htiles, hbut, State.bit_releaseWord .., State.releaseWord_low .., hrec⟩

theorem objects : Clause.Objects := by
  refine ⟨?_, ?_, ?_, ?_⟩
  · intro s s₁ q n c d hs h hone hready hwait slot w hc _
    obtain ⟨hlive, hretired, hfree⟩ := objRegisters s s₁ q n c d hs h hone hready hwait hc
    exact ⟨fun hl => ⟨_, rfl, hlive hl⟩, fun hl hr => ⟨_, rfl, hretired hl hr⟩,
      fun hl hr hrel hwords hctx => ⟨_, rfl, hfree hl hr hrel hwords hctx⟩⟩
  · intro s s₁ q n c d h hone hready handle slot w live hc _
    obtain ⟨hstale, hlive⟩ := objReleases s s₁ q n c d h hone hready hc
    exact ⟨fun hno => ⟨_, rfl, hstale hno⟩, fun hyes => ⟨_, rfl, hlive hyes⟩⟩
  · intro s v hlock
    have ht := State.objTableBase_eq (v := v.toNat) hlock
    obtain ⟨hready, hbase, hbut⟩ := s.tableMoved_fields v.toNat
    obtain ⟨hmem, htiles, hcp, hf, hdies⟩ := (s.tableMoved v.toNat).unlisted_effect
    refine ⟨_, congrArg Host.Outcome.next ht, hmem, htiles, (State.flag_of_f_eq (hf ..)).trans hready, (hf ..).trans hbase, hcp,
      fun x i hx => (hf x i).trans (hbut x i hx), hdies⟩
  · intro s hz hnone
    have ht : s.objTableReady = (s.modCp fun c => { c with tableZeroing := false }).setFlag .OBJ_STATUS_READY 0 true := by
      rw [State.objTableReady, hz, hnone]
      rfl
    refine ⟨_, congrArg Host.Outcome.next ht, rfl, State.flag_setFlag_self _ 0 true rfl, ?_⟩
    exact State.fieldsBut_setFlag _ true (by simp)

/-- Settles O28: FENCE ends at once, INVALIDATE once acknowledged, and objects are registered, released or refused. -/
theorem descriptorServices : Obligations.DescriptorServices := ⟨fenceAndInvalidate, objects⟩

end Sys2Proof.Machine
end

section
/-!
PROOF. The checks of a descriptor at its start where nothing of it has failed, and where all of it has (R441).
-/
namespace Sys2Proof.Machine.State

variable {s t u : State} {q n : Nat} {d e : Desc} {hs : HostMem}

/-- A descriptor that starts has as many items as its layout says. -/
theorem length_of_startsAt {s₁ : State} {op : Nat} (h : StartsAt s q n op s₁ d) : d.items.length = d.count := by
  obtain ⟨-, -, -, -, -, -, hlen, -⟩ := h
  exact hlen

/-- A loop whose every step leaves the state as it is. -/
theorem forEach_fixed {α : Type} {l : List α} {f : State → α → State} (h : ∀ x ∈ l, f s x = s) : s.forEach l f = s := by
  induction l with
  | nil => rfl
  | cons x l ih =>
    rw [forEach, List.foldl_cons, h x List.mem_cons_self]
    exact ih fun y hy => h y (List.mem_cons_of_mem x hy)

theorem updFirst_fixed {α : Type} {c : α → Bool} {g : α → α} {l : List α} (h : ∀ x, l.find? c = some x → g x = x) :
    updFirst c g l = l := by
  induction l with
  | nil => rfl
  | cons x l ih =>
    by_cases hx : c x = true
    · rw [updFirst, if_pos hx, h x (List.find?_cons_of_pos hx)]
    · rw [updFirst, if_neg hx, ih fun y hy => h y ((List.find?_cons_of_neg hx).trans hy)]

/-- A change that leaves the descriptor as it is. -/
theorem modDesc_fixed (hd : s.desc? q n = some d) {g : Desc → Desc} (hg : g d = d) : s.modDesc q n g = s := by
  rw [modDesc, modCp, updFirst_fixed fun x hx => ?_]
  obtain rfl : x = d := Option.some.inj (hx.symm.trans hd)
  exact hg

/-! ### Items that have all ended -/

/-- Items that have ended fail no more. -/
theorem failAll_of_ended (hd : s.desc? q n = some e) (hended : ∀ it ∈ e.items, it.stage = .ended) (code : Nat) :
    s.failAll q n code = s := by
  refine modDesc_fixed hd ?_
  have hitems : e.items.map (·.fail code) = e.items :=
    (List.map_congr_left (g := id) fun it hit => if_pos (hended it hit)).trans (List.map_id _)
  exact congrArg (fun l => { e with items := l }) hitems

theorem endFailed_of_none (hd : s.desc? q n = some e) (hnone : ∀ it ∈ e.items, it.code = 0 ∨ it.stage ≠ .fresh) :
    s.endFailed q n = s := by
  rw [endFailed_eq hd]
  refine forEach_fixed fun i hi => ?_
  have hi' := List.mem_range.mp hi
  rw [endIfFailed, hd, Option.bind_some, List.getElem?_eq_getElem hi']
  exact if_neg fun ⟨hcode, hstage⟩ => (hnone _ (List.getElem_mem hi')).elim hcode (absurd hstage)

/-- Nothing is checked of a descriptor whose items have all ended. -/
theorem checked_of_ended (hd : s.desc? d.q d.n = some e) (hended : ∀ it ∈ e.items, it.stage = .ended) : s.checked d hs = s := by
  have hhandles : s.checkHandles d = s := by
    rw [checkHandles]
    split
    · exact failAll_of_ended hd hended _
    · rfl
  have hfailed : s.endFailed d.q d.n = s :=
    endFailed_of_none hd fun it hit => Or.inr (by rw [hended it hit]; decide)
  rw [checked, hhandles, hfailed, checkItems_of_ended d hd hended, ite_self]

/-! ### Items of which nothing has failed -/

theorem stale_zero (s : State) : s.stale 0 = false :=
  Bool.eq_false_iff.mpr fun h => ((s.stale_iff 0).mp h).1 rfl

/-- Without descriptor-level handles the checks are those of the items. -/
theorem checked_of_untouched (h0 : d.w 14 = 0) (h1 : d.w 15 = 0) (hd : s.desc? d.q d.n = some e) (hnew : e.Untouched) :
    s.checked d hs = s.checkItems d hs := by
  have hready : s.handlesReady 0 0 = true := Bool.or_true _
  have hhandles : s.checkHandles d = s := by
    rw [checkHandles, h0, h1, stale_zero]
    exact if_neg Bool.false_ne_true
  rw [checked, h0, h1, hready, hhandles, endFailed_of_none hd fun it hit => Or.inl (hnew it hit).2]
  exact if_neg Bool.false_ne_true

theorem freshItems_of_untouched (hd : s.desc? q n = some e) (hnew : e.Untouched) :
    s.freshItems q n = List.range e.items.length := by
  rw [freshItems, hd]
  refine List.filter_eq_self.mpr fun i hi => ?_
  have hi' := List.mem_range.mp hi
  obtain ⟨hstage, hcode⟩ := hnew _ (List.getElem_mem hi')
  rw [List.getElem?_eq_getElem hi', Option.any_some, hstage, hcode]
  rfl

/-! ### Items that wait to be dispatched -/

/-- Item `i` waits, with its addresses. -/
def waitingItem (src dst : Nat) (it : Item) : Item := { it with stage := .waiting, src := src, dst := dst }

theorem enqueue_codec (hop : d.opcode = 3 ∨ d.opcode = 4) (s : State) (die i src dst : Nat) : s.enqueue d die i src dst =
    (s.modDesc d.q d.n fun d => d.modItem i (waitingItem src dst)).modDie die fun x => { x with codec := x.codec ++ [(d.q, d.n, i)] } :=
  if_pos hop

theorem enqueue_tiles (hop : ¬ (d.opcode = 3 ∨ d.opcode = 4)) (s : State) (die i src dst : Nat) : s.enqueue d die i src dst =
    (s.modDesc d.q d.n fun d => d.modItem i (waitingItem src dst)).modDie die fun x =>
      { x with waiting := x.waiting ++ [(d.priority, d.q, d.n, i)] } :=
  if_neg hop

/-- An item of a LAUNCH or COPY waits for tiles of its die. -/
theorem enqueue_effect (hop : ¬ (d.opcode = 3 ∨ d.opcode = 4)) (s : State) (die i src dst : Nat) : let t := s.enqueue d die i src dst
    t = { s with cp := t.cp, dies := t.dies } ∧ (t.die die).waiting = (s.die die).waiting ++ [(d.priority, d.q, d.n, i)]
      ∧ (∀ j, j ≠ die → t.die j = s.die j)
      ∧ t.desc? d.q d.n = (s.desc? d.q d.n).map (·.modItem i (waitingItem src dst)) := by
  dsimp only
  rw [enqueue_tiles hop]
  exact ⟨rfl, congrArg Die.waiting (die_modDie_self ..), fun j hj => die_modDie_other _ _ hj, desc?_modDesc ..⟩

end Sys2Proof.Machine.State
end

section
/-!
PROOF. LAUNCH descriptors: the kernel header and the item's record (R272, R280, R282).
-/
namespace Sys2Proof.Machine

theorem nth_map_range {α : Type} {z : α} {m k : Nat} (h : k < m) (f : Nat → α) : nth z ((List.range m).map f) k = f k := by
  rw [nth, List.getD_eq_getElem?_getD, List.getElem?_map, List.getElem?_range h]
  rfl

theorem nth_bytesWords {m k : Nat} (h : k < m) (bs : List Byte) : nth 0 (bytesWords m bs) k = wordAt bs k := nth_map_range h _

theorem wordAt_lt (bs : List Byte) (k : Nat) : wordAt bs k < 2 ^ 32 := by
  refine (fromLE_lt _).trans_le (Nat.pow_le_pow_right (by decide) ?_)
  rw [List.length_take]
  omega

/-! ### Kernel headers (R282) -/

/-- Start of stream `k` in a kernel header. -/
def headerPc (hb : List Byte) (k : Nat) : Nat := wordAt hb (2 * k) + 2 ^ 32 * wordAt hb (2 * k + 1)

/-- A kernel header breaks its layout. -/
def HeaderBad (hb : List Byte) : Prop :=
  wordAt hb 8 % 16 = 0 ∨ wordAt hb 8 / 16 % 8 = 7 ∨ (∃ k, k < 4 ∧ bit (wordAt hb 8 % 16) k = true ∧ headerPc hb k % 8 ≠ 0)
    ∨ wordAt hb 8 / 2 ^ 7 ≠ 0 ∨ ∃ k, 9 ≤ k ∧ k < 16 ∧ wordAt hb k ≠ 0

/-- A descriptor with what the words of its kernel header say. -/
def Desc.withHeader (ws : List Nat) (e : Desc) : Desc :=
  let w := fun k => nth 0 ws k
  let pcs := [w 0 + 2 ^ 32 * w 1, w 2 + 2 ^ 32 * w 3, w 4 + 2 ^ 32 * w 5, w 6 + 2 ^ 32 * w 7]
  { e with pcs := pcs.map (· % 2 ^ 56), enables := bits (w 8) 3 0, gangLog2 := bits (w 8) 6 4 }

theorem withHeader_eq (hb : List Byte) : Desc.withHeader (bytesWords 16 hb) = fun e =>
    { e with pcs := (List.range 4).map fun k => headerPc hb k % 2 ^ 56, enables := wordAt hb 8 % 16,
             gangLog2 := wordAt hb 8 / 16 % 8 } := by
  funext e
  have hword : ∀ k, k < 16 → nth 0 (bytesWords 16 hb) k = wordAt hb k := fun k hk => nth_bytesWords hk hb
  rw [show (List.range 4).map (fun k => headerPc hb k % 2 ^ 56) = ((List.range 4).map (headerPc hb)).map (· % 2 ^ 56) by
    rw [List.map_map]
    rfl]
  simp only [Desc.withHeader, hword 0 (by decide), hword 1 (by decide), hword 2 (by decide), hword 3 (by decide),
    hword 4 (by decide), hword 5 (by decide), hword 6 (by decide), hword 7 (by decide), hword 8 (by decide), bits_zero_lo]
  rfl

/-- The test of a header's layout, on its words. -/
def headerTest (ws : List Nat) : Bool :=
  let w := fun k => nth 0 ws k
  let pcs := [w 0 + 2 ^ 32 * w 1, w 2 + 2 ^ 32 * w 3, w 4 + 2 ^ 32 * w 5, w 6 + 2 ^ 32 * w 7]
  let en := bits (w 8) 3 0
  let badPc := (List.range 4).any fun k => bit en k && nth 0 pcs k % 8 != 0
  en == 0 || bits (w 8) 6 4 == 7 || badPc || bits (w 8) 31 7 != 0 || (span 9 7).any (fun k => w k != 0)

theorem headerTest_iff (hb : List Byte) : headerTest (bytesWords 16 hb) = true ↔ HeaderBad hb := by
  have hword : ∀ k, k < 16 → nth 0 (bytesWords 16 hb) k = wordAt hb k := fun k hk => nth_bytesWords hk hb
  have hpc : [wordAt hb 0 + 2 ^ 32 * wordAt hb 1, wordAt hb 2 + 2 ^ 32 * wordAt hb 3,
      wordAt hb 4 + 2 ^ 32 * wordAt hb 5, wordAt hb 6 + 2 ^ 32 * wordAt hb 7] = (List.range 4).map (headerPc hb) := rfl
  have hpcs : (∃ k, k < 4 ∧ bit (wordAt hb 8 % 16) k = true ∧ nth 0 ((List.range 4).map (headerPc hb)) k % 8 ≠ 0) ↔
      ∃ k, k < 4 ∧ bit (wordAt hb 8 % 16) k = true ∧ headerPc hb k % 8 ≠ 0 :=
    exists_congr fun k => and_congr_right fun hk => by rw [nth_map_range hk]
  have hhigh : bits (wordAt hb 8) 31 7 = wordAt hb 8 / 2 ^ 7 := by
    have := wordAt_lt hb 8
    rw [bits]
    omega
  have hlow : bits (wordAt hb 8) 3 0 = wordAt hb 8 % 16 := Sys2Proof.Machine.bits_zero_lo ..
  have hgang : bits (wordAt hb 8) 6 4 = wordAt hb 8 / 16 % 8 := rfl
  have hspan : (∃ x, x < 7 ∧ nth 0 (bytesWords 16 hb) (9 + x) ≠ 0) ↔ ∃ k, 9 ≤ k ∧ k < 16 ∧ wordAt hb k ≠ 0 :=
    ⟨fun ⟨x, hx, hw⟩ => ⟨9 + x, by omega, by omega, by rwa [← hword _ (by omega)]⟩,
      fun ⟨k, hk, hk', hw⟩ => ⟨k - 9, by omega, by rwa [Nat.add_sub_cancel' hk, hword _ hk']⟩⟩
  rw [HeaderBad, ← hspan, ← hpcs]
  simp only [headerTest, hword 0 (by decide), hword 1 (by decide), hword 2 (by decide), hword 3 (by decide), hword 4 (by decide),
    hword 5 (by decide), hword 6 (by decide), hword 7 (by decide), hword 8 (by decide), hpc, hlow, hgang, hhigh, span,
    Bool.or_eq_true, beq_iff_eq, List.any_eq_true, List.any_map, Function.comp, List.mem_range, Bool.and_eq_true, bne_iff_ne,
    or_assoc, ne_eq]

namespace State

variable {s s₁ s₂ s₃ t u : State} {q n : Nat} {d e : Desc} {hs : HostMem} {hb ib : List Byte}

/-- A kernel header has been read: it is kept, and poison or a broken layout fails every item. -/
theorem kernelHeader_got {poison : Bool} (hpcs : d.pcs = [])
    (hread : s.vRead (.cp d.q d.n 64) d.die d.ctx (d.q64 8) 64 hs = (s₂, .got hb 0 poison)) :
    let u := s₂.modDesc d.q d.n (·.withHeader (bytesWords 16 hb))
    s.kernelHeader d hs = (if poison then u.failAll d.q d.n stMemPoison
      else if headerTest (bytesWords 16 hb) then u.failAll d.q d.n stLaunchInvalid else u, true) := by
  rw [kernelHeader, if_neg (not_not.mpr hpcs), hread]
  cases poison <;> rfl

section
variable (h : StartsAt s q n 1 s₁ d) (hpcs : d.pcs = []) (hdies : ∀ k, k < 8 → bit (d.w 12) k = true → s₁.variant.hasDie k = true)
include h hpcs hdies

/-- A LAUNCH of dies that are present, its header read: what the header fails ends, then come the other checks. -/
theorem launch_of_header {poison : Bool}
    (hread : (s₁.begin_ d).vRead (.cp q n 64) d.die d.ctx (d.q64 8) 64 hs = (s₂, .got hb 0 poison)) :
    let u := s₂.modDesc q n (·.withHeader (bytesWords 16 hb))
    s.launch q n hs = ((if poison then u.failAll q n stMemPoison
      else if headerTest (bytesWords 16 hb) then u.failAll q n stLaunchInvalid else u).endFailed q n).checked d hs := by
  have hpresent : ¬ (List.range 8).any (fun k => bit (bits (d.w 12) 7 0) k && !s₁.variant.hasDie k) = true := by
    intro hany
    obtain ⟨k, hk, hbad⟩ := List.any_eq_true.mp hany
    have hk' := List.mem_range.mp hk
    rw [bit_bits_low (by omega), Bool.and_eq_true, Bool.not_eq_true'] at hbad
    rw [hdies k hk' hbad.1] at hbad
    cases hbad.2
  rw [launch_eq h, if_neg hpresent]
  obtain ⟨-, rfl, rfl, -⟩ := h
  rw [kernelHeader_got hpcs hread]

end

/-- What the header fails completes the descriptor, with its code for every item. -/
theorem header_failed {op code : Nat} (h : StartsAt s q n op s₁ d) (hcode : code ≠ 0)
    (hsame : s₂.desc? q n = (s₁.begin_ d).desc? q n)
    (ws : List Nat) : let t := (((s₂.modDesc q n (·.withHeader ws)).failAll q n code).endFailed q n).checked d hs
    ∃ e, t.desc? q n = some e ∧ e.stage = .complete ∧ (∀ it ∈ e.items, it.code = code)
      ∧ RecordHeld s₂ t d (d.recordOf (2 ^ d.count - 1) d.result (d.w 1) d.count code) d.irq := by
  obtain ⟨hd, hnew, hne⟩ := startsAt_spec h
  obtain ⟨-, rfl, rfl, -, hm, hp, hlen, hitems⟩ := h
  have hd' : (s₂.modDesc d.q d.n (·.withHeader ws)).desc? d.q d.n = some (d.begun.withHeader ws) := by
    rw [desc?_modDesc, hsame, hd]
    rfl
  have hdone := completed_failAll hcode hd' rfl hnew hne
  have hcodes := code_of_mapItems_fail (d := d.begun.withHeader ws) hnew code
  have hrec := recordHeld_of_completed (u := s₂.modDesc d.q d.n (·.withHeader ws)) (code := code) (s := s₂) (d := d) rfl hdone
    ⟨rfl, rfl, rfl, rfl, rfl, rfl, rfl⟩
    ⟨hm, hp, (List.length_map _).trans hlen, hcodes⟩
  rw [if_neg hcode] at hrec
  have hfix := checked_of_ended (d := d) (hs := hs) hdone.desc fun it hit => by
    obtain ⟨a, -, rfl⟩ := List.mem_map.mp hit
    rfl
  dsimp only
  rw [hfix]
  exact ⟨_, hdone.desc, rfl, hcodes, hrec⟩

/-! ### The item's record -/

/-- The record of the only item of a LAUNCH, legal and without objects: the item waits on its die. -/
theorem checkItem_launch (hop : d.opcode = 1) (hlen : ib.length = 32) (hzero : fromLE (ib.take 4) = 0) (s : State) (i : Nat) :
    s.checkItem d i (.got ib 0 false) = s.enqueue d (launchDie (bits (d.w 12) 7 0) i) i 0 0 := by
  have hw : nth 0 (bytesWords (ib.length / 4) ib) 0 = 0 := by
    rw [hlen, nth_bytesWords (by decide)]
    exact hzero
  rw [checkItem, hop]
  dsimp only
  simp [hw, bits]

/-- The lowest die of a mask. -/
theorem launchDie_first {mask k : Nat} (hk : k < 8) (hbit : bit mask k = true) (hlow : ∀ j, j < k → bit mask j = false) :
    launchDie (bits mask 7 0) 0 = k := by
  have hfirst : ((List.range 8).filter (bit (bits mask 7 0))).head? = some k := by
    rw [List.head?_filter, List.find?_range_eq_some]
    refine ⟨by rw [bit_bits_low (by omega), hbit], List.mem_range.mpr hk, fun j hj => ?_⟩
    rw [bit_bits_low (by omega), hlow j hj]
    rfl
  rw [launchDie, Nat.zero_mod, nth, List.getD_eq_getElem?_getD, ← List.head?_eq_getElem?, hfirst]
  rfl

/-- A LAUNCH of one item whose header and record are legal. -/
theorem launch_waits (h : StartsAt s q n 1 s₁ d) (hone : d.count = 1) (h0 : d.w 14 = 0) (h1 : d.w 15 = 0)
    (hd : u.desc? q n = some e) (hnew : e.Untouched) (hlen : e.items.length = d.count)
    (hread : u.vRead (.cp q n 0) d.die d.ctx (d.q64 10 % 2 ^ 64) 32 hs = (s₃, .got ib 0 false)) (hib : ib.length = 32)
    (hzero : fromLE (ib.take 4) = 0) :
    (u.endFailed q n).checked d hs = s₃.enqueue d (launchDie (bits (d.w 12) 7 0) 0) 0 0 0 := by
  have hop := (starting_spec h.1).2
  obtain ⟨-, rfl, rfl, -⟩ := h
  rw [endFailed_of_none hd fun it hit => Or.inl (hnew it hit).2, checked_of_untouched h0 h1 hd hnew, checkItems,
    freshItems_of_untouched hd hnew, hlen, hone]
  simp only [List.range_one, forEach, List.foldl_cons, List.foldl_nil, hop, Nat.zero_mul, Nat.add_zero, Nat.reduceEqDiff, false_and,
    if_false, if_true, or_self, hread]
  exact checkItem_launch hop hib hzero s₃ 0

end State

theorem launches : Clause.Launches := by
  intro s s₁ s₂ q n d hs hb poison h hpcs hdies hread hsame w pc en bad pcs
  have hbad : headerTest (bytesWords 16 hb) = true ↔ bad := headerTest_iff hb
  have ht := State.launch_of_header h hpcs hdies hread
  dsimp only at ht
  refine ⟨fun hpoison => ?_, fun hpoison hb' => ?_, fun hpoison hgood hone h0 h1 s₃ ib hread' hib hzero k hk hbit hlow => ?_⟩
  · rw [if_pos hpoison] at ht
    obtain ⟨e, he, hstage, hcodes, -⟩ := State.header_failed (code := stMemPoison) (hs := hs) h (by decide) hsame (bytesWords 16 hb)
    exact ⟨_, e, congrArg Host.Outcome.next ht, he, hstage, hcodes⟩
  · rw [hpoison, if_neg Bool.false_ne_true, if_pos (hbad.mpr hb')] at ht
    obtain ⟨e, he, hstage, hcodes, hrec⟩ := State.header_failed (code := stLaunchInvalid) (hs := hs)
      h (by decide) hsame (bytesWords 16 hb)
    exact ⟨_, e, congrArg Host.Outcome.next ht, he, hstage, hrec, hcodes⟩
  · rw [hpoison, if_neg Bool.false_ne_true, if_neg (mt hbad.mp hgood), withHeader_eq] at ht
    obtain ⟨hd, hnew, -⟩ := State.startsAt_spec h
    have hop : d.opcode = 1 := (State.starting_spec h.1).2
    have hwaits := State.launch_waits (hs := hs) (q := q) (n := n)
      (e := { d.begun with pcs := pcs, enables := en, gangLog2 := w 8 / 16 % 8 })
      h hone h0 h1 (by
        obtain ⟨-, rfl, rfl, -⟩ := h
        rw [State.desc?_modDesc, hsame, hd]
        rfl) hnew (State.length_of_startsAt (d := d) h) hread' hib hzero
    rw [State.launchDie_first hk hbit hlow] at hwaits
    obtain ⟨hframe, hwaiting, hothers, hdesc⟩ := State.enqueue_effect (d := d) (by rw [hop]; decide) s₃ k 0 0 0
    obtain ⟨-, rfl, rfl, -⟩ := h
    refine ⟨_, congrArg Host.Outcome.next (ht.trans hwaits), hframe, hwaiting, hothers, fun e he => ?_⟩
    rw [hdesc, he]
    rfl
end Sys2Proof.Machine
end

section
/-!
PROOF. COPY and codec descriptors (R272, R283, R284).
-/
namespace Sys2Proof.Machine

namespace State

variable {s s₁ s₂ t u : State} {q n i : Nat} {d e : Desc} {hs : HostMem} {bs : List Byte}

/-- A change of one item shows in that item alone. -/
theorem item?_of_modItem {g : Item → Item} (h : t.desc? q n = (s.desc? q n).map (·.modItem i g)) (j : Nat) :
    t.item? q n j = if j = i then (s.item? q n j).map g else s.item? q n j := by
  rw [item?, h, item?]
  cases s.desc? q n with
  | none => simp
  | some d => by_cases hj : i = j <;> simp [Desc.modItem, hj, eq_comm (a := j)]

/-- The first items of a COPY wait for tiles of one die. -/
theorem forEach_enqueue (hop : ¬ (d.opcode = 3 ∨ d.opcode = 4)) (s : State) (die : Nat) (src dst : Nat → Nat) (m : Nat) :
    let t := s.forEach (List.range m) fun s i => s.enqueue d die i (src i) (dst i)
    t = { s with cp := t.cp, dies := t.dies }
      ∧ (t.die die).waiting = (s.die die).waiting ++ (List.range m).map (fun i => (d.priority, d.q, d.n, i))
      ∧ (∀ j, j ≠ die → t.die j = s.die j)
      ∧ ∀ i, t.item? d.q d.n i = if i < m then (s.item? d.q d.n i).map (waitingItem (src i) (dst i)) else s.item? d.q d.n i := by
  induction m with
  | zero => exact ⟨rfl, (List.append_nil _).symm, fun _ _ => rfl, fun i => (if_neg (Nat.not_lt_zero i)).symm⟩
  | succ m ih =>
    dsimp only at ih ⊢
    rw [List.range_succ, forEach, List.foldl_append, List.foldl_cons, List.foldl_nil, List.map_append]
    rw [forEach] at ih
    generalize (List.range m).foldl (fun s i => s.enqueue d die i (src i) (dst i)) s = u at ih
    obtain ⟨hframe, hwaiting, hothers, hitems⟩ := ih
    obtain ⟨hframe', hwaiting', hothers', hdesc'⟩ := enqueue_effect hop u die m (src m) (dst m)
    refine ⟨?_, ?_, fun j hj => (hothers' j hj).trans (hothers j hj), fun i => ?_⟩
    · rw [hframe', hframe]
    · rw [hwaiting', hwaiting, List.append_assoc]
      rfl
    · rw [item?_of_modItem hdesc', hitems]
      rcases Nat.lt_trichotomy i m with hlt | rfl | hgt
      · rw [if_neg hlt.ne, if_pos hlt, if_pos (Nat.lt_succ_of_lt hlt)]
      · rw [if_pos rfl, if_neg (Nat.lt_irrefl i), if_pos (Nat.lt_succ_self i)]
      · rw [if_neg hgt.ne', if_neg (Nat.not_lt_of_gt hgt), if_neg (by omega)]

/-- A COPY without a list and without objects: each item waits, with its addresses. -/
theorem copy_waits (h : StartsAt s q n 2 s₁ d) (hlist : bit (d.w 12) 31 = false) (hdie : s₁.variant.hasDie (d.w 13 % 8) = true)
    (h0 : d.w 14 = 0) (h1 : d.w 15 = 0) : s.copy q n hs =
      (s₁.begin_ d).forEach (List.range d.count) fun s i => s.enqueue d (d.w 13 % 8) i
        ((d.q64 8 + i * (d.w 12 % 2 ^ 31)) % 2 ^ 64) ((d.q64 10 + i * (d.w 12 % 2 ^ 31)) % 2 ^ 64) := by
  obtain ⟨hd, hnew, -⟩ := startsAt_spec h
  have hop := (starting_spec h.1).2
  have hcopy : d.opcode = 2 ∧ (!d.list) = true := ⟨hop, by rw [Desc.list, hlist]; rfl⟩
  rw [copy_eq h, hdie, Bool.not_true, if_neg Bool.false_ne_true, checked_of_untouched h0 h1 hd hnew, checkItems,
    freshItems_of_untouched hd hnew, show d.begun.items.length = d.count from length_of_startsAt (d := d) h]
  simp only [if_pos hcopy, Desc.itemBytes, bits_zero_lo]
  rfl

/-! ### Codec frames -/

/-- The entry of a frame keeps its layout. -/
def EntryOk (op : Nat) (bs : List Byte) : Prop :=
  wordAt bs 12 = 0 ∧ wordAt bs 13 = 0 ∧ wordAt bs 14 = 0
    ∧ (op = 4 → wordAt bs 8 = 0 ∧ wordAt bs 9 = 0 ∧ wordAt bs 10 = 0 ∧ wordAt bs 11 = 0)

/-- An item keeps its entry and waits for its die's codec engine. -/
def codecWaiting (s : State) (d : Desc) (i : Nat) (ws : List Nat) : State :=
  (s.modDesc d.q d.n fun d => d.modItem i fun it => { it with entry := ws }).enqueue d (d.w 13 % 8) i 0 0

theorem checkItem_codec {op : Nat} (hop : d.opcode = op) (hcodec : op = 3 ∨ op = 4) (hlen : bs.length = 64)
    (hok : EntryOk op bs) (s : State) (i : Nat) : s.checkItem d i (.got bs 0 false) = s.codecWaiting d i (bytesWords 16 bs) := by
  have hw : ∀ k, k < 16 → nth 0 (bytesWords 16 bs) k = wordAt bs k := fun k hk => nth_bytesWords hk bs
  obtain ⟨h12, h13, h14, hsizes⟩ := hok
  have hbad : ¬ (nth 0 (bytesWords 16 bs) 12 ≠ 0 ∨ nth 0 (bytesWords 16 bs) 13 ≠ 0 ∨ nth 0 (bytesWords 16 bs) 14 ≠ 0
      ∨ (op = 4 ∧ (nth 0 (bytesWords 16 bs) 8 ≠ 0 ∨ nth 0 (bytesWords 16 bs) 9 ≠ 0 ∨ nth 0 (bytesWords 16 bs) 10 ≠ 0
        ∨ nth 0 (bytesWords 16 bs) 11 ≠ 0))) := by
    rw [hw 8 (by decide), hw 9 (by decide), hw 10 (by decide), hw 11 (by decide), hw 12 (by decide), hw 13 (by decide),
      hw 14 (by decide)]
    tauto
  rw [checkItem, codecWaiting, ← show bits (d.w 13) 2 0 = d.w 13 % 8 from bits_zero_lo ..]
  rcases hcodec with rfl | rfl <;> rw [hop, hlen]
  · exact (if_neg Bool.false_ne_true).trans ((if_neg (not_not.mpr rfl)).trans (if_neg hbad))
  · exact (if_neg Bool.false_ne_true).trans ((if_neg (not_not.mpr rfl)).trans (if_neg hbad))

theorem codec_waits {op : Nat} (hcodec : op = 3 ∨ op = 4) (h : StartsAt s q n op s₁ d) (hone : d.count = 1)
    (hunit : s₁.variant.hasCodec (d.w 13 % 8) = true) (hwidth : op = 3 → d.w 13 / 2 ^ 8 % 16 = 4 ∨ d.w 13 / 2 ^ 8 % 16 = 8)
    (h0 : d.w 14 = 0) (h1 : d.w 15 = 0)
    (hread : (s₁.begin_ d).vRead (.cp q n 0) d.die d.ctx (d.q64 8 % 2 ^ 64) 64 hs = (s₂, .got bs 0 false)) (hlen : bs.length = 64)
    (hok : EntryOk op bs) : s.codecStart op q n hs = s₂.codecWaiting d 0 (bytesWords 16 bs) := by
  obtain ⟨hd, hnew, -⟩ := startsAt_spec h
  have hop := (starting_spec h.1).2
  rw [codecStart_eq h, hunit, Bool.not_true, if_neg Bool.false_ne_true, if_neg fun ⟨hop, h4, h8⟩ => (hwidth hop).elim h4 h8,
    checked_of_untouched h0 h1 hd hnew, checkItems, freshItems_of_untouched hd hnew,
    show d.begun.items.length = d.count from length_of_startsAt (d := d) h, hone]
  obtain ⟨-, rfl, rfl, -⟩ := h
  have hcheck := checkItem_codec hop hcodec hlen hok s₂ 0
  have hcopy : ¬ d.opcode = 2 := by omega
  have hlaunch : ¬ d.opcode = 1 := by omega
  have hcodec' : d.opcode = 3 ∨ d.opcode = 4 := by omega
  simp only [List.range_one, forEach, List.foldl_cons, List.foldl_nil, Nat.mul_zero, Nat.add_zero, hcopy, hlaunch, hcodec', false_and,
    if_false, if_true, hread]
  exact hcheck

theorem codecWaiting_effect (hop : d.opcode = 3 ∨ d.opcode = 4) (s : State) (i : Nat) (ws : List Nat) : let t := s.codecWaiting d i ws
    t = { s with cp := t.cp, dies := t.dies } ∧ (t.die (d.w 13 % 8)).codec = (s.die (d.w 13 % 8)).codec ++ [(d.q, d.n, i)]
      ∧ (t.item? d.q d.n i).map (fun it => (it.stage, it.entry)) = (s.item? d.q d.n i).map fun _ => (.waiting, ws) := by
  dsimp only
  rw [codecWaiting, enqueue_codec hop]
  refine ⟨rfl, congrArg Die.codec (die_modDie_self ..), ?_⟩
  have hitem := (item?_modItem (s.modDesc d.q d.n fun d => d.modItem i fun it => { it with entry := ws }) d.q d.n i
    (waitingItem 0 0)).trans (congrArg (Option.map (waitingItem 0 0)) (item?_modItem ..))
  refine (congrArg (Option.map fun it => (it.stage, it.entry)) hitem).trans ?_
  cases s.item? d.q d.n i <;> rfl

end State

theorem copiesAndCodecs : Clause.CopiesAndCodecs := by
  refine ⟨?_, ?_⟩
  · intro s s₁ q n d hs h hlist hdie h0 h1 die bytes
    have ht := State.copy_waits (hs := hs) h hlist hdie h0 h1
    have hop : d.opcode = 2 := (State.starting_spec h.1).2
    obtain ⟨hd, -⟩ := State.startsAt_spec h
    obtain ⟨-, rfl, rfl, -, -, -, hlen, -⟩ := h
    obtain ⟨hframe, hwaiting, hothers, hitems⟩ := State.forEach_enqueue (d := d) (by rw [hop]; decide) (s₁.begin_ d) die
      (fun i => (d.q64 8 + i * bytes) % 2 ^ 64) (fun i => (d.q64 10 + i * bytes) % 2 ^ 64) d.count
    refine ⟨_, congrArg Host.Outcome.next ht, hframe, hwaiting, hothers, fun i hi => ?_⟩
    refine (congrArg (Option.map fun it => (it.stage, it.src, it.dst)) ((hitems i).trans (if_pos hi))).trans ?_
    have hitem : (s₁.begin_ d).item? d.q d.n i = some (d.items[i]'(by omega)) := by
      rw [State.item?, hd]
      exact List.getElem?_eq_getElem _
    rw [hitem]
    rfl
  · intro s s₁ s₂ q n op d hs bs hcodec h hone hunit hwidth h0 h1 hread hlen w h12 h13 h14 hsizes hsame die
    have ht := State.codec_waits hcodec h hone hunit hwidth h0 h1 hread hlen ⟨h12, h13, h14, hsizes⟩
    have hop : d.opcode = op := (State.starting_spec h.1).2
    obtain ⟨hd, -⟩ := State.startsAt_spec h
    have hexec : exec (if op = 3 then .compress q n hs else .decompress q n hs) s = .next (s.codecStart op q n hs) := by
      rcases hcodec with rfl | rfl <;> rfl
    obtain ⟨-, rfl, rfl, -, -, -, hitems, -⟩ := h
    obtain ⟨hframe, hqueue, hitem⟩ := State.codecWaiting_effect (d := d) (by omega) s₂ 0 (bytesWords 16 bs)
    refine ⟨_, hexec.trans (congrArg Host.Outcome.next ht), hframe, hqueue, hitem.trans ?_⟩
    have hfirst : s₂.item? d.q d.n 0 = some (d.items[0]'(by omega)) := by
      rw [State.item?, hsame, hd]
      exact List.getElem?_eq_getElem _
    rw [hfirst]
    rfl

/-- Settles O27: LAUNCH, COPY and codec descriptors, each up to where its items wait. -/
theorem descriptorWork : Obligations.DescriptorWork := ⟨launches, copiesAndCodecs⟩

end Sys2Proof.Machine
end

section
/-!
PROOF. The life of a context (R265 to R267).
-/
namespace Sys2Proof.Machine

namespace State

variable {s t u : State} {c : Nat}

/-! ### OPEN and START (R265) -/

/-- A context takes a state. -/
theorem setState_effect (s : State) (c : Nat) {v : Nat} (hv : v < 8) : let t := s.setF .CTX_STATUS_STATE c v
    s.onlyFields t ∧ s.fieldsBut t [(.CTX_STATUS_STATE, c)] ∧ t.f .CTX_STATUS_STATE c = v :=
  ⟨rfl, fieldsBut_setF s v (List.mem_singleton.mpr rfl), (f_setF_self ..).trans (Nat.mod_eq_of_lt hv)⟩

/-! ### DESTROY (R267) -/

/-- The completion queues of a context are disabled. -/
def cqsOff (s : State) (c : Nat) : State := s.forEach (s.cqsOf c) cqDisabled

theorem ctxDestroy_eq (hc : c < 64) (hstate : s.f .CTX_STATUS_STATE c = 1 ∨ s.f .CTX_STATUS_STATE c = 4)
    (hnone : ∀ i ∈ s.invals, i.destroys ≠ some c) : s.ctxDestroy c = (s.cqsOff c).sendInval 2 c 0 0 none (some c) := by
  have hany : (!s.invals.any (·.destroys == some c)) = true := by
    simpa [List.any_eq_false] using hnone
  exact if_pos ⟨hc, hstate, hany⟩

/-- What disabling completion queues leaves alone. -/
theorem cqsOff_apply {β : Type} (φ : State → β) (hφ : ∀ u q, φ (cqDisabled u q) = φ u) (s : State) (c : Nat) :
    φ (s.cqsOff c) = φ s :=
  forEach_apply φ _ hφ

theorem cqDisabled_fields (s : State) (q : Nat) : (s.cqDisabled q).flag .QUE_CQ_CTRL_ENABLE q = false
    ∧ s.fieldsBut (s.cqDisabled q) [(.QUE_CQ_CTRL_ENABLE, q), (.QUE_CQ_STATUS_STATE, q)] := by
  obtain ⟨hflag, -, hbut⟩ := setFlag_setF_fields (s := s) (t := s.cqDisabled q) (x := .QUE_CQ_CTRL_ENABLE)
    (y := .QUE_CQ_STATUS_STATE) (by decide) rfl q false 0 rfl
  exact ⟨hflag, hbut⟩

/-- The queues of other contexts stay enabled. -/
theorem enabled_cqsOff {q : Nat} (hq : q < 1024) (h : (s.cqsOff c).flag .QUE_CQ_CTRL_ENABLE q = true) :
    s.flag .QUE_CQ_CTRL_ENABLE q = true ∧ s.f .QUE_CQ_SETUP_CONTEXT q ≠ c := by
  have hself : ∀ (u : State) k, (u.cqDisabled k).flag .QUE_CQ_CTRL_ENABLE k = false := fun u k => (u.cqDisabled_fields k).1
  have hother : ∀ (u : State) k j, j ≠ k →
      (u.cqDisabled k).flag .QUE_CQ_CTRL_ENABLE j = u.flag .QUE_CQ_CTRL_ENABLE j := fun u k j hj =>
    flag_of_f_eq ((u.cqDisabled_fields k).2 _ j (by simp [hj]))
  have hloop := forEach_update (fun u k => u.flag .QUE_CQ_CTRL_ENABLE k) (fun _ => false) hself hother
    (l := s.cqsOf c) (List.nodup_range.filter _) s q
  rw [cqsOff] at h
  rw [hloop] at h
  split at h
  · cases h
  · next hnot =>
    refine ⟨h, fun hctx => hnot (List.mem_filter.mpr ⟨List.mem_range.mpr hq, ?_⟩)⟩
    rw [h, hctx, beq_self_eq_true]
    rfl

/-! ### The end of a DESTROY (R267) -/

/-- The same slots of the object table are live. -/
theorem liveSlots_congr (h : SameHome s t) (hmem : t.mem = s.mem) (hready : t.flag .OBJ_STATUS_READY = s.flag .OBJ_STATUS_READY)
    (hbase : t.f .OBJ_TABLE_BASE_ADDR = s.f .OBJ_TABLE_BASE_ADDR) : t.liveSlots = s.liveSlots := by
  have hcells : (fun x : Nat × Byte => [t.dieLocal x.1, t.packageWide x.1]) = fun x => [s.dieLocal x.1, s.packageWide x.1] := by
    funext x
    rw [dieLocal, dieLocal, packageWide, packageWide, h.dieStacks, h.presentStacks]
  have htable : t.tableBase = s.tableBase := by rw [tableBase, tableBase, hbase]
  have hlisted : t.listedSlots = s.listedSlots := by
    rw [listedSlots, listedSlots, htable, hmem]
    exact congrArg (fun g => ((s.mem.flatMap g).filterMap fun a =>
      if s.tableBase ≤ a ∧ a < s.tableBase + 2 ^ 25 then some ((a - s.tableBase) / 32) else none).eraseDups) hcells
  rw [liveSlots, liveSlots, hready, hlisted, objEntry_congr h hmem hbase]

/-- The set-up and the fault state of a context. -/
def contextFields : List Fld := [.CTX_FAULT_HALT, .CTX_FAULT_DEST_DEAD, .CTX_FAULT_UNSERVICEABLE, .CTX_FAULT_HALT_TILE,
  .CTX_FAULT_HALT_REASON, .CTX_FAULT_ENDPOINT_ENDPOINT, .CTX_SETUP_VA_BITS, .CTX_SETUP_INTERLEAVE, .CTX_SETUP_STOP_ON_FAULT,
  .CTX_S1_ROOT_ADDR, .CTX_STATUS_STATE]

/-- Fields of one instance are back at reset. -/
def clearFields (s : State) (l : List Fld) (c : Nat) : State := s.forEach l fun s x => s.setF x c x.info.reset

theorem clearFields_mem (s : State) (l : List Fld) (c : Nat) : (s.clearFields l c).mem = s.mem := forEach_apply (·.mem) _ fun _ _ => rfl

theorem clearFields_tiles (s : State) (l : List Fld) (c : Nat) : (s.clearFields l c).tiles = s.tiles :=
  forEach_apply (·.tiles) _ fun _ _ => rfl

theorem f_clearFields_other {x : Fld} {l : List Fld} (h : x ∉ l) (s : State) (c k : Nat) : (s.clearFields l c).f x k = s.f x k := by
  induction l generalizing s with
  | nil => rfl
  | cons y l ih =>
    obtain ⟨hy, hl⟩ := not_or.mp (mt List.mem_cons.mpr h)
    exact (ih hl _).trans (f_setF_of_ne hy ..)

theorem f_clearFields {x : Fld} {l : List Fld} (h : x ∈ l) (s : State) (c : Nat) :
    (s.clearFields l c).f x c = x.info.reset % 2 ^ x.width := by
  induction l generalizing s with
  | nil => cases h
  | cons y l ih =>
    by_cases hl : x ∈ l
    · exact ih hl _
    · obtain rfl := (List.mem_cons.mp h).resolve_right hl
      exact (f_clearFields_other hl _ c c).trans (f_setF_self ..)

/-- A context with no live object is freed: its fields are back at reset. -/
theorem destroyed_of_noObjects (h : s.liveSlots = []) (c : Nat) : s.destroyed c = s.clearFields contextFields c := by
  rw [destroyed, h]
  rfl

theorem f_countInval {x : Fld} (hc : x ≠ .XLT_INVALIDATIONS_COUNT) (hw : x ≠ .XLT_COUNTER_WRAP_INV_WRAPPED) (s : State) (i : Inval)
    (k : Nat) : (s.countInval i).f x k = s.f x k :=
  f_bump_of_wrap (c := .XLT_INVALIDATIONS_COUNT) (i := 0) rfl hc hw { s with invals := s.invals.filter (·.id != i.id) } 1 k

/-- The invalidation that a DESTROY has sent completes: it is counted and the context freed. -/
theorem invalDone_frees {i : Inval} (hdestroys : i.destroys = some c) (hdesc : i.desc = none) (hnone : s.liveSlots = []) :
    s.invalDone { i with waitingFor := [] } = (s.countInval { i with waitingFor := [] }).clearFields contextFields c := by
  have hhome : SameHome s (s.countInval { i with waitingFor := [] }) :=
    ⟨bump_fuses .., f_countInval (by decide) (by decide) s _, f_countInval (by decide) (by decide) s _⟩
  have hlive : (s.countInval { i with waitingFor := [] }).liveSlots = [] :=
    (liveSlots_congr hhome (bump_mem ..) (flag_of_f_eq (f_countInval (by decide) (by decide) s _ 0))
      (f_countInval (by decide) (by decide) s _ 0)).trans hnone
  rw [invalDone, hdesc, hdestroys]
  exact destroyed_of_noObjects hlive c

/-! ### The end of an ABORT (R266) -/

theorem ctxStopped_eq (hsettled : s.settleItems = s) (hstate : s.f .CTX_STATUS_STATE c = 3) (hsqs : s.sqsOf c = [])
    (hdescs : ∀ d ∈ s.cp.descs, d.ctx ≠ c) (hreqs : ∀ r ∈ s.fab.reqs, r.ctx ≠ some c ∨ r.status ≠ .waiting)
    (hroom : s.cp.errs.length < 256) : s.ctxStopped c =
      (s.setF .CTX_STATUS_STATE c 4).modCp fun x => { x with errs := x.errs ++ [⟨6, some c, s.time, [s.cp.aborted.get 0 c]⟩] } := by
  have hdone : ¬ (s.ctxState c ≠ 3 ∨ s.sqsOf c ≠ [] ∨ s.cp.descs.any (fun d => d.ctx == c) = true
      ∨ s.fab.reqs.any (fun r => r.ctx == some c && r.status == .waiting) = true) := by
    rintro (h | h | h | h)
    · exact h hstate
    · exact h hsqs
    · obtain ⟨d, hd, hctx⟩ := List.any_eq_true.mp h
      exact hdescs d hd (beq_iff_eq.mp hctx)
    · obtain ⟨r, hr, hwait⟩ := List.any_eq_true.mp h
      obtain ⟨hctx, hstatus⟩ := Bool.and_eq_true_iff.mp hwait
      exact (hreqs r hr).elim (· (beq_iff_eq.mp hctx)) (· (beq_iff_eq.mp hstatus))
  rw [ctxStopped, hsettled]
  exact (if_neg hdone).trans (errRec_of_room (s := s.setF .CTX_STATUS_STATE c 4) hroom ..)

end State

theorem contexts : Clause.Contexts := by
  refine ⟨?_, ?_, ?_, ?_, ?_, ?_⟩
  · intro s c hc hstate
    exact ⟨_, congrArg Host.Outcome.next (if_pos ⟨hc, hstate⟩), s.setState_effect c (by decide)⟩
  · intro s c hc hstate
    exact ⟨_, congrArg Host.Outcome.next (if_pos ⟨hc, hstate⟩), s.setState_effect c (by decide)⟩
  · intro s c bells
    exact ⟨fun h => congrArg Host.Outcome.next (if_neg fun hopen => h hopen.2),
      fun h => congrArg Host.Outcome.next (if_neg fun hlive => h hlive.2),
      fun h => congrArg Host.Outcome.next (if_pos (Or.inr h)),
      fun h1 h4 => congrArg Host.Outcome.next (if_neg fun hd => hd.2.1.elim h1 h4)⟩
  · intro s c hc hstate hnone
    have ht := State.ctxDestroy_eq hc hstate hnone
    have hvariant : (s.cqsOff c).variant = s.variant := State.cqsOff_apply (·.variant) (fun _ _ => rfl) s c
    have hinvals : (s.cqsOff c).invals = s.invals := State.cqsOff_apply (·.invals) (fun _ _ => rfl) s c
    refine ⟨_, _, congrArg Host.Outcome.next ht, (State.sendInval_mem ..).trans (State.cqsOff_apply (·.mem) (fun _ _ => rfl) s c),
      (State.sendInval_invals ..).trans (by rw [hinvals]), rfl, rfl, rfl, ?_, ?_, fun q hq hon => ?_, fun p hp e => ?_⟩
    · exact State.cqsOff_apply (·.participants) (fun _ _ => rfl) s c
    · exact (State.f_sendInval _ _ _ _ _ _ (by decide) (by decide) c).trans
        (State.cqsOff_apply (·.f .CTX_STATUS_STATE c) (fun u q => (u.cqDisabled_fields q).2 _ c (by simp)) s c)
    · rw [State.flag_of_f_eq (State.f_sendInval _ _ _ _ _ _ (by decide) (by decide) q)] at hon
      exact State.enabled_cqsOff hq hon
    · have htile : (s.cqsOff c).tile p = s.tile p := State.cqsOff_apply (·.tile p) (fun _ _ => rfl) s c
      rw [State.mem_xc_sendInval (by rw [hvariant]; exact hp), htile]
      simp [State.tileRemoved]
  · intro s i who c hfirst hbusy hlast hdestroys hdesc hnone
    have ht : s.invalAck i.id who = _ := (State.invalAck_last hfirst hbusy hlast).trans (State.invalDone_frees hdestroys hdesc hnone)
    have hin : ∀ x ∈ State.contextFields, (s.invalAck i.id who).f x c = x.info.reset % 2 ^ x.width := fun x hx => by
      rw [ht, State.f_clearFields hx]
    have hout : ∀ x ∉ State.contextFields, x ≠ .XLT_INVALIDATIONS_COUNT → x ≠ .XLT_COUNTER_WRAP_INV_WRAPPED →
        ∀ k, (s.invalAck i.id who).f x k = s.f x k := fun x hx hc hw k => by
      rw [ht, State.f_clearFields_other hx]
      exact State.f_countInval hc hw s _ k
    have hclear : ∀ x ∈ State.contextFields, x.info.reset % 2 ^ x.width = 0 →
        (s.invalAck i.id who).flag x c = false := fun x hx h0 => by
      rw [State.flag, hin x hx, h0]
      rfl
    have hmem : (s.invalAck i.id who).mem = s.mem := by
      rw [ht, State.clearFields_mem]
      exact State.bump_mem ..
    have htiles : (s.invalAck i.id who).tiles = s.tiles := by
      rw [ht, State.clearFields_tiles]
      exact State.bump_tiles ..
    exact ⟨_, rfl, hmem, htiles, hin _ (by decide), hin _ (by decide), hclear _ (by decide) rfl, hclear _ (by decide) rfl,
      hclear _ (by decide) rfl, fun q => ⟨hout _ (by decide) (by decide) (by decide) q, hout _ (by decide) (by decide) (by decide) q⟩⟩
  · intro s c hsettled hstate hsqs hdescs hreqs hroom
    have ht := State.ctxStopped_eq hsettled hstate hsqs hdescs hreqs hroom
    obtain ⟨-, hbut, hstopped⟩ := s.setState_effect c (v := 4) (by decide)
    exact ⟨_, congrArg Host.Outcome.next ht, rfl, hbut, hstopped, rfl⟩

end Sys2Proof.Machine
end

section
/-!
PROOF. ABORT of a context none of whose items runs (R266, steps 1 and 2).
-/
namespace Sys2Proof.Machine

/-- The fields that show a submission queue stopped or disabled, and the count of error records dropped. -/
def stopFields (q : Nat) : List (Fld × Nat) :=
  (.QUE_SQ_CTRL_ENABLE, q) :: (.QUE_SQ_STATUS_STATE, q) :: withWraps [(.QUE_ERR_DROPPED_COUNT, 0)]

theorem enable_mem_stopFields (q : Nat) : (.QUE_SQ_CTRL_ENABLE, q) ∈ stopFields q := List.mem_cons_self

theorem state_mem_stopFields (q : Nat) : (.QUE_SQ_STATUS_STATE, q) ∈ stopFields q := List.mem_cons_of_mem _ List.mem_cons_self

namespace State

variable {s t u : State} {q n c : Nat} {d e : Desc} {bells : List (Nat × BitVec 32)}

/-! ### Step 1: the producer indices -/

/-- Since `s` queue `q` may have stopped or been disabled, with an error record: no descriptor and no index has changed. -/
structure Stops (s t : State) (q : Nat) : Prop where
  frame : s.onlyCpFields t
  descs : t.cp.descs = s.cp.descs
  sqs : t.cp.sqs = s.cp.sqs
  fields : s.fieldsBut t (stopFields q)

theorem stops_refl (s : State) (q : Nat) : s.Stops s q := ⟨rfl, rfl, rfl, fun _ _ _ => rfl⟩

theorem Stops.trans (h : s.Stops t q) (h' : t.Stops u q) : s.Stops u q :=
  ⟨onlyCpFields_trans h.frame h'.frame, h'.descs.trans h.descs, h'.sqs.trans h.sqs, fieldsBut_trans h.fields h'.fields⟩

theorem stops_errRec (s : State) (q kind : Nat) (ctx : Option Nat) (words : List Nat) : s.Stops (s.errRec kind ctx words) q := by
  have hframe := s.onlyCpFields_errRec kind ctx words
  rw [errRec] at hframe ⊢
  split
  · exact ⟨rfl, rfl, rfl, fun _ _ _ => rfl⟩
  · next hfull =>
    rw [if_neg hfull] at hframe
    refine ⟨hframe, by rw [bump_cp]; rfl, by rw [bump_cp]; rfl, ?_⟩
    exact fieldsBut_trans (fieldsBut_of_fields rfl _) (fieldsBut_bump _ 1 fun x hx =>
      List.mem_cons_of_mem _ (List.mem_cons_of_mem _ hx))

theorem stops_sqStop (s : State) (q cause : Nat) : s.Stops (s.sqStop q cause) q :=
  Stops.trans (t := s.setF .QUE_SQ_STATUS_STATE q 3) ⟨rfl, rfl, rfl, fieldsBut_setF s 3 (state_mem_stopFields q)⟩ (stops_errRec ..)

theorem stops_sqDisable (s : State) (q : Nat) : s.Stops (s.sqDisable q) q := by
  rw [sqDisable]
  split
  · exact stops_refl s q
  · refine ⟨rfl, rfl, rfl, ?_⟩
    exact fieldsBut_trans (fieldsBut_setFlag s false (enable_mem_stopFields q)) (fieldsBut_setF _ _ (state_mem_stopFields q))

theorem stops_latchedDone (s : State) (q : Nat) : s.Stops (s.latchedDone q) q := by
  rw [latchedDone]
  split
  · split
    · exact stops_sqDisable s q
    · exact stops_refl s q
  · exact stops_refl s q

/-- Queue `q` has the producer index `v` latched. -/
def latch (s : State) (q v : Nat) : State :=
  s.modCp fun c => { c with sqs := c.sqs.upd ⟨0, false, none⟩ q fun x => { x with latched := some v } }

/-- The doorbell line of queue `q`, as read again, shows a legal producer index. -/
def BellLegal (s : State) (bells : List (Nat × BitVec 32)) (q : Nat) (v : BitVec 32) : Prop :=
  bells.find? (·.1 == q) = some (q, v) ∧ s.f .QUE_SQ_STATUS_STATE q = 1
    ∧ (v.toNat + 2 ^ 32 - s.f .QUE_SQ_CONSUMER_INDEX q) % 2 ^ 32 ≤ 2 ^ s.f .QUE_SQ_SETUP_SIZE_LOG2 q

theorem abortLatch_of_legal {v : BitVec 32} (h : s.BellLegal bells q v) : s.abortLatch bells q = (s.latch q v.toNat).latchedDone q := by
  obtain ⟨hbell, hrun, hwindow⟩ := h
  rw [abortLatch, hbell]
  dsimp only
  rw [if_neg (by rw [hrun]; decide)]
  exact if_neg (Nat.not_lt.mpr hwindow)

/-- An abort latches a queue's index or not, and then stops the queue or not. -/
theorem abortLatch_cases (s : State) (bells : List (Nat × BitVec 32)) (q : Nat) :
    ∃ u, (u = s ∨ ∃ v, u = s.latch q v) ∧ u.Stops (s.abortLatch bells q) q := by
  rw [abortLatch]
  split
  · exact ⟨s, .inl rfl, (stops_sqStop ..).trans (stops_sqDisable ..)⟩
  · next k v _ =>
    split
    · exact ⟨s, .inl rfl, stops_sqDisable ..⟩
    · split
      · exact ⟨s, .inl rfl, (stops_sqStop ..).trans (stops_sqDisable ..)⟩
      · exact ⟨_, .inr ⟨v.toNat, rfl⟩, stops_latchedDone ..⟩

/-- Since `s` queues of `l` have had their indices latched, or have stopped. -/
structure Latches (s t : State) (l : List Nat) : Prop where
  frame : s.onlyCpFields t
  descs : t.cp.descs = s.cp.descs
  sqs : ∀ k, k ∉ l → t.cp.sqs.get ⟨0, false, none⟩ k = s.cp.sqs.get ⟨0, false, none⟩ k
  fields : s.fieldsBut t (l.flatMap stopFields)

theorem latches_abortLatch (s : State) (bells : List (Nat × BitVec 32)) (q : Nat) : s.Latches (s.abortLatch bells q) [q] := by
  obtain ⟨u, hu, hstops⟩ := s.abortLatch_cases bells q
  have hlatch : s.Latches u [q] := by
    rcases hu with rfl | ⟨v, rfl⟩
    · exact ⟨rfl, rfl, fun _ _ => rfl, fun _ _ _ => rfl⟩
    · exact ⟨rfl, rfl, fun k hk => FMap.get_upd_other ⟨0, false, none⟩ s.cp.sqs (fun x => { x with latched := some v })
        (mt List.mem_singleton.mpr hk), fun _ _ _ => rfl⟩
  refine ⟨onlyCpFields_trans hlatch.frame hstops.frame, hstops.descs.trans hlatch.descs, fun k hk => ?_,
    fieldsBut_trans hlatch.fields (fieldsBut_mono hstops.fields fun x hx => List.mem_flatMap.mpr ⟨q, List.mem_singleton.mpr rfl, hx⟩)⟩
  rw [hstops.sqs, hlatch.sqs k hk]

theorem latched_abortLatch {v : BitVec 32} (h : s.BellLegal bells q v) :
    ((s.abortLatch bells q).cp.sqs.get ⟨0, false, none⟩ q).latched = some v.toNat := by
  rw [abortLatch_of_legal h, (stops_latchedDone ..).sqs]
  exact congrArg SqState.latched (FMap.get_upd_self ⟨0, false, none⟩ s.cp.sqs q fun x => { x with latched := some v.toNat })

theorem Latches.trans {l l' : List Nat} (h : s.Latches t l) (h' : t.Latches u l') : s.Latches u (l ++ l') := by
  refine ⟨onlyCpFields_trans h.frame h'.frame, h'.descs.trans h.descs, fun k hk => ?_, ?_⟩
  · obtain ⟨hl, hl'⟩ := not_or.mp (mt List.mem_append.mpr hk)
    rw [h'.sqs k hl', h.sqs k hl]
  · rw [List.flatMap_append]
    exact fieldsBut_trans (fieldsBut_mono h.fields (List.subset_append_left ..)) (fieldsBut_mono h'.fields (List.subset_append_right ..))

/-- A field that no queue's stopping touches. -/
theorem not_mem_stopFields {x : Fld} {k : Nat} (he : (x, k) ∉ [(Fld.QUE_SQ_CTRL_ENABLE, q), (.QUE_SQ_STATUS_STATE, q)])
    (hd : x ≠ .QUE_ERR_DROPPED_COUNT) (hw : x ≠ .QUE_COUNTER_WRAP_WRAPPED) : (x, k) ∉ stopFields q := by
  simp [stopFields, withWraps, Fld.wrap] at he ⊢
  tauto

/-- What another queue's abort leaves of a queue. -/
theorem BellLegal.of_latches {k : Nat} {v : BitVec 32} (h : s.BellLegal bells q v) (hlatch : s.Latches t [k]) (hne : q ≠ k) :
    t.BellLegal bells q v := by
  obtain ⟨hbell, hrun, hwindow⟩ := h
  have hf : ∀ x, x ≠ .QUE_SQ_CTRL_ENABLE → x ≠ .QUE_ERR_DROPPED_COUNT → x ≠ .QUE_COUNTER_WRAP_WRAPPED → t.f x q = s.f x q :=
    fun x he hd hw => hlatch.fields x q (by simpa using not_mem_stopFields (by simp [he, hne]) hd hw)
  refine ⟨hbell, (hf _ (by decide) (by decide) (by decide)).trans hrun, ?_⟩
  rwa [hf .QUE_SQ_CONSUMER_INDEX (by decide) (by decide) (by decide), hf .QUE_SQ_SETUP_SIZE_LOG2 (by decide) (by decide) (by decide)]

/-- The loop over the queues latches every legal index. -/
theorem latchAll {l : List Nat} (hl : l.Nodup) (s : State) : let t := s.forEach l fun s q => s.abortLatch bells q
    s.Latches t l ∧ ∀ q ∈ l, ∀ v, s.BellLegal bells q v → (t.cp.sqs.get ⟨0, false, none⟩ q).latched = some v.toNat := by
  induction l generalizing s with
  | nil => exact ⟨⟨rfl, rfl, fun _ _ => rfl, fun _ _ _ => rfl⟩, fun q hq => nomatch hq⟩
  | cons k l ih =>
    obtain ⟨hk, hl⟩ := List.nodup_cons.mp hl
    have hhead := latches_abortLatch s bells k
    obtain ⟨hrest, hlatched⟩ := ih hl (s.abortLatch bells k)
    refine ⟨hhead.trans hrest, fun q hq v hv => ?_⟩
    rcases List.mem_cons.mp hq with rfl | hq
    · exact (congrArg SqState.latched (hrest.sqs q hk)).trans (latched_abortLatch hv)
    · exact hlatched q hq v (hv.of_latches hhead fun h => hk (h ▸ hq))

/-! ### Step 2: the items not yet dispatched -/

/-- A descriptor whose items all fail as its context is aborted. -/
def abortedDesc (d : Desc) : Desc := { d with stage := .started, aborted := true }.mapItems (ended (·.fail stCtxAborted))

theorem completed_abortItems (hd : s.desc? q n = some d) (hstage : d.stage = .fetched) (hne : d.items ≠ [])
    (hfresh : ∀ it ∈ d.items, it.stage = .fresh) : s.Completed (s.abortItems q n) (abortedDesc d) := by
  obtain ⟨rfl, rfl⟩ := key_of_desc? hd
  have hd' : (s.modDesc d.q d.n fun d => { d with stage := .started, aborted := true }).desc? d.q d.n =
      some { d with stage := .started, aborted := true } := by
    rw [desc?_modDesc, hd]
    rfl
  rw [abortItems, hd]
  dsimp only
  rw [if_neg (by simp [hstage])]
  refine Completed.of_onlyDesc (d := abortedDesc d) (onlyDesc_modDesc s d.q d.n) (completed_forEach (e := ended (·.fail stCtxAborted))
    (fun _ => rfl) (fun it hit => ?_) (fun u i hi hu => ?_) hd' hne)
  · rw [hfresh it hit]
    decide
  · have hi' : i < d.items.length := hi
    rw [List.getElem?_eq_getElem hi']
    dsimp only
    rw [if_pos (hfresh _ (List.getElem_mem hi'))]
    exact itemEnds_failItem hu rfl i stCtxAborted

/-- A descriptor as the abort of its context leaves it. -/
def abortDone (d : Desc) : Desc := { abortedDesc d with stage := .complete }

/-- A descriptor of which nothing has been dispatched. -/
def Waiting (d : Desc) : Prop := d.stage = .fetched ∧ d.items ≠ [] ∧ ∀ it ∈ d.items, it.stage = .fresh

/-- Since `s` every descriptor named in `l` has completed, its items aborted, and no other. -/
structure AbortsItems (s t : State) (l : List (Nat × Nat)) : Prop where
  frame : s.onlyCpFields t
  sqs : t.cp.sqs = s.cp.sqs
  context : ∀ k, t.f .CTX_STATUS_STATE k = s.f .CTX_STATUS_STATE k
  desc : ∀ q n, t.desc? q n = if (q, n) ∈ l then (s.desc? q n).map abortDone else s.desc? q n

theorem abortsItems_one (hd : s.desc? q n = some d) (hw : Waiting d) : s.AbortsItems (s.abortItems q n) [(q, n)] := by
  have hdone := completed_abortItems hd hw.1 hw.2.1 hw.2.2
  obtain ⟨rfl, rfl⟩ := key_of_desc? hd
  refine ⟨?_, ?_, fun k => hdone.fields _ k ?_, fun q n => ?_⟩
  · rw [onlyCpFields, hdone.frame]
  · rw [hdone.frame]
  · simp [Desc.doneFields, withWraps, Fld.wrap]
  · by_cases hkey : (q, n) = (d.q, d.n)
    · obtain ⟨rfl, rfl⟩ := Prod.mk.inj hkey
      rw [if_pos (List.mem_singleton.mpr rfl), hd]
      exact hdone.desc
    · rw [if_neg (mt List.mem_singleton.mp hkey)]
      exact hdone.others q n hkey

/-- The loop over the descriptors of a context. -/
theorem abortAll {l : List (Nat × Nat)} (hl : l.Nodup) (s : State) (h : ∀ x ∈ l, ∃ d, s.desc? x.1 x.2 = some d ∧ Waiting d) :
    s.AbortsItems (s.forEach l fun s x => s.abortItems x.1 x.2) l := by
  induction l generalizing s with
  | nil => exact ⟨rfl, rfl, fun _ => rfl, fun _ _ => (if_neg List.not_mem_nil).symm⟩
  | cons x l ih =>
    obtain ⟨hx, hl⟩ := List.nodup_cons.mp hl
    obtain ⟨d, hd, hw⟩ := h x List.mem_cons_self
    have hhead := abortsItems_one hd hw
    have hrest := ih hl (s.abortItems x.1 x.2) fun y hy => by
      have hy' : ¬ y ∈ [x] := fun h => hx (List.mem_singleton.mp h ▸ hy)
      obtain ⟨e, he, hwe⟩ := h y (List.mem_cons_of_mem x hy)
      exact ⟨e, by rw [hhead.desc, if_neg hy', he], hwe⟩
    refine ⟨onlyCpFields_trans hhead.frame hrest.frame, hrest.sqs.trans hhead.sqs, fun k => (hrest.context k).trans (hhead.context k),
      fun q n => (hrest.desc q n).trans ?_⟩
    rw [hhead.desc]
    by_cases hkey : (q, n) = x
    · rw [hkey, if_neg hx, if_pos (List.mem_singleton.mpr rfl), if_pos List.mem_cons_self]
    · simp [hkey]

/-! ### Steps 3 and 4 where no item runs -/

/-- No tile runs a kernel or has a launch waiting. -/
def Idle (s : State) : Prop := ∀ p, (s.tile p).seq.kernel = none ∧ (s.tile p).seq.inbox = none

theorem abortInbox_of_idle (h : s.Idle) (c : Nat) : s.abortInbox c = s := by
  rw [abortInbox]
  refine forEach_fixed fun p _ => ?_
  dsimp only
  rw [(h p).1, (h p).2]
  rfl

/-- A die's fault reports of an aborted context are dropped. -/
def dropReports (s : State) (c : Nat) : State :=
  s.forEach (List.range 8) fun s d => s.modDie d fun x => { x with
    faultQueue := x.faultQueue.filter (fun e => e.1.ctx != c), entries := x.entries.filter fun e => e.2.any fun y => y.miss.ctx != c }

theorem dropReports_apply {β : Type} (φ : State → β) (hφ : ∀ u k g, φ (modDie u k g) = φ u) (s : State) (c : Nat) :
    φ (s.dropReports c) = φ s :=
  forEach_apply φ _ fun _ _ => hφ ..

theorem faultQueue_dropReports (s : State) (c : Nat) {k : Nat} (hk : k < 8) :
    ((s.dropReports c).die k).faultQueue = (s.die k).faultQueue.filter fun e => e.1.ctx != c := by
  have hloop := forEach_update (fun u k => (u.die k).faultQueue) (fun l => l.filter fun e => e.1.ctx != c)
    (f := fun s d => s.modDie d fun x => { x with
      faultQueue := x.faultQueue.filter (fun e => e.1.ctx != c), entries := x.entries.filter fun e => e.2.any fun y => y.miss.ctx != c })
    (fun _ _ => congrArg Die.faultQueue (die_modDie_self ..)) (fun _ _ _ hj => congrArg Die.faultQueue (die_modDie_other _ _ hj))
    (List.nodup_range (n := 8)) s k
  exact hloop.trans (if_pos (List.mem_range.mpr hk))

theorem resetRoots_apply {β : Type} (φ : State → β) (hφ : ∀ (u : State) r, φ { u with roots := r } = φ u) (s : State) (c : Nat) :
    φ (s.resetRoots c) = φ s :=
  forEach_apply φ _ fun _ _ => hφ ..

/-! ### The abort -/

/-- The keys of the descriptors of a context. -/
def contextKeys (s : State) (c : Nat) : List (Nat × Nat) := (s.cp.descs.filter fun d => d.ctx == c).map fun d => (d.q, d.n)

/-- The abort of a context begins. -/
def aborting (s : State) (c : Nat) : State := (s.setF .CTX_STATUS_STATE c 3).modCp fun x => { x with aborted := x.aborted.put 0 c 0 }

/-- Steps 1 and 2 of an abort. -/
def abortQueues (s : State) (c : Nat) (bells : List (Nat × BitVec 32)) : State :=
  (s.aborting c).forEach ((s.aborting c).sqsOf c) fun s q => s.abortLatch bells q

def abortDescs (s : State) (c : Nat) : State := s.forEach (s.contextKeys c) fun s x => s.abortItems x.1 x.2

/-- The leads of the gangs that run items of a context. -/
def leads (s : State) (c : Nat) : List Nat :=
  (List.range (104 * s.variant.dies)).filter fun p => (s.tile p).seq.kernel.any fun m => m.job.ctx == c && m.rank == 0

theorem leads_of_idle (h : s.Idle) (c : Nat) : s.leads c = [] :=
  List.filter_eq_nil_iff.mpr fun p _ => by
    rw [(h p).1]
    exact Bool.false_ne_true

theorem ctxAbort_of_idle (hc : c < 64) (hlive : s.f .CTX_STATUS_STATE c = 2) (hidle : ((s.abortQueues c bells).abortDescs c).Idle) :
    s.ctxAbort c bells = (((s.abortQueues c bells).abortDescs c).dropReports c).resetRoots c := by
  have hrun : ¬ (64 ≤ c ∨ s.ctxState c ≠ 2) := fun h => h.elim (Nat.not_le.mpr hc) (absurd hlive)
  have hgo : s.ctxAbort c bells = (let u := (s.abortQueues c bells).abortDescs c
      (((u.forEach (u.leads c) abortGang).abortInbox c).dropReports c).resetRoots c) := by
    rw [ctxAbort, if_neg hrun]
    dsimp only [abortQueues, abortDescs, leads, dropReports, contextKeys, aborting]
  generalize (s.abortQueues c bells).abortDescs c = u at hgo hidle ⊢
  dsimp only at hgo
  rw [hgo, leads_of_idle hidle]
  exact congrArg (fun u => (u.dropReports c).resetRoots c) (abortInbox_of_idle hidle c)

/-- With keys all different, a descriptor is the one found by its key. -/
theorem desc?_of_mem (hkeys : s.descKeys.Nodup) (hd : d ∈ s.cp.descs) : s.desc? d.q d.n = some d := by
  obtain ⟨e, he⟩ := Option.isSome_iff_exists.mp (List.find?_isSome (p := fun x => x.q == d.q && x.n == d.n).mpr ⟨d, hd, by simp⟩)
  obtain ⟨hq, hn⟩ := key_of_desc? he
  have heq : e = d := List.inj_on_of_nodup_map hkeys (List.mem_of_find?_eq_some he) hd (by rw [hq, hn])
  rw [← heq]
  exact heq ▸ he

theorem mem_contextKeys (hkeys : s.descKeys.Nodup) (hd : s.desc? q n = some d) : (q, n) ∈ s.contextKeys c ↔ d.ctx = c := by
  obtain ⟨rfl, rfl⟩ := key_of_desc? hd
  constructor
  · intro h
    obtain ⟨e, he, hkey⟩ := List.mem_map.mp h
    obtain ⟨hmem, hctx⟩ := List.mem_filter.mp he
    have heq : e = d := List.inj_on_of_nodup_map hkeys hmem (List.mem_of_find?_eq_some hd) hkey
    exact heq ▸ beq_iff_eq.mp hctx
  · intro h
    exact List.mem_map.mpr ⟨d, List.mem_filter.mpr ⟨List.mem_of_find?_eq_some hd, beq_iff_eq.mpr h⟩, rfl⟩

theorem contextKeys_nodup (hkeys : s.descKeys.Nodup) : (s.contextKeys c).Nodup :=
  hkeys.sublist (List.filter_sublist.map _)

theorem sqsOf_nodup (s : State) (c : Nat) : (s.sqsOf c).Nodup := List.nodup_range.filter _

theorem f_aborting {x : Fld} (h : x ≠ .CTX_STATUS_STATE) (s : State) (c k : Nat) : (s.aborting c).f x k = s.f x k :=
  f_setF_of_ne h s c 3 k

theorem sqsOf_aborting (s : State) (c : Nat) : (s.aborting c).sqsOf c = s.sqsOf c :=
  List.filter_congr fun q _ => by
    rw [flag_of_f_eq (f_aborting (by decide) s c q), f_aborting (by decide)]

/-- A legal bell is legal as the abort begins. -/
theorem BellLegal.aborting {v : BitVec 32} (h : s.BellLegal bells q v) : (s.aborting c).BellLegal bells q v := by
  obtain ⟨hbell, hrun, hwindow⟩ := h
  refine ⟨hbell, (f_aborting (by decide) s c q).trans hrun, ?_⟩
  rwa [f_aborting (by decide), f_aborting (by decide)]

/-- Step 1: what the queues' part of an abort leaves. -/
theorem latches_abortQueues (s : State) (c : Nat) (bells : List (Nat × BitVec 32)) :
    (s.aborting c).Latches (s.abortQueues c bells) (s.sqsOf c)
      ∧ ∀ q ∈ s.sqsOf c, ∀ v, s.BellLegal bells q v →
        ((s.abortQueues c bells).cp.sqs.get ⟨0, false, none⟩ q).latched = some v.toNat := by
  obtain ⟨hlatch, hlatched⟩ := latchAll (bells := bells) ((s.aborting c).sqsOf_nodup c) (s.aborting c)
  rw [← abortQueues] at hlatch hlatched
  rw [sqsOf_aborting] at hlatch hlatched
  exact ⟨hlatch, fun q hq v hv => hlatched q hq v hv.aborting⟩

theorem context_abortQueues (s : State) (c : Nat) (bells : List (Nat × BitVec 32)) :
    (s.abortQueues c bells).f .CTX_STATUS_STATE c = 3 := by
  refine ((latches_abortQueues s c bells).1.fields _ c fun h => ?_).trans (f_setF_self s .CTX_STATUS_STATE c 3)
  obtain ⟨q, -, hq⟩ := List.mem_flatMap.mp h
  exact not_mem_stopFields (by simp) (by decide) (by decide) hq

/-- Step 2: what the descriptors' part of an abort leaves. -/
theorem abortsItems_abortDescs (hkeys : s.descKeys.Nodup) (hwaiting : ∀ d ∈ s.cp.descs, d.ctx = c → Waiting d) :
    s.AbortsItems (s.abortDescs c) (s.contextKeys c) :=
  abortAll (contextKeys_nodup hkeys) s fun x hx => by
    obtain ⟨d, hd, rfl⟩ := List.mem_map.mp hx
    obtain ⟨hmem, hctx⟩ := List.mem_filter.mp hd
    exact ⟨d, desc?_of_mem hkeys hmem, hwaiting d hmem (beq_iff_eq.mp hctx)⟩

/-- Each item of an aborted descriptor has met the abort, or what it had met before. -/
theorem code_abortDone {i : Nat} {a b : Item} (hfresh : ∀ it ∈ d.items, it.stage = .fresh) (ha : d.items[i]? = some a)
    (hb : (abortDone d).items[i]? = some b) : b.code = if a.code = 0 then stCtxAborted else a.code := by
  have hb' : b = ended (·.fail stCtxAborted) a := by
    have := hb.symm.trans (show (abortDone d).items[i]? = some (ended (·.fail stCtxAborted) a) from
      (List.getElem?_map ..).trans (congrArg (Option.map _) ha))
    exact Option.some.inj this
  rw [hb', ended, Item.fail, if_neg (by rw [hfresh a (List.mem_of_getElem? ha)]; decide)]
  by_cases hcode : a.code = 0
  · rw [if_pos (Or.inl hcode), if_pos hcode]
  · rw [if_neg (by simp [hcode, stCtxAborted]), if_neg hcode]

end State

theorem abortOfWaitingWork : Clause.AbortOfWaitingWork := by
  intro s c bells hc hlive hkeys hwaiting hidle
  obtain ⟨hlatch, hlatched⟩ := s.latches_abortQueues c bells
  have hcontext := s.context_abortQueues c bells
  have hqueues : s.onlyCpFields (s.abortQueues c bells) := State.onlyCpFields_trans (t := s.aborting c) rfl hlatch.frame
  have hdescs : (s.abortQueues c bells).cp.descs = s.cp.descs := hlatch.descs
  generalize hu : s.abortQueues c bells = u at *
  have hkeys' : u.descKeys.Nodup := by rwa [State.descKeys, hdescs]
  have hfind : u.desc? = s.desc? := by
    funext q n
    rw [State.desc?, State.desc?, hdescs]
  have habort := State.abortsItems_abortDescs (c := c) hkeys' (hdescs ▸ hwaiting)
  have hframe := State.onlyCpFields_trans hqueues habort.frame
  have ht := State.ctxAbort_of_idle (bells := bells) hc hlive fun p => by
    rw [hu, State.tile, State.tiles_of_onlyCpFields hframe]
    exact hidle p
  rw [hu] at ht
  generalize u.abortDescs c = v at *
  have hkeep : ∀ {β : Type} (φ : State → β), (∀ (u : State) r, φ { u with roots := r } = φ u) →
      (∀ u k g, φ (State.modDie u k g) = φ u) → φ (s.ctxAbort c bells) = φ v := fun φ hr hd => by
    rw [ht, State.resetRoots_apply φ hr, State.dropReports_apply φ hd]
  have hfind' : (s.ctxAbort c bells).desc? = v.desc? := hkeep (·.desc?) (fun _ _ => rfl) fun _ _ _ => rfl
  have hsqs : (s.ctxAbort c bells).cp.sqs = u.cp.sqs := (hkeep (·.cp.sqs) (fun _ _ => rfl) fun _ _ _ => rfl).trans habort.sqs
  refine ⟨_, rfl, ?_, ?_, fun q hq w hbell hrun hwindow => ?_, fun q n d hd hctx => ?_, fun q n d hd hctx => ?_, fun k x hk hx => ?_⟩
  · exact (hkeep (·.mem) (fun _ _ => rfl) fun _ _ _ => rfl).trans (State.mem_of_onlyCpFields hframe)
  · exact (hkeep (·.f .CTX_STATUS_STATE c) (fun _ _ => rfl) fun _ _ _ => rfl).trans ((habort.context c).trans hcontext)
  · rw [show (s.ctxAbort c bells).cp.sqs = _ from hsqs]
    exact hlatched q hq w ⟨hbell, hrun, hwindow⟩
  · have hfound := hfind ▸ hd
    have hdone := habort.desc q n
    rw [if_pos ((State.mem_contextKeys hkeys' hfound).mpr hctx), hfound] at hdone
    refine ⟨State.abortDone d, hfind' ▸ hdone, rfl, List.length_map _, fun i a b ha hb => ?_⟩
    exact State.code_abortDone (hwaiting d (List.mem_of_find?_eq_some hd) hctx).2.2 ha hb
  · have hfound := hfind ▸ hd
    have hdone := habort.desc q n
    rw [if_neg (mt (State.mem_contextKeys hkeys' hfound).mp hctx), hfound] at hdone
    exact hfind' ▸ hdone
  · have hqueue : ((s.ctxAbort c bells).die k).faultQueue = (v.die k).faultQueue.filter fun e => e.1.ctx != c := by
      rw [ht, State.resetRoots_apply (fun u => (u.die k).faultQueue) (fun _ _ => rfl), State.faultQueue_dropReports v c hk]
    rw [show ((s.ctxAbort c bells).die k).faultQueue = _ from hqueue] at hx
    simpa using (List.mem_filter.mp hx).2

/-- Settles O24: the actions on a context, and the abort of its work. -/
theorem contextLife : Obligations.ContextLife := ⟨contexts, abortOfWaitingWork⟩

end Sys2Proof.Machine
end
